-- ==== Sys2Proof/Word.lean ====
section
/-! DEFINITION. The word types of the package and the taint mask of a register (R79, R266). -/

namespace Sys2Proof

/-- A byte of memory. -/
abbrev Byte := BitVec 8

/-- A scalar, pointer, step or control register (R77). -/
abbrev Word := BitVec 64

/-- An instruction word (R73). -/
abbrev InstrWord := BitVec 32

/-- A vector register or a 128-byte line (R77). -/
abbrev Line := BitVec 1024

/-- A taint mask (R79). `bits` holds one bit for each load tag. `mark` is the moment bit 15 was
written, as the number of loads the thread had issued by then (R266); it is 0 when bit 15 is clear. -/
structure Taint where
  bits : BitVec 16
  mark : Nat
  deriving DecidableEq, Repr

/-- The mask with no dependence. -/
def Taint.none : Taint := ⟨0, 0⟩

/-- The union of two masks; a bit 15 keeps the latest of its moments (R266). -/
def Taint.union (a b : Taint) : Taint := ⟨a.bits ||| b.bits, max a.mark b.mark⟩

end Sys2Proof
end

