-- ==== Sys2Proof/Config.lean ====
section
/-! DEFINITION. What one part or one run fixes and the manual leaves open: free values with no body
(nothing can be proved of their numbers), and the constants of the part that the manual states. -/

namespace Sys2Proof.Config

/-- Which of the agents that could move next does move, at the n-th choice. The manual promises no
order between packets (R306, R307) and none between cores. (DESIGN CHOICE: log entry 3.) -/
opaque choice : Nat → Nat

/-- Cycles of the core clock by which the n-th step of the model moves CYCLE on; none where another agent moves in
the same cycle (R6, R80). (DESIGN CHOICE: log entry 75.) -/
opaque cycles : Nat → Nat

/-- SHA-384 of a byte string (R400, R402). (DESIGN CHOICE: log entry 16.) -/
opaque sha384 : List Byte → BitVec 384

/-- Whether a signature (r, s) over a digest verifies under the key whose digest is given (R400).
(DESIGN CHOICE: log entry 16.) -/
opaque ecdsaVerify : BitVec 384 → BitVec 384 → BitVec 384 → BitVec 384 → Bool

/-- The signature (r, then s) of a digest by the device key (R401, R402). (DESIGN CHOICE: log entry 16.) -/
opaque deviceSign : BitVec 384 → BitVec 768

/-- The public half of the device key, x then y (R401). (DESIGN CHOICE: log entry 16.) -/
opaque deviceKey : BitVec 768

/-- Digest of the Isairaux firmware key held in hub ROM (R400). (DESIGN CHOICE: log entry 16.) -/
opaque firmwareKey : BitVec 384

/-- The least versions of firmware and of configuration that the command carried in a firmware image's body asks for
(R400); the manual does not give its form. (DESIGN CHOICE: log entry 19.) -/
opaque raisedMinima : List Byte → Nat × Nat

/-- The CRC-32 of a flit (R314); the manual does not give its polynomial. (DESIGN CHOICE: log entry 17.) -/
opaque crc32 : List Byte → BitVec 32

/-- Compute-die silicon, hub and assembly revisions of the part (R32). (DESIGN CHOICE: log entry 16.) -/
opaque partRevision : BitVec 24

/-- A word that the manual names no value for, at the n-th such word of a run. (DESIGN CHOICE: log entry 5.) -/
opaque freeWord : Nat → BitVec 64

/-- Which of the four guaranteed minima of good clusters stands on the package label (R32, R33). (DESIGN CHOICE: log
entry 6.) -/
opaque partGrade : Fin 4

/-- Where KSEL places a bound that is a NaN, of a given pattern, among the others' sizes (R223). (DESIGN CHOICE: log
entry 25.) -/
opaque nanPlace : Nat → Int

/-- The superscale that a forwarded slot of blocks under several superscales holds. (DESIGN CHOICE: log entry 24.) -/
opaque mixedSuper : List Nat → BitVec 32

end Sys2Proof.Config
end

