-- ==== Sys2Proof/Machine/Requests.lean ====
section
/-! DEFINITION. The messages that pass between the units of the package: what a step of the opcode
table that is no instruction word acts on. Plain data; nothing here computes. -/

namespace Sys2Proof

/-- Which half of a 64-bit register an access reaches (R438). -/
inductive Half where
  | lo | hi | both
  deriving DecidableEq, Repr

/-- Who makes a register access (R437, R438): a thread slot, a host module or the fabric manager. -/
inductive Agent where
  | slot (q : Nat)
  | host (m : Nat)
  | manager
  deriving DecidableEq, Repr

/-- A write to device register space (R438). `id` names the write of a thread; `level` is 0, 1 or 2 for
T, S, M, and `ctx` the writer's context. -/
structure RegWrite where
  id : Nat
  agent : Agent
  level : Nat
  ctx : Nat
  offset : Nat
  half : Half
  value : Word
  pts : Nat
  deriving DecidableEq, Repr

/-- The transactions of the host die (R440). Addresses are physical. -/
inductive HostOp where
  | read (pa : Nat) (bytes : Nat)
  | write (pa : Nat) (data : List Byte)
  | swap (pa : Nat) (value : Word)
  | cas (pa : Nat) (expected value : Word)
  | add (pa : Nat) (value : Word)
  deriving DecidableEq, Repr

/-- A request of the host die on one module (R440); `number` is its place in the order sent. -/
structure HostReq where
  module : Nat
  number : Nat
  op : HostOp
  deriving DecidableEq, Repr

/-- What a store carries for a registered key range (R218): where the page's summary stands, where in the page its first
byte lies, and the format code of the keys. -/
structure Widen where
  summary : Nat
  byte : Nat
  fmt : Nat
  deriving DecidableEq, Repr

/-- The summary widens that a store of a thread causes, on their way to the slice of the summary (R218):
for each registered range, the channel and the new pattern of each key element it changed, and the acknowledgement that
waits for them. -/
structure WidenReq where
  thread : Nat
  id : Nat
  wts : Nat
  elems : List (Widen × Nat × Nat)
  deriving DecidableEq, Repr

/-- Where the bytes of a store stand that has not left for its home: held for loads or older accesses of its thread (R267),
in a line of its cluster's cache (R263), or out of the cache and behind its thread's older write to the line (R308). -/
inductive DirtyPlace where
  | held | line | leaving
  deriving DecidableEq, Repr

/-- A store on its way to its home (R263). `key` is the model's address of its first byte; `hold` is
the loads that must complete first (R267); `id` names the write; the bytes of a `lost` one were found uncorrectable
(R410); `place` is where they stand. -/
structure WriteReq where
  id : Nat
  thread : Nat
  cluster : Nat
  key : Nat
  va : Word
  data : List Byte
  pts : Nat
  hold : List Nat
  release : Bool
  ordered : Bool
  widen : List Widen
  lost : Bool
  place : DirtyPlace
  deriving DecidableEq, Repr

/-- An atomic (`serial` names the load it is) or a reduction (`serial` is none) at its home (R291).
`fn` is the function code of R290. -/
structure AtomicReq where
  id : Nat
  thread : Nat
  serial : Option Nat
  fn : Nat
  wide : Bool
  signed : Bool
  key : Nat
  va : Word
  b : Word
  t : Word
  hold : List Nat
  pts : Nat
  domain : Bool
  ordered : Bool
  widen : List Widen
  deriving DecidableEq, Repr

/-- A 4-bit store at its home (R294). `high` selects bits [7:4]. -/
structure NibbleReq where
  id : Nat
  thread : Nat
  key : Nat
  va : Word
  widen : List Widen
  high : Bool
  value : BitVec 4
  hold : List Nat
  pts : Nat
  ordered : Bool
  deriving DecidableEq, Repr

/-- What a counter add is made for: a program's or a device's own add, the NOTIFY of a retirement at a place (R60), whose
refusal is recorded (R364), or no add but ABANDONED set in the counter (R44). -/
inductive AddKind where
  | plain
  | notify (place : Nat)
  | abandon
  deriving DecidableEq, Repr

/-- A counter add at the counter's home (R52). `thread` is none for the device's own adds, and
`serial` names the load of a CADDO; `ctx` is the context on whose behalf it is made. -/
structure AddReq where
  id : Nat
  thread : Option Nat
  serial : Option Nat
  key : Nat
  va : Word
  amount : Word
  hold : List Nat
  pts : Nat
  ctx : Nat
  widen : List Widen
  what : AddKind
  deriving DecidableEq, Repr

/-- A counter wait at the counter's home (R53). `due` is the cycle before which a wait that found the home's table
full does not poll again (R359), and 0 for one that has not yet observed its counter. -/
structure WaitReq where
  thread : Nat
  serial : Nat
  key : Nat
  va : Word
  target : Word
  trapAbandoned : Bool
  word : InstrWord
  due : Nat
  deriving DecidableEq, Repr

/-- What a release performs once its waits are met (R271, R288, R370). -/
inductive ReleaseAct where
  | store (w : WriteReq)
  | add (r : AddReq)
  | register (w : RegWrite)
  deriving DecidableEq, Repr

/-- A pending release of a thread: the `num`-th of that thread, at `scope` (R86 coding). The writes it
waits for are those with an identifier below `before`. -/
structure Release where
  thread : Nat
  num : Nat
  before : Nat
  scope : Nat
  act : ReleaseAct
  deriving DecidableEq, Repr

/-- A message of MSEND (R367), of a fault collector (R395) or of the error ring (R413). `queueKind`
is KIND 0b01. -/
structure Msg where
  id : Nat
  ctx : Nat
  sender : BitVec 16
  senderGen : BitVec 16
  thread : Option Nat
  relNum : Nat
  queueKind : Bool
  queue : Nat
  handle : Nat
  slot : Nat
  gen : BitVec 16
  place : BitVec 16
  payload : List Word
  sent : Nat
  heldTime : Nat
  pts : Nat
  deriving DecidableEq, Repr

/-- A circular-buffer instance: the tile, the launch of record, the group and the handle (R63). -/
structure CbKey where
  tile : Nat
  lrec : Nat
  group : Nat
  handle : Nat
  deriving DecidableEq, Repr

/-- What a channel carries from its sending end (R65, R310, R356): a slot or a marker, numbered in the
order sent. -/
inductive ChanItem where
  | slot (number : Nat) (data : List Byte) (pts : Nat)
  | marker (number : Nat)
  deriving DecidableEq, Repr

/-- The entries of a run list (R336). A task carries its descriptor words 0 to 5, its home tile and
its task-pool entry; a launch entry carries the next group, the step to the one after and how many
remain. -/
inductive RunEntry where
  | task (ctx lrec home pool : Nat) (words : List Word) (hops : Nat) (pts : Nat) (stayed : Bool) (passes : Nat)
  | group (ctx lrec g : Nat) (hops : Nat) (stayed : Bool) (passes : Nat)
  | launch (ctx lrec next stride count : Nat) (stayed : Bool) (passes : Nat)
  deriving DecidableEq, Repr

/-- A hop in flight between two clusters (R342). `ahead` is what stood ahead of the entry in its class's list when
it left: a refused hop leaves the entry where it was (R343). -/
structure Hop where
  entry : RunEntry
  source : Nat
  target : Nat
  ahead : List RunEntry
  deriving DecidableEq, Repr

/-- A trap to be delivered (R387, R388). -/
structure Trap where
  cause : BitVec 8
  reason : BitVec 8
  pc : BitVec 57
  word : InstrWord
  tval : Word
  seq : Option (BitVec 12)
  coll : Bool
  deriving DecidableEq, Repr

/-- A fetch request at the combining node (R298). -/
structure CombineReq where
  thread : Nat
  seq : Nat
  tid : Nat
  coord : Nat
  ctx : Nat
  handle : Nat
  tile : Nat
  round : BitVec 32
  deriving DecidableEq, Repr

/-- A trap message on its way to a row collector (R394). `bit` is the core's bit in the bitmap,
`slot` the waiting slot or, with `seq`, the slot whose engine command faulted. -/
structure FaultMsg where
  ctx : Nat
  page : Nat
  kind : Nat
  perm : Bool
  cluster : Nat
  bit : Nat
  thread : Nat
  seq : Option Nat
  tval : Word
  word : InstrWord
  deriving DecidableEq, Repr

/-- A Llynsy flit (R314). -/
structure Flit where
  dst : BitVec 14
  src : BitVec 14
  pkey : BitVec 16
  type : BitVec 4
  path : BitVec 2
  ord : Bool
  tc : BitVec 2
  hops : BitVec 3
  vclass : BitVec 2
  len : Nat
  addr : BitVec 52
  payload : List Word
  tag : BitVec 32
  crc : BitVec 32
  deriving DecidableEq, Repr

/-- What an error is found in: the unit class of R413, the unit's index, its die, and the home it
strikes. -/
structure ErrorSite where
  unit : Nat
  index : Nat
  die : Nat
  cluster : Option Nat
  key : Option Nat
  consumer : Option Nat
  scrub : Bool
  deriving DecidableEq, Repr

/-- An item a lockstep pair compares (R422), with the PC of its instruction: a retirement (kind 0: the word, the registers
that it changed and the flags), a store or an engine write (1: home, size and data) or a coprocessor word (2: the word,
VALA and VALB). -/
structure LockItem where
  kind : Nat
  pc : BitVec 57
  values : List Word
  deriving DecidableEq, Repr

end Sys2Proof
end

