-- ==== Sys2Proof/Machine/Events.lean ====
section
/-! DEFINITION. The steps that are due, as the state holds them: one constructor for each row of the opcode
table that is no instruction word, with the operands of the constructor of `Instr` of the same name. -/

namespace Sys2Proof

/-- A step of the package that is no instruction word. (DESIGN CHOICE: log entry 86.) -/
inductive Event where
  /-- POWER_ON (R443). -/
  | powerOn
  /-- PACKAGE_RESET (R444). -/
  | packageReset
  /-- BOOT_STAGE (R443). -/
  | bootStage (n : Nat)
  /-- REGISTER_WRITE (R438). -/
  | registerWrite (r : RegWrite)
  /-- HOST_REQUEST (R440). -/
  | hostRequest (r : HostReq)
  /-- UCIE_LINK_DOWN (R439). -/
  | ucieLinkDown (m : Nat)
  /-- DOORBELL (R351). -/
  | doorbell (n : Nat) (t : BitVec 32) (pts : Nat)
  /-- LAUNCH_ADMISSION (R351). -/
  | launchAdmission (n : Nat)
  /-- QUEUE_CONTROL_WRITE (R350). -/
  | queueControlWrite (n : Nat) (v : Word) (half : Half) (level : Nat)
  /-- QUEUE_RESET (R354). -/
  | queueReset (n : Nat)
  /-- TT_SLOT_START (R353). -/
  | ttSlotStart (k : Nat)
  /-- TT_CLOCK_STEP (R353). -/
  | ttClockStep (t : Nat)
  /-- LAUNCH_COMPLETION (R47). -/
  | launchCompletion (l : Nat)
  /-- PRESSURE_PUBLISH (R337). -/
  | pressurePublish (c : Nat)
  /-- DISTANCE_RECOMPUTE (R339). -/
  | distanceRecompute (c : Nat)
  /-- PEER_REPORT (R346). -/
  | peerReport (x : Nat) (i : Nat) (d : Nat) (c : Nat)
  /-- GRCTL_WRITE (R345). -/
  | grctlWrite (x : Nat) (v : Word)
  /-- HOP_ACCEPT (R342). -/
  | hopAccept (h : Hop)
  /-- DISPATCH_DECISION (R347). -/
  | dispatchDecision (t : Nat)
  /-- HANDLER_START (R40). -/
  | handlerStart (x : Nat) (n : Nat)
  /-- COUNTER_ADD_AT_HOME (R52). -/
  | counterAddAtHome (r : AddReq)
  /-- COUNTER_WAIT_AT_HOME (R359). -/
  | counterWaitAtHome (r : WaitReq)
  /-- COUNTER_WAIT_POLL (R359). -/
  | counterWaitPoll (r : WaitReq)
  /-- SPAWN_POOL_RELEASE (R361). -/
  | spawnPoolRelease (t : Nat)
  /-- RETIREMENT (R60). -/
  | retirement (q : Nat)
  /-- MESSAGE_DELIVERY (R368). -/
  | messageDelivery (m : Msg)
  /-- MESSAGE_EXPIRY (R37). -/
  | messageExpiry (m : Msg)
  /-- CB_PERMIT (R64). -/
  | cbPermit (q : Nat) (n : Nat)
  /-- CB_FILL_COMPLETE (R64). -/
  | cbFillComplete (k : CbKey) (n : Nat)
  /-- CHANNEL_SLOT_ARRIVAL (R310). -/
  | channelSlotArrival (k : CbKey) (x : ChanItem)
  /-- CHANNEL_CREDIT_ARRIVAL (R65). -/
  | channelCreditArrival (k : CbKey) (n : Nat)
  /-- ENGINE_CAPTURE (R90). -/
  | engineCapture (q : Nat) (n : Nat)
  /-- ENGINE_RESULT_PHASE (R90). -/
  | engineResultPhase (q : Nat) (n : Nat)
  /-- ENGINE_DONE (R90). -/
  | engineDone (q : Nat) (n : Nat)
  /-- ENGINE_FAULT (R430). -/
  | engineFault (q : Nat) (n : Nat) (cause : BitVec 8) (reason : BitVec 8) (tval : Word)
  /-- TRAP_DELIVERY (R389). -/
  | trapDelivery (q : Nat) (t : Trap)
  /-- WALK_CONTEXT_GRANT (R230). -/
  | walkContextGrant (c : Nat)
  /-- COMBINING_REQUEST (R299). -/
  | combiningRequest (r : CombineReq)
  /-- LOAD_COMPLETION (R265). -/
  | loadCompletion (q : Nat) (n : Nat)
  /-- SLICE_READ (R261). -/
  | sliceRead (q : Nat) (n : Nat)
  /-- SLICE_WRITE (R261). -/
  | sliceWrite (w : WriteReq)
  /-- HOME_ATOMIC (R291). -/
  | homeAtomic (r : AtomicReq)
  /-- HOME_REDUCTION (R282). -/
  | homeReduction (r : AtomicReq)
  /-- NIBBLE_STORE_AT_HOME (R281). -/
  | nibbleStoreAtHome (r : NibbleReq)
  /-- SUMMARY_WIDEN (R218). -/
  | summaryWiden (r : WidenReq)
  /-- WRITE_ACK (R325). -/
  | writeAck (q : Nat) (id : Nat) (wts : Nat)
  /-- NAK_RECEIVED (R285). -/
  | nakReceived (tag : Nat) (reason : Nat)
  /-- ACK_TIMEOUT (R325). -/
  | ackTimeout (tag : Nat)
  /-- DIRTY_DRAIN_TIMEOUT (R263). -/
  | dirtyDrainTimeout (id : Nat)
  /-- PTS_TICK (R262). -/
  | ptsTick
  /-- RELEASE_COMPLETE (R271). -/
  | releaseComplete (r : Release)
  /-- BANKCTL_WRITE (R257). -/
  | bankctlWrite (c : Nat) (b : Nat) (v : Word) (level : Nat) (ctx : Nat)
  /-- BANK_SWITCH_COMPLETE (R257). -/
  | bankSwitchComplete (c : Nat) (b : Nat)
  /-- CCDRAIN (R255). -/
  | ccdrain (c : Nat)
  /-- ESCAPE_TIMEOUT (R309). -/
  | escapeTimeout (n : Nat)
  /-- FLIT_RECEIVE (R318). -/
  | flitReceive (p : Nat) (seq : Nat) (f : Flit)
  /-- LINK_REPLAY (R315). -/
  | linkReplay (p : Nat) (n : Nat)
  /-- PORT_FAILURE (R326). -/
  | portFailure (p : Nat) (cause : Nat)
  /-- EXCLUSION_PACKET (R326). -/
  | exclusionPacket (node : Nat) (id : Nat) (path : Nat) (dests : List Nat)
  /-- PORT_UP (R432). -/
  | portUp (p : Nat) (node : BitVec 14) (port : BitVec 6)
  /-- ROUTING_ENTRY_WRITE (R319). -/
  | routingEntryWrite (t : Nat) (b : Nat) (n : Nat) (v : BitVec 32)
  /-- ROUTING_SWAP (R320). -/
  | routingSwap (t : Nat)
  /-- ROUTING_SWAP_COMPLETE (R320). -/
  | routingSwapComplete (t : Nat)
  /-- RWIN_WRITE (R328). -/
  | rwinWrite (w : Nat) (i : Nat) (v : Word) (half : Half) (level : Nat) (ctx : Nat)
  /-- REDUCE_PACKET_AT_PORT (R329). -/
  | reducePacketAtPort (p : Nat × Nat) (f : Flit)
  /-- REDUCTION_HOLD_EXPIRY (R329). -/
  | reductionHoldExpiry (p : Nat) (n : Nat)
  /-- PROXY_ATOMIC (R332). -/
  | proxyAtomic (d : Nat) (k : Nat)
  /-- MANAGEMENT_PACKET (R335). -/
  | managementPacket (p : Nat) (f : Flit)
  /-- NOTICE_RESEND (R433). -/
  | noticeResend (n : Nat)
  /-- FNACK_WRITE (R433). -/
  | fnackWrite (n : BitVec 16)
  /-- CCTL_WRITE (R380). -/
  | cctlWrite (x : Nat) (v : Word) (half : Half) (level : Nat)
  /-- CALD_WRITE (R381). -/
  | caldWrite (x : Nat) (i : Nat) (v : Word) (half : Half)
  /-- TRANSLATION_WALK (R393). -/
  | translationWalk (c : Nat) (x : Nat) (va : BitVec 57)
  /-- TRAP_MESSAGE_AT_COLLECTOR (R395). -/
  | trapMessageAtCollector (m : FaultMsg)
  /-- FRES_RETRY (R396). -/
  | fresRetry (d : Nat) (r : Nat) (x : Nat) (id : Nat)
  /-- FRES_FAIL (R396). -/
  | fresFail (d : Nat) (r : Nat) (x : Nat) (id : Nat)
  /-- ATTEST_GO (R402). -/
  | attestGo (x : Nat)
  /-- ATTEST_REPORT_DONE (R402). -/
  | attestReportDone (x : Nat)
  /-- CORRECTABLE_ERROR (R409). -/
  | correctableError (e : ErrorSite)
  /-- UNCORRECTABLE_ERROR (R410). -/
  | uncorrectableError (e : ErrorSite)
  /-- SCRUB_PASS (R412). -/
  | scrubPass (key : Nat)
  /-- ERRHEAL (R412). -/
  | errheal (v : Word)
  /-- FCMD_FENCE (R416). -/
  | fcmdFence (x : Nat) (i : Nat)
  /-- FCMD_RESTART (R420). -/
  | fcmdRestart (x : Nat) (i : Nat)
  /-- CALDERA_FENCE (R417). -/
  | calderaFence (x : Nat) (i : Nat) (kind : Nat)
  /-- CLUSTER_FENCE (R419). -/
  | clusterFence (c : Nat)
  /-- LOCKSTEP_COMPARE (R422). -/
  | lockstepCompare (q : Nat)
  /-- SHADOW_COMMIT (R424). -/
  | shadowCommit (x : Nat)
  /-- THERMAL_STEP (R445). -/
  | thermalStep (d : Nat) (temp : Nat)
  /-- POWER_LIMIT_WINDOW (R29). -/
  | powerLimitWindow (pkg : Nat) (dies : List Nat)
  /-- LIFE_UPDATE (R436). -/
  | lifeUpdate (temps : List Nat) (volts : List Nat)
  /-- RETENTION_ENTRY (R434). -/
  | retentionEntry (k : Nat)
  /-- ILLEGAL_INSTRUCTION (R75). -/
  | illegalInstruction (w : InstrWord)
  /-- WALKER_ILLEGAL_WORD (R236). -/
  | walkerIllegalWord (w : InstrWord)
  /-- UCIE_LINK_UP (R439). -/
  | ucieLinkUp (m : Nat)
  /-- THERMAL_RESET_TRIP (R445). -/
  | thermalResetTrip (d : Nat)
  /-- SERVO_LOCK_CHANGE (R353). -/
  | servoLockChange (on : Bool)
  deriving DecidableEq, Repr

end Sys2Proof
end

