-- ==== Sys2Proof/Machine/Store.lean ====
section
/-! DEFINITION. Two kinds of plain-data map: `Store`, a list of numbered entries in rising order for
the units of the package (a number not listed holds the unit's default), and `Memory`, the bytes of
every memory of the package in the one canonical form (rising addresses, no zero byte listed). -/

namespace Sys2Proof

/-- Numbered entries in rising order. -/
abbrev Store (α : Type) := List (Nat × α)

namespace Machine

/-- The entry numbered k, or the default d. -/
def getAt {α : Type} (d : α) : Store α → Nat → α
  | [], _ => d
  | (a, x) :: t, k => if k = a then x else getAt d t k

/-- The entry numbered k, where one is listed. -/
def findAt {α : Type} : Store α → Nat → Option α
  | [], _ => none
  | (a, x) :: t, k => if k = a then some x else findAt t k

/-- The map with entry k set to v. -/
def putAt {α : Type} : Store α → Nat → α → Store α
  | [], k, v => [(k, v)]
  | (a, x) :: t, k, v =>
    if k < a then (k, v) :: (a, x) :: t
    else if k = a then (k, v) :: t
    else (a, x) :: putAt t k v

/-- The map with no entry k. -/
def delAt {α : Type} (m : Store α) (k : Nat) : Store α := m.filter fun c => c.1 ≠ k

/-- The bytes of memory (R3): an address not listed holds zero. -/
abbrev Memory := List Host.Cell

/-- The byte at an address of the model's address space. (DESIGN CHOICE: log entry 2.) -/
def Memory.read : Memory → Nat → Byte
  | [], _ => 0
  | (a, x) :: t, k => if k = a then x else Memory.read t k

/-- Whether every listed address is above `lo` and rising, and no listed byte is zero. -/
def Memory.wfFrom : Nat → Memory → Bool
  | _, [] => true
  | lo, (a, x) :: t => decide (lo ≤ a) && x != 0 && Memory.wfFrom (a + 1) t

/-- The canonical form of memory: addresses strictly rising, no entry equal to what an unlisted
address reads as. -/
def Memory.wf (m : Memory) : Bool := Memory.wfFrom 0 m

/-- Memory with the entry of address k removed. (DESIGN CHOICE: log entry 2.) -/
def Memory.erase : Memory → Nat → Memory
  | [], _ => []
  | (a, x) :: t, k => if k = a then Memory.erase t k else (a, x) :: Memory.erase t k

/-- Memory with the byte at an address set. (DESIGN CHOICE: log entry 2.) -/
def Memory.write (m : Memory) (k : Nat) (v : Byte) : Memory :=
  if v = 0 then m.erase k else putAt (m.erase k) k v

/-- n bytes from an address up. -/
def Memory.readBytes (m : Memory) (k : Nat) : Nat → List Byte
  | 0 => []
  | n + 1 => m.read k :: m.readBytes (k + 1) n

/-- Memory with a run of bytes set from an address up. -/
def Memory.writeBytes (m : Memory) (k : Nat) : List Byte → Memory
  | [] => m
  | b :: bs => (m.write k b).writeBytes (k + 1) bs

/-- Memory with every address in [lo, lo + n) zero. -/
def Memory.zeroRange (m : Memory) (lo n : Nat) : Memory :=
  m.filter fun c => c.1 < lo || lo + n ≤ c.1

/-- Bytes in little-endian order, as a number (R3). -/
def leNat : List Byte → Nat
  | [] => 0
  | b :: bs => b.toNat + 256 * leNat bs

/-- The n low bytes of a number in little-endian order (R3). -/
def natBytes (x : Nat) : Nat → List Byte
  | 0 => []
  | n + 1 => BitVec.ofNat 8 x :: natBytes (x / 256) n

/-- The eight bytes of a word in little-endian order. -/
def wordBytes (w : Word) : List Byte := natBytes w.toNat 8

/-- The word that starts at an address. -/
def Memory.word (m : Memory) (k : Nat) : Word := BitVec.ofNat 64 (leNat (m.readBytes k 8))

/-- n words from an address up. -/
def Memory.words (m : Memory) (k n : Nat) : List Word := (List.range n).map fun i => m.word (k + 8 * i)

/-- A list cut in pieces of n, at most `fuel` of them. -/
def chunks {α : Type} (n : Nat) : Nat → List α → List (List α)
  | 0, _ => []
  | f + 1, l => if l.isEmpty then [] else l.take n :: chunks n f (l.drop n)

/-- The lowest number from k up that no entry has, in a map in rising order. -/
def lowestFree {α : Type} (k : Nat) : Store α → Nat
  | [] => k
  | (a, _) :: t => if a = k then lowestFree (k + 1) t else if a < k then lowestFree k t else k

end Machine

end Sys2Proof
end

