-- ==== Sys2Proof/Syntax.lean ====
section
/-! DEFINITION. The instructions: one constructor for each row of the opcode table. The 187 words of
the Tvedpen cores come first in each group as the table orders them, with their operand fields as the
table names them; the 28 words of the format walker follow; the rows that are no word (the steps the
units of the package take by themselves or on a message) carry the message they act on. -/

namespace Sys2Proof

/-- The instructions and steps of the part, in the order of the opcode table. -/
inductive Instr where
  /-- ADD (R149). Adds two scalar registers modulo 2^64. -/
  | add (d : BitVec 5) (a : BitVec 5) (b : BitVec 5)
  /-- SUB (R149). Subtracts rb from ra modulo 2^64. -/
  | sub (d : BitVec 5) (a : BitVec 5) (b : BitVec 5)
  /-- MUL (R149). Low 64 bits of the product. -/
  | mul (d : BitVec 5) (a : BitVec 5) (b : BitVec 5)
  /-- MULH_S64 (R149). High 64 bits of the signed 128-bit product. -/
  | mulhS64 (d : BitVec 5) (a : BitVec 5) (b : BitVec 5)
  /-- MULH_Z64 (R149). High 64 bits of the unsigned 128-bit product. -/
  | mulhZ64 (d : BitVec 5) (a : BitVec 5) (b : BitVec 5)
  /-- DIV_S64 (R150). Signed division with fixed results for zero divisor and overflow. -/
  | divS64 (d : BitVec 5) (a : BitVec 5) (b : BitVec 5)
  /-- DIV_Z64 (R150). Unsigned division; zero divisor gives all ones. -/
  | divZ64 (d : BitVec 5) (a : BitVec 5) (b : BitVec 5)
  /-- REM_S64 (R150). Signed remainder with the sign of the dividend. -/
  | remS64 (d : BitVec 5) (a : BitVec 5) (b : BitVec 5)
  /-- REM_Z64 (R150). Unsigned remainder; zero divisor returns the dividend. -/
  | remZ64 (d : BitVec 5) (a : BitVec 5) (b : BitVec 5)
  /-- AND (R149). Bitwise AND of two registers. -/
  | and (d : BitVec 5) (a : BitVec 5) (b : BitVec 5)
  /-- OR (R149). Bitwise OR of two registers. -/
  | or (d : BitVec 5) (a : BitVec 5) (b : BitVec 5)
  /-- XOR (R149). Bitwise XOR of two registers. -/
  | xor (d : BitVec 5) (a : BitVec 5) (b : BitVec 5)
  /-- SHL (R149). Left shift by rb[5:0]. -/
  | shl (d : BitVec 5) (a : BitVec 5) (b : BitVec 5)
  /-- SHR_Z64 (R149). Logical right shift by rb[5:0]. -/
  | shrZ64 (d : BitVec 5) (a : BitVec 5) (b : BitVec 5)
  /-- SHR_S64 (R149). Arithmetic right shift by rb[5:0]. -/
  | shrS64 (d : BitVec 5) (a : BitVec 5) (b : BitVec 5)
  /-- MIN_S64 (R149). Signed minimum. -/
  | minS64 (d : BitVec 5) (a : BitVec 5) (b : BitVec 5)
  /-- MAX_S64 (R149). Signed maximum. -/
  | maxS64 (d : BitVec 5) (a : BitVec 5) (b : BitVec 5)
  /-- SLT_S64 (R149). Sets 1 if ra is signed-less than rb. -/
  | sltS64 (d : BitVec 5) (a : BitVec 5) (b : BitVec 5)
  /-- SLT_Z64 (R149). Sets 1 if ra is unsigned-less than rb. -/
  | sltZ64 (d : BitVec 5) (a : BitVec 5) (b : BitVec 5)
  /-- SEQ (R149). Sets 1 if the registers are equal. -/
  | seq (d : BitVec 5) (a : BitVec 5) (b : BitVec 5)
  /-- CLZ (R149). Counts leading zero bits. -/
  | clz (d : BitVec 5) (a : BitVec 5)
  /-- POPC (R149). Counts one bits. -/
  | popc (d : BitVec 5) (a : BitVec 5)
  /-- SEL (R149). Selects ra or rb by rc, with the union of all three masks. -/
  | sel (d : BitVec 5) (a : BitVec 5) (b : BitVec 5) (c : BitVec 5)
  /-- MADD (R149). Multiply-add modulo 2^64. -/
  | madd (d : BitVec 5) (a : BitVec 5) (b : BitVec 5) (c : BitVec 5)
  /-- EXT (R149). Sign- or zero-extends the low N bits. -/
  | ext (d : BitVec 5) (a : BitVec 5) (t : BitVec 3)
  /-- ADDI (R151). Adds a signed 16-bit immediate. -/
  | addi (d : BitVec 5) (a : BitVec 5) (i : BitVec 16)
  /-- ANDI (R151). ANDs a zero-extended immediate. -/
  | andi (d : BitVec 5) (a : BitVec 5) (i : BitVec 16)
  /-- ORI (R151). ORs a zero-extended immediate. -/
  | ori (d : BitVec 5) (a : BitVec 5) (i : BitVec 16)
  /-- XORI (R151). XORs a zero-extended immediate. -/
  | xori (d : BitVec 5) (a : BitVec 5) (i : BitVec 16)
  /-- SHLI (R151). Left shift by an immediate amount. -/
  | shli (d : BitVec 5) (a : BitVec 5) (k : BitVec 6)
  /-- SHRI_Z64 (R151). Logical right shift by an immediate amount. -/
  | shriZ64 (d : BitVec 5) (a : BitVec 5) (k : BitVec 6)
  /-- SHRI_S64 (R151). Arithmetic right shift by an immediate amount. -/
  | shriS64 (d : BitVec 5) (a : BitVec 5) (k : BitVec 6)
  /-- SLTI_S64 (R151). Sets 1 if ra is signed-less than the immediate. -/
  | sltiS64 (d : BitVec 5) (a : BitVec 5) (i : BitVec 16)
  /-- LI (R151). Loads a sign-extended 21-bit immediate. -/
  | li (d : BitVec 5) (i : BitVec 21)
  /-- LSI (R151). Shifts rd left 16 and ORs a 16-bit immediate. -/
  | lsi (d : BitVec 5) (i : BitVec 16)
  /-- PSET (R152). Sets a pointer register from a scalar. -/
  | pset (p : BitVec 3) (a : BitVec 5)
  /-- PSTEP (R152). Sets a pointer's step register. -/
  | pstep (p : BitVec 3) (a : BitVec 5)
  /-- PGET (R152). Copies a pointer register to a scalar. -/
  | pget (d : BitVec 5) (p : BitVec 3)
  /-- PADD (R152). Adds a scalar to a pointer register. -/
  | padd (p : BitVec 3) (a : BitVec 5)
  /-- CRRD (R154). Reads a control register. -/
  | crrd (d : BitVec 5) (c : BitVec 12)
  /-- CRWR (R154). Writes the RW fields of a control register. -/
  | crwr (a : BitVec 5) (c : BitVec 12)
  /-- CRSET (R154). Sets control-register bits in one step. -/
  | crset (a : BitVec 5) (c : BitVec 12)
  /-- CRCLR (R154). Clears control-register bits in one step. -/
  | crclr (a : BitVec 5) (c : BitVec 12)
  /-- FADD (R156). FP32 addition in the dynamic mode. -/
  | fadd (d : BitVec 5) (a : BitVec 5) (b : BitVec 5)
  /-- FSUB (R156). FP32 subtraction. -/
  | fsub (d : BitVec 5) (a : BitVec 5) (b : BitVec 5)
  /-- FMUL (R156). FP32 multiplication. -/
  | fmul (d : BitVec 5) (a : BitVec 5) (b : BitVec 5)
  /-- FDIV (R156). FP32 division. -/
  | fdiv (d : BitVec 5) (a : BitVec 5) (b : BitVec 5)
  /-- FMIN (R156). FP32 minimum per R137. -/
  | fmin (d : BitVec 5) (a : BitVec 5) (b : BitVec 5)
  /-- FMAX (R156). FP32 maximum per R137. -/
  | fmax (d : BitVec 5) (a : BitVec 5) (b : BitVec 5)
  /-- FEQ (R156). FP32 equality compare. -/
  | feq (d : BitVec 5) (a : BitVec 5) (b : BitVec 5)
  /-- FLT (R156). FP32 less-than compare. -/
  | flt (d : BitVec 5) (a : BitVec 5) (b : BitVec 5)
  /-- FLE (R156). FP32 less-or-equal compare. -/
  | fle (d : BitVec 5) (a : BitVec 5) (b : BitVec 5)
  /-- FMA (R156). FP32 fused multiply-add with one rounding. -/
  | fma (d : BitVec 5) (a : BitVec 5) (b : BitVec 5) (c : BitVec 5)
  /-- FSQRT (R156). FP32 square root. -/
  | fsqrt (d : BitVec 5) (a : BitVec 5)
  /-- FABS (R156). Clears the FP32 sign bit. -/
  | fabs (d : BitVec 5) (a : BitVec 5)
  /-- FCVT_S64 (R156). Converts FP32 to a signed 64-bit integer. -/
  | fcvtS64 (d : BitVec 5) (a : BitVec 5)
  /-- FCVTI_S64 (R156). Converts a signed 64-bit integer to FP32. -/
  | fcvtiS64 (d : BitVec 5) (a : BitVec 5)
  /-- FXSD (R157). Decodes an xs8 scale byte to FP32. -/
  | fxsd (d : BitVec 5) (a : BitVec 5)
  /-- FXSE (R157). Encodes FP32 as an xs8 scale byte. -/
  | fxse (d : BitVec 5) (a : BitVec 5)
  /-- BEQ (R158). Branches if equal; ORs masks into ctm. -/
  | beq (a : BitVec 5) (b : BitVec 5) (o : BitVec 16)
  /-- BNE (R158). Branches if not equal. -/
  | bne (a : BitVec 5) (b : BitVec 5) (o : BitVec 16)
  /-- BLT_S64 (R158). Branches if signed less. -/
  | bltS64 (a : BitVec 5) (b : BitVec 5) (o : BitVec 16)
  /-- BGE_S64 (R158). Branches if signed greater or equal. -/
  | bgeS64 (a : BitVec 5) (b : BitVec 5) (o : BitVec 16)
  /-- BLT_Z64 (R158). Branches if unsigned less. -/
  | bltZ64 (a : BitVec 5) (b : BitVec 5) (o : BitVec 16)
  /-- BGE_Z64 (R158). Branches if unsigned greater or equal. -/
  | bgeZ64 (a : BitVec 5) (b : BitVec 5) (o : BitVec 16)
  /-- JAL (R159). Jumps PC-relative and writes the return address to s31. -/
  | jal (o : BitVec 26)
  /-- JR (R159). Jumps to the address in ra. -/
  | jr (a : BitVec 5)
  /-- JALR (R159). Jumps to ra and writes the return address to rd. -/
  | jalr (d : BitVec 5) (a : BitVec 5)
  /-- REP (R162). Replays the next n words count times with register renumbering. -/
  | rep (s : BitVec 5) (c : BitVec 5) (n : BitVec 4) (k : BitVec 8)
  /-- LD (R286). Scalar load with extension. -/
  | ld (t : BitVec 5) (a : BitVec 5) (y : BitVec 3) (o : BitVec 12)
  /-- ST (R286). Scalar store of the low N bits. -/
  | st (t : BitVec 5) (a : BitVec 5) (y : BitVec 3) (o : BitVec 12)
  /-- LDP (R286). Pointer-addressed scalar load. -/
  | ldp (t : BitVec 5) (p : BitVec 3) (y : BitVec 3) (o : BitVec 12)
  /-- LDPI (R286). Pointer-addressed load with post-increment. -/
  | ldpi (t : BitVec 5) (p : BitVec 3) (y : BitVec 3)
  /-- STP (R286). Pointer-addressed scalar store. -/
  | stp (t : BitVec 5) (p : BitVec 3) (y : BitVec 3) (o : BitVec 12)
  /-- STPI (R286). Pointer-addressed store with post-increment. -/
  | stpi (t : BitVec 5) (p : BitVec 3) (y : BitVec 3)
  /-- VLD (R287). Loads 128 bytes into a vector register. -/
  | vld (v : BitVec 5) (a : BitVec 5) (o : BitVec 12)
  /-- VST (R287). Stores a vector register as 128 bytes. -/
  | vst (v : BitVec 5) (a : BitVec 5) (o : BitVec 12)
  /-- VLDP (R287). Pointer vector load with post-increment. -/
  | vldp (v : BitVec 5) (p : BitVec 3) (o : BitVec 12)
  /-- VSTP (R287). Pointer vector store with post-increment. -/
  | vstp (v : BitVec 5) (p : BitVec 3) (o : BitVec 12)
  /-- LDA (R288). Load performed as an acquire at a scope. -/
  | lda (t : BitVec 5) (a : BitVec 5) (s : BitVec 3) (y : BitVec 3)
  /-- STL (R288). Release at a scope whose own write is a store. -/
  | stl (t : BitVec 5) (a : BitVec 5) (s : BitVec 3) (y : BitVec 3)
  /-- FENCE (R288). Release followed by acquire at a scope. -/
  | fence (s : BitVec 3)
  /-- TCLR (R289). Clears a scalar register's taint mask. -/
  | tclr (d : BitVec 5)
  /-- TDEP (R289). Adds ra's mask to rd's mask. -/
  | tdep (d : BitVec 5) (a : BitVec 5)
  /-- VTCLR (R289). Clears a vector register's taint mask. -/
  | vtclr (d : BitVec 5)
  /-- VTDEP (R289). Adds va's mask to vd's mask. -/
  | vtdep (d : BitVec 5) (a : BitVec 5)
  /-- ASWAP (R291). Atomic swap at the home. -/
  | aswap (t : BitVec 5) (a : BitVec 5) (b : BitVec 5) (s : BitVec 3) (w : BitVec 1)
  /-- ACAS (R291). Atomic compare-and-swap at the home. -/
  | acas (t : BitVec 5) (a : BitVec 5) (b : BitVec 5) (s : BitVec 3) (w : BitVec 1)
  /-- AADD (R291). Atomic add returning the old value. -/
  | aadd (t : BitVec 5) (a : BitVec 5) (b : BitVec 5) (s : BitVec 3) (w : BitVec 1)
  /-- AAND (R291). Atomic AND returning the old value. -/
  | aand (t : BitVec 5) (a : BitVec 5) (b : BitVec 5) (s : BitVec 3) (w : BitVec 1)
  /-- AOR (R291). Atomic OR returning the old value. -/
  | aor (t : BitVec 5) (a : BitVec 5) (b : BitVec 5) (s : BitVec 3) (w : BitVec 1)
  /-- AXOR (R291). Atomic XOR returning the old value. -/
  | axor (t : BitVec 5) (a : BitVec 5) (b : BitVec 5) (s : BitVec 3) (w : BitVec 1)
  /-- AMIN (R291). Atomic signed or unsigned minimum. -/
  | amin (t : BitVec 5) (a : BitVec 5) (b : BitVec 5) (s : BitVec 3) (w : BitVec 1) (g : BitVec 1)
  /-- AMAX (R291). Atomic signed or unsigned maximum. -/
  | amax (t : BitVec 5) (a : BitVec 5) (b : BitVec 5) (s : BitVec 3) (w : BitVec 1) (g : BitVec 1)
  /-- AFADD (R291). Atomic FP32 add rounded RNE. -/
  | afadd (t : BitVec 5) (a : BitVec 5) (b : BitVec 5) (s : BitVec 3)
  /-- RADD (R293). Integer reduce-add with no returned value, mergeable at domain scope. -/
  | radd (a : BitVec 5) (b : BitVec 5) (s : BitVec 3) (w : BitVec 1)
  /-- RFADD (R293). FP32 reduce-add with no returned value. -/
  | rfadd (a : BitVec 5) (b : BitVec 5) (s : BitVec 3)
  /-- STN4 (R294). Stores one 4-bit element. -/
  | stn4 (t : BitVec 5) (a : BitVec 5) (o : BitVec 12)
  /-- VADD (R171). Lane-wise vector addition, optionally saturating. -/
  | vadd (d : BitVec 5) (a : BitVec 5) (b : BitVec 5) (y : BitVec 4) (m : BitVec 2)
  /-- VSUB (R171). Lane-wise vector subtraction. -/
  | vsub (d : BitVec 5) (a : BitVec 5) (b : BitVec 5) (y : BitVec 4) (m : BitVec 2)
  /-- VMUL (R171). Lane-wise vector multiplication. -/
  | vmul (d : BitVec 5) (a : BitVec 5) (b : BitVec 5) (y : BitVec 4) (m : BitVec 2)
  /-- VFMA (R171). Lane-wise fused multiply-add into vd. -/
  | vfma (d : BitVec 5) (a : BitVec 5) (b : BitVec 5) (y : BitVec 4)
  /-- VMIN (R171). Lane-wise minimum. -/
  | vmin (d : BitVec 5) (a : BitVec 5) (b : BitVec 5) (y : BitVec 4)
  /-- VMAX (R171). Lane-wise maximum. -/
  | vmax (d : BitVec 5) (a : BitVec 5) (b : BitVec 5) (y : BitVec 4)
  /-- VABS (R171). Lane-wise absolute value. -/
  | vabs (d : BitVec 5) (a : BitVec 5) (y : BitVec 4)
  /-- VNEG (R171). Lane-wise negation. -/
  | vneg (d : BitVec 5) (a : BitVec 5) (y : BitVec 4)
  /-- VDIV (R171). Lane-wise FP32 division. -/
  | vdiv (d : BitVec 5) (a : BitVec 5) (b : BitVec 5)
  /-- VSQRT (R171). Lane-wise FP32 square root. -/
  | vsqrt (d : BitVec 5) (a : BitVec 5)
  /-- VEXP2 (R173). Lane-wise correctly rounded 2^a. -/
  | vexp2 (d : BitVec 5) (a : BitVec 5)
  /-- VAND (R171). Bitwise AND of vector registers. -/
  | vand (d : BitVec 5) (a : BitVec 5) (b : BitVec 5) (y : BitVec 4)
  /-- VOR (R171). Bitwise OR of vector registers. -/
  | vor (d : BitVec 5) (a : BitVec 5) (b : BitVec 5) (y : BitVec 4)
  /-- VXOR (R171). Bitwise XOR of vector registers. -/
  | vxor (d : BitVec 5) (a : BitVec 5) (b : BitVec 5) (y : BitVec 4)
  /-- VSHL (R171). Lane-wise left shift. -/
  | vshl (d : BitVec 5) (a : BitVec 5) (b : BitVec 5) (y : BitVec 4)
  /-- VSHR (R171). Lane-wise right shift. -/
  | vshr (d : BitVec 5) (a : BitVec 5) (b : BitVec 5) (y : BitVec 4)
  /-- VCEQ (R174). Lane-wise equality mask. -/
  | vceq (d : BitVec 5) (a : BitVec 5) (b : BitVec 5) (y : BitVec 4)
  /-- VCLT (R174). Lane-wise less-than mask. -/
  | vclt (d : BitVec 5) (a : BitVec 5) (b : BitVec 5) (y : BitVec 4)
  /-- VCLE (R174). Lane-wise less-or-equal mask. -/
  | vcle (d : BitVec 5) (a : BitVec 5) (b : BitVec 5) (y : BitVec 4)
  /-- VSEL (R174). Selects va or vb lane by the old vd lane. -/
  | vsel (d : BitVec 5) (a : BitVec 5) (b : BitVec 5) (y : BitVec 4)
  /-- VRSUM (R175). Pairwise-tree sum of lanes into a scalar. -/
  | vrsum (d : BitVec 5) (a : BitVec 5) (y : BitVec 4)
  /-- VRMAX (R175). Tree maximum of lanes into a scalar. -/
  | vrmax (d : BitVec 5) (a : BitVec 5) (y : BitVec 4)
  /-- VRMIN (R175). Tree minimum of lanes into a scalar. -/
  | vrmin (d : BitVec 5) (a : BitVec 5) (y : BitVec 4)
  /-- VPERM (R176). Permutes lanes by indices in vb. -/
  | vperm (d : BitVec 5) (a : BitVec 5) (b : BitVec 5) (y : BitVec 4)
  /-- VROT (R176). Rotates lanes by a scalar amount. -/
  | vrot (d : BitVec 5) (a : BitVec 5) (b : BitVec 5) (y : BitVec 4)
  /-- VBCST (R176). Broadcasts a scalar into every lane. -/
  | vbcst (d : BitVec 5) (a : BitVec 5) (y : BitVec 4)
  /-- VEXT (R176). Extracts one lane into a scalar. -/
  | vext (d : BitVec 5) (a : BitVec 5) (b : BitVec 5) (y : BitVec 4)
  /-- VINS (R176). Inserts a scalar into one lane. -/
  | vins (d : BitVec 5) (a : BitVec 5) (b : BitVec 5) (y : BitVec 4)
  /-- VCVT (R177). Converts vector elements between types. -/
  | vcvt (d : BitVec 5) (a : BitVec 5) (s : BitVec 4) (y : BitVec 4)
  /-- VMOV (R178). Copies a vector register and its mask. -/
  | vmov (d : BitVec 5) (a : BitVec 5)
  /-- MMA (R202). Matrix product accumulated into an accumulator. -/
  | mma (a : BitVec 5) (b : BitVec 5) (s : BitVec 4)
  /-- MMAG (R203). Matrix product with gathered A rows. -/
  | mmag (a : BitVec 5) (b : BitVec 5) (m : BitVec 1) (c : BitVec 2)
  /-- MMAS (R204). Structured-sparse matrix product. -/
  | mmas (a : BitVec 5) (b : BitVec 5) (s : BitVec 4)
  /-- MROT (R205). Matrix product that forwards B over a channel. -/
  | mrot (a : BitVec 5) (b : BitVec 5) (s : BitVec 4)
  /-- MZERO (R206). Sets an accumulator to +0. -/
  | mzero (c : BitVec 2)
  /-- MLD (R206). Loads an accumulator from a 32x32 source. -/
  | mld (a : BitVec 5) (m : BitVec 1) (c : BitVec 2)
  /-- MST (R206). Stores an accumulator to a 32x32 destination. -/
  | mst (a : BitVec 5) (c : BitVec 2)
  /-- CVT (R184). Converts a tile between unscaled formats. -/
  | cvt (a : BitVec 5) (b : BitVec 5) (m : BitVec 1) (r : BitVec 3)
  /-- CVB (R184). Decodes a block-scaled tile. -/
  | cvb (a : BitVec 5) (b : BitVec 5) (m : BitVec 1) (r : BitVec 3)
  /-- CVQ (R184). Quantises a tile to a block-scaled format. -/
  | cvq (a : BitVec 5) (b : BitVec 5) (m : BitVec 1) (r : BitVec 3)
  /-- CVQN (R184). Dequantises a QN4 tile. -/
  | cvqn (a : BitVec 5) (b : BitVec 5) (m : BitVec 1) (r : BitVec 3)
  /-- CVQNQ (R187). Quantises a tile to QN4 with computed byte scales. -/
  | cvqnq (a : BitVec 5) (b : BitVec 5) (m : BitVec 1) (r : BitVec 3)
  /-- CVTR (R184). Converts and transposes a tile. -/
  | cvtr (a : BitVec 5) (b : BitVec 5) (m : BitVec 1) (r : BitVec 3)
  /-- TWLD (R297). Tile-walk load of a tensor tile into a CB slot. -/
  | twld (a : BitVec 5) (b : BitVec 5) (s : BitVec 2)
  /-- TWMC (R297). Tile-walk multicast to several tiles of the cluster. -/
  | twmc (a : BitVec 5) (b : BitVec 5) (s : BitVec 2)
  /-- TWST (R297). Tile-walk store from a CB slot into a tensor. -/
  | twst (a : BitVec 5) (b : BitVec 5) (s : BitVec 2)
  /-- KBND (R221). Computes key-page score bounds. -/
  | kbnd (a : BitVec 5) (b : BitVec 5) (s : BitVec 2)
  /-- KSEL (R223). Selects key pages into a gather list. -/
  | ksel (a : BitVec 5) (b : BitVec 5) (s : BitVec 2)
  /-- KRST (R224). Recomputes key-page summaries and registers the key range. -/
  | krst (s : BitVec 2)
  /-- SGG (R301). Stack gather of listed pages into CB slots. -/
  | sgg (a : BitVec 5) (b : BitVec 5) (s : BitVec 2)
  /-- TIDLD (R227). Loads a tensor-table entry into the TID cache. -/
  | tidld (a : BitVec 5)
  /-- TIDINV (R227). Invalidates a TID across the context's clusters. -/
  | tidinv (a : BitVec 5)
  /-- TCLS (R227). Reclassifies scratchpad granules in the tile class directory. -/
  | tcls (a : BitVec 5)
  /-- WSTART (R233). Starts a format-walker walk. -/
  | wstart (a : BitVec 5) (b : BitVec 5) (s : BitVec 2)
  /-- WSTOP (R233). Stops the activation's walks from a register set. -/
  | wstop (s : BitVec 2)
  /-- BCOPY (R303). Copy-engine byte copy. -/
  | bcopy (a : BitVec 5) (b : BitVec 5) (s : BitVec 2)
  /-- BFILL (R303). Copy-engine byte fill. -/
  | bfill (a : BitVec 5) (b : BitVec 5) (s : BitVec 2)
  /-- ESET (R87). Writes an engine register of a set. -/
  | eset (a : BitVec 5) (e : BitVec 4) (r : BitVec 8) (s : BitVec 4)
  /-- EGET (R88). Reads an engine register after earlier commands reach DONE. -/
  | eget (d : BitVec 5) (e : BitVec 4) (r : BitVec 8) (s : BitVec 4)
  /-- SPAWN (R363). Writes a task descriptor into a home tile's task pool. -/
  | spawn (a : BitVec 5) (b : BitVec 5)
  /-- LAUNCH (R366). Admits a launch from a descriptor in memory. -/
  | launch (a : BitVec 5)
  /-- RETIRE (R369). Retires the activation. -/
  | retire
  /-- YIELD (R369). Gives the other slots of the core a turn. -/
  | yield
  /-- MSEND (R367). Sends a 64-byte message after a package release. -/
  | msend (a : BitVec 5) (b : BitVec 5)
  /-- CADD (R370). Release then counter add. -/
  | cadd (a : BitVec 5) (b : BitVec 5) (s : BitVec 3)
  /-- CADDO (R370). Release then counter add returning the old value. -/
  | caddo (t : BitVec 5) (a : BitVec 5) (b : BitVec 5) (s : BitVec 3)
  /-- CWAIT (R370). Waits for a counter to reach a target, as an acquire. -/
  | cwait (t : BitVec 5) (a : BitVec 5) (b : BitVec 5) (s : BitVec 3)
  /-- CWAITT (R370). Counter wait that traps on an abandoned counter. -/
  | cwaitt (t : BitVec 5) (a : BitVec 5) (b : BitVec 5) (s : BitVec 3)
  /-- CBWP (R372). Waits until a producer end has FREE >= n. -/
  | cbwp (a : BitVec 5) (h : BitVec 4) (n : BitVec 9)
  /-- CBWC (R372). Waits until a consumer end has FILLED >= n. -/
  | cbwc (a : BitVec 5) (h : BitVec 4) (n : BitVec 9)
  /-- CBAP (R372). Release then producer advance. -/
  | cbap (a : BitVec 5) (h : BitVec 4) (n : BitVec 9)
  /-- CBAC (R372). Release then consumer advance. -/
  | cbac (a : BitVec 5) (h : BitVec 4) (n : BitVec 9)
  /-- CBSTAT (R373). Reads the state of a CB instance. -/
  | cbstat (d : BitVec 5) (h : BitVec 4)
  /-- MARK (R375). Places a round marker at a producer end. -/
  | mark (h : BitVec 4)
  /-- MWAIT (R375). Waits for markers on named ends and enters the next round. -/
  | mwait (a : BitVec 5)
  /-- MROUND (R375). Reads the round number. -/
  | mround (d : BitVec 5)
  /-- ECALL (R404). Traps to the next level with cause ECALL. -/
  | ecall
  /-- MCALL (R404). Traps from S to M. -/
  | mcall
  /-- ERET (R404). Returns from a trap and settles faulted ring entries. -/
  | eret
  /-- IFENCE (R405). Discards prefetched words so fetch sees earlier stores. -/
  | ifence
  /-- BRK (R404). Breakpoint trap. -/
  | brk
  /-- XINV (R406). Drops translation entries covering an address across the context. -/
  | xinv (a : BitVec 5)
  /-- XINVA (R406). Drops every translation entry of the ASID. -/
  | xinva
  /-- QBIND (R407). Binds a handler queue from a binding record. -/
  | qbind (a : BitVec 5) (b : BitVec 5)
  /-- QUNB (R407). Unbinds a handler queue. -/
  | qunb (a : BitVec 5)
  /-- SLSAVE (R425). Saves a target slot's state image and leaves it SAVED. -/
  | slsave (a : BitVec 5) (b : BitVec 5)
  /-- SLREST (R429). Restores a SAVED slot from its image. -/
  | slrest (a : BitVec 5) (b : BitVec 5)
  /-- SLKILL (R408). Discards a target activation. -/
  | slkill (a : BitVec 5)
  /-- HINT (R76). Hint-space word executing as no operation. -/
  | hint (h : BitVec 26)
  /-- WLI (R237). Walker: loads a sign-extended immediate. -/
  | wli (d : BitVec 4) (i : BitVec 24)
  /-- WADDI (R237). Walker: adds an immediate. -/
  | waddi (d : BitVec 4) (a : BitVec 4) (i : BitVec 20)
  /-- WADD (R237). Walker: register add. -/
  | wadd (d : BitVec 4) (a : BitVec 4) (b : BitVec 4)
  /-- WSUB (R237). Walker: register subtract. -/
  | wsub (d : BitVec 4) (a : BitVec 4) (b : BitVec 4)
  /-- WMUL (R237). Walker: register multiply. -/
  | wmul (d : BitVec 4) (a : BitVec 4) (b : BitVec 4)
  /-- WAND (R237). Walker: bitwise AND. -/
  | wand (d : BitVec 4) (a : BitVec 4) (b : BitVec 4)
  /-- WOR (R237). Walker: bitwise OR. -/
  | wor (d : BitVec 4) (a : BitVec 4) (b : BitVec 4)
  /-- WSHL (R237). Walker: left shift. -/
  | wshl (d : BitVec 4) (a : BitVec 4) (b : BitVec 4)
  /-- WSHR (R237). Walker: logical right shift. -/
  | wshr (d : BitVec 4) (a : BitVec 4) (b : BitVec 4)
  /-- WMINU (R237). Walker: unsigned minimum. -/
  | wminu (d : BitVec 4) (a : BitVec 4) (b : BitVec 4)
  /-- WSLTU (R237). Walker: unsigned set-less-than. -/
  | wsltu (d : BitVec 4) (a : BitVec 4) (b : BitVec 4)
  /-- WLD (R237). Walker: loads a value from memory. -/
  | wld (d : BitVec 4) (a : BitVec 4) (y : BitVec 3) (o : BitVec 16)
  /-- WBEQ (R237). Walker: branch if equal. -/
  | wbeq (a : BitVec 4) (b : BitVec 4) (o : BitVec 17)
  /-- WBNE (R237). Walker: branch if not equal. -/
  | wbne (a : BitVec 4) (b : BitVec 4) (o : BitVec 17)
  /-- WBLTU (R237). Walker: branch if unsigned less. -/
  | wbltu (a : BitVec 4) (b : BitVec 4) (o : BitVec 17)
  /-- WBGEU (R237). Walker: branch if unsigned greater or equal. -/
  | wbgeu (a : BitVec 4) (b : BitVec 4) (o : BitVec 17)
  /-- WBLTS (R237). Walker: branch if signed less. -/
  | wblts (a : BitVec 4) (b : BitVec 4) (o : BitVec 17)
  /-- WBGES (R237). Walker: branch if signed greater or equal. -/
  | wbges (a : BitVec 4) (b : BitVec 4) (o : BitVec 17)
  /-- WSTRM (R239). Walker: configures a coordinate stream. -/
  | wstrm (c : BitVec 4) (v : BitVec 4) (n : BitVec 4) (s : BitVec 1) (d : BitVec 1)
  /-- WSKIP (R239). Walker: skips stream entries below a coordinate. -/
  | wskip (a : BitVec 4) (s : BitVec 1)
  /-- WPEEK (R239). Walker: reads head coordinate, position or remaining count. -/
  | wpeek (d : BitVec 4) (s : BitVec 1) (e : BitVec 2)
  /-- WTILE (R242). Walker: sets the tile window origin. -/
  | wtile (a : BitVec 4) (b : BitVec 4)
  /-- WSCAT (R242). Walker: scatters a stream into a tile buffer row. -/
  | wscat (a : BitVec 4) (s : BitVec 1) (t : BitVec 1)
  /-- WMRG_UN (R243). Walker: union merge of two streams. -/
  | wmrgUn (d : BitVec 4) (a : BitVec 4)
  /-- WMRG_IS (R243). Walker: intersection merge packing matched pairs. -/
  | wmrgIs (d : BitVec 4) (a : BitVec 4)
  /-- WEMIT (R244). Walker: emits a tile buffer into a CB slot. -/
  | wemit (h : BitVec 4) (t : BitVec 1)
  /-- WSIG (R245). Walker: release then counter add. -/
  | wsig (a : BitVec 4) (b : BitVec 4)
  /-- WEND (R245). Walker: ends the walk. -/
  | wend
  /-- POWER_ON (R443). Power applied; boot begins at stage 0x01. -/
  | powerOn
  /-- PACKAGE_RESET (R444). RSTCTL.RESET write stops the dies and reruns boot. -/
  | packageReset
  /-- BOOT_STAGE (R443). Next boot stage begins once the previous one completes. -/
  | bootStage (n : Nat)
  /-- REGISTER_WRITE (R438). Write to a device register with no behaviour of its own. -/
  | registerWrite (r : RegWrite)
  /-- HOST_REQUEST (R440). A host-die request arrives over UCIe. -/
  | hostRequest (r : HostReq)
  /-- UCIE_LINK_DOWN (R439). A host module loses link training. -/
  | ucieLinkDown (m : Nat)
  /-- DOORBELL (R351). A write to QTAIL or a Geyser TAIL admits descriptors. -/
  | doorbell (n : Nat) (t : BitVec 32) (pts : Nat)
  /-- LAUNCH_ADMISSION (R351). A queued descriptor is read and admitted once a launch entry and index are free. -/
  | launchAdmission (n : Nat)
  /-- QUEUE_CONTROL_WRITE (R350). A QCTL write sets EN, and SIZE and CTX only when EN was 0. -/
  | queueControlWrite (n : Nat) (v : Word) (half : Half) (level : Nat)
  /-- QUEUE_RESET (R354). QCTL.RESET tears the queue down. -/
  | queueReset (n : Nat)
  /-- TT_SLOT_START (R353). A time-triggered slot begins and due entries fire or overrun. -/
  | ttSlotStart (k : Nat)
  /-- TT_CLOCK_STEP (R353). A hub clock step passes over slots, counting them missed. -/
  | ttClockStep (t : Nat)
  /-- LAUNCH_COMPLETION (R47). When every activation of a launch has retired, release then add DELTA to DONE. -/
  | launchCompletion (l : Nat)
  /-- PRESSURE_PUBLISH (R337). Every 64 cycles a cluster publishes its pressure. -/
  | pressurePublish (c : Nat)
  /-- DISTANCE_RECOMPUTE (R339). Every 64 cycles a router recomputes the distance field. -/
  | distanceRecompute (c : Nat)
  /-- PEER_REPORT (R346). Every 1 us the hub reports least distance to Llynsy peers. -/
  | peerReport (x : Nat) (i : Nat) (d : Nat) (c : Nat)
  /-- GRCTL_WRITE (R345). Writes gradient parameters, ignored whole if LOW exceeds STAY. -/
  | grctlWrite (x : Nat) (v : Word)
  /-- HOP_ACCEPT (R342). A hop message arrives and is accepted into the arrival pool or refused. -/
  | hopAccept (h : Hop)
  /-- DISPATCH_DECISION (R347). A tile's dispatcher picks an entry when a slot is free. -/
  | dispatchDecision (t : Nat)
  /-- HANDLER_START (R40). A queued message starts a handler activation when the queue is free. -/
  | handlerStart (x : Nat) (n : Nat)
  /-- COUNTER_ADD_AT_HOME (R52). A counter add is performed at the counter's home. -/
  | counterAddAtHome (r : AddReq)
  /-- COUNTER_WAIT_AT_HOME (R359). A wait reaches the home and returns or registers. -/
  | counterWaitAtHome (r : WaitReq)
  /-- COUNTER_WAIT_POLL (R359). An unregistered wait polls its counter every 1,024 cycles. -/
  | counterWaitPoll (r : WaitReq)
  /-- SPAWN_POOL_RELEASE (R361). A freed task-pool entry releases the oldest waiting SPAWN. -/
  | spawnPoolRelease (t : Nat)
  /-- RETIREMENT (R60). After outstanding operations complete, release, NOTIFY add and slot freed. -/
  | retirement (q : Nat)
  /-- MESSAGE_DELIVERY (R368). A message arrives at its target NI and is queued, written or orphaned. -/
  | messageDelivery (m : Msg)
  /-- MESSAGE_EXPIRY (R37). A message waiting 1 ms is orphaned as expired. -/
  | messageExpiry (m : Msg)
  /-- CB_PERMIT (R64). A filler takes a permit once FREE is nonzero. -/
  | cbPermit (q : Nat) (n : Nat)
  /-- CB_FILL_COMPLETE (R64). A filled slot is counted in FILLED in permit order. -/
  | cbFillComplete (k : CbKey) (n : Nat)
  /-- CHANNEL_SLOT_ARRIVAL (R310). A channel slot arrives at the receiving end. -/
  | channelSlotArrival (k : CbKey) (x : ChanItem)
  /-- CHANNEL_CREDIT_ARRIVAL (R65). A credit raises the sending end's FREE. -/
  | channelCreditArrival (k : CbKey) (n : Nat)
  /-- ENGINE_CAPTURE (R90). An engine command captures its operands. -/
  | engineCapture (q : Nat) (n : Nat)
  /-- ENGINE_RESULT_PHASE (R90). An engine command reaches its result phase and merges flags. -/
  | engineResultPhase (q : Nat) (n : Nat)
  /-- ENGINE_DONE (R90). An engine command's result is written and its entry reaches DONE. -/
  | engineDone (q : Nat) (n : Nat)
  /-- ENGINE_FAULT (R430). A sequence-numbered fault marks its ring entry FAULT. -/
  | engineFault (q : Nat) (n : Nat) (cause : BitVec 8) (reason : BitVec 8) (tval : Word)
  /-- TRAP_DELIVERY (R389). A pending trap is delivered to the slot's handler level. -/
  | trapDelivery (q : Nat) (t : Trap)
  /-- WALK_CONTEXT_GRANT (R230). A waiting WSTART is granted a walk context. -/
  | walkContextGrant (c : Nat)
  /-- COMBINING_REQUEST (R299). A TWLD request reaches the combining node and joins or opens a fetch. -/
  | combiningRequest (r : CombineReq)
  /-- LOAD_COMPLETION (R265). A load's data returns, writes the register and frees its tag. -/
  | loadCompletion (q : Nat) (n : Nat)
  /-- SLICE_READ (R261). A slice serves a line read and extends its lease. -/
  | sliceRead (q : Nat) (n : Nat)
  /-- SLICE_WRITE (R261). A slice performs a drained or direct write. -/
  | sliceWrite (w : WriteReq)
  /-- HOME_ATOMIC (R291). An atomic is performed at its home. -/
  | homeAtomic (r : AtomicReq)
  /-- HOME_REDUCTION (R282). A reduce packet is performed at its home. -/
  | homeReduction (r : AtomicReq)
  /-- NIBBLE_STORE_AT_HOME (R281). An STN4 is merged into its byte at the home. -/
  | nibbleStoreAtHome (r : NibbleReq)
  /-- SUMMARY_WIDEN (R218). A key-page summary word is widened at its slice. -/
  | summaryWiden (r : WidenReq)
  /-- WRITE_ACK (R325). An ack decrements the NI's outstanding-write counts. -/
  | writeAck (q : Nat) (id : Nat) (wts : Nat)
  /-- NAK_RECEIVED (R285). A negative acknowledgement arrives and a trap is pended. -/
  | nakReceived (tag : Nat) (reason : Nat)
  /-- ACK_TIMEOUT (R325). A packet unanswered for 1 ms is NAKed NOROUTE by its NI. -/
  | ackTimeout (tag : Nat)
  /-- DIRTY_DRAIN_TIMEOUT (R263). Dirty bytes are drained at most 4,096 cycles after the store. -/
  | dirtyDrainTimeout (id : Nat)
  /-- PTS_TICK (R262). Every thread's pts rises by one each 64 cycles. -/
  | ptsTick
  /-- RELEASE_COMPLETE (R271). A release's waits are met and its own write is made visible. -/
  | releaseComplete (r : Release)
  /-- BANKCTL_WRITE (R257). A BANKCTL write starts a bank switch or is refused. -/
  | bankctlWrite (c : Nat) (b : Nat) (v : Word) (level : Nat) (ctx : Nat)
  /-- BANK_SWITCH_COMPLETE (R257). A bank switch finishes and BUSY clears. -/
  | bankSwitchComplete (c : Nat) (b : Nat)
  /-- CCDRAIN (R255). Writing CCDRAIN drains every dirty line of the cluster cache. -/
  | ccdrain (c : Nat)
  /-- ESCAPE_TIMEOUT (R309). A packet blocked 2,048 cycles moves to the escape channel. -/
  | escapeTimeout (n : Nat)
  /-- FLIT_RECEIVE (R318). A Llynsy flit arrives at a node and is delivered, routed or refused. -/
  | flitReceive (p : Nat) (seq : Nat) (f : Flit)
  /-- LINK_REPLAY (R315). A bad flit triggers a replay from the replay buffer. -/
  | linkReplay (p : Nat) (n : Nat)
  /-- PORT_FAILURE (R326). A Llynsy port fails and its traffic is rerouted. -/
  | portFailure (p : Nat) (cause : Nat)
  /-- EXCLUSION_PACKET (R326). A node applies a received exclusion bitmap once. -/
  | exclusionPacket (node : Nat) (id : Nat) (path : Nat) (dests : List Nat)
  /-- PORT_UP (R432). A failed port is up again. -/
  | portUp (p : Nat) (node : BitVec 14) (port : BitVec 6)
  /-- ROUTING_ENTRY_WRITE (R319). A routing-table entry write, ignored with WREJ when invalid or active. -/
  | routingEntryWrite (t : Nat) (b : Nat) (n : Nat) (v : BitVec 32)
  /-- ROUTING_SWAP (R320). RTCTL.SWAP changes a table's active bank. -/
  | routingSwap (t : Nat)
  /-- ROUTING_SWAP_COMPLETE (R320). Lookups under the old bank finish and SWAP reads 0. -/
  | routingSwapComplete (t : Nat)
  /-- RWIN_WRITE (R328). A reduction window write, closing forwards held groups. -/
  | rwinWrite (w : Nat) (i : Nat) (v : Word) (half : Half) (level : Nat) (ctx : Nat)
  /-- REDUCE_PACKET_AT_PORT (R329). A reduce packet of an ingress table at an output port
joins, opens or passes a reduction group. -/
  | reducePacketAtPort (p : Nat × Nat) (f : Flit)
  /-- REDUCTION_HOLD_EXPIRY (R329). A held group whose HOLD expires is forwarded. -/
  | reductionHoldExpiry (p : Nat) (n : Nat)
  /-- PROXY_ATOMIC (R332). A host or foreign atomic reaches the die's proxy queue. -/
  | proxyAtomic (d : Nat) (k : Nat)
  /-- MANAGEMENT_PACKET (R335). A management flit accesses registers or is dropped. -/
  | managementPacket (p : Nat) (f : Flit)
  /-- NOTICE_RESEND (R433). An unacknowledged notice is resent every 64 us. -/
  | noticeResend (n : Nat)
  /-- FNACK_WRITE (R433). FNACK acknowledges a notice and stops its resends. -/
  | fnackWrite (n : BitVec 16)
  /-- CCTL_WRITE (R380). A CCTL write creating or, when idle, removing a context. -/
  | cctlWrite (x : Nat) (v : Word) (half : Half) (level : Nat)
  /-- CALD_WRITE (R381). A Caldera write, ignored when it would shrink or overlap. -/
  | caldWrite (x : Nat) (i : Nat) (v : Word) (half : Half)
  /-- TRANSLATION_WALK (R393). A page-table walk completes at the NI. -/
  | translationWalk (c : Nat) (x : Nat) (va : BitVec 57)
  /-- TRAP_MESSAGE_AT_COLLECTOR (R395). A collected-fault message opens or merges a fault record. -/
  | trapMessageAtCollector (m : FaultMsg)
  /-- FRES_RETRY (R396). Resolves a fault record by retrying every faulting access. -/
  | fresRetry (d : Nat) (r : Nat) (x : Nat) (id : Nat)
  /-- FRES_FAIL (R396). Resolves a fault record by trapping every faulting access. -/
  | fresFail (d : Nat) (r : Nat) (x : Nat) (id : Nat)
  /-- ATTEST_GO (R402). ATTGO.GO requests a signed attestation report. -/
  | attestGo (x : Nat)
  /-- ATTEST_REPORT_DONE (R402). The report is written and GO clears. -/
  | attestReportDone (x : Nat)
  /-- CORRECTABLE_ERROR (R409). A correctable error is corrected and counted. -/
  | correctableError (e : ErrorSite)
  /-- UNCORRECTABLE_ERROR (R410). Uncorrectable data at a home is withheld and reported. -/
  | uncorrectableError (e : ErrorSite)
  /-- SCRUB_PASS (R412). A slice scrubs a line of its pseudo-channels. -/
  | scrubPass (key : Nat)
  /-- ERRHEAL (R412). Overwrites a line with zeros and a fresh code. -/
  | errheal (v : Word)
  /-- FCMD_FENCE (R416). The FCMD fence mask requests a Caldera fence. -/
  | fcmdFence (x : Nat) (i : Nat)
  /-- FCMD_RESTART (R420). The FCMD restart mask returns a HELD Caldera to LIVE. -/
  | fcmdRestart (x : Nat) (i : Nat)
  /-- CALDERA_FENCE (R417). A context's Caldera is fenced, reset and held. -/
  | calderaFence (x : Nat) (i : Nat) (kind : Nat)
  /-- CLUSTER_FENCE (R419). A cluster is fenced for every context by recovery. -/
  | clusterFence (c : Nat)
  /-- LOCKSTEP_COMPARE (R422). A follower item is compared with its leader, fencing on mismatch. -/
  | lockstepCompare (q : Nat)
  /-- SHADOW_COMMIT (R424). When both shadow copies retire, signatures decide commit or abandon. -/
  | shadowCommit (x : Nat)
  /-- THERMAL_STEP (R445). Every 1 ms the thermal limit falls or rises with temperature. -/
  | thermalStep (d : Nat) (temp : Nat)
  /-- POWER_LIMIT_WINDOW (R29). A die's issue rate is lowered to hold its power limit. -/
  | powerLimitWindow (pkg : Nat) (dies : List Nat)
  /-- LIFE_UPDATE (R436). Lifetime records are updated every second. -/
  | lifeUpdate (temps : List Nat) (volts : List Nat)
  /-- RETENTION_ENTRY (R434). After 64 idle cycles a core's register files enter retention. -/
  | retentionEntry (k : Nat)
  /-- ILLEGAL_INSTRUCTION (R75). A fetched Tvedpen word with an unassigned major, function or nonzero unused field traps E_ILL at decode. -/
  | illegalInstruction (w : InstrWord)
  /-- WALKER_ILLEGAL_WORD (R236). The walker reaches a word with OP 0x0 or 0xF, a nonzero zero field or a reserved selector, and ends the walk with E_WALK ILL. -/
  | walkerIllegalWord (w : InstrWord)
  /-- UCIE_LINK_UP (R439). A host UCIe module completes link training and its UCSTAT.UP returns to 1. -/
  | ucieLinkUp (m : Nat)
  /-- THERMAL_RESET_TRIP (R445). A die temperature reaching 115 degrees C makes the management controller begin a package reset. -/
  | thermalResetTrip (d : Nat)
  /-- SERVO_LOCK_CHANGE (R353). The IEEE 1588 servo gains or loses lock, changing TTCTL.LOCKED. -/
  | servoLockChange (on : Bool)
  deriving DecidableEq, Repr

/-- Whether a term is a word of the format walker (R235). -/
def Instr.isWalker : Instr → Bool
  | .wli .. | .waddi .. | .wadd .. | .wsub .. | .wmul .. | .wand .. | .wor .. | .wshl .. | .wshr .. | .wminu .. | .wsltu .. | .wld .. | .wbeq .. | .wbne .. | .wbltu .. | .wbgeu .. | .wblts .. | .wbges .. | .wstrm .. | .wskip .. | .wpeek .. | .wtile .. | .wscat .. | .wmrgUn .. | .wmrgIs .. | .wemit .. | .wsig .. | .wend .. => true
  | _ => false

end Sys2Proof
end

