-- ==== Sys2Proof/Machine/State.lean ====
section
/-! DEFINITION. The state of the package as plain data, the reasons a step can stop, and the state
right after reset. Units are numbered as the manual numbers them: cluster c = die × 128 + row × 16 +
column (R15), tile T = 16 c + tile index (R50), core K = 3 T + stage, slot q = 4 K + slot, which is
the number k of R50. -/

namespace Sys2Proof.Machine

/-- The state of a thread slot (R38). -/
inductive SlotState where
  | free | running | waiting | saved
  deriving DecidableEq, Repr

/-- What kind of activation a slot holds (R35). -/
inductive ActKind where
  | none
  | group (g : Nat)
  | task
  | handler (queue : Nat)
  | firmware
  deriving DecidableEq, Repr

/-- Where a load's value goes. -/
inductive Dest where
  | scalar (r : Nat)
  | vector (r : Nat)
  deriving DecidableEq, Repr

/-- What a load is (R265); of an atomic, whether it is an AFADD, which raises flags (R82). -/
inductive LoadKind where
  | plain
  | acquire (scope : Nat)
  | atomic (fp : Bool)
  | addOld (scope : Nat)
  | wait (scope : Nat)
  deriving DecidableEq, Repr

/-- Where a load was issued, for a trap that the NI learns of late (R285): the PC, the word, the address,
REPST, the mask its destination had and the pointer that a post-increment changed with its old value.
(DEDUCED: log entry 81.) -/
structure LoadOrigin where
  pc : BitVec 57
  word : InstrWord
  va : Word
  repst : Word
  mask : Taint
  undo : Option (BitVec 3 × Word)
  deriving DecidableEq, Repr

/-- An outstanding load of a thread (R265): its number among the thread's loads, its tag, where its
value goes, what it reads, and the value once the home has answered (R284 where it is withheld). The
writes of the thread that precede it are those with an identifier below `before`; a `blocking` load lets
no later instruction of the slot issue until it completes (R288, R285). (DEDUCED: log entry 4.) -/
structure LoadRec where
  serial : Nat
  before : Nat
  tag : Nat
  dest : Dest
  kind : LoadKind
  key : Nat
  size : Nat
  sext : Bool
  data : Option Nat
  abort : Bool
  wts : Nat
  status : BitVec 2
  flags : BitVec 5
  blocking : Bool
  const : Bool
  origin : LoadOrigin
  deriving DecidableEq, Repr

/-- What a WAITING slot waits for (R39, R394); of a collected fault, the descriptor of the LAUNCH that could not read it or
its declarations (R366). -/
inductive WaitInfo where
  | counter (key : Nat) (va target : Word) (trapAbandoned : Bool) (serial : Nat)
  | cbProducer (handle n : Nat)
  | cbConsumer (handle n : Nat)
  | marker (handle : Nat)
  | markers (mask : Nat)
  | pool (tile : Nat) (words : List Word)
  | launch (a : BitVec 5) (desc : List Word) (cbs : List (Nat × Word × Word))
  | queue (n : Nat)
  | collected (va : Word) (launch : Option (List Word))
  deriving DecidableEq, Repr

/-- The trap record of one level: SEPC to SSCRATCH or MEPC to MSCRATCH (R387). -/
structure TrapRegs where
  epc : Word
  cause : Word
  tval : Word
  word : Word
  repst : Word
  repcnt : Word
  scratch : Word
  deriving DecidableEq, Repr

/-- A trap record after reset (R387). (DESIGN CHOICE: log entry 1.) -/
def TrapRegs.zero : TrapRegs := ⟨0, 0, 0, 0, 0, 0, 0⟩

/-- A result in an engine's staging buffer (R90): bytes for a place in memory with their directory
tag (R211), whether they lie past the end of the window in which their range starts (R251), how many low bits of the first byte and how many high bits of the last one belong to other elements
(R120) and stay as they are. -/
structure StagedWrite where
  key : Nat
  va : Word
  data : List Byte
  tag : Nat
  keepLo : Nat
  keepHi : Nat
  past : Bool
  deriving DecidableEq, Repr

/-- A ring entry (R90, R427) with what the command copied at its dispatch (R82, R88), the tensor-table
entries it captured (R228), the permits it holds and what it has staged. The writes of the thread that
precede it are those with an identifier below `before`; `lines` are the lines and granules it has read (R213, R278),
`sent` its writes to other packages not yet acknowledged, `count` the counter it adds to at DONE (R295) and
`progress` the bytes that a BCOPY has completed, the pieces of a staged result that are written, or the address of a walk's
last WSIG; `parked` says that it waits for a permit or, of a WSTART, that its last permit is of a slot it could not write
(R284); `stale` that its table lines may be older than a TIDINV or TIDLD that has completed (R228). -/
structure RingEntry where
  seq : Nat
  before : Nat
  word : InstrWord
  phase : BitVec 2
  level : Nat
  pc : BitVec 57
  valA : Word
  valB : Word
  eset : List Word
  rm : BitVec 3
  flush : Bool
  seed : Word
  pts : Nat
  round : BitVec 32
  flags : BitVec 5
  permits : List (CbKey × Nat)
  fault : Option (BitVec 8)
  staged : List StagedWrite
  stagedAcc : Option (Store (BitVec 32))
  stagedRegs : List (Nat × Word)
  ents : List (Nat × List Word)
  lines : List (Nat × List Byte)
  sent : List Nat
  count : Option (Nat × Word)
  suspended : Bool
  progress : Nat
  parked : Bool
  stale : Bool
  deriving DecidableEq, Repr

/-- One thread slot (R36, R38) and the activation it holds: its identity, its registers (R77, R80,
R362, R387, R431), its repetition state (R164), the line of words it has fetched ahead (R405), its ring (R89) and engine register sets (R88), its
loads (R265), the counts the NI keeps for it (R271, R325), the slots that a YIELD still waits for and the cycle
at which it ends (R369), whether a save has stopped its issue (R425), the mark of an XINV under way: the writes and the reads of other packages it waits for (R406), the VALUE
that its last CWAITT observed (R370), the number of the access that last wrote CSTAT (R362), the cycle of its dispatch
(R37), whether its checker has found it wrong (R145), the engines whose fault its handler has in hand (R470) and whether
a trap has discarded it (R389). (DEDUCED: log entry 74.) -/
structure Slot where
  state : SlotState
  gen : BitVec 16
  reserved : Bool
  kind : ActKind
  ctx : Nat
  level : BitVec 2
  lrec : Option Nat
  queue : Option Nat
  notify : Word
  home : Nat
  poolIx : Nat
  nsreg : Nat
  nvreg : Nat
  spillKB : Nat
  carve : Nat
  pc : BitVec 57
  s : Store Word
  sMask : Store Taint
  p : Store Word
  pMask : Store Taint
  pstep : Store Word
  v : Store Line
  vMask : Store Taint
  acc : Store (Store (BitVec 32))
  poison : Store Bool
  ctm : Taint
  fflags : BitVec 5
  rm : BitVec 3
  flush : Bool
  srseed : Word
  seqnext : BitVec 12
  repst : Word
  repcnt : BitVec 32
  repBody : List InstrWord
  ahead : Option (Nat × List Byte)
  lastspawn : Word
  cstat : BitVec 2
  strap : TrapRegs
  mtrap : TrapRegs
  plevel : BitVec 2
  slres : BitVec 3
  drop : Bool
  round : BitVec 32
  passedMwait : Bool
  ring : Store RingEntry
  eset : Store Word
  loads : List LoadRec
  nextSerial : Nat
  pts : Nat
  touched : BitVec 64
  ackOwn : Store Nat
  ackFar : Store Nat
  near : Nat
  dcount : Store Nat
  relNext : Nat
  relDone : Nat
  wait : Option WaitInfo
  heldTraps : List Trap
  nak : Option (BitVec 8 × BitVec 8 × Word)
  yielding : List Nat
  yieldEnd : Nat
  retiring : Bool
  saving : Bool
  xmark : Option (Nat × List Nat)
  observed : Word
  cstatOf : Nat
  born : Option Nat
  halted : Bool
  fatal : List Nat
  dying : Bool
  deriving DecidableEq, Repr

/-- A slot that holds no activation, as after a package reset (R36, R38). (DESIGN CHOICE: log entry 1.) -/
def Slot.empty : Slot where
  state := .free
  gen := 0
  reserved := false
  kind := .none
  ctx := 0
  level := 0
  lrec := none
  queue := none
  notify := 0
  home := 0
  poolIx := 0
  nsreg := 0
  nvreg := 0
  spillKB := 0
  carve := 0
  pc := 0
  s := []
  sMask := []
  p := []
  pMask := []
  pstep := []
  v := []
  vMask := []
  acc := []
  poison := []
  ctm := Taint.none
  fflags := 0
  rm := 0
  flush := false
  srseed := 0
  seqnext := 0
  repst := 0
  repcnt := 0
  repBody := []
  ahead := none
  lastspawn := 0
  cstat := 0
  strap := TrapRegs.zero
  mtrap := TrapRegs.zero
  plevel := 0
  slres := 0
  drop := false
  round := 0
  passedMwait := false
  ring := []
  eset := []
  loads := []
  nextSerial := 0
  pts := 0
  touched := 0
  ackOwn := []
  ackFar := []
  near := 0
  dcount := []
  relNext := 0
  relDone := 0
  wait := none
  heldTraps := []
  nak := none
  yielding := []
  yieldEnd := 0
  retiring := false
  saving := false
  xmark := none
  observed := 0
  cstatOf := 0
  born := none
  halted := false
  fatal := []
  dying := false

/-- What belongs to a core and not to a slot: SLEEPD and the retention state (R434), the issue
round-robin (R148) and whether a trap at M stopped it (R389). -/
structure CoreRec where
  sleepd : BitVec 2
  retained : Bool
  stopped : Bool
  rr : Nat
  deriving DecidableEq, Repr

/-- A core after reset. (DESIGN CHOICE: log entry 1.) -/
def CoreRec.zero : CoreRec := ⟨0, false, false, 0⟩

/-- A tile: the context that holds it (R383), its directory (R210), its dispatch decisions (R347) and
the head it drains for, with those that reached 16 pass-overs meanwhile (R348). -/
structure Tile where
  holder : Option Nat
  tcd : Store (BitVec 7)
  decisions : Nat
  drain : Option RunEntry
  kept : List RunEntry
  deriving DecidableEq, Repr

/-- A tile after reset: no holder, and every directory entry GENERAL, TAG 0xF, NF 1 (R210).
(DESIGN CHOICE: log entry 1.) -/
def Tile.zero : Tile := ⟨none, [], 0, none, []⟩

/-- The reset value of a directory entry: NF 1, TAG 0xF, CLASS GENERAL (R210). -/
def tcdReset : BitVec 7 := 0x7C

/-- The mode of a cluster bank (R254). -/
inductive BankMode where
  | cache | scratch | fifo
  deriving DecidableEq, Repr

/-- A cluster bank: BANKCTL (R256) and, of a switch under way (R257), the mode and owner it sets and the identifier
before which the writes were made that it waits for. -/
structure Bank where
  mode : BankMode
  owner : BitVec 6
  busy : Bool
  result : BitVec 2
  nextMode : BankMode
  nextOwner : BitVec 6
  mark : Nat
  deriving DecidableEq, Repr

/-- A bank after reset (R256). (DESIGN CHOICE: log entry 1.) -/
def Bank.zero : Bank := ⟨.cache, 0, false, 0, .cache, 0, 0⟩

/-- A leased copy of a line in a cluster cache (R261), with the cycle at which it was asked for (R262). -/
structure Copy where
  data : List Byte
  wts : Nat
  rts : Nat
  born : Nat
  deriving DecidableEq, Repr

/-- A line of a cluster's constant cache (R259). -/
structure ConstLine where
  cluster : Nat
  ctx : Nat
  va : Nat
  pa : Nat
  data : List Byte
  deriving DecidableEq, Repr

/-- An entry of a translation or walk cache (R393): the cluster, the ASID, the level of the table the
entry came from, the address bits it covers and the entry. -/
structure XlatEntry where
  cluster : Nat
  asid : Nat
  level : Nat
  index : Nat
  entry : Word
  deriving DecidableEq, Repr

/-- An entry of a TID cache (R68). -/
structure TidEntry where
  cluster : Nat
  ctx : Nat
  tid : Nat
  words : List Word
  deriving DecidableEq, Repr

/-- A registered key range (R217). -/
structure KeyRange where
  cluster : Nat
  ctx : Nat
  tid : Nat
  words : List Word
  deriving DecidableEq, Repr

/-- A write of a thread that its home has not acknowledged (R308). -/
structure OutWrite where
  id : Nat
  thread : Nat
  line : Nat
  slice : Option Nat
  path : Option Nat
  deriving DecidableEq, Repr

/-- Where an entry that hopped in from another package came from (R346): the package's node, its context
and launch of record there, and the home tile and pool entry of a task. -/
structure FarHome where
  node : Nat
  ctx : Nat
  lrec : Nat
  task : Option (Nat × Nat)
  deriving DecidableEq, Repr

/-- A live launch record (R59) and the progress of its launch (R47): groups not yet dispatched, activations
of its groups that have not ended, and tasks that have not ended; `torn` is set once its queue is torn down
(R354). -/
structure Launch where
  desc : List Word
  cbs : List (Nat × Word × Word)
  ctx : Nat
  queue : Option Nat
  remaining : Nat
  running : Nat
  tasks : Nat
  abandoned : Bool
  complete : Bool
  pts : Nat
  ttEntry : Option Nat
  copyB : Bool
  pair : Option Nat
  far : Option FarHome
  torn : Bool
  deriving DecidableEq, Repr

/-- A permitted slot not yet counted, or a marker that stands behind one (R64, R356). -/
inductive PermitItem where
  | slot (ix : Nat) (written : Bool)
  | marker
  deriving DecidableEq, Repr

/-- A circular-buffer instance (R63, R64): the declaration, FREE, the counted slots cut by held
markers (their sum is FILLED and the first part is what the consumer sees), the permits taken and not
counted (PEND), the pointers, the unconsumed markers a producer end has sent, a channel's slot
numbers, early arrivals and, at a sending end, the items kept for a receiving end that does not exist yet (R310, R356),
and the greatest timestamp counted (R468). -/
structure CbInst where
  key : CbKey
  ctx : Nat
  w0 : Word
  w1 : Word
  free : Nat
  segs : List Nat
  permits : List PermitItem
  wptr : Nat
  rptr : Nat
  marksOut : Nat
  txNum : Nat
  rxNum : Nat
  early : List ChanItem
  unsent : Nat
  pts : Nat
  deriving DecidableEq, Repr

/-- An operand slot that an MROT has committed to a sending end (R205) and that may not have reached the receiving end: its
thread and context, the end, the slot index, its number on the channel once it has one, and, once it has been moved to the
spill buffer (R428), its unit there and the slot itself. -/
structure OperandSlot where
  thread : Nat
  ctx : Nat
  key : CbKey
  ix : Nat
  number : Option Nat
  unit : Option Nat
  item : Option ChanItem
  deriving DecidableEq, Repr

/-- The use of a task-pool entry (R61): the task's context, launch of record and threshold, and
whether it has been placed on a run list (R56). (DEDUCED: log entry 97.) -/
structure PoolRec where
  ctx : Nat
  lrec : Nat
  thresh : Nat
  enqueued : Bool
  started : Bool
  deriving DecidableEq, Repr

/-- A bound handler queue (R407). -/
structure HandlerQueue where
  entry : BitVec 57
  nvreg : Nat
  nsreg : Nat
  level : BitVec 2
  place : BitVec 16
  roff : Nat
  rsize : Nat
  msgs : List Msg
  running : Bool
  unbinding : Bool
  deriving DecidableEq, Repr

/-- A stream of a walk (R239). -/
structure Stream where
  cbase : Word
  vbase : Word
  ones : Bool
  start : Nat
  pos : Nat
  fin : Nat
  dup : Bool
  deriving DecidableEq, Repr

/-- An empty stream (R234). -/
def Stream.empty : Stream := ⟨0, 0, true, 0, 0, 0, false⟩

/-- A walk context (R230, R234). -/
structure Walk where
  thread : Nat
  seq : Nat
  set : Nat
  shape : Word
  w : Store Word
  t0 : Store Byte
  t1 : Store Byte
  row0 : Nat
  col0 : Nat
  str0 : Stream
  str1 : Stream
  pc : BitVec 57
  emits : Nat
  flags : BitVec 5
  suspended : Bool
  stop : Bool
  deriving DecidableEq, Repr

/-- A pending fetch of a combining node (R299). -/
structure Fetch where
  cluster : Nat
  reqs : List CombineReq
  issued : Bool
  deriving DecidableEq, Repr

/-- An open record of a fault collector (R394). -/
structure FaultRec where
  id : Nat
  ctx : Nat
  page : Nat
  kind : Nat
  perm : Bool
  ring : Nat
  bitmap : BitVec 768
  waiters : List FaultMsg
  deriving DecidableEq, Repr

/-- A row's fault collector (R394, R395). -/
structure Collector where
  nextId : Nat
  recs : List FaultRec
  deriving DecidableEq, Repr

/-- A request sent to another package and not yet answered (R325); `report` holds the context and the place of a NOTIFY
add, whose refusal is recorded (R364); `polled` marks a later look of a counter wait at its counter (R359), and `ctx` names the
context whose translation a device's request used (R406). -/
structure FarReq where
  tag : Nat
  thread : Option Nat
  serial : Option Nat
  id : Nat
  path : Nat
  dst : Nat
  ord : Bool
  store : Bool
  va : Word
  sent : Nat
  report : Option (Nat × Nat) := none
  polled : Bool := false
  ctx : Option Nat := none
  deriving DecidableEq, Repr

/-- A held group of a reduction engine (R329): its contributors, and, once it is forwarded, the TAG of the
packet that its home answers (R330); `table` is the ingress table by which it leaves (R322).
(DEDUCED: log entry 45.) -/
structure HeldGroup where
  port : Nat
  table : Nat
  window : Nat
  addr : Nat
  op : Nat
  flits : List Flit
  since : Nat
  tag : Option Nat
  deriving DecidableEq, Repr

/-- A notice not yet acknowledged by the fabric manager (R433). -/
structure Notice where
  seq : BitVec 16
  words : List Word
  sends : Nat
  deriving DecidableEq, Repr

/-- The written set of one copy in shadow mode (R423), in order of entry. -/
structure ShadowSet where
  granules : List Nat
  full : Bool
  deriving DecidableEq, Repr

/-- A lockstep pair's items not yet compared (R422), leader and follower. (DEDUCED: log entry 59.) -/
structure LockPair where
  leader : List LockItem
  follower : List LockItem
  deriving DecidableEq, Repr

/-- A reply to a host request (R440). -/
inductive HostReply where
  | data (module : Nat) (bytes : List Byte)
  | done (module : Nat)
  | abort (module : Nat)
  | unsupported (module : Nat)
  | interrupt (module : Nat)
  deriving DecidableEq, Repr

/-- A packet of the on-die network known to stand at a channel's head (R309): its class, the escape channel it has
entered, if any, the router where it stands and the one it leaves the network at, and the cycle since which it stands
at the head. (DEDUCED: log entry 78.) -/
structure NetPacket where
  vclass : Nat
  tc : Nat
  escape : Option Bool
  site : Nat
  goal : Nat
  since : Nat
  deriving DecidableEq, Repr

/-- Hub MRAM (R28, R400, R401, R436): kept through a package reset. `life` holds the lifetime records at offset
/ 8 of the LIFE window, and `secs` the seconds of each hour not yet full. -/
structure Mram where
  life : Store Word
  ownerKey : Option (BitVec 384)
  minFirmware : Nat
  minConfig : Nat
  certificate : List Byte
  secs : Store Nat
  deriving DecidableEq, Repr

/-- What the host's boot store, the self-calibration and the self-test of clusters and ports would
give at the next boot (R443). (DESIGN CHOICE: log entry 19.) -/
structure BootInputs where
  calibrationOk : Bool
  firmware : Option (List Byte)
  config : Option (List Byte)
  badClusters : List Nat
  trainedPorts : List (Nat × BitVec 14 × BitVec 6)
  cfgRegs : Store Word
  deriving DecidableEq, Repr

/-- Which agent moves: a core's next slot, a walk, or the n-th pending step of the agenda. -/
inductive Turn where
  | core (k : Nat)
  | walk (w : Nat)
  | event (n : Nat)
  deriving DecidableEq, Repr

/-- An entry of an orphan or fault ring (R355, R395) that is being written: the ring's tail register and its new value, the
writes to other packages not yet acknowledged, the timestamp of the entry, and the register that counts it. -/
structure OrphanOut where
  reg : Nat
  tail : Word
  tags : List Nat
  pts : Nat
  count : Option Nat
  deriving DecidableEq, Repr

/-- The state of a package.

`focus` names the turn of the next step where that is settled, and is none where the free choice
`Config.choice` settles it; `choices` counts the choices made and `agenda` holds the steps that are
due: what instructions and units have sent and what the outside world brings. `cur` and `curWalk` are
the thread slot and the walk whose turn it is. `hubLines` are lines of other packages that the hub has read, with their
write timestamps. `timers` holds the cycle, or the nanosecond of the hub, at which each periodic step is next due,
`rxAsk` and `txAsk` a port's outstanding request for a replay and how often in succession it has replayed from one flit
(R315, R326), `portQueue` the flits that wait at a port (R322), `pubNext` and `distNext` what the period numbered `period`
publishes (R337, R339), and `firing` the firings of time-triggered entries that are in progress: word 0, the descriptor's
address and the timestamp of the entry (R353). -/
structure State where
  focus : Option Turn
  agenda : List Event
  choices : Nat
  cur : Option Nat
  curWalk : Option Nat
  nextId : Nat
  cycle : Nat
  ticks : Nat
  hubNs : Nat
  slots : Store Slot
  cores : Store CoreRec
  tiles : Store Tile
  mem : Memory
  bad : Store Bool
  lineTs : Store (Nat × Nat)
  evictTs : Store Nat
  counterTs : Store Nat
  dirty : List WriteReq
  outWrites : List OutWrite
  copies : Store Copy
  constLines : List ConstLine
  tlb : List XlatEntry
  walkCache : List XlatEntry
  tids : List TidEntry
  keyRanges : List KeyRange
  banks : Store Bank
  ccdrain : Store Bool
  published : Store Nat
  dist : Store Nat
  peers : Store (Nat × Nat × Nat)
  runs : Store (List RunEntry)
  rrCtx : Store Nat
  hopping : List Hop
  launches : Store Launch
  cbs : List CbInst
  waits : List WaitReq
  pools : Store PoolRec
  poolWaiters : List (Nat × Nat)
  hqueues : Store HandlerQueue
  spilled : List Msg
  operands : List OperandSlot
  walks : Store Walk
  walkQueue : List (Nat × Nat × Nat)
  walkRr : Store Nat
  fetches : List Fetch
  collectors : Store Collector
  dev : Store Word
  ttLaunch : Store Nat
  excluded : Store Bool
  floods : List (Nat × Nat)
  nextTag : Nat
  farReqs : List FarReq
  hubLines : Store (Nat × List Byte)
  flitsOut : List (Nat × Flit)
  replay : Store (List (Nat × Flit))
  txSeq : Store Nat
  rxSeq : Store Nat
  ordQueue : List (Nat × Flit)
  held : List HeldGroup
  proxies : Store (List AtomicReq)
  net : Store NetPacket
  errorId : Nat
  notices : List Notice
  sramErrors : List (Nat × Nat)
  shadow : Store ShadowSet
  lock : Store LockPair
  thermal : Store Nat
  mram : Mram
  boot : BootInputs
  fwVector : BitVec 57
  fwMeasure : BitVec 384
  cfgMeasure : BitVec 384
  hostOut : List HostReply
  hostTs : Store Nat
  attest : Store (List Word)
  lifeDue : Nat
  draws : Nat
  timers : Store Nat
  rxAsk : Store Nat
  txAsk : Store (Nat × Nat)
  portQueue : Store Nat
  pubNext : Store Nat
  distNext : Store Nat
  period : Nat
  firing : Store (Word × Word × Nat)
  orphanOut : List OrphanOut
  deriving DecidableEq, Repr

/-- Why the machine stops. -/
inductive Fault where
  /-- An instruction word is executed while no thread slot has the turn. Raised by every meaning of a
  core instruction when `cur` is none or names a slot that is not RUNNING. No run of `step` reaches
  it, since `step` gives the turn to a slot before it executes a word. Safe: the hardware has no such
  execution. -/
  | noThread
  /-- A walker word is executed while no walk has the turn. Raised by every meaning of a walker word
  when `curWalk` is none or names no walk. No run of `step` reaches it. Safe. -/
  | noWalk
  deriving DecidableEq, Repr

/-- Why an instruction is refused. -/
inductive Refusal where
  /-- The instruction has no meaning in this model yet. Safe: no claim can rest on it. -/
  | notModelled (mnemonic : String)
  deriving DecidableEq, Repr

/-- The package right after reset, before the hub carries out boot stage 0x01 (R443): every slot FREE
with tag 0 (R36), every register at the value the manual gives for reset, all memory zero, and the
boot's first stage due. (DESIGN CHOICE: log entries 1, 2.) -/
def State.reset : State where
  focus := none
  agenda := [.bootStage 1]
  choices := 0
  cur := none
  curWalk := none
  nextId := 0
  cycle := 0
  ticks := 0
  hubNs := 0
  slots := []
  cores := []
  tiles := []
  mem := []
  bad := []
  lineTs := []
  evictTs := []
  counterTs := []
  dirty := []
  outWrites := []
  copies := []
  constLines := []
  tlb := []
  walkCache := []
  tids := []
  keyRanges := []
  banks := []
  ccdrain := []
  published := []
  dist := []
  peers := []
  runs := []
  rrCtx := []
  hopping := []
  launches := []
  cbs := []
  waits := []
  pools := []
  poolWaiters := []
  hqueues := []
  spilled := []
  operands := []
  walks := []
  walkQueue := []
  walkRr := []
  fetches := []
  collectors := []
  dev := []
  ttLaunch := []
  excluded := []
  floods := []
  nextTag := 0
  farReqs := []
  hubLines := []
  flitsOut := []
  replay := []
  txSeq := []
  rxSeq := []
  ordQueue := []
  held := []
  proxies := []
  net := []
  errorId := 0
  notices := []
  sramErrors := []
  shadow := []
  lock := []
  thermal := []
  mram := ⟨[], none, 0, 0, [], []⟩
  boot := ⟨true, none, none, [], [], []⟩
  fwVector := 0
  fwMeasure := 0
  cfgMeasure := 0
  hostOut := []
  hostTs := []
  attest := []
  lifeDue := 0
  draws := 0
  timers := []
  rxAsk := []
  txAsk := []
  portQueue := []
  pubNext := []
  distNext := []
  period := 0
  firing := []
  orphanOut := []

end Sys2Proof.Machine
end

