-- ==== Sys2Proof/Machine/Geometry.lean ====
section
/-! DEFINITION. Where things stand in the package: the numbers of dies, clusters, tiles, cores and
slots, place values (R23), the adjacency of R14 and R338, and the address space in which the model keeps
every memory of the package. -/

namespace Sys2Proof.Machine

/-- The stage of a core (R19). -/
def stageOf (q : Nat) : Nat := q / 4 % 3

/-- The core of a slot. -/
def coreOf (q : Nat) : Nat := q / 4

/-- The tile of a slot, in the package (R50). -/
def tileOf (q : Nat) : Nat := q / 12

/-- The cluster of a slot. -/
def clusterOf (q : Nat) : Nat := q / 192

/-- The die of a cluster (R15). -/
def dieOf (c : Nat) : Nat := c / 128

/-- The grid row of a cluster (R15). -/
def rowOf (c : Nat) : Nat := c / 16 % 8

/-- The grid column of a cluster (R15). -/
def colOf (c : Nat) : Nat := c % 16

/-- The quadrant of a cluster (R15). -/
def quadOf (c : Nat) : Nat := rowOf c / 2

/-- Clusters in the package (R12, R15). -/
def clusterCount : Nat := 1024

/-- The slot of a core given by tile, stage and slot number. -/
def slotNum (tile stage sl : Nat) : Nat := 4 * (3 * tile + stage) + sl

/-- The place value of a tile with a stage code (R23): the fields are those of the package numbering in
order, so the tile number stands above the stage. -/
def placeOfTile (tile stage : Nat) : BitVec 16 := BitVec.ofNat 16 (4 * tile + stage)

/-- The place of a slot (R41). -/
def placeOf (q : Nat) : BitVec 16 := placeOfTile (tileOf q) (stageOf q)

/-- The tile a place names (R23, R24). -/
def placeTile (p : BitVec 16) : Nat := p.toNat / 4

/-- The stage a place names; 3 names the tile as a whole (R23). -/
def placeStage (p : BitVec 16) : Nat := p.toNat % 4

/-- The cluster a place names. -/
def placeCluster (p : BitVec 16) : Nat := p.toNat / 64

/-- The bit of a core in a collector's bitmap (R394). -/
def collectorBit (q : Nat) : Nat := (colOf (clusterOf q) * 16 + tileOf q % 16) * 3 + stageOf q

/-- Two's-complement sign extension of a 57-bit address (R250). (DEDUCED: log entry 7.) -/
def va57 (a : BitVec 57) : Word := a.signExtend 64

/-- The low 57 bits of an address (R71, R158). (DEDUCED: log entry 7.) -/
def low57 (a : Word) : BitVec 57 := a.truncate 57

/-- Whether a virtual address is canonical (R250). (DEDUCED: log entry 7.) -/
def canonical (a : Word) : Bool := va57 (low57 a) == a

/-- Device memory of this package at an offset (R252). -/
def dramKey (o : Nat) : Nat := o

/-- A tile's scratchpad. -/
def padKey (tile off : Nat) : Nat := 2 ^ 44 + tile * 2 ^ 17 + off

/-- A bank of a cluster (R254). -/
def bankKey (c b off : Nat) : Nat := 2 ^ 45 + (16 * c + b) * 2 ^ 17 + off

/-- The control page of a cluster (R255). -/
def ctrlKey (c off : Nat) : Nat := 2 ^ 46 + c * 2 ^ 12 + off

/-- Host memory (R252). -/
def hostKey (a : Nat) : Nat := 2 ^ 48 + a

/-- Device memory of another package of the domain (R252). -/
def farKey (p o : Nat) : Nat := 2 ^ 52 + p * 2 ^ 42 + o

/-- Device register space (R437). -/
def regKey (o : Nat) : Nat := 2 ^ 55 + o

/-- Where a location's home is (R260). -/
inductive Home where
  | dram (o : Nat)
  | pad (tile off : Nat)
  | bank (c b off : Nat)
  | ctrl (c off : Nat)
  | host (a : Nat)
  | far (p o : Nat)
  | reg (o : Nat)
  deriving DecidableEq, Repr

/-- The home of a key of the model's address space. -/
def homeOf (k : Nat) : Home :=
  if k < 2 ^ 42 then .dram k
  else if k < 2 ^ 45 then .pad ((k - 2 ^ 44) / 2 ^ 17) ((k - 2 ^ 44) % 2 ^ 17)
  else if k < 2 ^ 46 then
    .bank ((k - 2 ^ 45) / 2 ^ 17 / 16) ((k - 2 ^ 45) / 2 ^ 17 % 16) ((k - 2 ^ 45) % 2 ^ 17)
  else if k < 2 ^ 48 then .ctrl ((k - 2 ^ 46) / 2 ^ 12) ((k - 2 ^ 46) % 2 ^ 12)
  else if k < 2 ^ 52 then .host (k - 2 ^ 48)
  else if k < 2 ^ 55 then .far ((k - 2 ^ 52) / 2 ^ 42) ((k - 2 ^ 52) % 2 ^ 42)
  else .reg (k - 2 ^ 55)

/-- The package index of the slice that holds a device-memory offset (R26, R253). -/
def sliceOf (o : Nat) : Nat := 32 * (o / 2 ^ 39) + 8 * (o / 2 ^ 37 % 4) + o / 2 ^ 8 % 8

/-- The pseudo-channel of its stack that holds a device-memory offset (R253). -/
def pseudoChannelOf (o : Nat) : Nat := 16 * (o / 2 ^ 8 % 8) + o / 2 ^ 11 % 16

/-- The package index of the pseudo-channel that holds a device-memory offset. (DESIGN CHOICE: log entry 55.) -/
def channelOf (o : Nat) : Nat := 128 * (o / 2 ^ 37) + pseudoChannelOf o

/-- The die of a device-memory offset (R253). -/
def dieOfOffset (o : Nat) : Nat := o / 2 ^ 39

/-- Whether a home lies inside the scope instance of a thread's place (R270); scopes are coded as in
R86. -/
def homeInScope (scope q : Nat) : Home → Bool
  | .pad t _ =>
    match scope with
    | 0 => t == tileOf q
    | 1 => t / 16 == clusterOf q
    | 2 => t / 2048 == dieOf (clusterOf q)
    | _ => true
  | .bank c _ _ =>
    match scope with
    | 0 => false
    | 1 => c == clusterOf q
    | 2 => dieOf c == dieOf (clusterOf q)
    | _ => true
  | .ctrl c _ =>
    match scope with
    | 0 => false
    | 1 => c == clusterOf q
    | 2 => dieOf c == dieOf (clusterOf q)
    | _ => true
  | .dram o =>
    match scope with
    | 0 => false
    | 1 => false
    | 2 => dieOfOffset o == dieOf (clusterOf q)
    | _ => true
  | .host _ => decide (3 ≤ scope)
  | .reg _ => decide (3 ≤ scope)
  | .far _ _ => scope == 4

/-- The dies joined to a die by one die link (R14). -/
def adjacentDies (d : Nat) : List Nat :=
  (if d % 4 = 0 then [] else [d - 1]) ++ (if d % 4 = 3 then [] else [d + 1]) ++ [(d + 4) % 8]

/-- The links of R338 inside the package: the other end and its cost, in ascending cluster index
within each row of the rule's table. -/
def packageLinks (c : Nat) : List (Nat × Nat) :=
  let d := dieOf c
  let r := rowOf c
  let q := quadOf c
  let at_ (d r col : Nat) := d * 128 + r * 16 + col
  let quad := (List.range 32).map (fun i => at_ d (2 * q + i / 16) (i % 16))
  let cross := [0, 1, 2, 3].filter (· ≠ q)
  (quad.filter (· ≠ c)).map (·, 1) ++
    cross.map (fun q' => (at_ d (2 * q' + r % 2) (colOf c), 2)) ++
    (adjacentDies d).map (fun d' => (at_ d' r (colOf c), 6))

/-- The torus neighbour of a tile in a direction: +x, −x, +y, −y (R18, R62). -/
def torusNeighbour (tile dir : Nat) : Nat :=
  let c := tile / 16
  let x := tile % 4
  let y := tile / 4 % 4
  match dir with
  | 0 => 16 * c + 4 * y + (x + 1) % 4
  | 1 => 16 * c + 4 * y + (x + 3) % 4
  | 2 => 16 * c + 4 * ((y + 1) % 4) + x
  | _ => 16 * c + 4 * ((y + 3) % 4) + x

end Sys2Proof.Machine
end

