-- ==== Sys2Proof/Machine/DevRegs.lean ====
section
/-! DEFINITION. Device register space (R437): one 64-bit register per multiple of eight, its reset
value, and the named registers of the package-information (R31), fabric (R333), scheduling (R344),
isolation (R378), recovery (R414) and management (R442) blocks. -/

namespace Sys2Proof.Machine

/-- Bits h to l of a word, as a number. -/
def fieldOf (w : Word) (h l : Nat) : Nat := w.toNat / 2 ^ l % 2 ^ (h + 1 - l)

/-- A word with bits h to l set to a number. -/
def withField (w : Word) (h l v : Nat) : Word :=
  BitVec.ofNat 64 (w.toNat - fieldOf w h l * 2 ^ l + v % 2 ^ (h + 1 - l) * 2 ^ l)

/-- Bases of the blocks of device register space (R437). -/
def fabricBase : Nat := 0x01000000
/-- The scheduling block (R344). -/
def schedBase : Nat := 0x02000000
/-- The isolation block (R378). -/
def isoBase : Nat := 0x04000000
/-- The recovery block (R414). -/
def recBase : Nat := 0x05000000
/-- The management block (R442). -/
def mgmtBase : Nat := 0x06000000

/-- The value a register holds after reset (R31, R333, R344, R378, R414, R442). A register whose
reset code is cfg or cal holds zero until the boot stage that loads it. (DESIGN CHOICE: log entry 6.) -/
def devReset (off : Nat) : Word :=
  if off = fabricBase + 0x18 then 0x01020408
  else if fabricBase + 0x20 ≤ off ∧ off < fabricBase + 0x60 then 0xFFFF
  else if fabricBase + 0x100 ≤ off ∧ off < fabricBase + 0x400 ∧ off % 16 = 0 then 1
  else if schedBase + 0x2000 ≤ off ∧ off < schedBase + 0x6000 ∧ off % 0x40 = 0x20 then 2
  else if off = schedBase + 0x6008 then 0x2710
  else if isoBase ≤ off ∧ off < isoBase + 0x4000 ∧ off % 0x100 = 0 then
    BitVec.ofNat 64 ((off - isoBase) / 0x100 * 0x10000)
  else if off = mgmtBase + 0x20 then 0x1770
  else if mgmtBase + 0x100 ≤ off ∧ off < mgmtBase + 0x180 ∧ off % 16 = 0 then 0x1F4
  else 0

/-- The 64-bit register at an offset. -/
def State.reg (s : State) (off : Nat) : Word := getAt (devReset off) s.dev (off / 8)

/-- The state with the register at an offset set. -/
def State.setReg (s : State) (off : Nat) (v : Word) : State :=
  { s with dev := putAt s.dev (off / 8) v }

/-- CCTL of a context (R379). -/
def cctlOff (x : Nat) : Nat := isoBase + 0x100 * x
/-- PTROOT of a context (R378). -/
def ptrootOff (x : Nat) : Nat := isoBase + 0x08 + 0x100 * x
/-- TTBASE of a context (R378). -/
def ttbaseOff (x : Nat) : Nat := isoBase + 0x10 + 0x100 * x
/-- SVEC of a context (R378). -/
def svecOff (x : Nat) : Nat := isoBase + 0x18 + 0x100 * x
/-- FLTBASE of a context (R378). -/
def fltbaseOff (x : Nat) : Nat := isoBase + 0x20 + 0x100 * x
/-- FLTCTL of a context (R379). -/
def fltctlOff (x : Nat) : Nat := isoBase + 0x28 + 0x100 * x
/-- FLTTAIL of a context (R378). -/
def flttailOff (x : Nat) : Nat := isoBase + 0x30 + 0x100 * x
/-- CALD of a context (R379). -/
def caldOff (x i : Nat) : Nat := isoBase + 0x40 + 0x100 * x + 8 * i
/-- ATTNONCE of a context (R378). -/
def attnonceOff (x : Nat) : Nat := isoBase + 0x80 + 0x100 * x
/-- ATTDST of a context (R378). -/
def attdstOff (x : Nat) : Nat := isoBase + 0xA0 + 0x100 * x
/-- ATTGO of a context (R379). -/
def attgoOff (x : Nat) : Nat := isoBase + 0xA8 + 0x100 * x
/-- PKTAB (R398). -/
def pktabOff (i : Nat) : Nat := isoBase + 0x20000 + 8 * i
/-- KEYVIOL (R378). -/
def keyviolOff (p : Nat) : Nat := isoBase + 0x20400 + 8 * p

/-- GRCTL of a context (R345). -/
def grctlOff (x : Nat) : Nat := schedBase + 0x80 * x
/-- GRPEER of a context (R346). -/
def grpeerOff (x i : Nat) : Nat := schedBase + 0x08 + 0x80 * x + 8 * i
/-- ORPHBASE of a context (R344). -/
def orphbaseOff (x : Nat) : Nat := schedBase + 0x30 + 0x80 * x
/-- ORPHCTL of a context (R344). -/
def orphctlOff (x : Nat) : Nat := schedBase + 0x38 + 0x80 * x
/-- ORPHCNT of a context (R344). -/
def orphcntOff (x : Nat) : Nat := schedBase + 0x40 + 0x80 * x
/-- ORPHTAIL of a context (R344). -/
def orphtailOff (x : Nat) : Nat := schedBase + 0x48 + 0x80 * x
/-- QBASE of a queue (R344). -/
def qbaseOff (n : Nat) : Nat := schedBase + 0x2000 + 0x40 * n
/-- QCTL of a queue (R350). -/
def qctlOff (n : Nat) : Nat := schedBase + 0x2008 + 0x40 * n
/-- QHEAD of a queue (R344). -/
def qheadOff (n : Nat) : Nat := schedBase + 0x2010 + 0x40 * n
/-- QTAIL of a queue (R351). -/
def qtailOff (n : Nat) : Nat := schedBase + 0x2018 + 0x40 * n
/-- QSTAT of a queue (R350). -/
def qstatOff (n : Nat) : Nat := schedBase + 0x2020 + 0x40 * n
/-- QERR of a queue (R350). -/
def qerrOff (n : Nat) : Nat := schedBase + 0x2028 + 0x40 * n
/-- TTCTL (R353). -/
def ttctlOff : Nat := schedBase + 0x6000
/-- TTSLOTNS (R344). -/
def ttslotnsOff : Nat := schedBase + 0x6008
/-- TTEPOCH (R344). -/
def ttepochOff : Nat := schedBase + 0x6010
/-- TTNOW (R344). -/
def ttnowOff : Nat := schedBase + 0x6018
/-- TTOVR (R344). -/
def ttovrOff (i : Nat) : Nat := schedBase + 0x6020 + 8 * i
/-- Word w of TTENT (R353). -/
def ttentOff (e w : Nat) : Nat := schedBase + 0x8000 + 0x20 * e + 8 * w
/-- First offset of the Geyser pages (R352). -/
def geyserBase : Nat := schedBase + 0x1000000

/-- NODEID (R333). -/
def nodeidOff : Nat := fabricBase
/-- FMNODE (R333). -/
def fmnodeOff : Nat := fabricBase + 0x08
/-- TCSHARE. -/
def tcshareOff : Nat := fabricBase + 0x18
/-- FMKEY (R333). -/
def fmkeyOff : Nat := fabricBase + 0x10
/-- PROXYPL of a die (R332). -/
def proxyplOff (d : Nat) : Nat := fabricBase + 0x20 + 8 * d
/-- PORTCTL of a port (R334). -/
def portctlOff (p : Nat) : Nat := fabricBase + 0x100 + 0x10 * p
/-- PORTSTAT of a port (R334). -/
def portstatOff (p : Nat) : Nat := fabricBase + 0x108 + 0x10 * p
/-- RTCTL of a table (R334). -/
def rtctlOff (t : Nat) : Nat := fabricBase + 0x400 + 8 * t
/-- Word i of RWIN (R328). -/
def rwinOff (w i : Nat) : Nat := fabricBase + 0x1000 + 0x20 * w + 8 * i
/-- DOMMAP (R317). -/
def dommapOff (i : Nat) : Nat := fabricBase + 0x2000 + 8 * i
/-- A routing-table entry (R319), 32 bits wide. -/
def rteOff (t b n : Nat) : Nat := fabricBase + 0x100000 + 0x20000 * t + 0x10000 * b + 4 * n

/-- ERRBASE (R414). -/
def errbaseOff : Nat := recBase
/-- ERRCTL (R414). -/
def errctlOff : Nat := recBase + 0x08
/-- ERRTAIL (R414). -/
def errtailOff : Nat := recBase + 0x10
/-- ERRDROP (R414). -/
def errdropOff : Nat := recBase + 0x18
/-- ERRHEAL (R414). -/
def errhealOff : Nat := recBase + 0x20
/-- FNSEQ (R414). -/
def fnseqOff : Nat := recBase + 0x28
/-- FNACK (R414). -/
def fnackOff : Nat := recBase + 0x30
/-- CLFENCELO (0) and CLFENCEHI (1) of a die (R414). -/
def clfenceOff (d h : Nat) : Nat := recBase + 0x100 + 0x10 * d + 8 * h
/-- RCTL of a context (R415). -/
def rctlOff (x : Nat) : Nat := recBase + 0x10000 + 0x80 * x
/-- FSTAT of a context (R414). -/
def fstatOff (x : Nat) : Nat := recBase + 0x10008 + 0x80 * x
/-- FCMD of a context (R414). -/
def fcmdOff (x : Nat) : Nat := recBase + 0x10010 + 0x80 * x
/-- SHCTL of a context (R415). -/
def shctlOff (x : Nat) : Nat := recBase + 0x10018 + 0x80 * x
/-- SHOFFA (0) and SHOFFB (1) of a context (R414). -/
def shoffOff (x c : Nat) : Nat := recBase + 0x10020 + 0x80 * x + 8 * c
/-- SHSIGA (0) and SHSIGB (1) of a context (R414). -/
def shsigOff (x c : Nat) : Nat := recBase + 0x10030 + 0x80 * x + 8 * c
/-- SPBASE of a context (R414). -/
def spbaseOff (x : Nat) : Nat := recBase + 0x10040 + 0x80 * x
/-- SPCTL of a context (R414). -/
def spctlOff (x : Nat) : Nat := recBase + 0x10048 + 0x80 * x
/-- SPTAIL of a context (R414). -/
def sptailOff (x : Nat) : Nat := recBase + 0x10050 + 0x80 * x
/-- SPHEAD of a context (R414). -/
def spheadOff (x : Nat) : Nat := recBase + 0x10058 + 0x80 * x
/-- QWEAR of a quadrant (R435). -/
def qwearOff (d q : Nat) : Nat := recBase + 0x20000 + 0x10 * (4 * d + q)
/-- QEOL of a quadrant (R435). -/
def qeolOff (d q : Nat) : Nat := recBase + 0x20008 + 0x10 * (4 * d + q)
/-- First offset of the LIFE window (R436). -/
def lifeBase : Nat := recBase + 0x100000

/-- BOOTSTAT (R442). -/
def bootstatOff : Nat := mgmtBase
/-- HOSTEV (R442). -/
def hostevOff : Nat := mgmtBase + 0x10
/-- HOSTEVEN (R442). -/
def hostevenOff : Nat := mgmtBase + 0x18
/-- PKGLIM (R442). -/
def pkglimOff : Nat := mgmtBase + 0x20
/-- PKGPWR (R442). -/
def pkgpwrOff : Nat := mgmtBase + 0x28
/-- THROTCNT (R442). -/
def throtcntOff : Nat := mgmtBase + 0x30
/-- DPLIM of a die (R442). -/
def dplimOff (d : Nat) : Nat := mgmtBase + 0x100 + 0x10 * d
/-- DSTAT of a die (R442). -/
def dstatOff (d : Nat) : Nat := mgmtBase + 0x108 + 0x10 * d
/-- UCSTAT of a host module (R442). -/
def ucstatOff (m : Nat) : Nat := mgmtBase + 0x200 + 8 * m

/-- CLMAPLO (0) and CLMAPHI (1) of a die (R31). -/
def clmapOff (d h : Nat) : Nat := 0x20 + 0x10 * d + 8 * h

/-- A routing-table entry (R319). -/
def State.rte (s : State) (t b n : Nat) : BitVec 32 :=
  let o := rteOff t b n
  BitVec.ofNat 32 ((s.reg (o / 8 * 8)).toNat / 2 ^ (8 * (o % 8)))

/-- The state with a routing-table entry set. -/
def State.setRte (s : State) (t b n : Nat) (v : BitVec 32) : State :=
  let o := rteOff t b n
  let w := s.reg (o / 8 * 8)
  s.setReg (o / 8 * 8) (withField w (8 * (o % 8) + 31) (8 * (o % 8)) v.toNat)

/-- Whether the self-test found a cluster good (R31). -/
def State.goodCluster (s : State) (c : Nat) : Bool :=
  (s.reg (clmapOff (dieOf c) (c % 128 / 64))).getLsbD (c % 64)

/-- Whether recovery has fenced a cluster (R414). -/
def State.recFenced (s : State) (c : Nat) : Bool :=
  (s.reg (clfenceOff (dieOf c) (c % 128 / 64))).getLsbD (c % 64)

/-- Whether a cluster is fenced, by the self-test or by recovery (R30, R419). -/
def State.fencedCluster (s : State) (c : Nat) : Bool := !s.goodCluster c || s.recFenced c

/-- Whether a valid CALD entry covers a cluster (R379, R381). -/
def caldCovers (v : Word) (c : Nat) : Bool :=
  v.getLsbD 63 && fieldOf v 18 16 == dieOf c &&
    decide (fieldOf v 2 0 ≤ rowOf c) && decide (rowOf c ≤ fieldOf v 6 4) &&
    decide (fieldOf v 11 8 ≤ colOf c) && decide (colOf c ≤ fieldOf v 15 12)

/-- The Calderas of a context that cover a cluster. -/
def State.calderasAt (s : State) (x c : Nat) : List Nat :=
  (List.range 8).filter fun i => caldCovers (s.reg (caldOff x i)) c

/-- Whether a cluster lies in a context's Calderas (R381). -/
def State.inCalderas (s : State) (x c : Nat) : Bool := (s.calderasAt x c) != []

/-- FSTAT of Caldera i: 0 LIVE, 1 FENCING, 2 HELD (R414). -/
def State.fstat (s : State) (x i : Nat) : Nat := fieldOf (s.reg (fstatOff x)) (2 * i + 1) (2 * i)

/-- Whether a cluster lies in a Caldera of the context that is being fenced or held (R417). -/
def State.calderaFenced (s : State) (x c : Nat) : Bool :=
  (s.calderasAt x c).any fun i => s.fstat x i != 0

/-- Whether lockstep is on for a context (R379). -/
def State.lockstep (s : State) (x : Nat) : Bool := (s.reg (cctlOff x)).getLsbD 2

/-- The clusters that may run a context's work, in package order (R45, R382, R417, R421). -/
def State.usable (s : State) (x c : Nat) : Bool :=
  s.inCalderas x c && !s.fencedCluster c && !s.calderaFenced x c &&
    (!s.lockstep x || (c % 2 == 0 && !s.fencedCluster (c + 1)))

/-- The good, unfenced clusters of a context's Calderas, by package cluster index (R45). -/
def State.usableList (s : State) (x : Nat) : List Nat :=
  (List.range clusterCount).filter (s.usable x)

end Sys2Proof.Machine
end

