-- ==== Sys2Proof/WellFormed.lean ====
section
/-! DEFINITION. The part of decode test 4 (R74) that a word decides by itself: the type, scope,
selector, control-register and count fields hold values that the instruction allows. -/

namespace Sys2Proof

/-- SCOPE codes 0x0 to 0x4 (R86). -/
def scopeOk (s : BitVec 3) : Bool := s.toNat ≤ 4

/-- The floating types .f32, .f16 and .bf16 (R85). -/
def tyFloat (y : BitVec 4) : Bool := y.toNat ≤ 2

/-- The integer types (R85). -/
def tyInt (y : BitVec 4) : Bool := 8 ≤ y.toNat

/-- The types of most vector instructions: 0x0 to 0x2 and 0x8 to 0xF (R94). -/
def tyLane (y : BitVec 4) : Bool := tyFloat y || tyInt y

/-- The types that saturate: 0x8 to 0xA and 0xC to 0xE (R94). -/
def tySat (y : BitVec 4) : Bool :=
  (8 ≤ y.toNat && y.toNat ≤ 10) || (12 ≤ y.toNat && y.toNat ≤ 14)

/-- MOD of VADD, VSUB and VMUL: 0b01 saturates and is allowed on the types of `tySat` only (R94). -/
def modOk (y : BitVec 4) (m : BitVec 2) : Bool :=
  tyLane y && (m == 0 || (m == 1 && tySat y))

/-- The types of VABS and VNEG (R94). -/
def tySigned (y : BitVec 4) : Bool := tyFloat y || (8 ≤ y.toNat && y.toNat ≤ 11)

/-- The types VCVT takes on each side: 0x0 to 0x4 and 0x8 to 0xF (R94). -/
def tyConvert (y : BitVec 4) : Bool := y.toNat ≤ 4 || tyInt y

/-- The control registers that exist (R80, R164, R362, R387, R431, R434). -/
def crnAssigned (c : BitVec 12) : Bool :=
  c.toNat ≤ 0x013 || c.toNat == 0x100 ||
  (0x400 ≤ c.toNat && c.toNat ≤ 0x40A) || (0x800 ≤ c.toNat && c.toNat ≤ 0x807)

/-- Registers per set of each engine (R182, R198, R219, R226, R231, R296, R300, R302). -/
def engineRegs (e : Nat) : Nat :=
  match e with
  | 0 => 4 | 1 => 5 | 2 => 4 | 3 => 8 | 4 => 4 | 5 => 2 | 6 => 7 | 7 => 3 | _ => 0

/-- Register sets of each engine (R87). -/
def engineSets (e : Nat) : Nat :=
  match e with
  | 0 => 1 | 1 => 1 | 2 => 4 | 3 => 4 | 4 => 4 | 5 => 1 | 6 => 4 | 7 => 4 | _ => 0

/-- An ESET or EGET names an engine, a register and a set that exist (R87). -/
def engineRegOk (e : BitVec 4) (r : BitVec 8) (s : BitVec 4) : Bool :=
  r.toNat < engineRegs e.toNat && s.toNat < engineSets e.toNat

/-- A K-format count: RA names the register or CNT holds the number, never both (R95). -/
def countOk (a : BitVec 5) (n : BitVec 9) : Bool := a == 0 || n == 0

/-- What a word decides of decode test 4 (R74). A step that is no word is always well formed.
(DEDUCED: log entry 99.) -/
def Instr.wellFormed : Instr → Bool
  | .crrd _ c => crnAssigned c
  | .crwr _ c => crnAssigned c
  | .crset _ c => crnAssigned c
  | .crclr _ c => crnAssigned c
  | .rep _ c _ k => c == 0 || k == 0
  | .lda _ _ s _ => scopeOk s
  | .stl _ _ s _ => scopeOk s
  | .fence s => scopeOk s
  | .aswap _ _ _ s _ => scopeOk s
  | .acas _ _ _ s _ => scopeOk s
  | .aadd _ _ _ s _ => scopeOk s
  | .aand _ _ _ s _ => scopeOk s
  | .aor _ _ _ s _ => scopeOk s
  | .axor _ _ _ s _ => scopeOk s
  | .amin _ _ _ s _ _ => scopeOk s
  | .amax _ _ _ s _ _ => scopeOk s
  | .afadd _ _ _ s => scopeOk s
  | .radd _ _ s _ => scopeOk s
  | .rfadd _ _ s => scopeOk s
  | .vadd _ _ _ y m => modOk y m
  | .vsub _ _ _ y m => modOk y m
  | .vmul _ _ _ y m => modOk y m
  | .vfma _ _ _ y => tyFloat y
  | .vmin _ _ _ y => tyLane y
  | .vmax _ _ _ y => tyLane y
  | .vabs _ _ y => tySigned y
  | .vneg _ _ y => tySigned y
  | .vand _ _ _ y => tyInt y
  | .vor _ _ _ y => tyInt y
  | .vxor _ _ _ y => tyInt y
  | .vshl _ _ _ y => tyInt y
  | .vshr _ _ _ y => tyInt y
  | .vceq _ _ _ y => tyLane y
  | .vclt _ _ _ y => tyLane y
  | .vcle _ _ _ y => tyLane y
  | .vsel _ _ _ y => tyLane y
  | .vrsum _ _ y => tyLane y
  | .vrmax _ _ y => tyLane y
  | .vrmin _ _ y => tyLane y
  | .vperm _ _ _ y => tyLane y
  | .vrot _ _ _ y => tyLane y
  | .vbcst _ _ y => tyLane y
  | .vext _ _ _ y => tyLane y
  | .vins _ _ _ y => tyLane y
  | .vcvt _ _ s y => tyConvert s && tyConvert y
  | .cvt _ _ _ r => r.toNat ≤ 5
  | .cvb _ _ _ r => r.toNat ≤ 5
  | .cvq _ _ _ r => r.toNat ≤ 5
  | .cvqn _ _ _ r => r.toNat ≤ 5
  | .cvqnq _ _ _ r => r.toNat ≤ 5
  | .cvtr _ _ _ r => r.toNat ≤ 5
  | .eset _ e r s => engineRegOk e r s
  | .eget _ e r s => engineRegOk e r s
  | .cadd _ _ s => scopeOk s
  | .caddo _ _ _ s => scopeOk s
  | .cwait _ _ _ s => scopeOk s
  | .cwaitt _ _ _ s => scopeOk s
  | .cbwp a _ n => countOk a n
  | .cbwc a _ n => countOk a n
  | .cbap a _ n => countOk a n
  | .cbac a _ n => countOk a n
  | .wpeek _ _ e => e != 3
  | _ => true

end Sys2Proof
end

