-- ==== Sys2Proof/Decode.lean ====
section
/-! DEFINITION. The decoder, total on any 32-bit word, and the encoder, both written from the formats
and function codes of R83 to R95 (Tvedpen) and R235 (format walker). Decode tests 1 to 3 of R74 are
made here; the part of test 4 that the word alone decides is `Instr.wellFormed`; the part that depends
on the core and on the activation, and test 5, are made where the word is issued. -/

namespace Sys2Proof

/-- Why a word is no instruction (R74, R75, R236). -/
inductive Reject where
  /-- Test 1: the major opcode is not assigned. -/
  | unassignedMajor
  /-- Test 2: the function code is not assigned within its major. -/
  | unassignedFunction
  /-- Test 3: a field the instruction does not use is not zero. -/
  | unusedField
  /-- Test 4: a field holds a value the instruction does not allow. -/
  | operandValue
  deriving DecidableEq, Repr

/-- Bits lo+n-1 to lo of a word. -/
def bits (w lo n : Nat) : Nat := w / 2 ^ lo % 2 ^ n

/-- Bits lo+n-1 to lo of a word, as an operand field. -/
def field (n w lo : Nat) : BitVec n := BitVec.ofNat n (w / 2 ^ lo)

/-- Major 0x01 (R91). -/
def decodeInteger (w : Nat) : Except Reject Instr :=
  match bits w 0 6 with
  | 0 => if bits w 6 5 = 0 then .ok (.add (field 5 w 21) (field 5 w 16) (field 5 w 11)) else .error .unusedField
  | 1 => if bits w 6 5 = 0 then .ok (.sub (field 5 w 21) (field 5 w 16) (field 5 w 11)) else .error .unusedField
  | 2 => if bits w 6 5 = 0 then .ok (.mul (field 5 w 21) (field 5 w 16) (field 5 w 11)) else .error .unusedField
  | 3 => if bits w 6 5 = 0 then .ok (.mulhS64 (field 5 w 21) (field 5 w 16) (field 5 w 11)) else .error .unusedField
  | 4 => if bits w 6 5 = 0 then .ok (.mulhZ64 (field 5 w 21) (field 5 w 16) (field 5 w 11)) else .error .unusedField
  | 5 => if bits w 6 5 = 0 then .ok (.divS64 (field 5 w 21) (field 5 w 16) (field 5 w 11)) else .error .unusedField
  | 6 => if bits w 6 5 = 0 then .ok (.divZ64 (field 5 w 21) (field 5 w 16) (field 5 w 11)) else .error .unusedField
  | 7 => if bits w 6 5 = 0 then .ok (.remS64 (field 5 w 21) (field 5 w 16) (field 5 w 11)) else .error .unusedField
  | 8 => if bits w 6 5 = 0 then .ok (.remZ64 (field 5 w 21) (field 5 w 16) (field 5 w 11)) else .error .unusedField
  | 9 => if bits w 6 5 = 0 then .ok (.and (field 5 w 21) (field 5 w 16) (field 5 w 11)) else .error .unusedField
  | 10 => if bits w 6 5 = 0 then .ok (.or (field 5 w 21) (field 5 w 16) (field 5 w 11)) else .error .unusedField
  | 11 => if bits w 6 5 = 0 then .ok (.xor (field 5 w 21) (field 5 w 16) (field 5 w 11)) else .error .unusedField
  | 12 => if bits w 6 5 = 0 then .ok (.shl (field 5 w 21) (field 5 w 16) (field 5 w 11)) else .error .unusedField
  | 13 => if bits w 6 5 = 0 then .ok (.shrZ64 (field 5 w 21) (field 5 w 16) (field 5 w 11)) else .error .unusedField
  | 14 => if bits w 6 5 = 0 then .ok (.shrS64 (field 5 w 21) (field 5 w 16) (field 5 w 11)) else .error .unusedField
  | 15 => if bits w 6 5 = 0 then .ok (.minS64 (field 5 w 21) (field 5 w 16) (field 5 w 11)) else .error .unusedField
  | 16 => if bits w 6 5 = 0 then .ok (.maxS64 (field 5 w 21) (field 5 w 16) (field 5 w 11)) else .error .unusedField
  | 17 => if bits w 6 5 = 0 then .ok (.sltS64 (field 5 w 21) (field 5 w 16) (field 5 w 11)) else .error .unusedField
  | 18 => if bits w 6 5 = 0 then .ok (.sltZ64 (field 5 w 21) (field 5 w 16) (field 5 w 11)) else .error .unusedField
  | 19 => if bits w 6 5 = 0 then .ok (.seq (field 5 w 21) (field 5 w 16) (field 5 w 11)) else .error .unusedField
  | 20 => if bits w 6 10 = 0 then .ok (.clz (field 5 w 21) (field 5 w 16)) else .error .unusedField
  | 21 => if bits w 6 10 = 0 then .ok (.popc (field 5 w 21) (field 5 w 16)) else .error .unusedField
  | 22 => .ok (.sel (field 5 w 21) (field 5 w 16) (field 5 w 11) (field 5 w 6))
  | 23 => .ok (.madd (field 5 w 21) (field 5 w 16) (field 5 w 11) (field 5 w 6))
  | 24 => if bits w 9 7 = 1 then .ok (.ext (field 5 w 21) (field 5 w 16) (field 3 w 6)) else .error .unusedField
  | _ => .error .unassignedFunction

/-- Major 0x02 (R91). -/
def decodeAddi (w : Nat) : Except Reject Instr :=
  .ok (.addi (field 5 w 21) (field 5 w 16) (field 16 w 0))

/-- Major 0x03 (R91). -/
def decodeAndi (w : Nat) : Except Reject Instr :=
  .ok (.andi (field 5 w 21) (field 5 w 16) (field 16 w 0))

/-- Major 0x04 (R91). -/
def decodeOri (w : Nat) : Except Reject Instr :=
  .ok (.ori (field 5 w 21) (field 5 w 16) (field 16 w 0))

/-- Major 0x05 (R91). -/
def decodeXori (w : Nat) : Except Reject Instr :=
  .ok (.xori (field 5 w 21) (field 5 w 16) (field 16 w 0))

/-- Major 0x06 (R91). -/
def decodeShift (w : Nat) : Except Reject Instr :=
  match bits w 6 2 with
  | 0 => if bits w 8 8 = 0 then .ok (.shli (field 5 w 21) (field 5 w 16) (field 6 w 0)) else .error .unusedField
  | 1 => if bits w 8 8 = 0 then .ok (.shriZ64 (field 5 w 21) (field 5 w 16) (field 6 w 0)) else .error .unusedField
  | 2 => if bits w 8 8 = 0 then .ok (.shriS64 (field 5 w 21) (field 5 w 16) (field 6 w 0)) else .error .unusedField
  | _ => .error .unassignedFunction

/-- Major 0x07 (R91). -/
def decodeSlti (w : Nat) : Except Reject Instr :=
  .ok (.sltiS64 (field 5 w 21) (field 5 w 16) (field 16 w 0))

/-- Major 0x08 (R91). -/
def decodeLi (w : Nat) : Except Reject Instr :=
  .ok (.li (field 5 w 21) (field 21 w 0))

/-- Major 0x09 (R91). -/
def decodeLsi (w : Nat) : Except Reject Instr :=
  if bits w 16 5 = 0 then .ok (.lsi (field 5 w 21) (field 16 w 0)) else .error .unusedField

/-- Major 0x0A (R91). -/
def decodePointer (w : Nat) : Except Reject Instr :=
  match bits w 0 6 with
  | 0 => if bits w 6 10 = 0 ∧ bits w 24 2 = 0 then .ok (.pset (field 3 w 21) (field 5 w 16)) else .error .unusedField
  | 1 => if bits w 6 10 = 0 ∧ bits w 24 2 = 0 then .ok (.pstep (field 3 w 21) (field 5 w 16)) else .error .unusedField
  | 2 => if bits w 6 10 = 0 ∧ bits w 19 2 = 0 then .ok (.pget (field 5 w 21) (field 3 w 16)) else .error .unusedField
  | 3 => if bits w 6 10 = 0 ∧ bits w 24 2 = 0 then .ok (.padd (field 3 w 21) (field 5 w 16)) else .error .unusedField
  | _ => .error .unassignedFunction

/-- Major 0x0B (R91). -/
def decodeControl (w : Nat) : Except Reject Instr :=
  match bits w 12 4 with
  | 0 => if bits w 16 5 = 0 then .ok (.crrd (field 5 w 21) (field 12 w 0)) else .error .unusedField
  | 1 => if bits w 16 5 = 0 then .ok (.crwr (field 5 w 21) (field 12 w 0)) else .error .unusedField
  | 2 => if bits w 16 5 = 0 then .ok (.crset (field 5 w 21) (field 12 w 0)) else .error .unusedField
  | 3 => if bits w 16 5 = 0 then .ok (.crclr (field 5 w 21) (field 12 w 0)) else .error .unusedField
  | _ => .error .unassignedFunction

/-- Major 0x0C (R91). -/
def decodeFp (w : Nat) : Except Reject Instr :=
  match bits w 0 6 with
  | 0 => if bits w 6 5 = 0 then .ok (.fadd (field 5 w 21) (field 5 w 16) (field 5 w 11)) else .error .unusedField
  | 1 => if bits w 6 5 = 0 then .ok (.fsub (field 5 w 21) (field 5 w 16) (field 5 w 11)) else .error .unusedField
  | 2 => if bits w 6 5 = 0 then .ok (.fmul (field 5 w 21) (field 5 w 16) (field 5 w 11)) else .error .unusedField
  | 3 => if bits w 6 5 = 0 then .ok (.fdiv (field 5 w 21) (field 5 w 16) (field 5 w 11)) else .error .unusedField
  | 4 => if bits w 6 5 = 0 then .ok (.fmin (field 5 w 21) (field 5 w 16) (field 5 w 11)) else .error .unusedField
  | 5 => if bits w 6 5 = 0 then .ok (.fmax (field 5 w 21) (field 5 w 16) (field 5 w 11)) else .error .unusedField
  | 6 => if bits w 6 5 = 0 then .ok (.feq (field 5 w 21) (field 5 w 16) (field 5 w 11)) else .error .unusedField
  | 7 => if bits w 6 5 = 0 then .ok (.flt (field 5 w 21) (field 5 w 16) (field 5 w 11)) else .error .unusedField
  | 8 => if bits w 6 5 = 0 then .ok (.fle (field 5 w 21) (field 5 w 16) (field 5 w 11)) else .error .unusedField
  | 9 => .ok (.fma (field 5 w 21) (field 5 w 16) (field 5 w 11) (field 5 w 6))
  | 10 => if bits w 6 10 = 0 then .ok (.fsqrt (field 5 w 21) (field 5 w 16)) else .error .unusedField
  | 11 => if bits w 6 10 = 0 then .ok (.fabs (field 5 w 21) (field 5 w 16)) else .error .unusedField
  | 12 => if bits w 6 10 = 0 then .ok (.fcvtS64 (field 5 w 21) (field 5 w 16)) else .error .unusedField
  | 13 => if bits w 6 10 = 0 then .ok (.fcvtiS64 (field 5 w 21) (field 5 w 16)) else .error .unusedField
  | 14 => if bits w 6 10 = 0 then .ok (.fxsd (field 5 w 21) (field 5 w 16)) else .error .unusedField
  | 15 => if bits w 6 10 = 0 then .ok (.fxse (field 5 w 21) (field 5 w 16)) else .error .unusedField
  | _ => .error .unassignedFunction

/-- Major 0x10 (R91). -/
def decodeBeq (w : Nat) : Except Reject Instr :=
  .ok (.beq (field 5 w 21) (field 5 w 16) (field 16 w 0))

/-- Major 0x11 (R91). -/
def decodeBne (w : Nat) : Except Reject Instr :=
  .ok (.bne (field 5 w 21) (field 5 w 16) (field 16 w 0))

/-- Major 0x12 (R91). -/
def decodeBltS (w : Nat) : Except Reject Instr :=
  .ok (.bltS64 (field 5 w 21) (field 5 w 16) (field 16 w 0))

/-- Major 0x13 (R91). -/
def decodeBgeS (w : Nat) : Except Reject Instr :=
  .ok (.bgeS64 (field 5 w 21) (field 5 w 16) (field 16 w 0))

/-- Major 0x14 (R91). -/
def decodeBltZ (w : Nat) : Except Reject Instr :=
  .ok (.bltZ64 (field 5 w 21) (field 5 w 16) (field 16 w 0))

/-- Major 0x15 (R91). -/
def decodeBgeZ (w : Nat) : Except Reject Instr :=
  .ok (.bgeZ64 (field 5 w 21) (field 5 w 16) (field 16 w 0))

/-- Major 0x16 (R91). -/
def decodeJal (w : Nat) : Except Reject Instr :=
  .ok (.jal (field 26 w 0))

/-- Major 0x17 (R91). -/
def decodeJump (w : Nat) : Except Reject Instr :=
  match bits w 12 4 with
  | 0 => if bits w 0 12 = 0 ∧ bits w 21 5 = 0 then .ok (.jr (field 5 w 16)) else .error .unusedField
  | 1 => if bits w 0 12 = 0 then .ok (.jalr (field 5 w 21) (field 5 w 16)) else .error .unusedField
  | 2 => .ok (.rep (field 5 w 21) (field 5 w 16) (field 4 w 8) (field 8 w 0))
  | _ => .error .unassignedFunction

/-- Major 0x18 (R91). -/
def decodeLoad (w : Nat) : Except Reject Instr :=
  if bits w 15 1 = 1 then .ok (.ld (field 5 w 21) (field 5 w 16) (field 3 w 12) (field 12 w 0)) else .error .unusedField

/-- Major 0x19 (R91). -/
def decodeStore (w : Nat) : Except Reject Instr :=
  if bits w 15 1 = 1 then .ok (.st (field 5 w 21) (field 5 w 16) (field 3 w 12) (field 12 w 0)) else .error .unusedField

/-- Major 0x1A (R91). -/
def decodePointerMem (w : Nat) : Except Reject Instr :=
  match bits w 16 2 with
  | 0 => if bits w 15 1 = 1 then .ok (.ldp (field 5 w 21) (field 3 w 18) (field 3 w 12) (field 12 w 0)) else .error .unusedField
  | 1 => if bits w 0 12 = 0 ∧ bits w 15 1 = 1 then .ok (.ldpi (field 5 w 21) (field 3 w 18) (field 3 w 12)) else .error .unusedField
  | 2 => if bits w 15 1 = 1 then .ok (.stp (field 5 w 21) (field 3 w 18) (field 3 w 12) (field 12 w 0)) else .error .unusedField
  | 3 => if bits w 0 12 = 0 ∧ bits w 15 1 = 1 then .ok (.stpi (field 5 w 21) (field 3 w 18) (field 3 w 12)) else .error .unusedField
  | _ => .error .unassignedFunction

/-- Major 0x1B (R91). -/
def decodeVectorMem (w : Nat) : Except Reject Instr :=
  match bits w 12 4 with
  | 0 => .ok (.vld (field 5 w 21) (field 5 w 16) (field 12 w 0))
  | 1 => .ok (.vst (field 5 w 21) (field 5 w 16) (field 12 w 0))
  | 2 => if bits w 19 2 = 0 then .ok (.vldp (field 5 w 21) (field 3 w 16) (field 12 w 0)) else .error .unusedField
  | 3 => if bits w 19 2 = 0 then .ok (.vstp (field 5 w 21) (field 3 w 16) (field 12 w 0)) else .error .unusedField
  | _ => .error .unassignedFunction

/-- Major 0x1C (R91). -/
def decodeOrder (w : Nat) : Except Reject Instr :=
  match bits w 12 4 with
  | 0 => if bits w 0 5 = 0 ∧ bits w 8 1 = 1 then .ok (.lda (field 5 w 21) (field 5 w 16) (field 3 w 9) (field 3 w 5)) else .error .unusedField
  | 1 => if bits w 0 5 = 0 ∧ bits w 8 1 = 1 then .ok (.stl (field 5 w 21) (field 5 w 16) (field 3 w 9) (field 3 w 5)) else .error .unusedField
  | 2 => if bits w 0 9 = 0 ∧ bits w 16 10 = 0 then .ok (.fence (field 3 w 9)) else .error .unusedField
  | _ => .error .unassignedFunction

/-- Major 0x1D (R91). -/
def decodeTaint (w : Nat) : Except Reject Instr :=
  match bits w 0 6 with
  | 0 => if bits w 6 15 = 0 then .ok (.tclr (field 5 w 21)) else .error .unusedField
  | 1 => if bits w 6 10 = 0 then .ok (.tdep (field 5 w 21) (field 5 w 16)) else .error .unusedField
  | 2 => if bits w 6 15 = 0 then .ok (.vtclr (field 5 w 21)) else .error .unusedField
  | 3 => if bits w 6 10 = 0 then .ok (.vtdep (field 5 w 21) (field 5 w 16)) else .error .unusedField
  | _ => .error .unassignedFunction

/-- Major 0x1E (R91). -/
def decodeAtomic (w : Nat) : Except Reject Instr :=
  match bits w 0 6 with
  | 0 => if bits w 6 1 = 0 then .ok (.aswap (field 5 w 21) (field 5 w 16) (field 5 w 11) (field 3 w 8) (field 1 w 7)) else .error .unusedField
  | 1 => if bits w 6 1 = 0 then .ok (.acas (field 5 w 21) (field 5 w 16) (field 5 w 11) (field 3 w 8) (field 1 w 7)) else .error .unusedField
  | 2 => if bits w 6 1 = 0 then .ok (.aadd (field 5 w 21) (field 5 w 16) (field 5 w 11) (field 3 w 8) (field 1 w 7)) else .error .unusedField
  | 3 => if bits w 6 1 = 0 then .ok (.aand (field 5 w 21) (field 5 w 16) (field 5 w 11) (field 3 w 8) (field 1 w 7)) else .error .unusedField
  | 4 => if bits w 6 1 = 0 then .ok (.aor (field 5 w 21) (field 5 w 16) (field 5 w 11) (field 3 w 8) (field 1 w 7)) else .error .unusedField
  | 5 => if bits w 6 1 = 0 then .ok (.axor (field 5 w 21) (field 5 w 16) (field 5 w 11) (field 3 w 8) (field 1 w 7)) else .error .unusedField
  | 6 => .ok (.amin (field 5 w 21) (field 5 w 16) (field 5 w 11) (field 3 w 8) (field 1 w 7) (field 1 w 6))
  | 7 => .ok (.amax (field 5 w 21) (field 5 w 16) (field 5 w 11) (field 3 w 8) (field 1 w 7) (field 1 w 6))
  | 8 => if bits w 6 2 = 0 then .ok (.afadd (field 5 w 21) (field 5 w 16) (field 5 w 11) (field 3 w 8)) else .error .unusedField
  | 9 => if bits w 6 1 = 0 ∧ bits w 21 5 = 0 then .ok (.radd (field 5 w 16) (field 5 w 11) (field 3 w 8) (field 1 w 7)) else .error .unusedField
  | 10 => if bits w 6 2 = 0 ∧ bits w 21 5 = 0 then .ok (.rfadd (field 5 w 16) (field 5 w 11) (field 3 w 8)) else .error .unusedField
  | _ => .error .unassignedFunction

/-- Major 0x1F (R91). -/
def decodeSubByte (w : Nat) : Except Reject Instr :=
  match bits w 12 4 with
  | 0 => .ok (.stn4 (field 5 w 21) (field 5 w 16) (field 12 w 0))
  | _ => .error .unassignedFunction

/-- Major 0x20 (R91). -/
def decodeVecArith (w : Nat) : Except Reject Instr :=
  match bits w 0 5 with
  | 0 => .ok (.vadd (field 5 w 21) (field 5 w 16) (field 5 w 11) (field 4 w 7) (field 2 w 5))
  | 1 => .ok (.vsub (field 5 w 21) (field 5 w 16) (field 5 w 11) (field 4 w 7) (field 2 w 5))
  | 2 => .ok (.vmul (field 5 w 21) (field 5 w 16) (field 5 w 11) (field 4 w 7) (field 2 w 5))
  | 3 => if bits w 5 2 = 0 then .ok (.vfma (field 5 w 21) (field 5 w 16) (field 5 w 11) (field 4 w 7)) else .error .unusedField
  | 4 => if bits w 5 2 = 0 then .ok (.vmin (field 5 w 21) (field 5 w 16) (field 5 w 11) (field 4 w 7)) else .error .unusedField
  | 5 => if bits w 5 2 = 0 then .ok (.vmax (field 5 w 21) (field 5 w 16) (field 5 w 11) (field 4 w 7)) else .error .unusedField
  | 6 => if bits w 5 2 = 0 ∧ bits w 11 5 = 0 then .ok (.vabs (field 5 w 21) (field 5 w 16) (field 4 w 7)) else .error .unusedField
  | 7 => if bits w 5 2 = 0 ∧ bits w 11 5 = 0 then .ok (.vneg (field 5 w 21) (field 5 w 16) (field 4 w 7)) else .error .unusedField
  | 8 => if bits w 5 6 = 0 then .ok (.vdiv (field 5 w 21) (field 5 w 16) (field 5 w 11)) else .error .unusedField
  | 9 => if bits w 5 11 = 0 then .ok (.vsqrt (field 5 w 21) (field 5 w 16)) else .error .unusedField
  | 10 => if bits w 5 11 = 0 then .ok (.vexp2 (field 5 w 21) (field 5 w 16)) else .error .unusedField
  | 11 => if bits w 5 2 = 0 then .ok (.vand (field 5 w 21) (field 5 w 16) (field 5 w 11) (field 4 w 7)) else .error .unusedField
  | 12 => if bits w 5 2 = 0 then .ok (.vor (field 5 w 21) (field 5 w 16) (field 5 w 11) (field 4 w 7)) else .error .unusedField
  | 13 => if bits w 5 2 = 0 then .ok (.vxor (field 5 w 21) (field 5 w 16) (field 5 w 11) (field 4 w 7)) else .error .unusedField
  | 14 => if bits w 5 2 = 0 then .ok (.vshl (field 5 w 21) (field 5 w 16) (field 5 w 11) (field 4 w 7)) else .error .unusedField
  | 15 => if bits w 5 2 = 0 then .ok (.vshr (field 5 w 21) (field 5 w 16) (field 5 w 11) (field 4 w 7)) else .error .unusedField
  | _ => .error .unassignedFunction

/-- Major 0x21 (R91). -/
def decodeVecCompare (w : Nat) : Except Reject Instr :=
  match bits w 0 5 with
  | 0 => if bits w 5 2 = 0 then .ok (.vceq (field 5 w 21) (field 5 w 16) (field 5 w 11) (field 4 w 7)) else .error .unusedField
  | 1 => if bits w 5 2 = 0 then .ok (.vclt (field 5 w 21) (field 5 w 16) (field 5 w 11) (field 4 w 7)) else .error .unusedField
  | 2 => if bits w 5 2 = 0 then .ok (.vcle (field 5 w 21) (field 5 w 16) (field 5 w 11) (field 4 w 7)) else .error .unusedField
  | 3 => if bits w 5 2 = 0 then .ok (.vsel (field 5 w 21) (field 5 w 16) (field 5 w 11) (field 4 w 7)) else .error .unusedField
  | _ => .error .unassignedFunction

/-- Major 0x22 (R91). -/
def decodeVecReduce (w : Nat) : Except Reject Instr :=
  match bits w 0 5 with
  | 0 => if bits w 5 2 = 0 ∧ bits w 11 5 = 0 then .ok (.vrsum (field 5 w 21) (field 5 w 16) (field 4 w 7)) else .error .unusedField
  | 1 => if bits w 5 2 = 0 ∧ bits w 11 5 = 0 then .ok (.vrmax (field 5 w 21) (field 5 w 16) (field 4 w 7)) else .error .unusedField
  | 2 => if bits w 5 2 = 0 ∧ bits w 11 5 = 0 then .ok (.vrmin (field 5 w 21) (field 5 w 16) (field 4 w 7)) else .error .unusedField
  | _ => .error .unassignedFunction

/-- Major 0x23 (R91). -/
def decodeVecLane (w : Nat) : Except Reject Instr :=
  match bits w 0 5 with
  | 0 => if bits w 5 2 = 0 then .ok (.vperm (field 5 w 21) (field 5 w 16) (field 5 w 11) (field 4 w 7)) else .error .unusedField
  | 1 => if bits w 5 2 = 0 then .ok (.vrot (field 5 w 21) (field 5 w 16) (field 5 w 11) (field 4 w 7)) else .error .unusedField
  | 2 => if bits w 5 2 = 0 ∧ bits w 11 5 = 0 then .ok (.vbcst (field 5 w 21) (field 5 w 16) (field 4 w 7)) else .error .unusedField
  | 3 => if bits w 5 2 = 0 then .ok (.vext (field 5 w 21) (field 5 w 16) (field 5 w 11) (field 4 w 7)) else .error .unusedField
  | 4 => if bits w 5 2 = 0 then .ok (.vins (field 5 w 21) (field 5 w 16) (field 5 w 11) (field 4 w 7)) else .error .unusedField
  | _ => .error .unassignedFunction

/-- Major 0x24 (R91). -/
def decodeVecConvert (w : Nat) : Except Reject Instr :=
  match bits w 0 5 with
  | 0 => if bits w 5 2 = 0 ∧ bits w 15 1 = 0 then .ok (.vcvt (field 5 w 21) (field 5 w 16) (field 4 w 11) (field 4 w 7)) else .error .unusedField
  | 1 => if bits w 5 11 = 0 then .ok (.vmov (field 5 w 21) (field 5 w 16)) else .error .unusedField
  | _ => .error .unassignedFunction

/-- Major 0x2C (R91). -/
def decodeCommand (w : Nat) : Except Reject Instr :=
  match bits w 4 12 with
  | 0 => .ok (.mma (field 5 w 21) (field 5 w 16) (field 4 w 0))
  | 1 => if bits w 2 1 = 0 then .ok (.mmag (field 5 w 21) (field 5 w 16) (field 1 w 3) (field 2 w 0)) else .error .unusedField
  | 2 => .ok (.mmas (field 5 w 21) (field 5 w 16) (field 4 w 0))
  | 3 => .ok (.mrot (field 5 w 21) (field 5 w 16) (field 4 w 0))
  | 4 => if bits w 2 2 = 0 ∧ bits w 16 10 = 0 then .ok (.mzero (field 2 w 0)) else .error .unusedField
  | 5 => if bits w 3 1 = 0 ∧ bits w 16 5 = 0 then .ok (.mld (field 5 w 21) (field 1 w 2) (field 2 w 0)) else .error .unusedField
  | 6 => if bits w 2 2 = 0 ∧ bits w 16 5 = 0 then .ok (.mst (field 5 w 21) (field 2 w 0)) else .error .unusedField
  | 256 => .ok (.cvt (field 5 w 21) (field 5 w 16) (field 1 w 3) (field 3 w 0))
  | 257 => .ok (.cvb (field 5 w 21) (field 5 w 16) (field 1 w 3) (field 3 w 0))
  | 258 => .ok (.cvq (field 5 w 21) (field 5 w 16) (field 1 w 3) (field 3 w 0))
  | 259 => .ok (.cvqn (field 5 w 21) (field 5 w 16) (field 1 w 3) (field 3 w 0))
  | 260 => .ok (.cvqnq (field 5 w 21) (field 5 w 16) (field 1 w 3) (field 3 w 0))
  | 261 => .ok (.cvtr (field 5 w 21) (field 5 w 16) (field 1 w 3) (field 3 w 0))
  | 512 => if bits w 2 2 = 0 then .ok (.twld (field 5 w 21) (field 5 w 16) (field 2 w 0)) else .error .unusedField
  | 513 => if bits w 2 2 = 0 then .ok (.twmc (field 5 w 21) (field 5 w 16) (field 2 w 0)) else .error .unusedField
  | 514 => if bits w 2 2 = 0 then .ok (.twst (field 5 w 21) (field 5 w 16) (field 2 w 0)) else .error .unusedField
  | 768 => if bits w 2 2 = 0 then .ok (.kbnd (field 5 w 21) (field 5 w 16) (field 2 w 0)) else .error .unusedField
  | 769 => if bits w 2 2 = 0 then .ok (.ksel (field 5 w 21) (field 5 w 16) (field 2 w 0)) else .error .unusedField
  | 770 => if bits w 2 2 = 0 ∧ bits w 16 10 = 0 then .ok (.krst (field 2 w 0)) else .error .unusedField
  | 1024 => if bits w 2 2 = 0 then .ok (.sgg (field 5 w 21) (field 5 w 16) (field 2 w 0)) else .error .unusedField
  | 1280 => if bits w 0 4 = 0 ∧ bits w 16 5 = 0 then .ok (.tidld (field 5 w 21)) else .error .unusedField
  | 1281 => if bits w 0 4 = 0 ∧ bits w 16 5 = 0 then .ok (.tidinv (field 5 w 21)) else .error .unusedField
  | 1282 => if bits w 0 4 = 0 ∧ bits w 16 5 = 0 then .ok (.tcls (field 5 w 21)) else .error .unusedField
  | 1536 => if bits w 2 2 = 0 then .ok (.wstart (field 5 w 21) (field 5 w 16) (field 2 w 0)) else .error .unusedField
  | 1537 => if bits w 2 2 = 0 ∧ bits w 16 10 = 0 then .ok (.wstop (field 2 w 0)) else .error .unusedField
  | 1792 => if bits w 2 2 = 0 then .ok (.bcopy (field 5 w 21) (field 5 w 16) (field 2 w 0)) else .error .unusedField
  | 1793 => if bits w 2 2 = 0 then .ok (.bfill (field 5 w 21) (field 5 w 16) (field 2 w 0)) else .error .unusedField
  | _ => .error .unassignedFunction

/-- Major 0x2D (R91). -/
def decodeEset (w : Nat) : Except Reject Instr :=
  if bits w 16 5 = 0 then .ok (.eset (field 5 w 21) (field 4 w 12) (field 8 w 4) (field 4 w 0)) else .error .unusedField

/-- Major 0x2E (R91). -/
def decodeEget (w : Nat) : Except Reject Instr :=
  if bits w 16 5 = 0 then .ok (.eget (field 5 w 21) (field 4 w 12) (field 8 w 4) (field 4 w 0)) else .error .unusedField

/-- Major 0x34 (R91). -/
def decodeTask (w : Nat) : Except Reject Instr :=
  match bits w 0 6 with
  | 0 => if bits w 6 5 = 0 ∧ bits w 21 5 = 0 then .ok (.spawn (field 5 w 16) (field 5 w 11)) else .error .unusedField
  | 1 => if bits w 6 10 = 0 ∧ bits w 21 5 = 0 then .ok (.launch (field 5 w 16)) else .error .unusedField
  | 2 => if bits w 6 20 = 0 then .ok .retire else .error .unusedField
  | 3 => if bits w 6 20 = 0 then .ok .yield else .error .unusedField
  | 4 => if bits w 6 5 = 0 ∧ bits w 21 5 = 0 then .ok (.msend (field 5 w 16) (field 5 w 11)) else .error .unusedField
  | _ => .error .unassignedFunction

/-- Major 0x35 (R91). -/
def decodeCounter (w : Nat) : Except Reject Instr :=
  match bits w 0 6 with
  | 0 => if bits w 6 2 = 0 ∧ bits w 21 5 = 0 then .ok (.cadd (field 5 w 16) (field 5 w 11) (field 3 w 8)) else .error .unusedField
  | 1 => if bits w 6 2 = 0 then .ok (.caddo (field 5 w 21) (field 5 w 16) (field 5 w 11) (field 3 w 8)) else .error .unusedField
  | 2 => if bits w 6 2 = 0 then .ok (.cwait (field 5 w 21) (field 5 w 16) (field 5 w 11) (field 3 w 8)) else .error .unusedField
  | 3 => if bits w 6 2 = 0 then .ok (.cwaitt (field 5 w 21) (field 5 w 16) (field 5 w 11) (field 3 w 8)) else .error .unusedField
  | _ => .error .unassignedFunction

/-- Major 0x36 (R91). -/
def decodeCb (w : Nat) : Except Reject Instr :=
  match bits w 13 4 with
  | 0 => if bits w 9 4 = 0 then .ok (.cbwp (field 5 w 21) (field 4 w 17) (field 9 w 0)) else .error .unusedField
  | 1 => if bits w 9 4 = 0 then .ok (.cbwc (field 5 w 21) (field 4 w 17) (field 9 w 0)) else .error .unusedField
  | 2 => if bits w 9 4 = 0 then .ok (.cbap (field 5 w 21) (field 4 w 17) (field 9 w 0)) else .error .unusedField
  | 3 => if bits w 9 4 = 0 then .ok (.cbac (field 5 w 21) (field 4 w 17) (field 9 w 0)) else .error .unusedField
  | 4 => if bits w 0 13 = 0 then .ok (.cbstat (field 5 w 21) (field 4 w 17)) else .error .unusedField
  | _ => .error .unassignedFunction

/-- Major 0x37 (R91). -/
def decodeMarker (w : Nat) : Except Reject Instr :=
  match bits w 13 4 with
  | 0 => if bits w 0 13 = 0 ∧ bits w 21 5 = 0 then .ok (.mark (field 4 w 17)) else .error .unusedField
  | 1 => if bits w 0 13 = 0 ∧ bits w 17 4 = 0 then .ok (.mwait (field 5 w 21)) else .error .unusedField
  | 2 => if bits w 0 13 = 0 ∧ bits w 17 4 = 0 then .ok (.mround (field 5 w 21)) else .error .unusedField
  | _ => .error .unassignedFunction

/-- Major 0x38 (R91). -/
def decodeSystem (w : Nat) : Except Reject Instr :=
  match bits w 0 6 with
  | 0 => if bits w 6 20 = 0 then .ok .ecall else .error .unusedField
  | 1 => if bits w 6 20 = 0 then .ok .mcall else .error .unusedField
  | 2 => if bits w 6 20 = 0 then .ok .eret else .error .unusedField
  | 3 => if bits w 6 20 = 0 then .ok .ifence else .error .unusedField
  | 4 => if bits w 6 20 = 0 then .ok .brk else .error .unusedField
  | 5 => if bits w 6 10 = 0 ∧ bits w 21 5 = 0 then .ok (.xinv (field 5 w 16)) else .error .unusedField
  | 6 => if bits w 6 20 = 0 then .ok .xinva else .error .unusedField
  | 7 => if bits w 6 5 = 0 ∧ bits w 21 5 = 0 then .ok (.qbind (field 5 w 16) (field 5 w 11)) else .error .unusedField
  | 8 => if bits w 6 10 = 0 ∧ bits w 21 5 = 0 then .ok (.qunb (field 5 w 16)) else .error .unusedField
  | 9 => if bits w 6 5 = 0 ∧ bits w 21 5 = 0 then .ok (.slsave (field 5 w 16) (field 5 w 11)) else .error .unusedField
  | 10 => if bits w 6 5 = 0 ∧ bits w 21 5 = 0 then .ok (.slrest (field 5 w 16) (field 5 w 11)) else .error .unusedField
  | 11 => if bits w 6 10 = 0 ∧ bits w 21 5 = 0 then .ok (.slkill (field 5 w 16)) else .error .unusedField
  | _ => .error .unassignedFunction

/-- Major 0x3F (R91). -/
def decodeHint (w : Nat) : Except Reject Instr :=
  .ok (.hint (field 26 w 0))

/-- Decode tests 1 to 3 of R74 on the bits of a word that a Tvedpen core fetches. (DEDUCED: log entry 77.) -/
def decodeFields (w : Nat) : Except Reject Instr :=
  match bits w 26 6 with
  | 1 => decodeInteger w
  | 2 => decodeAddi w
  | 3 => decodeAndi w
  | 4 => decodeOri w
  | 5 => decodeXori w
  | 6 => decodeShift w
  | 7 => decodeSlti w
  | 8 => decodeLi w
  | 9 => decodeLsi w
  | 10 => decodePointer w
  | 11 => decodeControl w
  | 12 => decodeFp w
  | 16 => decodeBeq w
  | 17 => decodeBne w
  | 18 => decodeBltS w
  | 19 => decodeBgeS w
  | 20 => decodeBltZ w
  | 21 => decodeBgeZ w
  | 22 => decodeJal w
  | 23 => decodeJump w
  | 24 => decodeLoad w
  | 25 => decodeStore w
  | 26 => decodePointerMem w
  | 27 => decodeVectorMem w
  | 28 => decodeOrder w
  | 29 => decodeTaint w
  | 30 => decodeAtomic w
  | 31 => decodeSubByte w
  | 32 => decodeVecArith w
  | 33 => decodeVecCompare w
  | 34 => decodeVecReduce w
  | 35 => decodeVecLane w
  | 36 => decodeVecConvert w
  | 44 => decodeCommand w
  | 45 => decodeEset w
  | 46 => decodeEget w
  | 52 => decodeTask w
  | 53 => decodeCounter w
  | 54 => decodeCb w
  | 55 => decodeMarker w
  | 56 => decodeSystem w
  | 63 => decodeHint w
  | _ => .error .unassignedMajor

/-- The decoder of the Tvedpen cores: tests 1 to 3 of R74, then what the word alone decides of test 4. -/
def decodeWord (w : InstrWord) : Except Reject Instr :=
  match decodeFields w.toNat with
  | .ok i => if i.wellFormed then .ok i else .error .operandValue
  | .error e => .error e

/-- The fields of a format-walker word (R235). -/
def decodeWalkerFields (w : Nat) : Except Reject Instr :=
  match bits w 28 4 with
  | 1 => .ok (.wli (field 4 w 24) (field 24 w 0))
  | 2 => .ok (.waddi (field 4 w 24) (field 4 w 20) (field 20 w 0))
  | 3 =>
    match bits w 0 4 with
    | 0 => if bits w 4 12 = 0 then .ok (.wadd (field 4 w 24) (field 4 w 20) (field 4 w 16)) else .error .unusedField
    | 1 => if bits w 4 12 = 0 then .ok (.wsub (field 4 w 24) (field 4 w 20) (field 4 w 16)) else .error .unusedField
    | 2 => if bits w 4 12 = 0 then .ok (.wmul (field 4 w 24) (field 4 w 20) (field 4 w 16)) else .error .unusedField
    | 3 => if bits w 4 12 = 0 then .ok (.wand (field 4 w 24) (field 4 w 20) (field 4 w 16)) else .error .unusedField
    | 4 => if bits w 4 12 = 0 then .ok (.wor (field 4 w 24) (field 4 w 20) (field 4 w 16)) else .error .unusedField
    | 5 => if bits w 4 12 = 0 then .ok (.wshl (field 4 w 24) (field 4 w 20) (field 4 w 16)) else .error .unusedField
    | 6 => if bits w 4 12 = 0 then .ok (.wshr (field 4 w 24) (field 4 w 20) (field 4 w 16)) else .error .unusedField
    | 7 => if bits w 4 12 = 0 then .ok (.wminu (field 4 w 24) (field 4 w 20) (field 4 w 16)) else .error .unusedField
    | 8 => if bits w 4 12 = 0 then .ok (.wsltu (field 4 w 24) (field 4 w 20) (field 4 w 16)) else .error .unusedField
    | _ => .error .unassignedFunction
  | 4 => if bits w 19 1 = 1 then .ok (.wld (field 4 w 24) (field 4 w 20) (field 3 w 16) (field 16 w 0)) else .error .unusedField
  | 5 =>
    match bits w 17 3 with
    | 0 => .ok (.wbeq (field 4 w 24) (field 4 w 20) (field 17 w 0))
    | 1 => .ok (.wbne (field 4 w 24) (field 4 w 20) (field 17 w 0))
    | 2 => .ok (.wbltu (field 4 w 24) (field 4 w 20) (field 17 w 0))
    | 3 => .ok (.wbgeu (field 4 w 24) (field 4 w 20) (field 17 w 0))
    | 4 => .ok (.wblts (field 4 w 24) (field 4 w 20) (field 17 w 0))
    | 5 => .ok (.wbges (field 4 w 24) (field 4 w 20) (field 17 w 0))
    | _ => .error .unassignedFunction
  | 6 => if bits w 0 14 = 0 then .ok (.wstrm (field 4 w 24) (field 4 w 20) (field 4 w 16) (field 1 w 15) (field 1 w 14)) else .error .unusedField
  | 7 => if bits w 0 15 = 0 ∧ bits w 16 4 = 0 ∧ bits w 24 4 = 0 then .ok (.wskip (field 4 w 20) (field 1 w 15)) else .error .unusedField
  | 8 => if bits w 0 13 = 0 ∧ bits w 16 8 = 0 then .ok (.wpeek (field 4 w 24) (field 1 w 15) (field 2 w 13)) else .error .unusedField
  | 9 => if bits w 0 16 = 0 ∧ bits w 24 4 = 0 then .ok (.wtile (field 4 w 20) (field 4 w 16)) else .error .unusedField
  | 10 => if bits w 0 14 = 0 ∧ bits w 16 4 = 0 ∧ bits w 24 4 = 0 then .ok (.wscat (field 4 w 20) (field 1 w 15) (field 1 w 14)) else .error .unusedField
  | 11 =>
    match bits w 14 1 with
    | 0 => if bits w 0 14 = 0 ∧ bits w 15 5 = 0 then .ok (.wmrgUn (field 4 w 24) (field 4 w 20)) else .error .unusedField
    | 1 => if bits w 0 14 = 0 ∧ bits w 15 5 = 0 then .ok (.wmrgIs (field 4 w 24) (field 4 w 20)) else .error .unusedField
    | _ => .error .unassignedFunction
  | 12 => if bits w 0 14 = 0 ∧ bits w 15 1 = 0 ∧ bits w 20 8 = 0 then .ok (.wemit (field 4 w 16) (field 1 w 14)) else .error .unusedField
  | 13 => if bits w 0 16 = 0 ∧ bits w 24 4 = 0 then .ok (.wsig (field 4 w 20) (field 4 w 16)) else .error .unusedField
  | 14 => if bits w 0 28 = 0 then .ok .wend else .error .unusedField
  | _ => .error .unassignedMajor

/-- The decoder of the format walker (R236). -/
def decodeWalker (w : InstrWord) : Except Reject Instr :=
  match decodeWalkerFields w.toNat with
  | .ok i => if i.wellFormed then .ok i else .error .operandValue
  | .error e => .error e

/-- A word with a field placed at bit lo and above. -/
def place {n : Nat} (x : BitVec n) (lo w : Nat) : Nat := w + x.toNat * 2 ^ lo

/-- The bits of an instruction's word, written from the encodings of R83 to R95 and R235; a step that is no
word has none. -/
def encodeNat : Instr → Option Nat
  | .add d a b => some (place d 21 (place a 16 (place b 11 0x04000000)))
  | .sub d a b => some (place d 21 (place a 16 (place b 11 0x04000001)))
  | .mul d a b => some (place d 21 (place a 16 (place b 11 0x04000002)))
  | .mulhS64 d a b => some (place d 21 (place a 16 (place b 11 0x04000003)))
  | .mulhZ64 d a b => some (place d 21 (place a 16 (place b 11 0x04000004)))
  | .divS64 d a b => some (place d 21 (place a 16 (place b 11 0x04000005)))
  | .divZ64 d a b => some (place d 21 (place a 16 (place b 11 0x04000006)))
  | .remS64 d a b => some (place d 21 (place a 16 (place b 11 0x04000007)))
  | .remZ64 d a b => some (place d 21 (place a 16 (place b 11 0x04000008)))
  | .and d a b => some (place d 21 (place a 16 (place b 11 0x04000009)))
  | .or d a b => some (place d 21 (place a 16 (place b 11 0x0400000A)))
  | .xor d a b => some (place d 21 (place a 16 (place b 11 0x0400000B)))
  | .shl d a b => some (place d 21 (place a 16 (place b 11 0x0400000C)))
  | .shrZ64 d a b => some (place d 21 (place a 16 (place b 11 0x0400000D)))
  | .shrS64 d a b => some (place d 21 (place a 16 (place b 11 0x0400000E)))
  | .minS64 d a b => some (place d 21 (place a 16 (place b 11 0x0400000F)))
  | .maxS64 d a b => some (place d 21 (place a 16 (place b 11 0x04000010)))
  | .sltS64 d a b => some (place d 21 (place a 16 (place b 11 0x04000011)))
  | .sltZ64 d a b => some (place d 21 (place a 16 (place b 11 0x04000012)))
  | .seq d a b => some (place d 21 (place a 16 (place b 11 0x04000013)))
  | .clz d a => some (place d 21 (place a 16 0x04000014))
  | .popc d a => some (place d 21 (place a 16 0x04000015))
  | .sel d a b c => some (place d 21 (place a 16 (place b 11 (place c 6 0x04000016))))
  | .madd d a b c => some (place d 21 (place a 16 (place b 11 (place c 6 0x04000017))))
  | .ext d a t => some (place d 21 (place a 16 (place t 6 0x04000218)))
  | .addi d a i => some (place d 21 (place a 16 (place i 0 0x08000000)))
  | .andi d a i => some (place d 21 (place a 16 (place i 0 0x0C000000)))
  | .ori d a i => some (place d 21 (place a 16 (place i 0 0x10000000)))
  | .xori d a i => some (place d 21 (place a 16 (place i 0 0x14000000)))
  | .shli d a k => some (place d 21 (place a 16 (place k 0 0x18000000)))
  | .shriZ64 d a k => some (place d 21 (place a 16 (place k 0 0x18000040)))
  | .shriS64 d a k => some (place d 21 (place a 16 (place k 0 0x18000080)))
  | .sltiS64 d a i => some (place d 21 (place a 16 (place i 0 0x1C000000)))
  | .li d i => some (place d 21 (place i 0 0x20000000))
  | .lsi d i => some (place d 21 (place i 0 0x24000000))
  | .pset p a => some (place p 21 (place a 16 0x28000000))
  | .pstep p a => some (place p 21 (place a 16 0x28000001))
  | .pget d p => some (place d 21 (place p 16 0x28000002))
  | .padd p a => some (place p 21 (place a 16 0x28000003))
  | .crrd d c => some (place d 21 (place c 0 0x2C000000))
  | .crwr a c => some (place a 21 (place c 0 0x2C001000))
  | .crset a c => some (place a 21 (place c 0 0x2C002000))
  | .crclr a c => some (place a 21 (place c 0 0x2C003000))
  | .fadd d a b => some (place d 21 (place a 16 (place b 11 0x30000000)))
  | .fsub d a b => some (place d 21 (place a 16 (place b 11 0x30000001)))
  | .fmul d a b => some (place d 21 (place a 16 (place b 11 0x30000002)))
  | .fdiv d a b => some (place d 21 (place a 16 (place b 11 0x30000003)))
  | .fmin d a b => some (place d 21 (place a 16 (place b 11 0x30000004)))
  | .fmax d a b => some (place d 21 (place a 16 (place b 11 0x30000005)))
  | .feq d a b => some (place d 21 (place a 16 (place b 11 0x30000006)))
  | .flt d a b => some (place d 21 (place a 16 (place b 11 0x30000007)))
  | .fle d a b => some (place d 21 (place a 16 (place b 11 0x30000008)))
  | .fma d a b c => some (place d 21 (place a 16 (place b 11 (place c 6 0x30000009))))
  | .fsqrt d a => some (place d 21 (place a 16 0x3000000A))
  | .fabs d a => some (place d 21 (place a 16 0x3000000B))
  | .fcvtS64 d a => some (place d 21 (place a 16 0x3000000C))
  | .fcvtiS64 d a => some (place d 21 (place a 16 0x3000000D))
  | .fxsd d a => some (place d 21 (place a 16 0x3000000E))
  | .fxse d a => some (place d 21 (place a 16 0x3000000F))
  | .beq a b o => some (place a 21 (place b 16 (place o 0 0x40000000)))
  | .bne a b o => some (place a 21 (place b 16 (place o 0 0x44000000)))
  | .bltS64 a b o => some (place a 21 (place b 16 (place o 0 0x48000000)))
  | .bgeS64 a b o => some (place a 21 (place b 16 (place o 0 0x4C000000)))
  | .bltZ64 a b o => some (place a 21 (place b 16 (place o 0 0x50000000)))
  | .bgeZ64 a b o => some (place a 21 (place b 16 (place o 0 0x54000000)))
  | .jal o => some (place o 0 0x58000000)
  | .jr a => some (place a 16 0x5C000000)
  | .jalr d a => some (place d 21 (place a 16 0x5C001000))
  | .rep s c n k => some (place s 21 (place c 16 (place n 8 (place k 0 0x5C002000))))
  | .ld t a y o => some (place t 21 (place a 16 (place y 12 (place o 0 0x60008000))))
  | .st t a y o => some (place t 21 (place a 16 (place y 12 (place o 0 0x64008000))))
  | .ldp t p y o => some (place t 21 (place p 18 (place y 12 (place o 0 0x68008000))))
  | .ldpi t p y => some (place t 21 (place p 18 (place y 12 0x68018000)))
  | .stp t p y o => some (place t 21 (place p 18 (place y 12 (place o 0 0x68028000))))
  | .stpi t p y => some (place t 21 (place p 18 (place y 12 0x68038000)))
  | .vld v a o => some (place v 21 (place a 16 (place o 0 0x6C000000)))
  | .vst v a o => some (place v 21 (place a 16 (place o 0 0x6C001000)))
  | .vldp v p o => some (place v 21 (place p 16 (place o 0 0x6C002000)))
  | .vstp v p o => some (place v 21 (place p 16 (place o 0 0x6C003000)))
  | .lda t a s y => some (place t 21 (place a 16 (place s 9 (place y 5 0x70000100))))
  | .stl t a s y => some (place t 21 (place a 16 (place s 9 (place y 5 0x70001100))))
  | .fence s => some (place s 9 0x70002000)
  | .tclr d => some (place d 21 0x74000000)
  | .tdep d a => some (place d 21 (place a 16 0x74000001))
  | .vtclr d => some (place d 21 0x74000002)
  | .vtdep d a => some (place d 21 (place a 16 0x74000003))
  | .aswap t a b s w => some (place t 21 (place a 16 (place b 11 (place s 8 (place w 7 0x78000000)))))
  | .acas t a b s w => some (place t 21 (place a 16 (place b 11 (place s 8 (place w 7 0x78000001)))))
  | .aadd t a b s w => some (place t 21 (place a 16 (place b 11 (place s 8 (place w 7 0x78000002)))))
  | .aand t a b s w => some (place t 21 (place a 16 (place b 11 (place s 8 (place w 7 0x78000003)))))
  | .aor t a b s w => some (place t 21 (place a 16 (place b 11 (place s 8 (place w 7 0x78000004)))))
  | .axor t a b s w => some (place t 21 (place a 16 (place b 11 (place s 8 (place w 7 0x78000005)))))
  | .amin t a b s w g => some (place t 21 (place a 16 (place b 11 (place s 8 (place w 7 (place g 6 0x78000006))))))
  | .amax t a b s w g => some (place t 21 (place a 16 (place b 11 (place s 8 (place w 7 (place g 6 0x78000007))))))
  | .afadd t a b s => some (place t 21 (place a 16 (place b 11 (place s 8 0x78000008))))
  | .radd a b s w => some (place a 16 (place b 11 (place s 8 (place w 7 0x78000009))))
  | .rfadd a b s => some (place a 16 (place b 11 (place s 8 0x7800000A)))
  | .stn4 t a o => some (place t 21 (place a 16 (place o 0 0x7C000000)))
  | .vadd d a b y m => some (place d 21 (place a 16 (place b 11 (place y 7 (place m 5 0x80000000)))))
  | .vsub d a b y m => some (place d 21 (place a 16 (place b 11 (place y 7 (place m 5 0x80000001)))))
  | .vmul d a b y m => some (place d 21 (place a 16 (place b 11 (place y 7 (place m 5 0x80000002)))))
  | .vfma d a b y => some (place d 21 (place a 16 (place b 11 (place y 7 0x80000003))))
  | .vmin d a b y => some (place d 21 (place a 16 (place b 11 (place y 7 0x80000004))))
  | .vmax d a b y => some (place d 21 (place a 16 (place b 11 (place y 7 0x80000005))))
  | .vabs d a y => some (place d 21 (place a 16 (place y 7 0x80000006)))
  | .vneg d a y => some (place d 21 (place a 16 (place y 7 0x80000007)))
  | .vdiv d a b => some (place d 21 (place a 16 (place b 11 0x80000008)))
  | .vsqrt d a => some (place d 21 (place a 16 0x80000009))
  | .vexp2 d a => some (place d 21 (place a 16 0x8000000A))
  | .vand d a b y => some (place d 21 (place a 16 (place b 11 (place y 7 0x8000000B))))
  | .vor d a b y => some (place d 21 (place a 16 (place b 11 (place y 7 0x8000000C))))
  | .vxor d a b y => some (place d 21 (place a 16 (place b 11 (place y 7 0x8000000D))))
  | .vshl d a b y => some (place d 21 (place a 16 (place b 11 (place y 7 0x8000000E))))
  | .vshr d a b y => some (place d 21 (place a 16 (place b 11 (place y 7 0x8000000F))))
  | .vceq d a b y => some (place d 21 (place a 16 (place b 11 (place y 7 0x84000000))))
  | .vclt d a b y => some (place d 21 (place a 16 (place b 11 (place y 7 0x84000001))))
  | .vcle d a b y => some (place d 21 (place a 16 (place b 11 (place y 7 0x84000002))))
  | .vsel d a b y => some (place d 21 (place a 16 (place b 11 (place y 7 0x84000003))))
  | .vrsum d a y => some (place d 21 (place a 16 (place y 7 0x88000000)))
  | .vrmax d a y => some (place d 21 (place a 16 (place y 7 0x88000001)))
  | .vrmin d a y => some (place d 21 (place a 16 (place y 7 0x88000002)))
  | .vperm d a b y => some (place d 21 (place a 16 (place b 11 (place y 7 0x8C000000))))
  | .vrot d a b y => some (place d 21 (place a 16 (place b 11 (place y 7 0x8C000001))))
  | .vbcst d a y => some (place d 21 (place a 16 (place y 7 0x8C000002)))
  | .vext d a b y => some (place d 21 (place a 16 (place b 11 (place y 7 0x8C000003))))
  | .vins d a b y => some (place d 21 (place a 16 (place b 11 (place y 7 0x8C000004))))
  | .vcvt d a s y => some (place d 21 (place a 16 (place s 11 (place y 7 0x90000000))))
  | .vmov d a => some (place d 21 (place a 16 0x90000001))
  | .mma a b s => some (place a 21 (place b 16 (place s 0 0xB0000000)))
  | .mmag a b m c => some (place a 21 (place b 16 (place m 3 (place c 0 0xB0000010))))
  | .mmas a b s => some (place a 21 (place b 16 (place s 0 0xB0000020)))
  | .mrot a b s => some (place a 21 (place b 16 (place s 0 0xB0000030)))
  | .mzero c => some (place c 0 0xB0000040)
  | .mld a m c => some (place a 21 (place m 2 (place c 0 0xB0000050)))
  | .mst a c => some (place a 21 (place c 0 0xB0000060))
  | .cvt a b m r => some (place a 21 (place b 16 (place m 3 (place r 0 0xB0001000))))
  | .cvb a b m r => some (place a 21 (place b 16 (place m 3 (place r 0 0xB0001010))))
  | .cvq a b m r => some (place a 21 (place b 16 (place m 3 (place r 0 0xB0001020))))
  | .cvqn a b m r => some (place a 21 (place b 16 (place m 3 (place r 0 0xB0001030))))
  | .cvqnq a b m r => some (place a 21 (place b 16 (place m 3 (place r 0 0xB0001040))))
  | .cvtr a b m r => some (place a 21 (place b 16 (place m 3 (place r 0 0xB0001050))))
  | .twld a b s => some (place a 21 (place b 16 (place s 0 0xB0002000)))
  | .twmc a b s => some (place a 21 (place b 16 (place s 0 0xB0002010)))
  | .twst a b s => some (place a 21 (place b 16 (place s 0 0xB0002020)))
  | .kbnd a b s => some (place a 21 (place b 16 (place s 0 0xB0003000)))
  | .ksel a b s => some (place a 21 (place b 16 (place s 0 0xB0003010)))
  | .krst s => some (place s 0 0xB0003020)
  | .sgg a b s => some (place a 21 (place b 16 (place s 0 0xB0004000)))
  | .tidld a => some (place a 21 0xB0005000)
  | .tidinv a => some (place a 21 0xB0005010)
  | .tcls a => some (place a 21 0xB0005020)
  | .wstart a b s => some (place a 21 (place b 16 (place s 0 0xB0006000)))
  | .wstop s => some (place s 0 0xB0006010)
  | .bcopy a b s => some (place a 21 (place b 16 (place s 0 0xB0007000)))
  | .bfill a b s => some (place a 21 (place b 16 (place s 0 0xB0007010)))
  | .eset a e r s => some (place a 21 (place e 12 (place r 4 (place s 0 0xB4000000))))
  | .eget d e r s => some (place d 21 (place e 12 (place r 4 (place s 0 0xB8000000))))
  | .spawn a b => some (place a 16 (place b 11 0xD0000000))
  | .launch a => some (place a 16 0xD0000001)
  | .retire => some (0xD0000002)
  | .yield => some (0xD0000003)
  | .msend a b => some (place a 16 (place b 11 0xD0000004))
  | .cadd a b s => some (place a 16 (place b 11 (place s 8 0xD4000000)))
  | .caddo t a b s => some (place t 21 (place a 16 (place b 11 (place s 8 0xD4000001))))
  | .cwait t a b s => some (place t 21 (place a 16 (place b 11 (place s 8 0xD4000002))))
  | .cwaitt t a b s => some (place t 21 (place a 16 (place b 11 (place s 8 0xD4000003))))
  | .cbwp a h n => some (place a 21 (place h 17 (place n 0 0xD8000000)))
  | .cbwc a h n => some (place a 21 (place h 17 (place n 0 0xD8002000)))
  | .cbap a h n => some (place a 21 (place h 17 (place n 0 0xD8004000)))
  | .cbac a h n => some (place a 21 (place h 17 (place n 0 0xD8006000)))
  | .cbstat d h => some (place d 21 (place h 17 0xD8008000))
  | .mark h => some (place h 17 0xDC000000)
  | .mwait a => some (place a 21 0xDC002000)
  | .mround d => some (place d 21 0xDC004000)
  | .ecall => some (0xE0000000)
  | .mcall => some (0xE0000001)
  | .eret => some (0xE0000002)
  | .ifence => some (0xE0000003)
  | .brk => some (0xE0000004)
  | .xinv a => some (place a 16 0xE0000005)
  | .xinva => some (0xE0000006)
  | .qbind a b => some (place a 16 (place b 11 0xE0000007))
  | .qunb a => some (place a 16 0xE0000008)
  | .slsave a b => some (place a 16 (place b 11 0xE0000009))
  | .slrest a b => some (place a 16 (place b 11 0xE000000A))
  | .slkill a => some (place a 16 0xE000000B)
  | .hint h => some (place h 0 0xFC000000)
  | .wli d i => some (place d 24 (place i 0 0x10000000))
  | .waddi d a i => some (place d 24 (place a 20 (place i 0 0x20000000)))
  | .wadd d a b => some (place d 24 (place a 20 (place b 16 0x30000000)))
  | .wsub d a b => some (place d 24 (place a 20 (place b 16 0x30000001)))
  | .wmul d a b => some (place d 24 (place a 20 (place b 16 0x30000002)))
  | .wand d a b => some (place d 24 (place a 20 (place b 16 0x30000003)))
  | .wor d a b => some (place d 24 (place a 20 (place b 16 0x30000004)))
  | .wshl d a b => some (place d 24 (place a 20 (place b 16 0x30000005)))
  | .wshr d a b => some (place d 24 (place a 20 (place b 16 0x30000006)))
  | .wminu d a b => some (place d 24 (place a 20 (place b 16 0x30000007)))
  | .wsltu d a b => some (place d 24 (place a 20 (place b 16 0x30000008)))
  | .wld d a y o => some (place d 24 (place a 20 (place y 16 (place o 0 0x40080000))))
  | .wbeq a b o => some (place a 24 (place b 20 (place o 0 0x50000000)))
  | .wbne a b o => some (place a 24 (place b 20 (place o 0 0x50020000)))
  | .wbltu a b o => some (place a 24 (place b 20 (place o 0 0x50040000)))
  | .wbgeu a b o => some (place a 24 (place b 20 (place o 0 0x50060000)))
  | .wblts a b o => some (place a 24 (place b 20 (place o 0 0x50080000)))
  | .wbges a b o => some (place a 24 (place b 20 (place o 0 0x500A0000)))
  | .wstrm c v n s d => some (place c 24 (place v 20 (place n 16 (place s 15 (place d 14 0x60000000)))))
  | .wskip a s => some (place a 20 (place s 15 0x70000000))
  | .wpeek d s e => some (place d 24 (place s 15 (place e 13 0x80000000)))
  | .wtile a b => some (place a 20 (place b 16 0x90000000))
  | .wscat a s t => some (place a 20 (place s 15 (place t 14 0xA0000000)))
  | .wmrgUn d a => some (place d 24 (place a 20 0xB0000000))
  | .wmrgIs d a => some (place d 24 (place a 20 0xB0004000))
  | .wemit h t => some (place h 16 (place t 14 0xC0000000))
  | .wsig a b => some (place a 20 (place b 16 0xD0000000))
  | .wend => some (0xE0000000)
  | _ => none

/-- The word of an instruction, or none for a step that is no word. -/
def encode (i : Instr) : Option InstrWord := (encodeNat i).map (BitVec.ofNat 32)

/-- The instruction that a word of the opcode table's numbering stands for: the Tvedpen decoder's
answer where it has one, else the format walker's. Words are 32 bits, stored little-endian (R73, R235),
so the table's numbering of the bits is the word's own. (DEDUCED: log entry 77.) -/
def decodeTableWord (nbits w : Nat) : Option Instr :=
  if nbits > 32 ∨ w ≥ 2 ^ 32 then none
  else
    match decodeWord (BitVec.ofNat 32 w) with
    | .ok i => some i
    | .error _ =>
      match decodeWalker (BitVec.ofNat 32 w) with
      | .ok i => some i
      | .error _ => none

end Sys2Proof
end

