-- ==== Sys2Proof/Machine/Operands.lean ====
section
/-! DEFINITION. What each instruction's fields name (R91 to R95): the scalar and vector registers it
reads, writes or only marks, on which cores it may issue (R87, R167), at which level (R95, R403), and how
a pass of REP renumbers it (R162). -/

namespace Sys2Proof

/-- The registers an instruction's fields name: scalars read, scalars written, vectors read, vectors
written, and those of which only the taint mask is read or written (R289). -/
structure Operands where
  sRead : List (BitVec 5)
  sWrite : List (BitVec 5)
  vRead : List (BitVec 5)
  vWrite : List (BitVec 5)
  sMask : List (BitVec 5)
  vMask : List (BitVec 5)
  deriving DecidableEq, Repr

/-- The registers an instruction names (R91 to R95); JAL names s31 (R159). -/
def Instr.operands : Instr → Operands
  | .add d a b => ⟨[a, b], [d], [], [], [], []⟩
  | .sub d a b => ⟨[a, b], [d], [], [], [], []⟩
  | .mul d a b => ⟨[a, b], [d], [], [], [], []⟩
  | .mulhS64 d a b => ⟨[a, b], [d], [], [], [], []⟩
  | .mulhZ64 d a b => ⟨[a, b], [d], [], [], [], []⟩
  | .divS64 d a b => ⟨[a, b], [d], [], [], [], []⟩
  | .divZ64 d a b => ⟨[a, b], [d], [], [], [], []⟩
  | .remS64 d a b => ⟨[a, b], [d], [], [], [], []⟩
  | .remZ64 d a b => ⟨[a, b], [d], [], [], [], []⟩
  | .and d a b => ⟨[a, b], [d], [], [], [], []⟩
  | .or d a b => ⟨[a, b], [d], [], [], [], []⟩
  | .xor d a b => ⟨[a, b], [d], [], [], [], []⟩
  | .shl d a b => ⟨[a, b], [d], [], [], [], []⟩
  | .shrZ64 d a b => ⟨[a, b], [d], [], [], [], []⟩
  | .shrS64 d a b => ⟨[a, b], [d], [], [], [], []⟩
  | .minS64 d a b => ⟨[a, b], [d], [], [], [], []⟩
  | .maxS64 d a b => ⟨[a, b], [d], [], [], [], []⟩
  | .sltS64 d a b => ⟨[a, b], [d], [], [], [], []⟩
  | .sltZ64 d a b => ⟨[a, b], [d], [], [], [], []⟩
  | .seq d a b => ⟨[a, b], [d], [], [], [], []⟩
  | .clz d a => ⟨[a], [d], [], [], [], []⟩
  | .popc d a => ⟨[a], [d], [], [], [], []⟩
  | .sel d a b c => ⟨[a, b, c], [d], [], [], [], []⟩
  | .madd d a b c => ⟨[a, b, c], [d], [], [], [], []⟩
  | .ext d a _ => ⟨[a], [d], [], [], [], []⟩
  | .addi d a _ => ⟨[a], [d], [], [], [], []⟩
  | .andi d a _ => ⟨[a], [d], [], [], [], []⟩
  | .ori d a _ => ⟨[a], [d], [], [], [], []⟩
  | .xori d a _ => ⟨[a], [d], [], [], [], []⟩
  | .shli d a _ => ⟨[a], [d], [], [], [], []⟩
  | .shriZ64 d a _ => ⟨[a], [d], [], [], [], []⟩
  | .shriS64 d a _ => ⟨[a], [d], [], [], [], []⟩
  | .sltiS64 d a _ => ⟨[a], [d], [], [], [], []⟩
  | .li d _ => ⟨[], [d], [], [], [], []⟩
  | .lsi d _ => ⟨[d], [d], [], [], [], []⟩
  | .pset _ a => ⟨[a], [], [], [], [], []⟩
  | .pstep _ a => ⟨[a], [], [], [], [], []⟩
  | .pget d _ => ⟨[], [d], [], [], [], []⟩
  | .padd _ a => ⟨[a], [], [], [], [], []⟩
  | .crrd d _ => ⟨[], [d], [], [], [], []⟩
  | .crwr a _ => ⟨[a], [], [], [], [], []⟩
  | .crset a _ => ⟨[a], [], [], [], [], []⟩
  | .crclr a _ => ⟨[a], [], [], [], [], []⟩
  | .fadd d a b => ⟨[a, b], [d], [], [], [], []⟩
  | .fsub d a b => ⟨[a, b], [d], [], [], [], []⟩
  | .fmul d a b => ⟨[a, b], [d], [], [], [], []⟩
  | .fdiv d a b => ⟨[a, b], [d], [], [], [], []⟩
  | .fmin d a b => ⟨[a, b], [d], [], [], [], []⟩
  | .fmax d a b => ⟨[a, b], [d], [], [], [], []⟩
  | .feq d a b => ⟨[a, b], [d], [], [], [], []⟩
  | .flt d a b => ⟨[a, b], [d], [], [], [], []⟩
  | .fle d a b => ⟨[a, b], [d], [], [], [], []⟩
  | .fma d a b c => ⟨[a, b, c], [d], [], [], [], []⟩
  | .fsqrt d a => ⟨[a], [d], [], [], [], []⟩
  | .fabs d a => ⟨[a], [d], [], [], [], []⟩
  | .fcvtS64 d a => ⟨[a], [d], [], [], [], []⟩
  | .fcvtiS64 d a => ⟨[a], [d], [], [], [], []⟩
  | .fxsd d a => ⟨[a], [d], [], [], [], []⟩
  | .fxse d a => ⟨[a], [d], [], [], [], []⟩
  | .beq a b _ => ⟨[a, b], [], [], [], [], []⟩
  | .bne a b _ => ⟨[a, b], [], [], [], [], []⟩
  | .bltS64 a b _ => ⟨[a, b], [], [], [], [], []⟩
  | .bgeS64 a b _ => ⟨[a, b], [], [], [], [], []⟩
  | .bltZ64 a b _ => ⟨[a, b], [], [], [], [], []⟩
  | .bgeZ64 a b _ => ⟨[a, b], [], [], [], [], []⟩
  | .jal _ => ⟨[], [31], [], [], [], []⟩
  | .jr a => ⟨[a], [], [], [], [], []⟩
  | .jalr d a => ⟨[a], [d], [], [], [], []⟩
  | .rep _ c _ _ => ⟨[c], [], [], [], [], []⟩
  | .ld t a _ _ => ⟨[a], [t], [], [], [], []⟩
  | .st t a _ _ => ⟨[t, a], [], [], [], [], []⟩
  | .ldp t _ _ _ => ⟨[], [t], [], [], [], []⟩
  | .ldpi t _ _ => ⟨[], [t], [], [], [], []⟩
  | .stp t _ _ _ => ⟨[t], [], [], [], [], []⟩
  | .stpi t _ _ => ⟨[t], [], [], [], [], []⟩
  | .vld v a _ => ⟨[a], [], [], [v], [], []⟩
  | .vst v a _ => ⟨[a], [], [v], [], [], []⟩
  | .vldp v _ _ => ⟨[], [], [], [v], [], []⟩
  | .vstp v _ _ => ⟨[], [], [v], [], [], []⟩
  | .lda t a _ _ => ⟨[a], [t], [], [], [], []⟩
  | .stl t a _ _ => ⟨[t, a], [], [], [], [], []⟩
  | .tclr d => ⟨[], [], [], [], [d], []⟩
  | .tdep d a => ⟨[], [], [], [], [d, a], []⟩
  | .vtclr d => ⟨[], [], [], [], [], [d]⟩
  | .vtdep d a => ⟨[], [], [], [], [], [d, a]⟩
  | .aswap t a b _ _ => ⟨[a, b], [t], [], [], [], []⟩
  | .acas t a b _ _ => ⟨[t, a, b], [t], [], [], [], []⟩
  | .aadd t a b _ _ => ⟨[a, b], [t], [], [], [], []⟩
  | .aand t a b _ _ => ⟨[a, b], [t], [], [], [], []⟩
  | .aor t a b _ _ => ⟨[a, b], [t], [], [], [], []⟩
  | .axor t a b _ _ => ⟨[a, b], [t], [], [], [], []⟩
  | .amin t a b _ _ _ => ⟨[a, b], [t], [], [], [], []⟩
  | .amax t a b _ _ _ => ⟨[a, b], [t], [], [], [], []⟩
  | .afadd t a b _ => ⟨[a, b], [t], [], [], [], []⟩
  | .radd a b _ _ => ⟨[a, b], [], [], [], [], []⟩
  | .rfadd a b _ => ⟨[a, b], [], [], [], [], []⟩
  | .stn4 t a _ => ⟨[t, a], [], [], [], [], []⟩
  | .vadd d a b _ _ => ⟨[], [], [a, b], [d], [], []⟩
  | .vsub d a b _ _ => ⟨[], [], [a, b], [d], [], []⟩
  | .vmul d a b _ _ => ⟨[], [], [a, b], [d], [], []⟩
  | .vfma d a b _ => ⟨[], [], [d, a, b], [d], [], []⟩
  | .vmin d a b _ => ⟨[], [], [a, b], [d], [], []⟩
  | .vmax d a b _ => ⟨[], [], [a, b], [d], [], []⟩
  | .vabs d a _ => ⟨[], [], [a], [d], [], []⟩
  | .vneg d a _ => ⟨[], [], [a], [d], [], []⟩
  | .vdiv d a b => ⟨[], [], [a, b], [d], [], []⟩
  | .vsqrt d a => ⟨[], [], [a], [d], [], []⟩
  | .vexp2 d a => ⟨[], [], [a], [d], [], []⟩
  | .vand d a b _ => ⟨[], [], [a, b], [d], [], []⟩
  | .vor d a b _ => ⟨[], [], [a, b], [d], [], []⟩
  | .vxor d a b _ => ⟨[], [], [a, b], [d], [], []⟩
  | .vshl d a b _ => ⟨[], [], [a, b], [d], [], []⟩
  | .vshr d a b _ => ⟨[], [], [a, b], [d], [], []⟩
  | .vceq d a b _ => ⟨[], [], [a, b], [d], [], []⟩
  | .vclt d a b _ => ⟨[], [], [a, b], [d], [], []⟩
  | .vcle d a b _ => ⟨[], [], [a, b], [d], [], []⟩
  | .vsel d a b _ => ⟨[], [], [d, a, b], [d], [], []⟩
  | .vrsum d a _ => ⟨[], [d], [a], [], [], []⟩
  | .vrmax d a _ => ⟨[], [d], [a], [], [], []⟩
  | .vrmin d a _ => ⟨[], [d], [a], [], [], []⟩
  | .vperm d a b _ => ⟨[], [], [a, b], [d], [], []⟩
  | .vrot d a b _ => ⟨[b], [], [a], [d], [], []⟩
  | .vbcst d a _ => ⟨[a], [], [], [d], [], []⟩
  | .vext d a b _ => ⟨[b], [d], [a], [], [], []⟩
  | .vins d a b _ => ⟨[a, b], [], [d], [d], [], []⟩
  | .vcvt d a _ _ => ⟨[], [], [a], [d], [], []⟩
  | .vmov d a => ⟨[], [], [a], [d], [], []⟩
  | .mma a b _ => ⟨[a, b], [], [], [], [], []⟩
  | .mmag a b _ _ => ⟨[a, b], [], [], [], [], []⟩
  | .mmas a b _ => ⟨[a, b], [], [], [], [], []⟩
  | .mrot a b _ => ⟨[a, b], [], [], [], [], []⟩
  | .mld a _ _ => ⟨[a], [], [], [], [], []⟩
  | .mst a _ => ⟨[a], [], [], [], [], []⟩
  | .cvt a b _ _ => ⟨[a, b], [], [], [], [], []⟩
  | .cvb a b _ _ => ⟨[a, b], [], [], [], [], []⟩
  | .cvq a b _ _ => ⟨[a, b], [], [], [], [], []⟩
  | .cvqn a b _ _ => ⟨[a, b], [], [], [], [], []⟩
  | .cvqnq a b _ _ => ⟨[a, b], [], [], [], [], []⟩
  | .cvtr a b _ _ => ⟨[a, b], [], [], [], [], []⟩
  | .twld a b _ => ⟨[a, b], [], [], [], [], []⟩
  | .twmc a b _ => ⟨[a, b], [], [], [], [], []⟩
  | .twst a b _ => ⟨[a, b], [], [], [], [], []⟩
  | .kbnd a b _ => ⟨[a, b], [], [], [], [], []⟩
  | .ksel a b _ => ⟨[a, b], [], [], [], [], []⟩
  | .sgg a b _ => ⟨[a, b], [], [], [], [], []⟩
  | .tidld a => ⟨[a], [], [], [], [], []⟩
  | .tidinv a => ⟨[a], [], [], [], [], []⟩
  | .tcls a => ⟨[a], [], [], [], [], []⟩
  | .wstart a b _ => ⟨[a, b], [], [], [], [], []⟩
  | .bcopy a b _ => ⟨[a, b], [], [], [], [], []⟩
  | .bfill a b _ => ⟨[a, b], [], [], [], [], []⟩
  | .eset a _ _ _ => ⟨[a], [], [], [], [], []⟩
  | .eget d _ _ _ => ⟨[], [d], [], [], [], []⟩
  | .spawn a b => ⟨[a, b], [], [], [], [], []⟩
  | .launch a => ⟨[a], [], [], [], [], []⟩
  | .msend a b => ⟨[a, b], [], [], [], [], []⟩
  | .cadd a b _ => ⟨[a, b], [], [], [], [], []⟩
  | .caddo t a b _ => ⟨[a, b], [t], [], [], [], []⟩
  | .cwait t a b _ => ⟨[a, b], [t], [], [], [], []⟩
  | .cwaitt t a b _ => ⟨[a, b], [t], [], [], [], []⟩
  | .cbwp a _ _ => ⟨[a], [], [], [], [], []⟩
  | .cbwc a _ _ => ⟨[a], [], [], [], [], []⟩
  | .cbap a _ _ => ⟨[a], [], [], [], [], []⟩
  | .cbac a _ _ => ⟨[a], [], [], [], [], []⟩
  | .cbstat d _ => ⟨[], [d], [], [], [], []⟩
  | .mwait a => ⟨[a], [], [], [], [], []⟩
  | .mround d => ⟨[], [d], [], [], [], []⟩
  | .xinv a => ⟨[a], [], [], [], [], []⟩
  | .qbind a b => ⟨[a, b], [], [], [], [], []⟩
  | .qunb a => ⟨[a], [], [], [], [], []⟩
  | .slsave a b => ⟨[a, b], [], [], [], [], []⟩
  | .slrest a b => ⟨[a, b], [], [], [], [], []⟩
  | .slkill a => ⟨[a], [], [], [], [], []⟩
  | _ => ⟨[], [], [], [], [], []⟩

/-- A scalar register field on a pass of REP: s0 stays s0, any other number rises by k (R162). -/
def renumS (k : Nat) (r : BitVec 5) : BitVec 5 := if r = 0 then r else r + BitVec.ofNat 5 k

/-- A vector register field on a pass of REP (R162). -/
def renumV (k : Nat) (r : BitVec 5) : BitVec 5 := r + BitVec.ofNat 5 k

/-- The instruction with its scalar and vector register fields renumbered by a number (R162). Pointers,
handles, accumulators, selectors and immediates stay. -/
def Instr.renumber (by_ : Nat) : Instr → Instr
  | .add d a b => .add (renumS by_ d) (renumS by_ a) (renumS by_ b)
  | .sub d a b => .sub (renumS by_ d) (renumS by_ a) (renumS by_ b)
  | .mul d a b => .mul (renumS by_ d) (renumS by_ a) (renumS by_ b)
  | .mulhS64 d a b => .mulhS64 (renumS by_ d) (renumS by_ a) (renumS by_ b)
  | .mulhZ64 d a b => .mulhZ64 (renumS by_ d) (renumS by_ a) (renumS by_ b)
  | .divS64 d a b => .divS64 (renumS by_ d) (renumS by_ a) (renumS by_ b)
  | .divZ64 d a b => .divZ64 (renumS by_ d) (renumS by_ a) (renumS by_ b)
  | .remS64 d a b => .remS64 (renumS by_ d) (renumS by_ a) (renumS by_ b)
  | .remZ64 d a b => .remZ64 (renumS by_ d) (renumS by_ a) (renumS by_ b)
  | .and d a b => .and (renumS by_ d) (renumS by_ a) (renumS by_ b)
  | .or d a b => .or (renumS by_ d) (renumS by_ a) (renumS by_ b)
  | .xor d a b => .xor (renumS by_ d) (renumS by_ a) (renumS by_ b)
  | .shl d a b => .shl (renumS by_ d) (renumS by_ a) (renumS by_ b)
  | .shrZ64 d a b => .shrZ64 (renumS by_ d) (renumS by_ a) (renumS by_ b)
  | .shrS64 d a b => .shrS64 (renumS by_ d) (renumS by_ a) (renumS by_ b)
  | .minS64 d a b => .minS64 (renumS by_ d) (renumS by_ a) (renumS by_ b)
  | .maxS64 d a b => .maxS64 (renumS by_ d) (renumS by_ a) (renumS by_ b)
  | .sltS64 d a b => .sltS64 (renumS by_ d) (renumS by_ a) (renumS by_ b)
  | .sltZ64 d a b => .sltZ64 (renumS by_ d) (renumS by_ a) (renumS by_ b)
  | .seq d a b => .seq (renumS by_ d) (renumS by_ a) (renumS by_ b)
  | .clz d a => .clz (renumS by_ d) (renumS by_ a)
  | .popc d a => .popc (renumS by_ d) (renumS by_ a)
  | .sel d a b c => .sel (renumS by_ d) (renumS by_ a) (renumS by_ b) (renumS by_ c)
  | .madd d a b c => .madd (renumS by_ d) (renumS by_ a) (renumS by_ b) (renumS by_ c)
  | .ext d a t => .ext (renumS by_ d) (renumS by_ a) t
  | .addi d a i => .addi (renumS by_ d) (renumS by_ a) i
  | .andi d a i => .andi (renumS by_ d) (renumS by_ a) i
  | .ori d a i => .ori (renumS by_ d) (renumS by_ a) i
  | .xori d a i => .xori (renumS by_ d) (renumS by_ a) i
  | .shli d a k => .shli (renumS by_ d) (renumS by_ a) k
  | .shriZ64 d a k => .shriZ64 (renumS by_ d) (renumS by_ a) k
  | .shriS64 d a k => .shriS64 (renumS by_ d) (renumS by_ a) k
  | .sltiS64 d a i => .sltiS64 (renumS by_ d) (renumS by_ a) i
  | .li d i => .li (renumS by_ d) i
  | .lsi d i => .lsi (renumS by_ d) i
  | .pset p a => .pset p (renumS by_ a)
  | .pstep p a => .pstep p (renumS by_ a)
  | .pget d p => .pget (renumS by_ d) p
  | .padd p a => .padd p (renumS by_ a)
  | .crrd d c => .crrd (renumS by_ d) c
  | .crwr a c => .crwr (renumS by_ a) c
  | .crset a c => .crset (renumS by_ a) c
  | .crclr a c => .crclr (renumS by_ a) c
  | .fadd d a b => .fadd (renumS by_ d) (renumS by_ a) (renumS by_ b)
  | .fsub d a b => .fsub (renumS by_ d) (renumS by_ a) (renumS by_ b)
  | .fmul d a b => .fmul (renumS by_ d) (renumS by_ a) (renumS by_ b)
  | .fdiv d a b => .fdiv (renumS by_ d) (renumS by_ a) (renumS by_ b)
  | .fmin d a b => .fmin (renumS by_ d) (renumS by_ a) (renumS by_ b)
  | .fmax d a b => .fmax (renumS by_ d) (renumS by_ a) (renumS by_ b)
  | .feq d a b => .feq (renumS by_ d) (renumS by_ a) (renumS by_ b)
  | .flt d a b => .flt (renumS by_ d) (renumS by_ a) (renumS by_ b)
  | .fle d a b => .fle (renumS by_ d) (renumS by_ a) (renumS by_ b)
  | .fma d a b c => .fma (renumS by_ d) (renumS by_ a) (renumS by_ b) (renumS by_ c)
  | .fsqrt d a => .fsqrt (renumS by_ d) (renumS by_ a)
  | .fabs d a => .fabs (renumS by_ d) (renumS by_ a)
  | .fcvtS64 d a => .fcvtS64 (renumS by_ d) (renumS by_ a)
  | .fcvtiS64 d a => .fcvtiS64 (renumS by_ d) (renumS by_ a)
  | .fxsd d a => .fxsd (renumS by_ d) (renumS by_ a)
  | .fxse d a => .fxse (renumS by_ d) (renumS by_ a)
  | .ld t a y o => .ld (renumS by_ t) (renumS by_ a) y o
  | .st t a y o => .st (renumS by_ t) (renumS by_ a) y o
  | .ldp t p y o => .ldp (renumS by_ t) p y o
  | .ldpi t p y => .ldpi (renumS by_ t) p y
  | .stp t p y o => .stp (renumS by_ t) p y o
  | .stpi t p y => .stpi (renumS by_ t) p y
  | .vld v a o => .vld (renumV by_ v) (renumS by_ a) o
  | .vst v a o => .vst (renumV by_ v) (renumS by_ a) o
  | .vldp v p o => .vldp (renumV by_ v) p o
  | .vstp v p o => .vstp (renumV by_ v) p o
  | .lda t a s y => .lda (renumS by_ t) (renumS by_ a) s y
  | .stl t a s y => .stl (renumS by_ t) (renumS by_ a) s y
  | .tclr d => .tclr (renumS by_ d)
  | .tdep d a => .tdep (renumS by_ d) (renumS by_ a)
  | .vtclr d => .vtclr (renumV by_ d)
  | .vtdep d a => .vtdep (renumV by_ d) (renumV by_ a)
  | .aswap t a b s w => .aswap (renumS by_ t) (renumS by_ a) (renumS by_ b) s w
  | .acas t a b s w => .acas (renumS by_ t) (renumS by_ a) (renumS by_ b) s w
  | .aadd t a b s w => .aadd (renumS by_ t) (renumS by_ a) (renumS by_ b) s w
  | .aand t a b s w => .aand (renumS by_ t) (renumS by_ a) (renumS by_ b) s w
  | .aor t a b s w => .aor (renumS by_ t) (renumS by_ a) (renumS by_ b) s w
  | .axor t a b s w => .axor (renumS by_ t) (renumS by_ a) (renumS by_ b) s w
  | .amin t a b s w g => .amin (renumS by_ t) (renumS by_ a) (renumS by_ b) s w g
  | .amax t a b s w g => .amax (renumS by_ t) (renumS by_ a) (renumS by_ b) s w g
  | .afadd t a b s => .afadd (renumS by_ t) (renumS by_ a) (renumS by_ b) s
  | .radd a b s w => .radd (renumS by_ a) (renumS by_ b) s w
  | .rfadd a b s => .rfadd (renumS by_ a) (renumS by_ b) s
  | .stn4 t a o => .stn4 (renumS by_ t) (renumS by_ a) o
  | .vadd d a b y m => .vadd (renumV by_ d) (renumV by_ a) (renumV by_ b) y m
  | .vsub d a b y m => .vsub (renumV by_ d) (renumV by_ a) (renumV by_ b) y m
  | .vmul d a b y m => .vmul (renumV by_ d) (renumV by_ a) (renumV by_ b) y m
  | .vfma d a b y => .vfma (renumV by_ d) (renumV by_ a) (renumV by_ b) y
  | .vmin d a b y => .vmin (renumV by_ d) (renumV by_ a) (renumV by_ b) y
  | .vmax d a b y => .vmax (renumV by_ d) (renumV by_ a) (renumV by_ b) y
  | .vabs d a y => .vabs (renumV by_ d) (renumV by_ a) y
  | .vneg d a y => .vneg (renumV by_ d) (renumV by_ a) y
  | .vdiv d a b => .vdiv (renumV by_ d) (renumV by_ a) (renumV by_ b)
  | .vsqrt d a => .vsqrt (renumV by_ d) (renumV by_ a)
  | .vexp2 d a => .vexp2 (renumV by_ d) (renumV by_ a)
  | .vand d a b y => .vand (renumV by_ d) (renumV by_ a) (renumV by_ b) y
  | .vor d a b y => .vor (renumV by_ d) (renumV by_ a) (renumV by_ b) y
  | .vxor d a b y => .vxor (renumV by_ d) (renumV by_ a) (renumV by_ b) y
  | .vshl d a b y => .vshl (renumV by_ d) (renumV by_ a) (renumV by_ b) y
  | .vshr d a b y => .vshr (renumV by_ d) (renumV by_ a) (renumV by_ b) y
  | .vceq d a b y => .vceq (renumV by_ d) (renumV by_ a) (renumV by_ b) y
  | .vclt d a b y => .vclt (renumV by_ d) (renumV by_ a) (renumV by_ b) y
  | .vcle d a b y => .vcle (renumV by_ d) (renumV by_ a) (renumV by_ b) y
  | .vsel d a b y => .vsel (renumV by_ d) (renumV by_ a) (renumV by_ b) y
  | .vrsum d a y => .vrsum (renumS by_ d) (renumV by_ a) y
  | .vrmax d a y => .vrmax (renumS by_ d) (renumV by_ a) y
  | .vrmin d a y => .vrmin (renumS by_ d) (renumV by_ a) y
  | .vperm d a b y => .vperm (renumV by_ d) (renumV by_ a) (renumV by_ b) y
  | .vrot d a b y => .vrot (renumV by_ d) (renumV by_ a) (renumS by_ b) y
  | .vbcst d a y => .vbcst (renumV by_ d) (renumS by_ a) y
  | .vext d a b y => .vext (renumS by_ d) (renumV by_ a) (renumS by_ b) y
  | .vins d a b y => .vins (renumV by_ d) (renumS by_ a) (renumS by_ b) y
  | .vcvt d a s y => .vcvt (renumV by_ d) (renumV by_ a) s y
  | .vmov d a => .vmov (renumV by_ d) (renumV by_ a)
  | .mma a b s => .mma (renumS by_ a) (renumS by_ b) s
  | .mmag a b m c => .mmag (renumS by_ a) (renumS by_ b) m c
  | .mmas a b s => .mmas (renumS by_ a) (renumS by_ b) s
  | .mrot a b s => .mrot (renumS by_ a) (renumS by_ b) s
  | .mld a m c => .mld (renumS by_ a) m c
  | .mst a c => .mst (renumS by_ a) c
  | .cvt a b m r => .cvt (renumS by_ a) (renumS by_ b) m r
  | .cvb a b m r => .cvb (renumS by_ a) (renumS by_ b) m r
  | .cvq a b m r => .cvq (renumS by_ a) (renumS by_ b) m r
  | .cvqn a b m r => .cvqn (renumS by_ a) (renumS by_ b) m r
  | .cvqnq a b m r => .cvqnq (renumS by_ a) (renumS by_ b) m r
  | .cvtr a b m r => .cvtr (renumS by_ a) (renumS by_ b) m r
  | .twld a b s => .twld (renumS by_ a) (renumS by_ b) s
  | .twmc a b s => .twmc (renumS by_ a) (renumS by_ b) s
  | .twst a b s => .twst (renumS by_ a) (renumS by_ b) s
  | .kbnd a b s => .kbnd (renumS by_ a) (renumS by_ b) s
  | .ksel a b s => .ksel (renumS by_ a) (renumS by_ b) s
  | .sgg a b s => .sgg (renumS by_ a) (renumS by_ b) s
  | .tidld a => .tidld (renumS by_ a)
  | .tidinv a => .tidinv (renumS by_ a)
  | .tcls a => .tcls (renumS by_ a)
  | .wstart a b s => .wstart (renumS by_ a) (renumS by_ b) s
  | .bcopy a b s => .bcopy (renumS by_ a) (renumS by_ b) s
  | .bfill a b s => .bfill (renumS by_ a) (renumS by_ b) s
  | .eset a e r s => .eset (renumS by_ a) e r s
  | .eget d e r s => .eget (renumS by_ d) e r s
  | .cadd a b s => .cadd (renumS by_ a) (renumS by_ b) s
  | .caddo t a b s => .caddo (renumS by_ t) (renumS by_ a) (renumS by_ b) s
  | .cwait t a b s => .cwait (renumS by_ t) (renumS by_ a) (renumS by_ b) s
  | .cwaitt t a b s => .cwaitt (renumS by_ t) (renumS by_ a) (renumS by_ b) s
  | .cbwp a h n => .cbwp (renumS by_ a) h n
  | .cbwc a h n => .cbwc (renumS by_ a) h n
  | .cbap a h n => .cbap (renumS by_ a) h n
  | .cbac a h n => .cbac (renumS by_ a) h n
  | .cbstat d h => .cbstat (renumS by_ d) h
  | .mwait a => .mwait (renumS by_ a)
  | .mround d => .mround (renumS by_ d)
  | .beq a b o => .beq (renumS by_ a) (renumS by_ b) o
  | .bne a b o => .bne (renumS by_ a) (renumS by_ b) o
  | .bltS64 a b o => .bltS64 (renumS by_ a) (renumS by_ b) o
  | .bgeS64 a b o => .bgeS64 (renumS by_ a) (renumS by_ b) o
  | .bltZ64 a b o => .bltZ64 (renumS by_ a) (renumS by_ b) o
  | .bgeZ64 a b o => .bgeZ64 (renumS by_ a) (renumS by_ b) o
  | .jr a => .jr (renumS by_ a)
  | .jalr d a => .jalr (renumS by_ d) (renumS by_ a)
  | .rep stride c n k => .rep stride (renumS by_ c) n k
  | .spawn a b => .spawn (renumS by_ a) (renumS by_ b)
  | .msend a b => .msend (renumS by_ a) (renumS by_ b)
  | .launch a => .launch (renumS by_ a)
  | .xinv a => .xinv (renumS by_ a)
  | .qbind a b => .qbind (renumS by_ a) (renumS by_ b)
  | .qunb a => .qunb (renumS by_ a)
  | .slsave a b => .slsave (renumS by_ a) (renumS by_ b)
  | .slrest a b => .slrest (renumS by_ a) (renumS by_ b)
  | .slkill a => .slkill (renumS by_ a)
  | i => i

/-- The words that may not stand in a REP body: majors 0x10 to 0x17, 0x34 and 0x38 (R163). -/
def Instr.repBanned : Instr → Bool
  | .beq _ _ _ => true
  | .bne _ _ _ => true
  | .bltS64 _ _ _ => true
  | .bgeS64 _ _ _ => true
  | .bltZ64 _ _ _ => true
  | .bgeZ64 _ _ _ => true
  | .jal _ => true
  | .jr _ => true
  | .jalr _ _ => true
  | .rep _ _ _ _ => true
  | .spawn _ _ => true
  | .launch _ => true
  | .retire => true
  | .yield => true
  | .msend _ _ => true
  | .ecall => true
  | .mcall => true
  | .eret => true
  | .ifence => true
  | .brk => true
  | .xinv _ => true
  | .xinva => true
  | .qbind _ _ => true
  | .qunb _ => true
  | .slsave _ _ => true
  | .slrest _ _ => true
  | .slkill _ => true
  | _ => false

/-- The stages whose core commands an engine (R87). -/
def engineStage (e stage : Nat) : Bool :=
  match e with
  | 0 => stage = 2
  | 1 => stage = 1
  | 2 => stage = 0
  | 3 => stage = 2
  | 4 => stage = 0
  | 5 => true
  | 6 => stage = 1
  | 7 => stage = 0
  | _ => false

/-- Whether the core of a stage (0 feed, 1 shape, 2 math) executes an instruction (R87, R167). -/
def Instr.onStage (stage : Nat) : Instr → Bool
  | .vadd _ _ _ _ _ => stage = 2
  | .vsub _ _ _ _ _ => stage = 2
  | .vmul _ _ _ _ _ => stage = 2
  | .vfma _ _ _ _ => stage = 2
  | .vmin _ _ _ _ => stage = 2
  | .vmax _ _ _ _ => stage = 2
  | .vabs _ _ _ => stage = 2
  | .vneg _ _ _ => stage = 2
  | .vdiv _ _ _ => stage = 2
  | .vsqrt _ _ => stage = 2
  | .vexp2 _ _ => stage = 2
  | .vand _ _ _ _ => stage = 2
  | .vor _ _ _ _ => stage = 2
  | .vxor _ _ _ _ => stage = 2
  | .vshl _ _ _ _ => stage = 2
  | .vshr _ _ _ _ => stage = 2
  | .vceq _ _ _ _ => stage = 2
  | .vclt _ _ _ _ => stage = 2
  | .vcle _ _ _ _ => stage = 2
  | .vsel _ _ _ _ => stage = 2
  | .vrsum _ _ _ => stage = 2
  | .vrmax _ _ _ => stage = 2
  | .vrmin _ _ _ => stage = 2
  | .vcvt _ _ _ _ => stage = 1 ∨ stage = 2
  | .mma _ _ _ => stage = 2
  | .mmag _ _ _ _ => stage = 2
  | .mmas _ _ _ => stage = 2
  | .mrot _ _ _ => stage = 2
  | .mzero _ => stage = 2
  | .mld _ _ _ => stage = 2
  | .mst _ _ => stage = 2
  | .cvt _ _ _ _ => stage = 1
  | .cvb _ _ _ _ => stage = 1
  | .cvq _ _ _ _ => stage = 1
  | .cvqn _ _ _ _ => stage = 1
  | .cvqnq _ _ _ _ => stage = 1
  | .cvtr _ _ _ _ => stage = 1
  | .twld _ _ _ => stage = 0
  | .twmc _ _ _ => stage = 0
  | .twst _ _ _ => stage = 0
  | .kbnd _ _ _ => stage = 2
  | .ksel _ _ _ => stage = 2
  | .krst _ => stage = 2
  | .sgg _ _ _ => stage = 0
  | .wstart _ _ _ => stage = 1
  | .wstop _ => stage = 1
  | .bcopy _ _ _ => stage = 0
  | .bfill _ _ _ => stage = 0
  | .eset _ e _ _ => engineStage e.toNat stage
  | .eget _ e _ _ => engineStage e.toNat stage
  | _ => true

/-- The least level that executes an instruction (R80, R95, R403): 0 T, 1 S, 2 M. -/
def Instr.minLevel : Instr → Nat
  | .mcall => 1
  | .eret => 1
  | .xinv _ => 1
  | .xinva => 1
  | .qbind _ _ => 1
  | .qunb _ => 1
  | .slsave _ _ => 1
  | .slrest _ _ => 1
  | .slkill _ => 1
  | .crrd _ c => c.toNat / 1024
  | .crwr _ c => c.toNat / 1024
  | .crset _ c => c.toNat / 1024
  | .crclr _ c => c.toNat / 1024
  | _ => 0

/-- Whether an instruction is a word of a Tvedpen core (R91). -/
def Instr.isCore : Instr → Bool
  | .add _ _ _ => true
  | .sub _ _ _ => true
  | .mul _ _ _ => true
  | .mulhS64 _ _ _ => true
  | .mulhZ64 _ _ _ => true
  | .divS64 _ _ _ => true
  | .divZ64 _ _ _ => true
  | .remS64 _ _ _ => true
  | .remZ64 _ _ _ => true
  | .and _ _ _ => true
  | .or _ _ _ => true
  | .xor _ _ _ => true
  | .shl _ _ _ => true
  | .shrZ64 _ _ _ => true
  | .shrS64 _ _ _ => true
  | .minS64 _ _ _ => true
  | .maxS64 _ _ _ => true
  | .sltS64 _ _ _ => true
  | .sltZ64 _ _ _ => true
  | .seq _ _ _ => true
  | .clz _ _ => true
  | .popc _ _ => true
  | .sel _ _ _ _ => true
  | .madd _ _ _ _ => true
  | .ext _ _ _ => true
  | .addi _ _ _ => true
  | .andi _ _ _ => true
  | .ori _ _ _ => true
  | .xori _ _ _ => true
  | .shli _ _ _ => true
  | .shriZ64 _ _ _ => true
  | .shriS64 _ _ _ => true
  | .sltiS64 _ _ _ => true
  | .li _ _ => true
  | .lsi _ _ => true
  | .pset _ _ => true
  | .pstep _ _ => true
  | .pget _ _ => true
  | .padd _ _ => true
  | .crrd _ _ => true
  | .crwr _ _ => true
  | .crset _ _ => true
  | .crclr _ _ => true
  | .fadd _ _ _ => true
  | .fsub _ _ _ => true
  | .fmul _ _ _ => true
  | .fdiv _ _ _ => true
  | .fmin _ _ _ => true
  | .fmax _ _ _ => true
  | .feq _ _ _ => true
  | .flt _ _ _ => true
  | .fle _ _ _ => true
  | .fma _ _ _ _ => true
  | .fsqrt _ _ => true
  | .fabs _ _ => true
  | .fcvtS64 _ _ => true
  | .fcvtiS64 _ _ => true
  | .fxsd _ _ => true
  | .fxse _ _ => true
  | .beq _ _ _ => true
  | .bne _ _ _ => true
  | .bltS64 _ _ _ => true
  | .bgeS64 _ _ _ => true
  | .bltZ64 _ _ _ => true
  | .bgeZ64 _ _ _ => true
  | .jal _ => true
  | .jr _ => true
  | .jalr _ _ => true
  | .rep _ _ _ _ => true
  | .ld _ _ _ _ => true
  | .st _ _ _ _ => true
  | .ldp _ _ _ _ => true
  | .ldpi _ _ _ => true
  | .stp _ _ _ _ => true
  | .stpi _ _ _ => true
  | .vld _ _ _ => true
  | .vst _ _ _ => true
  | .vldp _ _ _ => true
  | .vstp _ _ _ => true
  | .lda _ _ _ _ => true
  | .stl _ _ _ _ => true
  | .fence _ => true
  | .tclr _ => true
  | .tdep _ _ => true
  | .vtclr _ => true
  | .vtdep _ _ => true
  | .aswap _ _ _ _ _ => true
  | .acas _ _ _ _ _ => true
  | .aadd _ _ _ _ _ => true
  | .aand _ _ _ _ _ => true
  | .aor _ _ _ _ _ => true
  | .axor _ _ _ _ _ => true
  | .amin _ _ _ _ _ _ => true
  | .amax _ _ _ _ _ _ => true
  | .afadd _ _ _ _ => true
  | .radd _ _ _ _ => true
  | .rfadd _ _ _ => true
  | .stn4 _ _ _ => true
  | .vadd _ _ _ _ _ => true
  | .vsub _ _ _ _ _ => true
  | .vmul _ _ _ _ _ => true
  | .vfma _ _ _ _ => true
  | .vmin _ _ _ _ => true
  | .vmax _ _ _ _ => true
  | .vabs _ _ _ => true
  | .vneg _ _ _ => true
  | .vdiv _ _ _ => true
  | .vsqrt _ _ => true
  | .vexp2 _ _ => true
  | .vand _ _ _ _ => true
  | .vor _ _ _ _ => true
  | .vxor _ _ _ _ => true
  | .vshl _ _ _ _ => true
  | .vshr _ _ _ _ => true
  | .vceq _ _ _ _ => true
  | .vclt _ _ _ _ => true
  | .vcle _ _ _ _ => true
  | .vsel _ _ _ _ => true
  | .vrsum _ _ _ => true
  | .vrmax _ _ _ => true
  | .vrmin _ _ _ => true
  | .vperm _ _ _ _ => true
  | .vrot _ _ _ _ => true
  | .vbcst _ _ _ => true
  | .vext _ _ _ _ => true
  | .vins _ _ _ _ => true
  | .vcvt _ _ _ _ => true
  | .vmov _ _ => true
  | .mma _ _ _ => true
  | .mmag _ _ _ _ => true
  | .mmas _ _ _ => true
  | .mrot _ _ _ => true
  | .mzero _ => true
  | .mld _ _ _ => true
  | .mst _ _ => true
  | .cvt _ _ _ _ => true
  | .cvb _ _ _ _ => true
  | .cvq _ _ _ _ => true
  | .cvqn _ _ _ _ => true
  | .cvqnq _ _ _ _ => true
  | .cvtr _ _ _ _ => true
  | .twld _ _ _ => true
  | .twmc _ _ _ => true
  | .twst _ _ _ => true
  | .kbnd _ _ _ => true
  | .ksel _ _ _ => true
  | .krst _ => true
  | .sgg _ _ _ => true
  | .tidld _ => true
  | .tidinv _ => true
  | .tcls _ => true
  | .wstart _ _ _ => true
  | .wstop _ => true
  | .bcopy _ _ _ => true
  | .bfill _ _ _ => true
  | .eset _ _ _ _ => true
  | .eget _ _ _ _ => true
  | .spawn _ _ => true
  | .launch _ => true
  | .retire => true
  | .yield => true
  | .msend _ _ => true
  | .cadd _ _ _ => true
  | .caddo _ _ _ _ => true
  | .cwait _ _ _ _ => true
  | .cwaitt _ _ _ _ => true
  | .cbwp _ _ _ => true
  | .cbwc _ _ _ => true
  | .cbap _ _ _ => true
  | .cbac _ _ _ => true
  | .cbstat _ _ => true
  | .mark _ => true
  | .mwait _ => true
  | .mround _ => true
  | .ecall => true
  | .mcall => true
  | .eret => true
  | .ifence => true
  | .brk => true
  | .xinv _ => true
  | .xinva => true
  | .qbind _ _ => true
  | .qunb _ => true
  | .slsave _ _ => true
  | .slrest _ _ => true
  | .slkill _ => true
  | .hint _ => true
  | _ => false

/-- Whether an instruction is a coprocessor word: majors 0x2C to 0x2E (R89). -/
def Instr.isCoproc : Instr → Bool
  | .mma _ _ _ => true
  | .mmag _ _ _ _ => true
  | .mmas _ _ _ => true
  | .mrot _ _ _ => true
  | .mzero _ => true
  | .mld _ _ _ => true
  | .mst _ _ => true
  | .cvt _ _ _ _ => true
  | .cvb _ _ _ _ => true
  | .cvq _ _ _ _ => true
  | .cvqn _ _ _ _ => true
  | .cvqnq _ _ _ _ => true
  | .cvtr _ _ _ _ => true
  | .twld _ _ _ => true
  | .twmc _ _ _ => true
  | .twst _ _ _ => true
  | .kbnd _ _ _ => true
  | .ksel _ _ _ => true
  | .krst _ => true
  | .sgg _ _ _ => true
  | .tidld _ => true
  | .tidinv _ => true
  | .tcls _ => true
  | .wstart _ _ _ => true
  | .wstop _ => true
  | .bcopy _ _ _ => true
  | .bfill _ _ _ => true
  | .eset _ _ _ _ => true
  | .eget _ _ _ _ => true
  | _ => false

/-- The pointer registers (64 to 71) and step registers (72 to 79) whose values a word reads (R152, R287), as the poison
store numbers them (R410); no other word reads one. -/
def Instr.pointerReads : Instr → List Nat
  | .pget _ p => [64 + p.toNat]
  | .padd p _ => [64 + p.toNat]
  | .ldp _ p _ _ => [64 + p.toNat]
  | .stp _ p _ _ => [64 + p.toNat]
  | .ldpi _ p _ => [64 + p.toNat, 72 + p.toNat]
  | .stpi _ p _ => [64 + p.toNat, 72 + p.toNat]
  | .vldp _ p _ => [64 + p.toNat, 72 + p.toNat]
  | .vstp _ p _ => [64 + p.toNat, 72 + p.toNat]
  | .crrd _ n => stepOf n
  | .crset _ n => stepOf n
  | .crclr _ n => stepOf n
  | _ => []
where
  /-- The step register that a control register number names (R80). -/
  stepOf (n : BitVec 12) : List Nat := if 0x008 ≤ n.toNat ∧ n.toNat < 0x010 then [64 + n.toNat] else []

end Sys2Proof
end

