-- ==== Sys2Proof/Machine/Slots.lean ====
section
/-! DEFINITION. The one home of every register of an activation: reading and writing scalar (R77, R78),
pointer, vector and accumulator registers with their taint masks (R79, R266), load tags (R265), poison
(R284), the PC and the repetition state (R162, R164). -/

namespace Sys2Proof.Machine

/-- A thread slot. -/
def State.slot (s : State) (q : Nat) : Slot := getAt Slot.empty s.slots q

/-- The state with a thread slot set. -/
def State.setSlot (s : State) (q : Nat) (x : Slot) : State := { s with slots := putAt s.slots q x }

/-- The state with a thread slot changed by a function. -/
def State.modSlot (s : State) (q : Nat) (f : Slot → Slot) : State := s.setSlot q (f (s.slot q))

/-- The core of a slot. -/
def State.core (s : State) (k : Nat) : CoreRec := getAt CoreRec.zero s.cores k

/-- The state with a core changed. -/
def State.setCore (s : State) (k : Nat) (x : CoreRec) : State := { s with cores := putAt s.cores k x }

/-- A tile. -/
def State.tile (s : State) (t : Nat) : Tile := getAt Tile.zero s.tiles t

/-- The state with a tile changed. -/
def State.setTile (s : State) (t : Nat) (x : Tile) : State := { s with tiles := putAt s.tiles t x }

/-- A bank of a cluster. -/
def State.bank (s : State) (c b : Nat) : Bank := getAt Bank.zero s.banks (16 * c + b)

/-- The state with a bank changed. -/
def State.setBank (s : State) (c b : Nat) (x : Bank) : State :=
  { s with banks := putAt s.banks (16 * c + b) x }

/-- The state with a step added to those that are due. -/
def State.push (s : State) (i : Event) : State := { s with agenda := s.agenda ++ [i] }

/-- The state with several steps added. -/
def State.pushAll (s : State) (is : List Event) : State := { s with agenda := s.agenda ++ is }

/-- The state in which a step just sent is the next one to be performed. (DESIGN CHOICE: log entry 3.) -/
def State.pushNext (s : State) (e : Event) : State :=
  { s.push e with focus := some (.event s.agenda.length) }

/-- A fresh identifier and the state that has used it. -/
def State.fresh (s : State) : Nat × State := (s.nextId, { s with nextId := s.nextId + 1 })

/-- The value of a scalar register; s0 reads as zero (R78). -/
def Slot.sreg (x : Slot) (r : BitVec 5) : Word := if r = 0 then 0 else getAt 0 x.s r.toNat

/-- The mask of a scalar register; s0 has none (R78). -/
def Slot.smask (x : Slot) (r : BitVec 5) : Taint :=
  if r = 0 then Taint.none else getAt Taint.none x.sMask r.toNat

/-- The slot with a scalar register and its mask written; a write to s0 is discarded (R78). A write
clears poison (R284). -/
def Slot.setS (x : Slot) (r : BitVec 5) (v : Word) (m : Taint) : Slot :=
  if r = 0 then x
  else { x with s := putAt x.s r.toNat v, sMask := putAt x.sMask r.toNat m, poison := delAt x.poison r.toNat }

/-- The slot with the mask alone of a scalar register written (R289). -/
def Slot.setSmask (x : Slot) (r : BitVec 5) (m : Taint) : Slot :=
  if r = 0 then x else { x with sMask := putAt x.sMask r.toNat m }

/-- A pointer register (R152). -/
def Slot.preg (x : Slot) (p : BitVec 3) : Word := getAt 0 x.p p.toNat

/-- The mask of a pointer register. -/
def Slot.pmask (x : Slot) (p : BitVec 3) : Taint := getAt Taint.none x.pMask p.toNat

/-- The slot with a pointer register and its mask written; the write clears its poison (R284). -/
def Slot.setP (x : Slot) (p : BitVec 3) (v : Word) (m : Taint) : Slot :=
  { x with p := putAt x.p p.toNat v, pMask := putAt x.pMask p.toNat m, poison := delAt x.poison (64 + p.toNat) }

/-- The slot with the mask alone of a pointer register written (R152). -/
def Slot.setPmask (x : Slot) (p : BitVec 3) (m : Taint) : Slot := { x with pMask := putAt x.pMask p.toNat m }

/-- A step register (R152). -/
def Slot.step (x : Slot) (p : BitVec 3) : Word := getAt 0 x.pstep p.toNat

/-- The slot with a step register written; the write clears its poison (R284). -/
def Slot.setStep (x : Slot) (p : BitVec 3) (v : Word) : Slot :=
  { x with pstep := putAt x.pstep p.toNat v, poison := delAt x.poison (72 + p.toNat) }

/-- A vector register. -/
def Slot.vreg (x : Slot) (r : BitVec 5) : Line := getAt 0 x.v r.toNat

/-- The mask of a vector register. -/
def Slot.vmask (x : Slot) (r : BitVec 5) : Taint := getAt Taint.none x.vMask r.toNat

/-- The slot with a vector register and its mask written. -/
def Slot.setV (x : Slot) (r : BitVec 5) (v : Line) (m : Taint) : Slot :=
  { x with v := putAt x.v r.toNat v, vMask := putAt x.vMask r.toNat m,
           poison := delAt x.poison (32 + r.toNat) }

/-- The slot with the mask alone of a vector register written (R289). -/
def Slot.setVmask (x : Slot) (r : BitVec 5) (m : Taint) : Slot :=
  { x with vMask := putAt x.vMask r.toNat m }

/-- Whether a load is outstanding whose value goes to a register. -/
def Slot.busy (x : Slot) (d : Dest) : Bool := x.loads.any fun l => l.dest == d

/-- Whether a mask is satisfied (R266): no load that holds one of tags 0 to 14 named by the mask is
outstanding and, where bit 15 is set, none of the loads issued by the moment it was written. -/
def Slot.satisfied (x : Slot) (m : Taint) : Bool :=
  x.loads.all fun l =>
    !(if l.tag < 15 then m.bits.getLsbD l.tag else false) &&
      !(m.bits.getLsbD 15 && decide (l.serial < m.mark))

/-- The outstanding loads that a mask names (R266), by their numbers: a tag that a later load takes again names that
load no more (R265). -/
def Slot.behind (x : Slot) (m : Taint) : List Nat :=
  (x.loads.filter fun l =>
    (if l.tag < 15 then m.bits.getLsbD l.tag else false) || (m.bits.getLsbD 15 && decide (l.serial < m.mark))).map
    (·.serial)

/-- Whether the loads with given numbers have completed (R267). -/
def Slot.clearOf (x : Slot) (h : List Nat) : Bool := x.loads.all fun l => !h.contains l.serial

/-- The tag the next load takes: the lowest free of 0 to 14, else 15 (R265). -/
def Slot.freeTag (x : Slot) : Nat :=
  ((List.range 15).find? fun i => !x.loads.any fun l => l.tag == i).getD 15

/-- A mask with the bit of a tag cleared, for tags 0 to 14 (R265). -/
def Taint.without (i : Nat) (m : Taint) : Taint :=
  if i < 15 then ⟨m.bits &&& ~~~(BitVec.twoPow 16 i), m.mark⟩ else m

/-- The mask of a load's result: its tag alone (R265). -/
def tagMask (tag serial : Nat) : Taint :=
  ⟨BitVec.twoPow 16 tag, if tag = 15 then serial + 1 else 0⟩

/-- The slot after a load takes its tag (R265): bit i leaves every mask and ctm, and the destination
carries the tag alone. `l` gives the load but for its serial and tag. -/
def Slot.takeLoad (x : Slot) (l : LoadRec) : Slot :=
  let tag := x.freeTag
  let n := x.nextSerial
  let clear (m : Store Taint) : Store Taint := m.map fun e => (e.1, Taint.without tag e.2)
  let y := { x with
    sMask := clear x.sMask, pMask := clear x.pMask, vMask := clear x.vMask,
    ctm := Taint.without tag x.ctm, nextSerial := n + 1,
    loads := x.loads ++ [{ l with serial := n, tag := tag }] }
  match l.dest with
  | .scalar r => y.setSmask (BitVec.ofNat 5 r) (tagMask tag n)
  | .vector r => y.setVmask (BitVec.ofNat 5 r) (tagMask tag n)

/-- The bits of a mask that are not yet satisfied (R266): bit i below 15 while a load holds tag i, bit 15
while a load issued by the moment it was written is outstanding. -/
def Slot.unsatisfied (x : Slot) (m : Taint) : Taint :=
  let held := (List.range 15).foldl
    (fun b i => if x.loads.any fun l => l.tag == i then b else b &&& ~~~(BitVec.twoPow 16 i)) m.bits
  if m.bits.getLsbD 15 && x.loads.any fun l => decide (l.serial < m.mark) then ⟨held, m.mark⟩
  else ⟨held &&& 0x7FFF, 0⟩

/-- ctm with its satisfied bits cleared (R268). -/
def Slot.dropSatisfied (x : Slot) : Slot := { x with ctm := x.unsatisfied x.ctm }

/-- The slot with a mask ORed into ctm (R160). -/
def Slot.addCtm (x : Slot) (m : Taint) : Slot :=
  { x with ctm := x.ctm.union m }.dropSatisfied

/-- Whether a scalar register lies in the activation's portion (R49): all of them on a feed or shape
core, s0 to s(8·NSREG − 1) on a math core. -/
def Slot.hasS (x : Slot) (stage : Nat) (r : BitVec 5) : Bool :=
  stage != 2 || decide (r.toNat < 8 * x.nsreg)

/-- Whether a vector register lies in the activation's portion (R49). -/
def Slot.hasV (x : Slot) (stage : Nat) (r : BitVec 5) : Bool :=
  stage != 2 || decide (r.toNat < 8 * x.nvreg)

/-- REPST.ACTIVE (R164). -/
def Slot.repActive (x : Slot) : Bool := x.repst.getLsbD 24

/-- REPST.PASS (R164). -/
def Slot.repPass (x : Slot) : Nat := fieldOf x.repst 63 32

/-- REPST.POS (R164). -/
def Slot.repPos (x : Slot) : Nat := fieldOf x.repst 23 20

/-- REPST.NM1 (R164). -/
def Slot.repNm1 (x : Slot) : Nat := fieldOf x.repst 19 16

/-- REPST.STRIDE (R164). -/
def Slot.repStride (x : Slot) : Nat := fieldOf x.repst 12 8

/-- The renumbering of the current pass (R162). -/
def Slot.repShift (x : Slot) : Nat := if x.repActive then x.repPass * x.repStride % 32 else 0

/-- The slot past an instruction that does not transfer control: the next word, or inside a REP body
the next word of the pass, the first word of the next pass, or the end of the REP (R162). -/
def Slot.advance (x : Slot) : Slot :=
  if x.repActive then
    if x.repPos < x.repNm1 then
      { x with pc := x.pc + 4, repst := withField x.repst 23 20 (x.repPos + 1) }
    else if x.repPass + 1 < x.repcnt.toNat then
      { x with pc := x.pc - BitVec.ofNat 57 (4 * x.repNm1),
               repst := withField (withField x.repst 23 20 0) 63 32 (x.repPass + 1) }
    else { x with pc := x.pc + 4, repst := withField x.repst 24 24 0, repBody := [] }
  else { x with pc := x.pc + 4 }

end Sys2Proof.Machine
end

