-- ==== Sys2Proof/Machine/Translate.lean ====
section
/-! DEFINITION. From a virtual address to a home: the windows of R250 and R251, the spill window
(R258), the five-level tables and their caches (R390 to R393), the physical spaces (R252) and the frames
of shadow mode (R423). -/

namespace Sys2Proof.Machine

/-- What an access needs of a page (R392). -/
inductive Access where
  | read | write | fetch
  deriving DecidableEq, Repr

/-- Trap cause codes (R386). -/
def eIll : BitVec 8 := 0x01
/-- E_PRIV. -/
def ePriv : BitVec 8 := 0x02
/-- E_ALIGN. -/
def eAlign : BitVec 8 := 0x03
/-- E_XLAT. -/
def eXlat : BitVec 8 := 0x04
/-- E_PROT. -/
def eProt : BitVec 8 := 0x05
/-- E_ABORT. -/
def eAbort : BitVec 8 := 0x06
/-- E_SCALE. -/
def eScale : BitVec 8 := 0x07
/-- E_CB. -/
def eCb : BitVec 8 := 0x08
/-- E_WALK. -/
def eWalk : BitVec 8 := 0x09
/-- E_FENCED. -/
def eFenced : BitVec 8 := 0x0A
/-- E_FAB. -/
def eFab : BitVec 8 := 0x0B

/-- Not a trap: a shadow copy has met its 4,097th granule, which ends its launch (R423). -/
def shadowFull : BitVec 8 := 0xFE

/-- Why an address does not resolve: the cause, its REASON (R386), and whether it is a translation
fault that may be collected (R394) with PERM, and whether a store or reduction learns of it only at the
next release of its thread (R418). -/
structure XFault where
  cause : BitVec 8
  reason : BitVec 8
  collect : Bool
  perm : Bool
  late : Bool
  deriving DecidableEq, Repr

/-- A fault that is never collected. -/
def xf (cause reason : BitVec 8) : XFault := ⟨cause, reason, false, false, false⟩

/-- Where an access goes: the model's address, and the attributes of the page (R391). -/
structure Loc where
  key : Nat
  const : Bool
  ord : Bool
  window : Bool
  deriving DecidableEq, Repr

/-- Who makes an access: the context, the level, the issuing tile and slot (R251, R258). -/
structure Who where
  ctx : Nat
  level : Nat
  q : Nat
  deriving DecidableEq, Repr

/-- The identity of a slot's accesses. -/
def State.who (s : State) (q : Nat) : Who := ⟨(s.slot q).ctx, (s.slot q).level.toNat, q⟩

/-- Low VA bit indexed by a level of the tables (R390). -/
def levelShift (l : Nat) : Nat :=
  match l with | 0 => 16 | 1 => 21 | 2 => 26 | 3 => 31 | _ => 44

/-- Index bits of a level of the tables (R390). -/
def levelBits (l : Nat) : Nat := if l < 3 then 5 else 13

/-- Alignment of the table of a level, in bytes (R390). -/
def tableAlign (l : Nat) : Nat := if l < 3 then 256 else 65536

/-- ADDR of a table entry as an address (R391). -/
def pteAddr (e : Word) : Nat := fieldOf e 55 8 * 256

/-- Whether an entry with V = 1 at a level is malformed (R392). -/
def pteMalformed (e : Word) (l : Nat) : Bool :=
  let leaf := e.getLsbD 1
  let a := pteAddr e
  let space := a / 2 ^ 54
  let low := a % 2 ^ 54
  fieldOf e 63 56 != 0 || (leaf && l == 4) || (!leaf && l == 0) ||
  (!leaf && fieldOf e 7 2 != 0) ||
  (!leaf && (space != 0 || low % tableAlign (l - 1) != 0)) ||
  (leaf && a % 2 ^ levelShift l != 0) ||
  (leaf && ((space == 0 && low / 2 ^ 42 != 0) || (space == 1 && low / 2 ^ 52 != 0) ||
    (space == 2 && low / 2 ^ 48 != 0))) ||
  (e.getLsbD 5 && e.getLsbD 3)

/-- The address-space identifier of a context: CCTL[31:16] (R379). -/
def State.asid (s : State) (x : Nat) : Nat := fieldOf (s.reg (cctlOff x)) 31 16

/-- The index a virtual address has at a level and every level above, which is what a cached entry
of that level covers. -/
def vaIndex (va : BitVec 57) (l : Nat) : Nat := va.toNat / 2 ^ levelShift l

/-- A cached entry of a level that covers an address (R393). -/
def findXlat (es : List XlatEntry) (c asid l : Nat) (va : BitVec 57) : Option Word :=
  (es.find? fun e => e.cluster == c && e.asid == asid && e.level == l && e.index == vaIndex va l).map (·.entry)

/-- A leaf of the translation cache that covers an address, with its level. -/
def State.tlbHit (s : State) (c asid : Nat) (va : BitVec 57) : Option (Nat × Word) :=
  [0, 1, 2, 3].findSome? fun l => (findXlat s.tlb c asid l va).map fun e => (l, e)

/-- The first n entries of a list that a test picks, with every other entry. -/
def keepFirst {α : Type} (p : α → Bool) : Nat → List α → List α
  | _, [] => []
  | 0, a :: t => if p a then keepFirst p 0 t else a :: keepFirst p 0 t
  | n + 1, a :: t => if p a then a :: keepFirst p n t else a :: keepFirst p (n + 1) t

/-- An entry put first into a cache that holds a number of entries for each cluster: the cluster's oldest goes. -/
def keepXlat (n : Nat) (x : XlatEntry) (es : List XlatEntry) : List XlatEntry :=
  keepFirst (fun y : XlatEntry => y.cluster == x.cluster) n (x :: es.filter (· ≠ x))

/-- The state with a leaf kept in the cluster's translation cache, of 512 entries (R17). (DEDUCED: log entry 84.) -/
def State.keepLeaf (s : State) (x : XlatEntry) : State := { s with tlb := keepXlat 512 x s.tlb }

/-- The state with a non-leaf kept in the walk cache of the cluster's NI, of 64 entries (R393).
(DEDUCED: log entry 84.) -/
def State.keepNode (s : State) (x : XlatEntry) : State := { s with walkCache := keepXlat 64 x s.walkCache }

/-- A walk from the table of level l at a physical address (R390, R393): the leaf and its level, or
the fault. Entries are read as single words at their homes; an entry with V = 0 is not kept.
(DEDUCED: log entry 84.) -/
def walkFrom (s : State) (c asid : Nat) (va : BitVec 57) : Nat → Nat → State × (Except XFault (Nat × Word))
  | 0, _ => (s, .error (xf eXlat 0x03))
  | l + 1, table =>
    let a := table + 8 * (vaIndex va l % 2 ^ levelBits l)
    if 2 ^ 42 ≤ a then (s, .error (xf eXlat 0x03))
    else if getAt false s.bad (a / 8) then
      (s.push (.uncorrectableError
        { unit := 0x01, index := channelOf a, die := dieOfOffset a, cluster := none, key := some a, consumer := none,
          scrub := true }), .error (xf eAbort 0x02))
    else
      let e := s.mem.word (dramKey a)
      if !e.getLsbD 0 then (s, .error ⟨eXlat, 0x02, true, false, false⟩)
      else if pteMalformed e l then (s, .error (xf eXlat 0x03))
      else if e.getLsbD 1 then
        (s.keepLeaf ⟨c, asid, l, vaIndex va l, e⟩, .ok (l, e))
      else walkFrom (s.keepNode ⟨c, asid, l, vaIndex va l, e⟩) c asid va l (pteAddr e)

/-- A walk for an address, from the lowest cached table or from PTROOT (R390, R393); what it has cached may be evicted at any
time from then on. (DESIGN CHOICE: log entry 9.) -/
def walk (s : State) (c x : Nat) (va : BitVec 57) : State × (Except XFault (Nat × Word)) :=
  let a := s.asid x
  let r := match [1, 2, 3, 4].findSome? fun l => (findXlat s.walkCache c a l va).map fun e => (l, e) with
    | some (l, e) => walkFrom s c a va l (pteAddr e)
    | none => walkFrom s c a va 5 (fieldOf (s.reg (ptrootOff x)) 55 16 * 65536)
  let out : Event := .translationWalk c x (va &&& ~~~0xFFFF)
  match r with
  | (s1, .ok p) => (if s1.agenda.contains out then s1 else s1.push out, .ok p)
  | (s1, .error f) => (s1, .error f)

/-- The leaf for an address: from the translation cache, else by a walk (R393). -/
def leafFor (s : State) (c x : Nat) (va : BitVec 57) : State × (Except XFault (Nat × Word)) :=
  match s.tlbHit c (s.asid x) va with
  | some r => (s, .ok r)
  | none => walk s c x va

/-- The permission check of a leaf (R259, R392). (DESIGN CHOICE: log entry 104.) -/
def permits (e : Word) (a : Access) (level : Nat) : Option XFault :=
  if e.getLsbD 7 && level == 0 then some (xf eProt 0x02)
  else
    match a with
    | .read => if e.getLsbD 2 then none else some ⟨eProt, 0x01, true, true, false⟩
    | .write =>
      if e.getLsbD 5 then some (xf eProt 0x03)
      else if e.getLsbD 3 then none else some ⟨eProt, 0x01, true, true, false⟩
    | .fetch => if e.getLsbD 4 then none else some ⟨eProt, 0x01, true, true, false⟩

/-- The domain index that is this package's own: the least valid DOMMAP entry that names NODEID
(R252). (DEDUCED: log entry 14.) -/
def State.ownIndex (s : State) (p : Nat) : Bool :=
  let d := s.reg (dommapOff p)
  d.getLsbD 63 && fieldOf d 13 0 == fieldOf (s.reg nodeidOff) 13 0

/-- The shadow copy a slot's accesses belong to: 0 for A, 1 for B, none outside shadow mode (R423). -/
def State.shadowCopy (s : State) (q : Nat) : Option Nat :=
  let x := (s.slot q).ctx
  if (s.reg (shctlOff x)).getLsbD 0 then
    match (s.slot q).lrec with
    | some l => (findAt s.launches l).map fun r => if r.copyB then 1 else 0
    | none => none
  else none

/-- The descriptor of a launch of record (R59); a handler has none (R469). -/
def State.recDesc (s : State) (l : Option Nat) : List Word :=
  match l with
  | some l =>
    match findAt s.launches l with
    | some r => r.desc
    | none => []
  | none => []

/-- The key of a copy's written set (R423). -/
def shadowKey (x c : Nat) : Nat := 2 * x + c

/-- A counter wait's key once its granule has joined the set of the thread's copy (R423). -/
def WaitReq.moved (mine : Nat → Bool) (g frame : Nat) (w : WaitReq) : WaitReq :=
  if mine w.thread ∧ w.key / 65536 = g then { w with key := frame + w.key % 65536 } else w

/-- The counter waits of a copy's threads on a granule that joins its set go on in its frame, where its adds are made from
now on (R423). (DEDUCED: log entry 60.) -/
def State.moveWaits (s : State) (x c g frame : Nat) : State :=
  let mine (q : Nat) : Bool := (s.slot q).ctx == x && s.shadowCopy q == some c
  let moved (w : WaitReq) : WaitReq := WaitReq.moved mine g frame w
  { s with
    waits := s.waits.map moved,
    agenda := s.agenda.map fun (e : Event) => match e with
      | .counterWaitAtHome w => .counterWaitAtHome (moved w)
      | .counterWaitPoll w => .counterWaitPoll (moved w)
      | e => e,
    slots := s.slots.map fun (e : Nat × Slot) => match e.2.wait with
      | some (.counter key va target trap n) =>
        if mine e.1 ∧ key / 65536 = g then
          (e.1, { e.2 with
            wait := some (.counter (frame + key % 65536) va target trap n),
            loads := e.2.loads.map fun (l : LoadRec) => if l.serial = n then { l with key := frame + key % 65536 } else l })
        else e
      | _ => e }

/-- A device-memory access of a shadow copy (R423): a granule of the set is reached in its frame; a
write to another granule adds it, after its 64 KiB are copied from the primary frame. None where the
set is full. -/
def shadowResolve (s : State) (x c o : Nat) (a : Access) : State × Option Nat :=
  let set := getAt ⟨[], false⟩ s.shadow (shadowKey x c)
  let g := o / 65536
  let base := fieldOf (s.reg (shoffOff x c)) 41 16 * 65536
  match set.granules.findIdx? (· == g) with
  | some k => (s, some (base + 65536 * k + o % 65536))
  | none =>
    match a with
    | .write =>
      let k := set.granules.length
      if 4096 ≤ k then (s, none)
      else
        let frame := base + 65536 * k
        let old := (s.mem.filter fun e => 65536 * g ≤ e.1 && e.1 < 65536 * (g + 1))
        let m := old.foldl (fun m e => m.write (frame + (e.1 - 65536 * g)) e.2) (s.mem.zeroRange frame 65536)
        let joined := { set with granules := set.granules ++ [g] }
        ({ (s.moveWaits x c g frame) with mem := m, shadow := putAt s.shadow (shadowKey x c) joined },
          some (frame + o % 65536))
    | _ => (s, some o)

/-- The home of a physical address, for an access of given size (R252, R317, R423, R438). (DEDUCED: log entry 14.) -/
def physLoc (s : State) (w : Who) (e : Word) (pa : Nat) (a : Access) : State × (Except XFault Loc) :=
  let low := pa % 2 ^ 54
  let loc (k : Nat) : Loc := ⟨k, e.getLsbD 5, e.getLsbD 6, false⟩
  match pa / 2 ^ 54 with
  | 0 =>
    match s.shadowCopy w.q with
    | some c =>
      match shadowResolve s w.ctx c low a with
      | (s', some o) => (s', .ok (loc (dramKey o)))
      | (s', none) => (s', .error (xf shadowFull 0))
    | none => (s, .ok (loc (dramKey low)))
  | 1 =>
    if (s.shadowCopy w.q).isSome then (s, .error (xf eProt 0x05))
    else
      let p := low / 2 ^ 42
      if s.ownIndex p then (s, .ok (loc (dramKey (low % 2 ^ 42))))
      else if (s.reg (dommapOff p)).getLsbD 63 then (s, .ok (loc (farKey p (low % 2 ^ 42))))
      else (s, .error (xf eXlat 0x05))
  | 2 =>
    if (s.shadowCopy w.q).isSome then (s, .error (xf eProt 0x05))
    else (s, .ok (loc (hostKey low)))
  | _ => (s, .ok (loc (regKey low)))

/-- An address translated through the tables (R390 to R392). -/
def translate (s : State) (w : Who) (va : Word) (a : Access) : State × (Except XFault Loc) :=
  if canonical va then
    match leafFor s (clusterOf w.q) w.ctx (low57 va) with
    | (s', .ok (l, e)) =>
      match permits e a w.level with
      | some f => (s', .error f)
      | none => physLoc s' w e (pteAddr e + (low57 va).toNat % 2 ^ levelShift l) a
    | (s', .error f) => (s', .error f)
  else (s, .error (xf eXlat 0x01))

/-- The first address of the region that holds the windows (R250). -/
def windowFloor : Nat := 0xFFFFFFFFE0000000

/-- The window of R250 that holds an address: its first address and its length; none in translated
space. -/
def windowOf (v : Nat) : Option (Nat × Nat) :=
  [(0xFFFFFFFFFFFE0000, 0x20000), (0xFFFFFFFFFFE00000, 0x1000), (0xFFFFFFFFFFC00000, 0x200000),
    (0xFFFFFFFFF0000000, 0x8000000), (windowFloor, 0x10000000)].find? fun w => decide (w.1 ≤ v) && decide (v < w.1 + w.2)

/-- Whether a context may reach a tile through TILES: E_PROT outside the Calderas, E_FENCED where the
cluster is fenced or the Caldera is fenced for the context (R251, R418). (DEDUCED: log entry 59.) -/
def tileCheck (s : State) (w : Who) (c : Nat) : Option XFault :=
  if !s.inCalderas w.ctx c then some (xf eProt 0x04)
  else if s.fencedCluster c then some (xf eFenced 0)
  else if s.calderaFenced w.ctx c then some { xf eFenced 0 with late := true }
  else if s.lockstep w.ctx && c % 2 == 1 then some (xf eProt 0x04)
  else none

/-- Whether a context may reach a bank through CLUSTER (R251). -/
def bankCheck (s : State) (w : Who) (b : Nat) : Option XFault :=
  let k := s.bank (clusterOf w.q) b
  if k.mode = .cache ∨ k.busy ∨ k.owner.toNat ≠ w.ctx then some (xf eProt 0x04) else none

/-- An access through the windows of R250, of `size` bytes from `v`, checked as R251 states. -/
def window (s : State) (w : Who) (v size : Nat) (a : Access) : State × (Except XFault Loc) :=
  let ok (k : Nat) : State × (Except XFault Loc) := (s, .ok ⟨k, false, false, true⟩)
  let bad (f : XFault) : State × (Except XFault Loc) := (s, .error f)
  let fin := v + size
  if a = .fetch ∧ (0xFFFFFFFFFFFE0000 ≤ v ∨ (0xFFFFFFFFFFE00000 ≤ v ∧ v < 0xFFFFFFFFFFE01000) ∨
      (0xFFFFFFFFFFC00000 ≤ v ∧ v < 0xFFFFFFFFFFE00000) ∨
      (0xFFFFFFFFF0000000 ≤ v ∧ v < 0xFFFFFFFFF8000000) ∨ v < 0xFFFFFFFFF0000000) then bad (xf eProt 0x05)
  else if 0xFFFFFFFFFFFE0000 ≤ v then
    if 2 ^ 64 < fin then bad (xf eXlat 0x04) else ok (padKey (tileOf w.q) (v - 0xFFFFFFFFFFFE0000))
  else if 0xFFFFFFFFFFE00000 ≤ v then
    if v < 0xFFFFFFFFFFE01000 then
      if 0xFFFFFFFFFFE01000 < fin then bad (xf eXlat 0x04)
      else if w.level = 0 then bad (xf ePriv 0)
      else ok (ctrlKey (clusterOf w.q) (v - 0xFFFFFFFFFFE00000))
    else bad (xf eXlat 0x04)
  else if 0xFFFFFFFFFFC00000 ≤ v then
    if 0xFFFFFFFFFFE00000 < fin then bad (xf eXlat 0x04)
    else
      let o := v - 0xFFFFFFFFFFC00000
      match bankCheck s w (o / 2 ^ 17) with
      | some f => bad f
      | none => ok (bankKey (clusterOf w.q) (o / 2 ^ 17) (o % 2 ^ 17))
  else if 0xFFFFFFFFF8000000 ≤ v then bad (xf eXlat 0x04)
  else if 0xFFFFFFFFF0000000 ≤ v then
    if 0xFFFFFFFFF8000000 < fin then bad (xf eXlat 0x04)
    else
      let o := v - 0xFFFFFFFFF0000000
      let x := s.slot w.q
      let c := x.spillKB * 1024
      let desc := s.recDesc x.lrec
      let ovfKB := fieldOf (desc.getD 6 0) 15 0
      if o < c then ok (padKey (tileOf w.q) (x.carve + o))
      else if o < c + ovfKB * 1024 then
        translate s w (va57 (low57 (desc.getD 5 0) + BitVec.ofNat 57 (w.q * ovfKB * 1024 + (o - c)))) a
      else bad (xf eProt 0x05)
  else
    let o := v - windowFloor
    if 0xFFFFFFFFF0000000 < fin then bad (xf eXlat 0x04)
    else
      let c := 128 * dieOf (clusterOf w.q) + o / 2 ^ 21
      let t := 16 * c + o / 2 ^ 17 % 16
      match tileCheck s w c with
      | some f => bad f
      | none => ok (padKey t (o % 2 ^ 17))

/-- The home of an access of `size` bytes from a virtual address (R250, R283 steps 4 and 5). -/
def resolve (s : State) (w : Who) (va : Word) (size : Nat) (a : Access) : State × (Except XFault Loc) :=
  if !canonical va then (s, .error (xf eXlat 0x01))
  else if windowFloor ≤ va.toNat then window s w va.toNat size a
  else translate s w va a

/-- The TILES-window address of an offset in a tile's scratchpad (R250, R363). -/
def tilesAddress (tile off : Nat) : Word :=
  BitVec.ofNat 64 (windowFloor + (16 * (tile / 16 % 128) + tile % 16) * 2 ^ 17 + off)

end Sys2Proof.Machine
end

