-- ==== Sys2Proof/Machine/Ops.lean ====
section
/-! DEFINITION. The named operations over memory, counters, slots and records that the meanings share:
reads and writes at homes (R260, R261), the directory's partial stores (R212), releases (R271), counters
(R52, R53, R359), error records (R413), host events (R441), the end of an activation (R60, R408), taking
a trap and returning from one (R389, R404), and the issue of a core instruction (R74, R97). -/

namespace Sys2Proof.Machine

/-- The outcome of a step of this machine. -/
abbrev Result := Host.Outcome State Fault Refusal

/-! ### Homes -/

/-- Whether any granule of a run of bytes is uncorrectable at its home (R410). -/
def State.anyBad (s : State) (key n : Nat) : Bool :=
  (List.range ((key + n + 7) / 8 - key / 8)).any fun i => getAt false s.bad (key / 8 + i)

/-- The unit class of R413 that holds a home, and the unit's index in its class. (DESIGN CHOICE: log entry 55.) -/
def homeUnit (key : Nat) : Nat × Nat :=
  match homeOf key with
  | .dram o => (0x01, channelOf o)
  | .bank c b _ => (0x03, 16 * c + b)
  | .pad t _ => (0x04, t)
  | _ => (0x0E, 0)

/-- The cluster whose SRAM holds a home. -/
def homeCluster (key : Nat) : Option Nat :=
  match homeOf key with
  | .bank c _ _ => some c
  | .pad t _ => some (t / 16)
  | _ => none

/-- Uncorrectable data in a run of bytes is detected at its home (R410) by an access of slot q, or of a unit. -/
def State.detect (s : State) (q : Option Nat) (key n : Nat) : State :=
  let g := (((List.range ((key + n + 7) / 8 - key / 8)).map (key / 8 + ·)).find? (getAt false s.bad)).getD (key / 8)
  let die := match homeOf key with
    | .dram o => dieOfOffset o
    | _ => dieOf ((homeCluster key).getD 0)
  s.push (.uncorrectableError
    { unit := (homeUnit key).1, index := (homeUnit key).2, die := die, cluster := homeCluster key, key := some (8 * g),
      consumer := q, scrub := q.isNone })

/-- The directory entry of a granule (R210). -/
def State.tcdEntry (s : State) (tile g : Nat) : BitVec 7 := getAt tcdReset (s.tile tile).tcd g

/-- The state with a directory entry set. -/
def State.setTcd (s : State) (tile g : Nat) (e : BitVec 7) : State :=
  let t := s.tile tile
  s.setTile tile { t with tcd := putAt t.tcd g e }

/-- What a partial store does to a directory entry (R212): zero bytes leave a ZERO granule whose TAG is
not 0x7 as it is; anything else makes it GENERAL with NF 1. -/
def tcdPartial (e : BitVec 7) (zero : Bool) : BitVec 7 :=
  if zero ∧ e.extractLsb' 0 2 = 1 ∧ e.extractLsb' 2 4 ≠ 7 then e
  else (e &&& 0x3C) ||| 0x40

/-- A run of bytes of one tile's scratchpad split at granule edges: granule, first offset, bytes. -/
def splitGranules (off : Nat) (bs : List Byte) : List (Nat × Nat × List Byte) :=
  (List.range ((off + bs.length + 1023) / 1024 - off / 1024)).map fun i =>
    let g := off / 1024 + i
    let lo := max off (1024 * g)
    let hi := min (off + bs.length) (1024 * (g + 1))
    (g, lo, (bs.drop (lo - off)).take (hi - lo))

/-- A partial store's effect on the directory of a tile (R212). -/
def State.tcdStore (s : State) (tile off : Nat) (bs : List Byte) : State :=
  (splitGranules off bs).foldl
    (fun s p => s.setTcd tile p.1 (tcdPartial (s.tcdEntry tile p.1) (p.2.2.all (· == 0)))) s

/-- Plain bytes written at a home, with the directory of a scratchpad kept (R212). -/
def State.poke (s : State) (key : Nat) (bs : List Byte) : State :=
  let s1 := { s with mem := s.mem.writeBytes key bs }
  match homeOf key with
  | .pad t off => s1.tcdStore t off bs
  | _ => s1

/-- Place of a key's timestamps in `lineTs`: those of its line in device memory (R261), of its location elsewhere (R260,
R468). The two do not meet, since every other key lies above 2^44. -/
def tsKey (key : Nat) : Nat :=
  match homeOf key with
  | .dram _ => key / 128
  | _ => key / 8

/-- The timestamps of a key at its home (R261, R468); a slice uses the largest timestamp it has evicted for a line
that it does not hold. -/
def State.ts (s : State) (key : Nat) : Nat × Nat :=
  match homeOf key with
  | .dram o =>
    let e := getAt 0 s.evictTs (sliceOf o)
    getAt (e, e) s.lineTs (key / 128)
  | _ => getAt (0, 0) s.lineTs (tsKey key)

/-- The locations that a run of bytes touches (R260). -/
def locsOf (key n : Nat) : List Nat := (List.range ((key + n + 7) / 8 - key / 8)).map (8 * (key / 8) + 8 * ·)

/-- The greatest write timestamp of a run of bytes (R468). -/
def State.tsOver (s : State) (key n : Nat) : Nat := (locsOf key n).foldl (fun p k => max p (s.ts k).1) 0

/-- A write with a timestamp to locations outside device memory (R468): each keeps the greatest of those in its order. -/
def State.stampLocs (s : State) (key n pts : Nat) : State :=
  (locsOf key n).foldl (fun (s : State) k =>
    { s with lineTs := putAt s.lineTs (tsKey k) (max pts (s.ts k).1, max pts (s.ts k).1) }) s

/-- A free choice of two: the next draw, and the state that has used it. (DESIGN CHOICE: log entry 9.) -/
def State.coin (s : State) : State × Bool :=
  ({ s with choices := s.choices + 1 }, Config.choice s.choices % 2 == 1)

/-- A slice may evict the timestamps of any one line before an access (R261): a free choice says whether, and of
which line that it holds. (DESIGN CHOICE: log entry 9.) -/
def State.evictLine (s : State) (o : Nat) : State :=
  let mine := s.lineTs.filter fun e => decide (128 * e.1 < 2 ^ 42) && sliceOf (128 * e.1) == sliceOf o
  let s1 := { s with choices := s.choices + 1 }
  match mine[Config.choice s.choices % (mine.length + 1)]? with
  | some (l, w, r) =>
    { s1 with
      lineTs := delAt s1.lineTs l,
      evictTs := putAt s1.evictTs (sliceOf o) (max (getAt 0 s1.evictTs (sliceOf o)) (max w r)) }
  | none => s1

/-- `slice_read` of R261 without the data: the lease a reader with timestamp p receives. -/
def State.sliceLease (s0 : State) (o p : Nat) : State × Nat × Nat :=
  let s := s0.evictLine o
  let (w, r) := s.ts o
  let q := max p w + 16
  ({ s with lineTs := putAt s.lineTs (o / 128) (w, max r q) }, w, q)

/-- `slice_write` of R261 without the data: the write timestamp a writer with timestamp p receives. -/
def State.sliceStamp (s0 : State) (o p : Nat) : State × Nat :=
  let s := s0.evictLine o
  let (_, r) := s.ts o
  let w := max p (r + 1)
  ({ s with lineTs := putAt s.lineTs (o / 128) (w, w) }, w)

/-- Bytes written at a home with the writer's timestamp (R261, R468): the write timestamp it receives. -/
def State.homeWrite (s : State) (key pts : Nat) (bs : List Byte) : State × Nat :=
  match homeOf key with
  | .dram o =>
    let (s1, w) := s.sliceStamp o pts
    (s1.poke key bs, w)
  | _ => ((s.stampLocs key bs.length pts).poke key bs, pts)

/-- Whether a home access at a key leaves the issuing tile (R271 step 3). -/
def offTile (q key : Nat) : Bool :=
  match homeOf key with
  | .pad t _ => t != tileOf q
  | _ => true

/-! ### Unacknowledged writes -/

/-- The NI's count of unacknowledged writes for a bit of the touched-slice mask (R271). -/
def bump (m : Store Nat) (k : Nat) : Store Nat := putAt m k (getAt 0 m k + 1)

/-- A count lowered by one. -/
def drop1 (m : Store Nat) (k : Nat) : Store Nat := putAt m k (getAt 0 m k - 1)

/-- The slot with a write sent to a home counted (R271, R308). -/
def Slot.countSent (x : Slot) (q key : Nat) : Slot :=
  match homeOf key with
  | .dram o =>
    let b := sliceOf o % 64
    { x with touched := x.touched ||| BitVec.twoPow 64 b, ackOwn := bump x.ackOwn b }
  | .far _ o =>
    let b := sliceOf o % 64
    { x with touched := x.touched ||| BitVec.twoPow 64 b, ackFar := bump x.ackFar b }
  | .pad t _ => if t = tileOf q then x else { x with near := x.near + 1 }
  | _ => { x with near := x.near + 1 }

/-- The slot with a write to a home acknowledged. -/
def Slot.countAcked (x : Slot) (q key : Nat) : Slot :=
  match homeOf key with
  | .dram o => { x with ackOwn := drop1 x.ackOwn (sliceOf o % 64) }
  | .far _ o => { x with ackFar := drop1 x.ackFar (sliceOf o % 64) }
  | .pad t _ => if t = tileOf q then x else { x with near := x.near - 1 }
  | _ => { x with near := x.near - 1 }

/-- The state with a write of a thread handed to the NI: its line is outstanding (R308). -/
def State.outstanding (s : State) (q id key : Nat) : State :=
  { s with outWrites := s.outWrites ++ [⟨id, q, key / 128, none, none⟩] }

/-- Whether a thread has a write outstanding to the line of a key that is older than an identifier
(R308). -/
def State.lineOut (s : State) (q key before : Nat) : Bool :=
  s.outWrites.any fun w => w.thread == q && w.line == key / 128 && decide (w.id < before)

/-- Whether two runs of bytes share a location (R260). -/
def locsMeet (a m b n : Nat) : Bool := decide (a / 8 < (b + n + 7) / 8) && decide (b / 8 < (a + m + 7) / 8)

/-- Whether a load of a thread older than an identifier has still to read a location of a run of bytes. -/
def Slot.locUnread (x : Slot) (key n id : Nat) : Bool :=
  x.loads.any fun l => l.data.isNone && !l.abort && locsMeet l.key l.size key n && decide (l.before ≤ id)

/-- The register that the word of an EGET writes (R87). -/
def egetDest (w : InstrWord) : Option (BitVec 5) :=
  if w.toNat / 2 ^ 26 = 0x2E then some (w.extractLsb' 21 5) else none

/-- Whether an EGET of the slot that precedes an identifier has still to wait: what follows it in program order comes
after its join (R88, R192, R279). -/
def Slot.joinsBefore (x : Slot) (id : Nat) : Bool :=
  x.ring.any fun e => (egetDest e.2.word).isSome && e.2.phase != 3 && decide (e.2.before < id)

/-- An item of a thread whose context runs in lockstep, for its pair to compare: without an error the follower's is the
same (R141, R422). After a mismatch nothing more is compared. (DEDUCED: log entry 59.) -/
def State.pairItem (s : State) (q : Nat) (i : LockItem) : State :=
  let p := getAt (⟨[], []⟩ : LockPair) s.lock q
  if s.lockstep (s.slot q).ctx && p.leader.length == p.follower.length then
    State.push { s with lock := putAt s.lock q ⟨p.leader ++ [i], p.follower ++ [i]⟩ } (.lockstepCompare q)
  else s

/-- Whether a thread has made items that its pair has not found equal (R422). (DEDUCED: log entry 59.) -/
def State.pairOpen (s : State) (q : Nat) : Bool :=
  s.lockstep (s.slot q).ctx && !(getAt (⟨[], []⟩ : LockPair) s.lock q).leader.isEmpty

/-- Whether an access of a thread is held at the NI for its pair: one that leaves the thread's tile (R422).
(DEDUCED: log entry 59.) -/
def State.pairHolds (s : State) (q key : Nat) : Bool :=
  s.pairOpen q && (match homeOf key with
    | .pad t _ => t != tileOf q
    | _ => true)

/-- Whether a write may leave the NI: the loads that hold it have completed (R267), no older write of its thread to
its line is outstanding (R308), every older load of its thread has read the location (R275 row 1), every EGET before it
has joined (R279), and its pair has found it equal (R422). -/
def State.mayGo (s : State) (q id key n : Nat) (hold : List Nat) : Bool :=
  (s.slot q).clearOf hold && !s.lineOut q key id && !(s.slot q).locUnread key n id && !(s.slot q).joinsBefore id &&
    !s.pairHolds q key

/-- The timestamp of a write that loads of its thread held: it is no less than the pts to which they raised their
thread, so that their order reaches its readers (R275 rows 2 and 3, R468). -/
def State.heldPts (s : State) (q : Nat) (hold : List Nat) (pts : Nat) : Nat :=
  if hold.isEmpty then pts else max pts (s.slot q).pts

/-- Whether a key lies in another package. -/
def isFar (key : Nat) : Bool :=
  match homeOf key with
  | .far _ _ => true
  | _ => false

/-- Whether the waits of a release of thread q are met (R271): no older write whose home lies inside the scope's
instance (R270) is dirty or unacknowledged; no older load is outstanding (R275 row 5); at domain scope no packet of
the thread is unanswered on any path (R325); no EGET before it waits (R192); an older release has completed (R288).
(DEDUCED: log entry 11.) -/
def State.relReady (s : State) (q scope num before : Nat) : Bool :=
  !((s.slot q).loads.any fun l => decide (l.before ≤ before)) &&
  !(s.dirty.any fun w => w.thread == q && decide (w.id < before) && homeInScope scope q (homeOf w.key)) &&
    !(s.outWrites.any fun w =>
      w.thread == q && decide (w.id < before) && homeInScope scope q (homeOf (128 * w.line))) &&
    (scope != 4 || (s.slot q).dcount.all fun e => e.2 == 0) && !(s.slot q).joinsBefore before &&
    (s.slot q).relDone == num && !s.pairOpen q

/-- The slot after a release: the mask bits whose counts are zero are cleared (R271). -/
def Slot.clearTouched (x : Slot) : Slot :=
  let f (t : BitVec 64) (b : Nat) : BitVec 64 :=
    if getAt 0 x.ackOwn b = 0 ∧ getAt 0 x.ackFar b = 0 then t &&& ~~~(BitVec.twoPow 64 b) else t
  { x with touched := (List.range 64).foldl f x.touched }

/-! ### Messages, records and host events -/

/-- HOSTEV bit b rises (R441): where it is enabled and no earlier bit stands, an interrupt message
leaves on module 0, or on module 1 where module 0 is down. -/
def State.hostEvent (s : State) (b : Nat) : State :=
  let v := s.reg hostevOff
  if v.getLsbD b then s
  else
    let s1 := s.setReg hostevOff (v ||| BitVec.twoPow 64 b)
    if v = 0 ∧ (s.reg hostevenOff).getLsbD b then
      { s1 with hostOut := s1.hostOut ++
          [.interrupt (if (s.reg (ucstatOff 0)).getLsbD 0 then 0 else 1)] }
    else s1

/-- A record of the package error ring (R413). -/
structure ErrRec where
  kind : Nat
  cause : Nat
  reason : Nat
  ctx : Option Nat
  place : Nat
  addr : Word
  cald : Option Nat
  unit : Nat
  uidx : Nat
  roundMin : Nat
  killed : Nat
  abandoned : Nat
  seq : Option Nat
  data0 : Word
  data1 : Word
  deriving DecidableEq, Repr

/-- A record with only its KIND. -/
def ErrRec.ofKind (k : Nat) : ErrRec := ⟨k, 0, 0, none, 0, 0, none, 0, 0, 0, 0, 0, none, 0, 0⟩

/-- The eight words of a record (R413). -/
def ErrRec.words (r : ErrRec) (id now : Nat) : List Word :=
  let n := BitVec.ofNat 64
  let c := match r.ctx with | some x => 2 ^ 39 + x * 2 ^ 32 | none => 0
  let cd := match r.cald with | some i => i * 2 ^ 61 + 2 ^ 60 | none => 0
  let sq := match r.seq with | some q => 2 ^ 12 + q | none => 0
  [n (r.kind * 2 ^ 56 + r.cause * 2 ^ 48 + r.reason * 2 ^ 40 + c + r.place * 2 ^ 16 + id % 65536),
   r.addr, n now, n (cd + r.unit * 2 ^ 48 + r.uidx * 2 ^ 32 + r.roundMin),
   n (r.killed * 2 ^ 32 + r.abandoned), n sq, r.data0, r.data1]

/-- A saturating increment of a 64-bit counter. -/
def satInc (w : Word) : Word := if w = BitVec.allOnes 64 then w else w + 1

/-- A KIND 0b01 message of the device itself to a handler queue of a context (R395, R413). -/
def deviceMsg (s : State) (x queue : Nat) (place : BitVec 16) (payload : List Word) : Msg :=
  ⟨s.nextId, x, place, 0, none, 0, true, queue, 0, 0, 0, 0, payload, s.cycle, 0, 0⟩

/-- The lifetime record ring takes a record (R436). -/
def State.lifeRecord (s : State) (ws : List Word) : State :=
  let i := (getAt 0 s.mram.life (0x2000 / 8)).toNat
  let life := (List.range 8).foldl
    (fun l k => putAt l ((0x2040 + 64 * (i % 384)) / 8 + k) (ws.getD k 0)) s.mram.life
  { s with mram := { s.mram with life := putAt life (0x2000 / 8) (BitVec.ofNat 64 (i + 1)) } }

/-- A register changed by the device with a timestamp: who reads it with an acquire sees what came before (R468). -/
def State.stampReg (s : State) (o : Nat) (v : Word) (pts : Nat) : State :=
  (s.stampLocs (regKey o) 8 pts).setReg o v

/-- A record written to the package error ring as a release at package scope, before ERRTAIL advances; where the ring has no
room it is dropped (R413). -/
def State.errorEntry (s : State) (ws : List Word) : State :=
  let ctl := s.reg errctlOff
  let size := fieldOf ctl 4 0
  let tail := (s.reg errtailOff).toNat
  if size = 0 ∨ (tail + 2 ^ 32 - fieldOf ctl 63 32) % 2 ^ 32 = 2 ^ size then
    s.setReg errdropOff (satInc (s.reg errdropOff))
  else
    let (s1, w) := s.homeWrite (dramKey (fieldOf (s.reg errbaseOff) 55 6 * 64 + 64 * (tail % 2 ^ size))) 0
      (ws.flatMap wordBytes)
    s1.stampReg errtailOff (BitVec.ofNat 64 ((tail + 1) % 2 ^ 32)) w

/-- The management controller writes a record (R413): to the error ring, to the context's record queue where RECEN is 1
and the queue is bound, and to the lifetime ring for the kinds of R436. -/
def State.record (s : State) (r : ErrRec) : State :=
  let ws := r.words s.errorId s.hubNs
  let s1 := { s with errorId := s.errorId + 1 }.errorEntry ws
  let s2 := match r.ctx with
    | some x =>
      let c := s.reg (rctlOff x)
      let qn := fieldOf c 15 8
      match findAt s1.hqueues (256 * x + qn) with
      | some h =>
        if c.getLsbD 1 then
          { s1 with nextId := s1.nextId + 1 }.push (.messageDelivery (deviceMsg s1 x qn h.place ws))
        else s1
      | none => s1
    | none => s1
  if r.kind = 2 ∨ r.kind = 3 ∨ r.kind = 4 ∨ r.kind = 0x0B ∨ r.kind = 0x0C then s2.lifeRecord ws else s2

/-! ### Counters -/

/-- VALUE of the counter at a key (R51). -/
def State.counter (s : State) (key : Nat) : Nat := (s.mem.word key).toNat

/-- The status word of the counter at a key (R51). -/
def State.status (s : State) (key : Nat) : Word := s.mem.word (key + 8)

/-- The record of a load filled in by the home. -/
def Slot.fillLoad (x : Slot) (serial : Nat) (f : LoadRec → LoadRec) : Slot :=
  { x with loads := x.loads.map fun l => if l.serial = serial then f l else l }

/-- The slot without a load, which its instruction has withdrawn (R389). -/
def Slot.dropLoad (x : Slot) (serial : Nat) : Slot :=
  { x with loads := x.loads.filter fun l => l.serial ≠ serial }

/-- The trap of an abandoned CWAITT (R370): E_ABORT with REASON 0x01 at the counter's address.
(DEDUCED: log entry 74.) -/
def abandonedTrap (x : Slot) (va : Word) (w : InstrWord) : Trap :=
  ⟨eAbort, 0x01, x.pc, w, va, none, false⟩

/-- Whether what a CWAITT observes traps it (R370, R376): ABANDONED is set, and it is not a poll that finds VALUE at
its target, which an add may have taken there before. (DEDUCED: log entry 33.) -/
def waitTraps (r : WaitReq) (v : Nat) (st : Word) : Bool :=
  r.trapAbandoned && st.getLsbD 0 && (r.due == 0 || decide (v < r.target.toNat))

/-- A satisfied wait ends (R53, R359) with what its home answered: the slot becomes RUNNING past its instruction, the
acquire has raised its pts (R272, R468), the status stands in CSTAT (R362) and the value is on its way; or, for a
CWAITT whose counter was abandoned, its trap is. (DEDUCED: log entry 74.) -/
def State.wakeWith (s : State) (r : WaitReq) (v : Nat) (st : Word) (wts : Nat) : State :=
  let x := s.slot r.thread
  if waitTraps r v st then
    (s.modSlot r.thread fun x => { x with observed := BitVec.ofNat 64 v }).push
      (.trapDelivery r.thread (abandonedTrap x r.va r.word))
  else
    (s.modSlot r.thread fun x =>
      { (x.fillLoad r.serial fun l =>
          { l with data := some v, status := st.extractLsb' 0 2, wts := wts }).advance
        with state := .running, wait := none, pts := max x.pts wts, cstat := st.extractLsb' 0 2,
             cstatOf := r.serial }).push (.loadCompletion r.thread r.serial)

/-- A satisfied wait on a counter of this package ends; what it reads may be an add or a plain store (R54). -/
def State.wake (s : State) (r : WaitReq) : State :=
  s.wakeWith r (s.counter r.key) (s.status r.key) (max (getAt 0 s.counterTs r.key) (s.tsOver r.key 16))

/-- Whether a wait on a counter is satisfied (R53). (DEDUCED: log entry 33.) -/
def State.waitMet (s : State) (r : WaitReq) : Bool :=
  decide (r.target.toNat ≤ s.counter r.key) || (s.status r.key).getLsbD 0

/-- Every registered wait on a counter is checked (R359). -/
def State.wakeAll (s : State) (key : Nat) : State :=
  let due := s.waits.filter fun r => r.key == key && s.waitMet r
  due.foldl (fun s r => s.wake r) { s with waits := s.waits.filter fun r => !(r.key == key && s.waitMet r) }

/-- The registered waits on counters that a run of written bytes touches compare their targets against what it wrote
(R54). (DEDUCED: log entry 33.) -/
def State.recheck (s : State) (key n : Nat) : State :=
  ((s.waits.filter fun r => decide (r.key < key + n) && decide (key < r.key + 16)).map (·.key)).foldl
    (fun s k => s.wakeAll k) s

/-- Bytes written at a home by an access other than a counter add: the waits on counters there are checked. -/
def State.homeApply (s : State) (key pts : Nat) (bs : List Byte) : State × Nat :=
  let (s1, w) := s.homeWrite key pts bs
  (s1.recheck key bs.length, w)

/-- ABANDONED set in the counter at a key of this package (R44, R354), and its waits checked. -/
def State.abandonKey (s : State) (key : Nat) : State :=
  ((s.homeWrite (key + 8) 0 (wordBytes (s.status key ||| 1))).1).wakeAll key

/-- ABANDONED set in the counter at a virtual address, where that is valid and mapped (R44); one of another package is
marked by a request to its slice. -/
def State.abandonAt (s : State) (w : Who) (va : Word) : State :=
  if va.toNat % 16 ≠ 0 then s
  else
    match resolve s w va 16 .write with
    | (s1, .ok l) =>
      match homeOf l.key with
      | .far _ _ => s1.push (.counterAddAtHome ⟨s1.nextId, none, none, l.key, va, 0, [], 0, w.ctx, [], .abandon⟩)
      | _ => s1.abandonKey l.key
    | (s1, .error _) => s1

/-- ABANDONED set in the counter that NOTIFY names; 0 names none (R55). -/
def State.abandon (s : State) (w : Who) (va : Word) : State := if va = 0 then s else s.abandonAt w va

/-- A key of a tile's task pool: the tile and the entry whose dependence counter it is (R363). -/
def poolOfKey (key : Nat) : Option (Nat × Nat) :=
  match homeOf key with
  | .pad t off =>
    if 0x14000 ≤ off ∧ off < 0x18000 ∧ off % 64 = 0x30 then some (t, (off - 0x14000) / 64) else none
  | _ => none

/-- The run-list key of a cluster and class (R347). -/
def runKey (c cls : Nat) : Nat := 4 * c + cls

/-- A run list. -/
def State.runList (s : State) (c cls : Nat) : List RunEntry := getAt [] s.runs (runKey c cls)

/-- The state with a run list set. -/
def State.setRun (s : State) (c cls : Nat) (l : List RunEntry) : State :=
  { s with runs := putAt s.runs (runKey c cls) l }

/-- Words 0 to 5 of the descriptor in a task-pool entry (R55). -/
def State.poolWords (s : State) (tile e : Nat) : List Word := s.mem.words (padKey tile (0x14000 + 64 * e)) 6

/-- A cluster has a new entry, or one at a head: its placement test comes at once (R340), and its tiles decide. -/
def State.arrived (s : State) (c : Nat) : State :=
  (s.pushAll ((List.range 16).map fun t => .dispatchDecision (16 * c + t))).pushNext (.dispatchDecision (16 * c))

/-- A task whose threshold is reached goes to its home cluster's run list in its CLASS, once (R56). -/
def State.enqueueTask (s : State) (tile e pts : Nat) : State :=
  match findAt s.pools (256 * tile + e) with
  | some p =>
    if p.enqueued then s
    else
      let ws := s.poolWords tile e
      let cls := fieldOf (ws.getD 0 0) 58 57
      let c := tile / 16
      State.arrived { s.setRun c cls (s.runList c cls ++ [.task p.ctx p.lrec tile e ws 0 pts false 0]) with
        pools := putAt s.pools (256 * tile + e) { p with enqueued := true } } c
  | none => s

/-- A counter add at its home (R52): VALUE saturates, SAT is sticky, a crossing of a task's threshold
enqueues it (R56), and the registered waits are checked (R359). It is a write at its home, whose timestamp the counter
keeps (R261, R468). -/
def State.addCounter (s : State) (key n pts : Nat) : State × Nat :=
  let v := s.counter key
  let sat := decide (2 ^ 64 - 1 < v + n)
  let v' := min (v + n) (2 ^ 64 - 1)
  let st := if sat then s.status key ||| 2 else s.status key
  let (s1, w) := s.homeWrite key pts (wordBytes (BitVec.ofNat 64 v') ++ wordBytes st)
  let s2 := { s1 with counterTs := putAt s1.counterTs key (max (getAt 0 s1.counterTs key) w) }
  let s3 := match poolOfKey key with
    | some (t, e) =>
      match findAt s2.pools (256 * t + e) with
      | some p => if v < p.thresh ∧ p.thresh ≤ v' then s2.enqueueTask t e (getAt 0 s2.counterTs key) else s2
      | none => s2
    | none => s2
  (s3.wakeAll key, w)

/-- A ring entry by sequence number. -/
def Slot.entry (x : Slot) (n : Nat) : Option RingEntry :=
  match findAt x.ring (n % 64) with
  | some e => if e.seq = n then some e else none
  | none => none

/-- The slot with a ring entry replaced. -/
def Slot.setEntry (x : Slot) (e : RingEntry) : Slot := { x with ring := putAt x.ring (e.seq % 64) e }

/-- Why a counter operation may not use an address (R51, R371): alignment, FIFO-mode banks, host
memory, register space, constant pages and the control page. -/
def counterPlace (s : State) (l : Loc) (key : Nat) : Option XFault :=
  if l.const then some (xf eProt 0x05)
  else
    match homeOf key with
    | .bank c b _ => if (s.bank c b).mode = .fifo then some (xf eProt 0x05) else none
    | .host _ => some (xf eProt 0x05)
    | .reg _ => some (xf eProt 0x05)
    | .ctrl _ _ => some (xf eProt 0x05)
    | _ => none

/-- The home of a counter for an add or a wait (R371). -/
def counterLoc (s : State) (w : Who) (va : Word) (a : Access) : State × (Except XFault Loc) :=
  if va.toNat % 16 ≠ 0 then (s, .error (xf eAlign 0))
  else
    match resolve s w va 16 a with
    | (s1, .ok l) =>
      match counterPlace s1 l l.key with
      | some f => (s1, .error f)
      | none => (s1, .ok l)
    | (s1, .error f) => (s1, .error f)

/-! ### Launches, tasks and the end of an activation -/

/-- The identity of the hub's own accesses for a launch: its context, at level S, resolved at HOME.
(DEDUCED: log entry 12.) -/
def homeWho (x : Nat) (desc : List Word) : Who :=
  ⟨x, 1, slotNum (placeTile (BitVec.ofNat 16 (fieldOf (desc.getD 4 0) 15 0))) 0 0⟩

/-- DONE of a descriptor (R43). -/
def descDone (d : List Word) : Word := va57 (BitVec.ofNat 57 (fieldOf (d.getD 2 0) 56 0))

/-- A launch marked abandoned, with ABANDONED in DONE: it never completes (R354, R417). -/
def State.abandonLaunch (s : State) (l : Nat) : State :=
  match findAt s.launches l with
  | some r =>
    if r.abandoned then s
    else
      { s with launches := putAt s.launches l { r with abandoned := true } }.abandonAt
        (homeWho r.ctx r.desc) (descDone r.desc)
  | none => s

/-- A launch index is free again once the launch is over and its tasks have ended (R59). -/
def State.reapLaunch (s : State) (l : Nat) : State :=
  match findAt s.launches l with
  | some r =>
    if (r.complete || (r.abandoned && r.running == 0 && r.remaining == 0)) && r.tasks == 0 then
      { s with launches := delAt s.launches l }
    else s
  | none => s

/-- The state with a launch record changed. -/
def State.modLaunch (s : State) (l : Nat) (f : Launch → Launch) : State :=
  match findAt s.launches l with
  | some r => { s with launches := putAt s.launches l (f r) }
  | none => s

/-- QSTAT after the ACTIVE count or RESETTING changes (R350). -/
def qstatValue (active : Nat) (resetting : Bool) : Word :=
  BitVec.ofNat 64 (active * 2 ^ 32 + (if active = 0 ∧ !resetting then 2 else 0) + (if resetting then 1 else 0))

/-- A field of a counting register raised by a number, saturating at 32 bits. -/
def bump32 (w : Word) (h l n : Nat) : Word := withField w h l (min (fieldOf w h l + n) (2 ^ 32 - 1))

/-- The index of the next entry of an orphan or fault ring, from its tail register: behind those that are being written
(R355, R395). -/
def State.ringTail (s : State) (reg : Nat) : Nat :=
  match (s.orphanOut.filter fun o => o.reg == reg).getLast? with
  | some o => o.tail.toNat
  | none => fieldOf (s.reg reg) 31 0

/-- The tail of a ring advances over the entries at the head of those being written that are there whole, with their
timestamp, so that who acquires it sees them (R355, R395). -/
def State.orphanStep (s : State) : State :=
  let ready (o : OrphanOut) : Bool :=
    o.tags.isEmpty && (s.orphanOut.takeWhile fun p => p ≠ o).all fun p => p.reg != o.reg || p.tags.isEmpty
  let go := s.orphanOut.filter ready
  let counted (s : State) (o : OrphanOut) : State := match o.count with
    | some c => s.setReg c (bump32 (s.reg c) 31 0 1)
    | none => s
  go.foldl (fun s o => counted (s.stampReg o.reg o.tail o.pts) o)
    { s with orphanOut := s.orphanOut.filter fun o => !ready o }

/-- A request that an entry of a ring made is answered, with the timestamp of its home (R355, R395, R468). -/
def State.orphanAnswered (s : State) (tag pts : Nat) : State :=
  State.orphanStep { s with orphanOut := s.orphanOut.map fun (o : OrphanOut) =>
    if tag ∈ o.tags then { o with tags := o.tags.filter (· ≠ tag), pts := max o.pts pts } else o }

/-- ACTIVE of a queue raised or lowered (R350) with a timestamp: the retirement of an activation comes before (R354). -/
def State.queueActive (s : State) (n : Option Nat) (up : Bool) (pts : Nat) : State :=
  match n with
  | some n =>
    let v := s.reg (qstatOff n)
    let a := fieldOf v 63 32
    s.stampReg (qstatOff n) (qstatValue (if up then a + 1 else a - 1) (v.getLsbD 0)) pts
  | none => s

/-- Whether a tile holds a group of a launch (R374). (DEDUCED: log entry 13.) -/
def State.holdsGroup (s : State) (tile l g : Nat) : Bool :=
  (List.range 12).any fun i =>
    let x := s.slot (12 * tile + i)
    x.state != .free && x.kind == .group g && x.lrec == some l

/-- The instances of groups that a tile no longer holds are gone (R63, R374). (DEDUCED: log entry 13.) -/
def State.dropInstances (s : State) (tile : Nat) : State :=
  { s with cbs := s.cbs.filter fun c =>
      !(c.key.tile == tile && !s.holdsGroup tile c.key.lrec c.key.group) }

/-- A task-pool entry is free again and the first SPAWN waiting for the pool may go on (R61, R361). -/
def State.freePool (s : State) (tile e : Nat) : State :=
  { s with pools := delAt s.pools (256 * tile + e) }.push (.spawnPoolRelease tile)

/-- The thread whose activation a pending step belongs to: it goes with the activation. -/
def eventThread : Event → Option Nat
  | .sliceRead q _ => some q
  | .loadCompletion q _ => some q
  | .sliceWrite w => some w.thread
  | .homeAtomic r => some r.thread
  | .homeReduction r => some r.thread
  | .nibbleStoreAtHome r => some r.thread
  | .counterAddAtHome r => r.thread
  | .counterWaitAtHome r => some r.thread
  | .counterWaitPoll r => some r.thread
  | .releaseComplete r => some r.thread
  | .trapDelivery q _ => some q
  | .cbPermit q _ => some q
  | .engineCapture q _ => some q
  | .engineResultPhase q _ => some q
  | .engineDone q _ => some q
  | .engineFault q _ _ _ _ => some q
  | .writeAck q _ _ => some q
  | .retirement q => some q
  | .combiningRequest r => some r.thread
  | .trapMessageAtCollector m => some m.thread
  | _ => none

/-- The captures of merged fetches (R299) whose first request goes with its thread: the next request
carries each on. -/
def State.newLeaders (s : State) (q : Nat) : List Event :=
  s.fetches.filterMap fun f =>
    match f.reqs with
    | r :: t =>
      if r.thread = q then
        match t.filter fun r => r.thread ≠ q with
        | u :: _ => some (.engineCapture u.thread u.seq)
        | [] => none
      else none
    | [] => none

/-- The number in `hubLines` of a line of another package that an instruction of slot q reads. -/
def ownKey (q line : Nat) : Nat := 2 ^ 50 * (q + 1) + line / 128

/-- The state without what a thread still has under way: its dirty bytes, its writes not yet performed,
its pending steps and the requests it awaits (R417 step 2). (DEDUCED: log entry 39.) -/
def State.dropThread (s : State) (q : Nat) : State :=
  { s with
    dirty := s.dirty.filter (fun w => w.thread ≠ q),
    outWrites := s.outWrites.filter (fun w => w.thread ≠ q),
    agenda := s.agenda.filter (fun e => eventThread e ≠ some q) ++ s.newLeaders q ++
      (if s.walks.any fun w => w.2.thread == q then [.walkContextGrant (clusterOf q)] else []),
    farReqs := s.farReqs.map (fun r => if r.thread = some q then { r with thread := none, store := true } else r),
    hubLines := s.hubLines.filter (fun e => e.1 / 2 ^ 50 ≠ q + 1),
    walks := s.walks.filter (fun w => w.2.thread ≠ q),
    walkQueue := s.walkQueue.filter (fun w => w.2.1 ≠ q),
    fetches := (s.fetches.map fun f => { f with reqs := f.reqs.filter fun r => r.thread ≠ q }).filter (fun f => f.reqs ≠ []),
    lock := delAt s.lock q,
    waits := s.waits.filter (fun w => w.thread ≠ q),
    collectors := s.collectors.map (fun c => (c.1, { c.2 with
      recs := c.2.recs.map fun r => { r with waiters := r.waiters.filter fun m => m.thread ≠ q } })),
    poolWaiters := s.poolWaiters.filter (fun w => w.2 ≠ q), operands := s.operands.filter (fun o => o.thread ≠ q) }

/-- A launch all of whose groups have ended is due for its completion (R47), for the end of a copy (R424) or,
hopped in from another package, for its report (R346). -/
def State.checkLaunch (s : State) (l : Nat) : State :=
  match findAt s.launches l with
  | some r =>
    if r.remaining = 0 ∧ r.running = 0 ∧ !r.abandoned ∧ !r.complete then s.push (.launchCompletion l) else s
  | none => s

/-- The slots that wait for a handler queue of a context in QUNB go on (R407). -/
def State.endUnbind (s : State) (x n : Nat) : State :=
  { s with slots := s.slots.map fun e =>
      if e.2.ctx = x ∧ e.2.state = .waiting ∧ e.2.wait = some (.queue n) then
        (e.1, { e.2.advance with state := .running, wait := none })
      else e }

/-- The handler of a queue has ended (R407): the queue may start its next message, or, being unbound, is
gone. -/
def State.endHandler (s : State) (x n : Nat) : State :=
  match findAt s.hqueues (256 * x + n) with
  | some h =>
    if h.unbinding then { s with hqueues := delAt s.hqueues (256 * x + n) }.endUnbind x n
    else { s with hqueues := putAt s.hqueues (256 * x + n) { h with running := false } }.push (.handlerStart x n)
  | none => s

/-- The first pool entry number that stands for an entry of another package (R346). -/
def farPool : Nat := 256

/-- Place among the timers of the cycle from which a core may be in retention (R434). -/
def restAt (k : Nat) : Nat := 65536 * 3 + k

/-- A slot of a core is FREE or WAITING from now on: after 64 cycles the core may enter retention (R434).
(DEDUCED: log entry 62.) -/
def State.restFrom (s : State) (k : Nat) : State :=
  { s with timers := putAt s.timers (restAt k) (s.cycle + 64) }.push (.retentionEntry k)

/-- A slot becomes FREE: its registers, carve-out and slot return to their pools, and only its
generation tag stays (R36, R60), with the cycle of its dispatch (R37). -/
def State.freeSlot (s : State) (q : Nat) : State :=
  let x := s.slot q
  let s1 := s.setSlot q { Slot.empty with gen := x.gen, reserved := x.reserved, born := x.born }
  let s2 := s1.dropThread q
  let s3 := (((s2.dropInstances (tileOf q)).queueActive x.queue false x.pts).push
    (.dispatchDecision (tileOf q))).restFrom (coreOf q)
  match x.kind, x.lrec with
  | .handler n, _ => s3.endHandler x.ctx n
  | .group _, some l => ((s3.modLaunch l fun r => { r with running := r.running - 1 }).checkLaunch l).reapLaunch l
  | .task, some l =>
    if farPool ≤ x.poolIx then (s3.modLaunch l fun r => { r with running := r.running - 1 }).checkLaunch l
    else (((s3.modLaunch l fun r => { r with tasks := r.tasks - 1 }).freePool x.home x.poolIx).checkLaunch l).reapLaunch l
  | _, _ => s3

/-- The end of an activation without a release (R408): ABANDONED in its NOTIFY and, for a group, in
DONE, and the slot FREE. (DEDUCED: log entry 43.) -/
def State.discardSlot (s : State) (q : Nat) : State :=
  let x := s.slot q
  let s1 := s.abandon (s.who q) x.notify
  let s2 := match x.kind, x.lrec with
    | .group _, some l => s1.abandonLaunch l
    | _, _ => s1
  s2.freeSlot q

/-- A trap at T with no handler address (R389): the activation issues nothing more, its commands and walks stop, and it is
discarded, as SLKILL does, by the step that ends it. (DEDUCED: log entry 43.) -/
def State.doom (s : State) (q : Nat) : State :=
  let s1 := { s with walks := s.walks.map fun (w : Nat × Walk) =>
    (w.1, if w.2.thread = q then { w.2 with suspended := true, stop := false } else w.2) }
  (s1.modSlot q fun x => { x with
    dying := true, retiring := true,
    ring := x.ring.map fun (e : Nat × RingEntry) => (e.1, { e.2 with suspended := true }) }).push (.retirement q)

/-! ### Traps -/

/-- The address a 57-bit PC stands for, as a word. -/
def pcWord (p : BitVec 57) : Word := p.setWidth 64

/-- SCAUSE of a trap (R387). -/
def causeWord (t : Trap) : Word :=
  BitVec.ofNat 64 (t.cause.toNat + t.reason.toNat * 2 ^ 32 + (if t.coll then 2 ^ 18 else 0) +
    (match t.seq with | some q => 2 ^ 19 + q.toNat * 2 ^ 20 | none => 0))

/-- The trap record of R387 for a trap taken by a slot. -/
def trapRegs (x : Slot) (t : Trap) (old : TrapRegs) : TrapRegs :=
  { old with epc := va57 t.pc, cause := causeWord t, tval := t.tval, word := t.word.setWidth 64,
             repst := x.repst, repcnt := x.repcnt.setWidth 64 }

/-- Whether a trap stands for the wait in which its slot is: the answer to a collected fault (R395, R396), or an
abandoned CWAITT (R370). It goes with the wait. -/
def ofWait (t : Trap) : Bool :=
  t.seq.isNone && (t.coll || t.cause == eXlat || t.cause == eProt || (t.cause == eAbort && t.reason == 0x01))

/-- Whether a pending step stands for the wait of a slot. -/
def waitEvent (q : Nat) : Event → Bool
  | .counterWaitAtHome w => w.thread == q
  | .counterWaitPoll w => w.thread == q
  | .trapMessageAtCollector m => m.thread == q && m.seq.isNone
  | .trapDelivery r t => r == q && ofWait t
  | _ => false

/-- The wait of a slot withdrawn (R389): a counter wait leaves the home's table and gives back its
load tag; a pool wait leaves the pool's arrival order; an answer under way goes with its wait; a RETIRE under way is
executed again; a line that its instruction reads in another package is read again. -/
def State.withdraw (s : State) (q : Nat) : State :=
  let x := s.slot q
  let s1 := { s with waits := s.waits.filter (fun w => w.thread ≠ q),
                     poolWaiters := s.poolWaiters.filter (fun w => w.2 ≠ q),
                     hubLines := s.hubLines.filter (fun e => e.1 / 2 ^ 50 ≠ q + 1),
                     farReqs := s.farReqs.map (fun (r : FarReq) =>
                       if r.thread = some q ∧ r.serial = none ∧ !r.store ∧ r.id = 1 then { r with id := 2 } else r),
                     agenda := s.agenda.filter fun e => !waitEvent q e }
  let y := match x.wait with
    | some (.counter _ _ _ _ n) => x.dropLoad n
    | _ => x
  s1.setSlot q { y with wait := none, retiring := false, state := if x.state = .waiting then .running else x.state }

/-- The Caldera of a context that holds a cluster, where one does. -/
def State.calderaOf (s : State) (x c : Nat) : Option Nat := (s.calderasAt x c).head?

/-- The Caldera that holds a slot's cluster is to be fenced, for a record KIND (R416). -/
def State.fenceFor (s : State) (q kind : Nat) : State :=
  let x := (s.slot q).ctx
  match s.calderaOf x (clusterOf q) with
  | some i => s.push (.calderaFence x i kind)
  | none => s

/-- The KIND 0x08 record of a trap that no handler takes (R389, R413). -/
def slotRecord (q : Nat) (x : Slot) (t : Trap) : ErrRec :=
  { ErrRec.ofKind 0x08 with
    cause := t.cause.toNat, reason := t.reason.toNat, ctx := some x.ctx, place := (placeOf q).toNat,
    data0 := va57 t.pc, seq := t.seq.map (·.toNat) }

/-- A trap is taken (R389). From T to the context's S handler; where there is none the activation is
discarded and recorded. From S to the firmware vector. At M the core stops and its Caldera is fenced. -/
def State.deliver (s0 : State) (q : Nat) (t : Trap) : State :=
  let s := s0.withdraw q
  let x := s.slot q
  if x.level = 0 then
    let svec := s.reg (svecOff x.ctx)
    if svec = 0 then
      (s.record (slotRecord q x t)).doom q
    else
      s.setSlot q { x with
        strap := trapRegs x t x.strap, repst := 0, repcnt := 0, repBody := [], level := 1, pc := low57 svec }
  else if x.level = 1 then
    s.setSlot q { x with
      mtrap := trapRegs x t x.mtrap, plevel := 1, repst := 0, repcnt := 0, repBody := [], level := 2,
      pc := s.fwVector }
  else
    ((s.record (slotRecord q x t)).setCore (coreOf q)
      { s.core (coreOf q) with stopped := true }).fenceFor q 0x08

/-- The bits of REPST that hold fields (R164). -/
def repstMask : Word := 0xFFFFFFFF01FF1F00

/-- The return from a trap (R404) but for the settlement of faulted ring entries (R430): the repetition
state, the level and the PC come back from the record of the level. -/
def Slot.eret (x : Slot) : Slot :=
  if x.level = 1 then
    { x with
      repst := x.strap.repst &&& repstMask, repcnt := x.strap.repcnt.setWidth 32, repBody := [], level := 0,
      pc := low57 x.strap.epc }
  else
    { x with
      repst := x.mtrap.repst &&& repstMask, repcnt := x.mtrap.repcnt.setWidth 32, repBody := [], level := x.plevel,
      pc := low57 x.mtrap.epc }

/-- A precise trap at an instruction of the slot (R388). -/
def trapOf (x : Slot) (w : InstrWord) (cause reason : BitVec 8) (tval : Word) : Trap :=
  ⟨cause, reason, x.pc, w, tval, none, false⟩

/-- A trap by an instruction at itself, precisely (R74, R283, R388). -/
def State.trapAt (s : State) (q : Nat) (i : Instr) (cause reason : BitVec 8) (tval : Word) : State :=
  s.deliver q (trapOf (s.slot q) ((encode i).getD 0) cause reason tval)

/-- A value that the manual leaves open: STVAL of a trap that R388 names no value for, SWORD of a fetch
that brought no word. (DESIGN CHOICE: log entry 5.) -/
def State.openWord (s : State) : State × Word := ({ s with draws := s.draws + 1 }, Config.freeWord s.draws)

/-- A precise trap whose STVAL R388 does not name. (DESIGN CHOICE: log entry 5.) -/
def State.trapOpen (s : State) (q : Nat) (i : Instr) (cause reason : BitVec 8) : State :=
  s.openWord.1.trapAt q i cause reason s.openWord.2

/-- Uncorrectable data is consumed (R411): with UEMODE 0, or above T, the Caldera is fenced and no trap
is delivered; with UEMODE 1 a consumer at T traps E_ABORT with REASON 0x02. (DEDUCED: log entry 18.) -/
def State.consume (s : State) (q : Nat) (i : Instr) (tval : Word) : State :=
  let x := s.slot q
  if (s.reg (rctlOff x.ctx)).getLsbD 0 ∧ x.level = 0 then s.trapAt q i eAbort 0x02 tval
  else s.fenceFor q 0x01

/-- The message to a row's collector for a translation fault (R394). -/
def faultMsg (s : State) (q : Nat) (f : XFault) (a : Access) (va : Word) (seq : Option Nat)
    (word : InstrWord) : FaultMsg :=
  ⟨(s.slot q).ctx, va.toNat % 2 ^ 57 / 65536, (match a with | .read => 0 | .write => 1 | .fetch => 2),
    f.perm, clusterOf q, collectorBit q, q, seq, va, word⟩

/-- Whether a context collects translation faults (R394). -/
def State.collects (s : State) (x : Nat) : Bool :=
  (s.reg (cctlOff x)).getLsbD 1 && fieldOf (s.reg (fltctlOff x)) 4 0 != 0

/-- The launch of record of an entry. -/
def entryLaunch : RunEntry → Nat
  | .task _ l _ _ _ _ _ _ _ => l
  | .group _ l _ _ _ _ => l
  | .launch _ l _ _ _ _ _ => l

/-- A shadow copy is full (R423): what has not started of its launch is removed, every activation of it is
discarded without a release, and the launch ends with unequal signatures (R424). (DEDUCED: log entry 60.) -/
def State.shadowOverflow (s : State) (q : Nat) : State :=
  let x := s.slot q
  match x.lrec, s.shadowCopy q with
  | some l, some c =>
    let k := shadowKey x.ctx c
    let waiting := (s.pools.filter fun e => e.2.lrec == l && !e.2.started).map (·.1)
    let s1 := { s with
      shadow := putAt s.shadow k { getAt (⟨[], false⟩ : ShadowSet) s.shadow k with full := true },
      runs := s.runs.map (fun (e : Nat × List RunEntry) => (e.1, e.2.filter fun r => entryLaunch r != l)),
      hopping := s.hopping.filter fun h => entryLaunch h.entry != l }
    let s2 := waiting.foldl (fun s k => s.freePool (k / 256) (k % 256)) s1
    let s3 := s2.modLaunch l fun r => { r with remaining := 0, tasks := r.tasks - waiting.length }
    ((s.slots.filter fun e => e.2.state != .free && e.2.lrec == some l).map (·.1)).foldl
      (fun s k => s.freeSlot k) s3
  | _, _ => s

/-- An access whose address does not resolve (R283, R394): the slot waits on the collector where the
fault is collected, and otherwise traps precisely. -/
def State.accessFault (s : State) (q : Nat) (i : Instr) (f : XFault) (a : Access) (va : Word) : State :=
  let x := s.slot q
  if f.cause = shadowFull then s.shadowOverflow q
  else if f.cause = eAbort then s.consume q i va
  else if f.collect ∧ x.level = 0 ∧ s.collects x.ctx then
    (s.setSlot q { x with state := .waiting, wait := some (.collected va none) }).push
      (.trapMessageAtCollector (faultMsg s q f a va none ((encode i).getD 0)))
  else s.trapAt q i f.cause f.reason va

/-! ### Issue -/

/-- Whether the registers a word names lie in the activation's portion (R49). -/
def Slot.namesOk (x : Slot) (stage : Nat) (o : Operands) : Bool :=
  (o.sRead ++ o.sWrite ++ o.sMask).all (x.hasS stage) &&
    (o.vRead ++ o.vWrite ++ o.vMask).all (x.hasV stage)

/-- Decode tests that depend on the core and on the activation (R74 test 4, R163). -/
def Slot.admits (x : Slot) (q : Nat) (i : Instr) : Bool :=
  i.onStage (stageOf q) && x.namesOk (stageOf q) i.operands && !(x.repActive && i.repBanned)

/-- Whether a slot issues nothing: it waits for the answer to an acquire, or to an access that may yet trap at itself
(R285, R288), or its checker has found it wrong (R145). (DEDUCED: log entry 81.) -/
def Slot.blocked (x : Slot) : Bool := x.halted || x.loads.any fun l => l.blocking

/-- Whether an EGET that is not DONE will write a register (R97). -/
def Slot.egetBusy (x : Slot) (r : BitVec 5) : Bool :=
  x.ring.any fun e => e.2.phase != 3 && egetDest e.2.word == some r

/-- Whether an instruction must wait for a register that an outstanding load will write, or for one that an EGET will
write with its mask (R97, R148). (DEDUCED: log entry 26.) -/
def Slot.interlocked (x : Slot) (o : Operands) : Bool :=
  (o.sRead ++ o.sWrite).any (fun r => r != 0 && x.busy (.scalar r.toNat)) ||
    (o.sRead ++ o.sWrite ++ o.sMask).any (fun r => r != 0 && x.egetBusy r) ||
    (o.vRead ++ o.vWrite).any (fun r => x.busy (.vector r.toNat))

/-- Whether an instruction reads a poisoned register (R284): one whose load was aborted, or in which uncorrectable data
was found (R410). -/
def Slot.readsPoison (x : Slot) (i : Instr) : Bool :=
  i.operands.sRead.any (fun r => r != 0 && getAt false x.poison r.toNat) ||
    i.operands.vRead.any (fun r => getAt false x.poison (32 + r.toNat)) ||
    i.pointerReads.any (getAt false x.poison)

/-- A core instruction issues (R74, R97, R284): the tests of decode that depend on the slot, the
register waits and poison come first; then its own effect. A wait leaves the PC where it is.
(DESIGN CHOICE: log entry 85.) -/
def issue (i : Instr) (s : State) (body : Nat → State → Result) : Result :=
  match s.cur with
  | none => .fault .noThread
  | some q =>
    let x := s.slot q
    if x.state ≠ .running then .fault .noThread
    else if x.blocked then .next s
    else if !x.admits q i then .next (s.trapOpen q i eIll 0)
    else if x.level.toNat < i.minLevel then .next (s.trapOpen q i ePriv 0)
    else if x.interlocked i.operands then .next s
    else if x.readsPoison i then .next (s.openWord.1.consume q i s.openWord.2)
    else body q s

/-- An instruction that only changes its slot completes: the change, then the next PC (R96). -/
def complete (q : Nat) (s : State) (f : Slot → Slot) : Result := .next (s.modSlot q fun x => (f x).advance)

/-- The state of a slot in which a core instruction issues at once (R74, R97): the slot has the turn
and is RUNNING, the word passes the tests of decode, nothing it names is awaited or poisoned. -/
abbrev Ready (i : Instr) (q : Nat) (s : State) : Prop :=
  s.cur = some q ∧ (s.slot q).state = .running ∧ (s.slot q).blocked = false ∧ (s.slot q).admits q i = true ∧
    i.minLevel ≤ (s.slot q).level.toNat ∧ (s.slot q).interlocked i.operands = false ∧
    (s.slot q).readsPoison i = false

end Sys2Proof.Machine
end

