-- ==== Sys2Proof/Machine/FabricOps.lean ====
section
/-! DEFINITION. Sending on the Llynsy fabric: routing tables and paths (R318 to R324), the flit's layout
(R314), requests awaiting an answer (R325), and notices to the fabric manager (R432). -/

namespace Sys2Proof.Machine

/-- Flit types (R314). -/
def tyWrite : BitVec 4 := 0x0
/-- Read request. -/
def tyRead : BitVec 4 := 0x1
/-- Read response. -/
def tyResponse : BitVec 4 := 0x2
/-- Acknowledgement. -/
def tyAck : BitVec 4 := 0x3
/-- Negative acknowledgement. -/
def tyNak : BitVec 4 := 0x4
/-- Atomic. -/
def tyAtomic : BitVec 4 := 0x5
/-- Reduce. -/
def tyReduce : BitVec 4 := 0x6
/-- Message. -/
def tyMessage : BitVec 4 := 0x7
/-- Management. -/
def tyManagement : BitVec 4 := 0x8
/-- Exclusion. -/
def tyExclusion : BitVec 4 := 0x9

/-- The cause of a refusal by its reason (R314). -/
def nakCause (reason : Nat) : XFault :=
  if reason = 4 then xf eFenced 0 else if reason = 5 then xf eAbort 0x02 else xf eFab 0

/-- This node's identifier (R317). -/
def State.nodeId (s : State) : Nat := fieldOf (s.reg nodeidOff) 13 0

/-- Word 0x00 of a flit (R314). -/
def flitWord0 (f : Flit) : Nat :=
  f.dst.toNat * 2 ^ 50 + f.src.toNat * 2 ^ 36 + f.pkey.toNat * 2 ^ 20 + f.type.toNat * 2 ^ 16 +
    f.path.toNat * 2 ^ 14 + f.ord.toNat * 2 ^ 13 + f.tc.toNat * 2 ^ 11 + f.hops.toNat * 2 ^ 8 +
    f.vclass.toNat * 2 ^ 6

/-- The 252 bytes of a flit that its CRC covers (R314). (DESIGN CHOICE: log entry 17.) -/
def flitCovered (f : Flit) : List Byte :=
  natBytes (flitWord0 f) 8 ++ natBytes (f.len * 2 ^ 59 + f.addr.toNat) 8 ++
    ((f.payload.flatMap wordBytes) ++ List.replicate 232 0).take 232 ++ natBytes f.tag.toNat 4

/-- The flit with its CRC set (R314). (DESIGN CHOICE: log entry 17.) -/
def flitSealed (f : Flit) : Flit := { f with crc := Config.crc32 (flitCovered f) }

/-- Output port of a path of a routing-table entry (R319). -/
def rtePort (e : BitVec 32) (p : Nat) : Nat := e.toNat / 2 ^ (6 * p) % 64

/-- Whether a path of the entry for a node may be used (R319): its V bit is set, and a port of 0x3F
counts only in the node's own entry. -/
def State.pathValid (s : State) (e : BitVec 32) (dst p : Nat) : Bool :=
  e.getLsbD (28 + p) && (rtePort e p != 0x3F || dst == s.nodeId)

/-- Whether a port may take a new packet (R318, R334). -/
def State.portOpen (s : State) (p : Nat) : Bool :=
  p == 0x3F ||
    ((s.reg (portctlOff p)).getLsbD 0 && !(s.reg (portctlOff p)).getLsbD 1 && (s.reg (portstatOff p)).getLsbD 0)

/-- The entry of a destination in the active bank of a table (R318, R320). -/
def State.activeRte (s : State) (t dst : Nat) : BitVec 32 := s.rte t (fieldOf (s.reg (rtctlOff t)) 0 0) dst

/-- The path and port on which a packet leaves (R318): its own path, else the lowest valid path whose
port is up. -/
def State.routeOn (s : State) (t dst path : Nat) : Option (Nat × Nat) :=
  let e := s.activeRte t dst
  let ok (p : Nat) : Bool := s.pathValid e dst p && s.portOpen (rtePort e p)
  if ok path then some (path, rtePort e path)
  else (([0, 1, 2, 3].find? ok).map fun p => (p, rtePort e p))

/-- Exclusion of a destination and path (R324). -/
def State.isExcluded (s : State) (dst p : Nat) : Bool := getAt false s.excluded (16384 * p + dst)

/-- Packets queued for a port (R322). (DESIGN CHOICE: log entry 46.) -/
def State.queuedAt (s : State) (p : Nat) : Nat := getAt 0 s.portQueue p

/-- The ports have sent what they had queued, or a part of it: a free choice says how much of each queue has left by
now. -/
def State.drainPorts (s : State) : State :=
  s.portQueue.foldl (fun s e =>
    { s with
      choices := s.choices + 1, portQueue := putAt s.portQueue e.1 (e.2 - Config.choice s.choices % (e.2 + 1)) }) s

/-- The path on which a packet of this package starts (R322): the flow path for an ordered packet, else
the valid, not excluded path whose port has the least queued. (DESIGN CHOICE: log entry 46.) -/
def State.startPath (s : State) (dst : Nat) (ord : Bool) : Option Nat :=
  let e := s.activeRte 48 dst
  let ps := [0, 1, 2, 3].filter fun p => s.pathValid e dst p && !s.isExcluded dst p
  if ord then ps.head?
  else
    ps.foldl (fun b p => match b with
      | none => some p
      | some c => if s.queuedAt (rtePort e p) < s.queuedAt (rtePort e c) then some p else some c) none

/-- A flit that table t routed handed to a port, kept for replay (R315); one for this node itself arrives at
once. -/
def State.emit (s : State) (t port : Nat) (f : Flit) : State :=
  let g := flitSealed f
  if port = 0x3F then s.push (.flitReceive 48 0 g)
  else
    { s with
      flitsOut := s.flitsOut ++ [(port, g)],
      portQueue := putAt s.portQueue port (s.queuedAt port + 1),
      replay := putAt s.replay port (getAt [] s.replay port ++ [(t, g)]),
      txSeq := putAt s.txSeq port (getAt 0 s.txSeq port + 1) }

/-- A packet sent on a path of this package, or answered NOROUTE where none qualifies (R318). A reduce
packet passes the reduction engine of its port (R329). -/
def State.launchFlit (s : State) (f : Flit) : State :=
  match s.routeOn 48 f.dst.toNat f.path.toNat with
  | some (p, port) =>
    let g := { f with path := BitVec.ofNat 2 p }
    if f.type = tyReduce ∧ port ≠ 0x3F then s.pushNext (.reducePacketAtPort (48, port) g) else s.emit 48 port g
  | none => s.push (.nakReceived f.tag.toNat 0x1)

/-- A flit of this package that nothing answers, on a path chosen under R322; dropped where none qualifies. -/
def State.sendPlain (s0 : State) (f : Flit) : State :=
  let s := s0.drainPorts
  match (s.startPath f.dst.toNat false).bind fun p => s.routeOn 48 f.dst.toNat p with
  | some (p, port) => s.emit 48 port { f with path := BitVec.ofNat 2 p }
  | none => s

/-- The answer to a request (R325): on the response class toward its SRC, with its TAG and key. -/
def State.answer (s : State) (f : Flit) (ty : BitVec 4) (payload : List Word) : State :=
  let g : Flit :=
    { dst := f.src, src := BitVec.ofNat 14 s.nodeId, pkey := f.pkey, type := ty, path := 0, ord := false, tc := f.tc,
      hops := 0, vclass := 1, len := payload.length, addr := f.addr, payload := payload, tag := f.tag, crc := 0 }
  if f.src.toNat = s.nodeId then s.push (.flitReceive 48 0 g) else s.sendPlain g

/-- The answer to a forwarded group passed to each of its contributors (R330). (DEDUCED: log entry 45.) -/
def State.answerGroup (s : State) (tag : Nat) (ty : BitVec 4) (payload : List Word) : State :=
  match s.held.find? fun g => g.tag == some tag with
  | some g =>
    g.flits.foldl (fun s f => s.answer f ty payload) { s with held := s.held.filter fun h => h.tag ≠ some tag }
  | none => s

/-- A request to another package. -/
structure FarSend where
  thread : Option Nat
  serial : Option Nat
  id : Nat
  dst : Nat
  ty : BitVec 4
  ord : Bool
  vclass : BitVec 2
  addr : Nat
  payload : List Word
  pkey : Nat
  tc : Nat
  store : Bool
  va : Word
  report : Option (Nat × Nat) := none
  polled : Bool := false
  ctx : Option Nat := none

/-- Whether an ordered request stands at the hub and has not left on a path (R323). -/
def State.waitsAtHub (s : State) (tag : Nat) : Bool := s.ordQueue.any fun e => e.2.tag.toNat == tag

/-- Whether an ordered packet of a flow that has left on another path than p is unanswered (R323). -/
def State.oldPath (s : State) (dst p : Nat) : Bool :=
  s.farReqs.any fun g => g.ord && g.dst == dst && g.path != p && !s.waitsAtHub g.tag

/-- A packet counted in DCOUNT of its thread on the path it leaves on (R325). -/
def State.countPath (s : State) (thread : Option Nat) (p : Nat) : State :=
  match thread with
  | some q => s.modSlot q fun x => { x with dcount := bump x.dcount p }
  | none => s

/-- A request sent to another package (R314, R321 to R323, R325): it takes a tag and counts in DCOUNT
on its path. An ordered packet waits at the hub behind those of its flow that wait there, and while one that has left
on another path is unanswered. -/
def State.farSend (s0 : State) (r : FarSend) : State :=
  let s := s0.drainPorts
  let tag := s.nextTag
  let path := s.startPath r.dst r.ord
  let p := path.getD 0
  let req : FarReq :=
    { tag := tag, thread := r.thread, serial := r.serial, id := r.id, path := p, dst := r.dst, ord := r.ord,
      store := r.store, va := r.va, sent := s.cycle, report := r.report, polled := r.polled, ctx := r.ctx }
  let f : Flit :=
    { dst := BitVec.ofNat 14 r.dst, src := BitVec.ofNat 14 s.nodeId, pkey := BitVec.ofNat 16 r.pkey,
      type := r.ty, path := BitVec.ofNat 2 p, ord := r.ord, tc := BitVec.ofNat 2 r.tc, hops := 0,
      vclass := r.vclass, len := r.payload.length, addr := BitVec.ofNat 52 r.addr, payload := r.payload,
      tag := BitVec.ofNat 32 tag, crc := 0 }
  let held := r.ord && (s.oldPath r.dst p || s.ordQueue.any fun e => e.1 == r.dst)
  let s1 := State.push { s with nextTag := (tag + 1) % 2 ^ 32, farReqs := s.farReqs ++ [req] } (.ackTimeout tag)
  match path with
  | none => (s1.countPath r.thread p).push (.nakReceived tag 0x1)
  | some _ =>
    if held then { s1 with ordQueue := s1.ordQueue ++ [(r.dst, f)] } else (s1.countPath r.thread p).launchFlit f

/-- A packet that waited at the hub leaves on a path, on which it counts, or is refused where there is none (R318, R323,
R325). -/
def State.leaveHub (s : State) (path : Option Nat) (f : Flit) : State :=
  match s.farReqs.find? fun g => g.tag == f.tag.toNat with
  | some g =>
    let p := path.getD 0
    let s1 := { s with
      farReqs := s.farReqs.map fun (h : FarReq) => if h.tag = g.tag then { h with path := p, sent := s.cycle } else h }.countPath
      g.thread p
    if path.isSome then s1.launchFlit { f with path := BitVec.ofNat 2 p } else s1.push (.nakReceived g.tag 0x1)
  | none => s

/-- The ordered packets that wait for a flow's old path leave on its present one, once none that left on another is
unanswered (R323); where no path qualifies they are refused. -/
def State.releaseOrdered (s : State) (dst : Nat) : State :=
  let (mine, rest) := s.ordQueue.partition fun e => e.1 == dst
  let path := s.startPath dst true
  if path.any (s.oldPath dst) then s else mine.foldl (fun s e => s.leaveHub path e.2) { s with ordQueue := rest }

/-- A request answered (R325): its count falls where it had left on a path, and it is gone from every list. -/
def State.farDone (s : State) (r : FarReq) : State :=
  let s1 := { s with
    farReqs := s.farReqs.filter (fun g => g.tag ≠ r.tag),
    ordQueue := s.ordQueue.filter (fun e => e.2.tag.toNat ≠ r.tag) }
  let s2 := match r.thread with
    | some q => if s.waitsAtHub r.tag then s1 else s1.modSlot q fun x => { x with dcount := drop1 x.dcount r.path }
    | none => s1
  s2.releaseOrdered r.dst

/-- The partition key and traffic class of a context (R379). -/
def State.pkey (s : State) (x : Nat) : Nat := fieldOf (s.reg (cctlOff x)) 47 32

/-- TC of a context. -/
def State.tc (s : State) (x : Nat) : Nat := fieldOf (s.reg (cctlOff x)) 9 8

/-- The node that holds a package of the load-store domain (R317). -/
def State.domNode (s : State) (p : Nat) : Nat := fieldOf (s.reg (dommapOff p)) 13 0

/-- A request of a thread to an address of another package of the domain. (DESIGN CHOICE: log entry 44.) -/
def farRequest (s : State) (q : Nat) (serial : Option Nat) (id p o : Nat) (ty : BitVec 4) (ord store : Bool)
    (payload : List Word) : FarSend :=
  let x := (s.slot q).ctx
  { thread := some q, serial := serial, id := id, dst := s.domNode p, ty := ty, ord := ord, vclass := 0,
    addr := p * 2 ^ 42 + o, payload := payload, pkey := s.pkey x, tc := s.tc x, store := store,
    va := BitVec.ofNat 64 o }

/-- Whether a flit's key is accepted at ingress (R398). -/
def State.keyAccepted (s : State) (k : BitVec 16) : Bool :=
  (List.range 64).any fun i =>
    (s.reg (pktabOff i)).getLsbD 63 && fieldOf (s.reg (pktabOff i)) 15 0 == k.toNat

/-- A key violation counted at a port (R378). -/
def State.keyViolation (s : State) (p : Nat) : State := s.setReg (keyviolOff p) (satInc (s.reg (keyviolOff p)))

/-- The words of data bytes. -/
def bytesWords (bs : List Byte) : List Word :=
  (List.range ((bs.length + 7) / 8)).map fun i => BitVec.ofNat 64 (leNat ((bs.drop (8 * i)).take 8))

/-- A management flit to the fabric manager, as the notices of R432 are sent; dropped where no path
qualifies. -/
def State.managementFlit (s : State) (words : List Word) : State :=
  let dst := fieldOf (s.reg fmnodeOff) 13 0
  let f : Flit :=
    { dst := BitVec.ofNat 14 dst, src := BitVec.ofNat 14 s.nodeId,
      pkey := BitVec.ofNat 16 (fieldOf (s.reg fmkeyOff) 15 0), type := tyManagement, path := 0, ord := false,
      tc := 0, hops := 0, vclass := 2, len := words.length, addr := 0, payload := words, tag := 0, crc := 0 }
  s.sendPlain f

/-- A notice to the fabric manager (R432, R433): KIND and word 1; it takes the next SEQ, is recorded
under KIND 0x0A and is sent again until it is acknowledged. (DEDUCED: log entry 80.) -/
def State.notice (s : State) (kind : Nat) (w1 : Nat) : State :=
  if (s.reg fmnodeOff).getLsbD 31 then
    let seq := (fieldOf (s.reg fnseqOff) 15 0 + 1) % 65536
    let w0 := BitVec.ofNat 64 (kind * 2 ^ 56 + seq * 2 ^ 32 + s.nodeId)
    let ws := [w0, BitVec.ofNat 64 w1, BitVec.ofNat 64 s.hubNs, 0]
    let s1 := (s.setReg fnseqOff (BitVec.ofNat 64 seq)).record
      { ErrRec.ofKind 0x0A with data0 := w0, data1 := BitVec.ofNat 64 w1 }
    (State.managementFlit { s1 with notices := s1.notices ++ [(⟨BitVec.ofNat 16 seq, ws, 1⟩ : Notice)] } ws).push
      (.noticeResend seq)
  else s

end Sys2Proof.Machine
end

