-- ==== Sys2Proof/Machine/Registers.lean ====
section
/-! DEFINITION. Accesses to device register space (R437, R438): which offsets hold a register, who may
access it, what a read returns and clears, and what a plain write changes. -/

namespace Sys2Proof.Machine

/-- The blocks of register space (R437). -/
inductive RegBlock where
  | pkg | fabric | sched | iso | recov | mgmt
  deriving DecidableEq, Repr

/-- The block of an offset and the offset within it (R437). -/
def regBlock (o : Nat) : Option (RegBlock × Nat) :=
  if o < 0x1000 then some (.pkg, o)
  else if fabricBase ≤ o ∧ o < fabricBase + 0x800000 then some (.fabric, o - fabricBase)
  else if schedBase ≤ o ∧ o < schedBase + 0x2000000 then some (.sched, o - schedBase)
  else if isoBase ≤ o ∧ o < isoBase + 0x100000 then some (.iso, o - isoBase)
  else if recBase ≤ o ∧ o < recBase + 0x400000 then some (.recov, o - recBase)
  else if mgmtBase ≤ o ∧ o < mgmtBase + 0x1000 then some (.mgmt, o - mgmtBase)
  else none

/-- Whether a register stands at an offset that is a multiple of 8 (R31, R333, R344, R378, R414,
R442). -/
def regAt (b : RegBlock) (r : Nat) : Bool :=
  match b with
  | .pkg => decide (r < 0xA0)
  | .fabric =>
    r < 0x60 || (0x100 ≤ r && r < 0x400) || (0x400 ≤ r && r < 0x588) || (0x1000 ≤ r && r < 0x1200) ||
      (0x2000 ≤ r && r < 0x4000) || (0x100000 ≤ r && r < 0x720000)
  | .sched =>
    (r < 0x2000 && (r % 0x80 < 0x28 || (0x30 ≤ r % 0x80 && r % 0x80 < 0x50))) ||
      (0x2000 ≤ r && r < 0x6000 && r % 0x40 < 0x30) || (0x6000 ≤ r && r < 0x6040) ||
      (0x8000 ≤ r && r < 0xA000) || 0x1000000 ≤ r
  | .iso =>
    (r < 0x4000 && (r % 0x100 < 0x38 || (0x40 ≤ r % 0x100 && r % 0x100 < 0xB0))) ||
      (0x10000 ≤ r && r < 0x10200) || (0x20000 ≤ r && r < 0x20200) || (0x20400 ≤ r && r < 0x20580)
  | .recov =>
    r < 0x38 || (0x100 ≤ r && r < 0x180) || (0x10000 ≤ r && r < 0x12000 && r % 0x80 < 0x60) ||
      (0x20000 ≤ r && r < 0x20200) || (0x100000 ≤ r && r < 0x300000)
  | .mgmt => r < 0x38 || (0x100 ≤ r && r < 0x180) || (0x200 ≤ r && r < 0x210)

/-- Whether an offset that is a multiple of 8 names a register. -/
def regExists (o : Nat) : Bool :=
  match regBlock o with
  | some (b, r) => regAt b r
  | none => false

/-- The context that a scheduling register belongs to (R344): its own block, its queue's CTX or its
table entry's CTX. -/
def State.schedOwner (s : State) (r : Nat) : Option Nat :=
  if r < 0x2000 then some (r / 0x80)
  else if r < 0x6000 then some (fieldOf (s.reg (qctlOff ((r - 0x2000) / 0x40))) 45 40)
  else if 0x8000 ≤ r ∧ r < 0xA000 then some (fieldOf (s.reg (ttentOff ((r - 0x8000) / 0x20) 0)) 61 56)
  else none

/-- Whether level S may make an access to a register of the isolation block (R377, R378). -/
def isoPermit (ctx r : Nat) (write : Bool) : Bool :=
  if r < 0x4000 then
    let k := r % 0x100
    r / 0x100 == ctx &&
      (!write || k == 0 || k == 0x18 || k == 0x20 || k == 0x28 || (0x80 ≤ k && k < 0xB0))
  else if r < 0x10200 then true
  else !write

/-- Whether level S may make an access to a register of the recovery block (R414). -/
def recPermit (ctx r : Nat) (write : Bool) : Bool :=
  if 0x10000 ≤ r ∧ r < 0x12000 then
    let k := r % 0x80
    (r - 0x10000) / 0x80 == ctx && !(0x18 ≤ k && k < 0x30)
  else !write

/-- A write of a half or of the whole of a register (R438): the value the register would hold.
(DEDUCED: log entry 64.) -/
def mergeHalf (old v : Word) (h : Half) : Word :=
  match h with
  | .both => v
  | .lo => BitVec.ofNat 64 (old.toNat / 2 ^ 32 * 2 ^ 32 + v.toNat % 2 ^ 32)
  | .hi => BitVec.ofNat 64 (v.toNat % 2 ^ 32 * 2 ^ 32 + old.toNat % 2 ^ 32)

/-- The bits a half covers. -/
def halfMask (h : Half) : Word :=
  match h with
  | .both => BitVec.allOnes 64
  | .lo => 0x00000000FFFFFFFF
  | .hi => 0xFFFFFFFF00000000

/-- Whether an access reaches the low or the high half. -/
def halfReaches (h : Half) (high : Bool) : Bool :=
  match h with
  | .both => true
  | .lo => !high
  | .hi => high

/-- The check of an access by level and context (R31, R335, R344, R352, R377, R414, R442), and of the
offset (R438). `o` is a multiple of 8. (DEDUCED: log entry 65.) -/
def State.regCheck (s : State) (level ctx o : Nat) (h : Half) (write : Option Word) : Option XFault :=
  match regBlock o with
  | none => some (xf eProt 0x05)
  | some (b, r) =>
    if !regAt b r then some (xf eProt 0x05)
    else if b = .sched ∧ 0x1000000 ≤ r then none
    else if level = 2 then none
    else if level = 0 then some (xf ePriv 0)
    else
      let ok := match b with
        | .pkg => true
        | .fabric =>
          match write with
          | none => true
          | some v =>
            0x1000 ≤ r && r < 0x1200 &&
              (let w := (r - 0x1000) / 0x20
               let w0 := s.reg (rwinOff w 0)
               fieldOf (if r % 0x20 = 0 then mergeHalf w0 v h else w0) 15 0 == s.pkey ctx)
        | .sched => s.schedOwner r == some ctx
        | .iso => isoPermit ctx r write.isSome
        | .recov => recPermit ctx r write.isSome
        | .mgmt => write.isNone
      if ok then none else some (xf eProt (if b = .sched ∨ b = .iso ∨ b = .recov then 0x04 else 0x05))

/-- The index of the current slot of the time-triggered table (R353). -/
def State.ttNow (s : State) : Nat :=
  (s.hubNs - (s.reg ttepochOff).toNat) / max 1 (fieldOf (s.reg ttslotnsOff) 31 0)

/-- The value of the register at a multiple of 8, as a read returns it (R5, R352). (DEDUCED: log entry 53.) -/
def State.regValue (s : State) (o : Nat) : Word :=
  match regBlock o with
  | none => 0
  | some (b, r) =>
    match b with
    | .sched =>
      if 0x1000000 ≤ r then
        let n := (r - 0x1000000) / 0x10000
        match r % 0x10000 with
        | 0x00 => s.reg (qtailOff n)
        | 0x08 => s.reg (qheadOff n)
        | 0x10 => s.reg (qstatOff n)
        | _ => 0
      else if 0x2000 ≤ r ∧ r < 0x6000 ∧ r % 0x40 = 0x08 then
        s.reg o ||| (if (s.reg (o + 0x18)).getLsbD 0 then BitVec.twoPow 64 63 else 0)
      else if r = 0x6018 then BitVec.ofNat 64 s.ttNow
      else s.reg o
    | .iso => if 0x10000 ≤ r ∧ r < 0x10200 then 0 else s.reg o
    | .recov =>
      if r = 0x20 ∨ r = 0x30 ∨ (0x10000 ≤ r ∧ r < 0x12000 ∧ r % 0x80 = 0x10) then 0
      else if 0x100000 ≤ r then getAt 0 s.mram.life ((r - 0x100000) / 8)
      else s.reg o
    | .mgmt => if r = 0x08 then 0 else s.reg o
    | _ => s.reg o

/-- The bits of a register that a read clears (R5, R328, R334, R344, R350, R378, R414, R442).
(DESIGN CHOICE: log entry 67.) -/
def regRc (o : Nat) : Word :=
  match regBlock o with
  | none => 0
  | some (b, r) =>
    let all : Word := BitVec.allOnes 64
    match b with
    | .fabric =>
      if 0x100 ≤ r ∧ r < 0x400 ∧ r % 0x10 = 8 then 0xFFFFFF0000000000
      else if 0x1000 ≤ r ∧ r < 0x1200 ∧ r % 0x20 = 0x18 then all
      else 0
    | .sched => if 0x2000 ≤ r ∧ r < 0x6000 ∧ r % 0x40 = 0x28 then all else 0
    | .iso => if 0x20400 ≤ r then all else 0
    | .recov => if r = 0x18 then all else 0
    | .mgmt =>
      if r = 0x30 then all
      else if 0x200 ≤ r then 0xFFFFFFFF00000000
      else 0
    | .pkg => 0

/-- A read of a register: its value and the state with its RC bits clear (R438). (DEDUCED: log entry 64.) -/
def State.regRead (s : State) (o : Nat) (h : Half) : State × Word :=
  let v := s.regValue o
  let m := regRc o &&& halfMask h
  (if m = 0 then s else s.setReg o (s.reg o &&& ~~~m),
    match h with
    | .both => v
    | .lo => v &&& 0xFFFFFFFF
    | .hi => v >>> 32)

/-- The bits that a plain write sets to the value written, at level M (`m`) or at S (R5). Registers
whose write starts an action are not listed here. -/
def regRw (o : Nat) (m : Bool) : Word :=
  match regBlock o with
  | none => 0
  | some (b, r) =>
    let all : Word := BitVec.allOnes 64
    match b with
    | .pkg => 0
    | .fabric =>
      if !m then 0
      else if r = 0x00 then 0x3FFF
      else if r = 0x08 then 0x80003FFF
      else if r = 0x10 then 0xFFFF
      else if r = 0x18 then 0xFFFFFFFF
      else if 0x20 ≤ r ∧ r < 0x60 then 0xFFFF
      else if 0x100 ≤ r ∧ r < 0x400 ∧ r % 0x10 = 0 then 0x3
      else if 0x2000 ≤ r ∧ r < 0x4000 then 0x8000000000003FFF
      else 0
    | .sched =>
      if r < 0x2000 then
        let k := r % 0x80
        if k = 0x30 then 0x01FFFFFFFFFFFF80
        else if k = 0x38 then 0xFFFFFFFF0000001F
        else if 0x08 ≤ k ∧ k < 0x28 then 0x800003FF0000003F
        else 0
      else if r < 0x6000 then if r % 0x40 = 0 then 0x01FFFFFFFFFFFFC0 else 0
      else if r = 0x6000 then if m then 0x1 else 0
      else if r = 0x6010 then if m then all else 0
      else if 0x8000 ≤ r ∧ r < 0xA000 then
        match r % 0x20 with
        | 0x00 => if m then 0xBF00FFFF0000FFFF else 0x8000FFFF0000FFFF
        | 0x08 => 0x01FFFFFFFFFFFFC0
        | _ => 0
      else 0
    | .iso =>
      if r < 0x4000 then
        let k := r % 0x100
        if k = 0x08 then if m then 0x00FFFFFFFFFF0000 else 0
        else if k = 0x10 then if m then 0x01FFFFFFFFFFF000 else 0
        else if k = 0x18 then 0x01FFFFFFFFFFFFFC
        else if k = 0x20 then 0x01FFFFFFFFFFFF80
        else if 0x80 ≤ k ∧ k < 0xA0 then all
        else if k = 0xA0 then 0x01FFFFFFFFFFFFC0
        else 0
      else if 0x20000 ≤ r ∧ r < 0x20200 then if m then 0x800000000000FFFF else 0
      else 0
    | .recov =>
      if r = 0x00 then if m then 0x00FFFFFFFFFFFFC0 else 0
      else if 0x10000 ≤ r ∧ r < 0x12000 then
        let k := r % 0x80
        if k = 0x00 then 0xFF03
        else if k = 0x20 ∨ k = 0x28 then if m then 0x000003FFFFFF0000 else 0
        else if k = 0x40 then 0x01FFFFFFFFFFFFC0
        else 0
      else 0
    | .mgmt => if r = 0x18 ∧ m then 0x1F else 0

/-- The bits that writing 1 clears (R5). -/
def regW1c (o : Nat) : Word :=
  match regBlock o with
  | none => 0
  | some (b, r) =>
    match b with
    | .fabric => if 0x100 ≤ r ∧ r < 0x400 ∧ r % 0x10 = 8 then 0x2 else 0
    | .sched => if 0x6020 ≤ r ∧ r < 0x6040 then BitVec.allOnes 64 else 0
    | .mgmt => if r = 0x10 then 0x1F else 0
    | _ => 0

/-- A plain write (R5, R438): RW bits take the value, W1C bits that are written 1 clear, in the half
written. -/
def State.regPlain (s : State) (o : Nat) (m : Bool) (v : Word) (h : Half) : State :=
  let old := s.reg o
  let full := mergeHalf old v h
  let k := halfMask h
  let rw := regRw o m &&& k
  let clr := regW1c o &&& k &&& (mergeHalf 0 v h)
  s.setReg o (((old &&& ~~~rw) ||| (full &&& rw)) &&& ~~~clr)

end Sys2Proof.Machine
end

