-- ==== Sys2Proof/Machine/Flags.lean ====
section
/-! DEFINITION. Number formats, exact values, the rounding modes and every flag computation: the
formats of R118 to R126, the rounding of R129 to R134, the generator of R135 and the special operands
of R137. A finite value is its sign and its magnitude in units of 2^-640, which divides every product,
sum and scaled element of the device exactly. -/

namespace Sys2Proof.Machine

/-- NV, DZ, OF, UF and NX (R81). -/
def flagNV : BitVec 5 := 0x10
/-- Division by zero. -/
def flagDZ : BitVec 5 := 0x08
/-- Overflow. -/
def flagOF : BitVec 5 := 0x04
/-- Underflow. -/
def flagUF : BitVec 5 := 0x02
/-- Inexact. -/
def flagNX : BitVec 5 := 0x01

/-- The floating formats (R118, R124); xs8 is the unsigned scale byte. -/
inductive FpFmt where
  | f32 | f16 | bf16 | e4m3 | e5m2 | e3m2 | e2m1 | xs8
  deriving DecidableEq, Repr

/-- Width of the trailing significand. -/
def FpFmt.m : FpFmt → Nat
  | .f32 => 23 | .f16 => 10 | .bf16 => 7 | .e4m3 => 3 | .e5m2 => 2 | .e3m2 => 2 | .e2m1 => 1 | .xs8 => 3

/-- Width of the biased exponent. -/
def FpFmt.e : FpFmt → Nat
  | .f32 => 8 | .f16 => 5 | .bf16 => 8 | .e4m3 => 4 | .e5m2 => 5 | .e3m2 => 3 | .e2m1 => 2 | .xs8 => 5

/-- The exponent bias. -/
def FpFmt.bias : FpFmt → Nat
  | .f32 => 127 | .f16 => 15 | .bf16 => 127 | .e4m3 => 7 | .e5m2 => 15 | .e3m2 => 3 | .e2m1 => 1 | .xs8 => 15

/-- The encoding of the largest finite magnitude. -/
def FpFmt.maxFin : FpFmt → Nat
  | .f32 => 0x7F7FFFFF | .f16 => 0x7BFF | .bf16 => 0x7F7F | .e4m3 => 0x7E | .e5m2 => 0x7B
  | .e3m2 => 0x1F | .e2m1 => 0x7 | .xs8 => 0xFE

/-- Whether the format has infinities; each follows the largest finite encoding. -/
def FpFmt.hasInf : FpFmt → Bool
  | .f32 => true | .f16 => true | .bf16 => true | .e5m2 => true | _ => false

/-- The canonical NaN, where the format has one. -/
def FpFmt.nan : FpFmt → Option Nat
  | .f32 => some 0x7FC00000 | .f16 => some 0x7E00 | .bf16 => some 0x7FC0 | .e4m3 => some 0x7F
  | .e5m2 => some 0x7E | .xs8 => some 0xFF | _ => none

/-- The place of the sign bit. -/
def FpFmt.signPos (f : FpFmt) : Nat := f.e + f.m

/-- The exponent of the subnormal spacing, above 2^-640. -/
def FpFmt.qmin (f : FpFmt) : Nat := 641 - f.bias - f.m

/-- A value: NaN, a signed infinity, or a sign and a magnitude in units of 2^-640. -/
inductive Val where
  | nan
  | inf (neg : Bool)
  | fin (neg : Bool) (mag : Nat)
  deriving DecidableEq, Repr

/-- One in units of 2^-640. -/
def unitOne : Nat := 2 ^ 640

/-- The value of an encoding (R118, R124). -/
def FpFmt.decode (f : FpFmt) (w : Nat) : Val :=
  let neg := w / 2 ^ f.signPos % 2 == 1
  let k := w % 2 ^ f.signPos
  let top := k / 2 ^ f.m
  let frac := k % 2 ^ f.m
  if k ≤ f.maxFin then
    if top = 0 then .fin neg (frac * 2 ^ f.qmin) else .fin neg ((2 ^ f.m + frac) * 2 ^ (f.qmin + top - 1))
  else if f.hasInf ∧ k = f.maxFin + 1 then .inf neg
  else .nan

/-- An encoding with a sign. -/
def FpFmt.sign (f : FpFmt) (neg : Bool) (k : Nat) : Nat := if neg then k + 2 ^ f.signPos else k

/-- How a result is rounded: the mode of R81 and, where it is stochastic, the draw of R134. -/
structure Rounding where
  mode : BitVec 3
  draw : Nat
  deriving DecidableEq, Repr

/-- Round to nearest, ties to even. -/
def rne : Rounding := ⟨0, 0⟩

/-- Whether the neighbour away from zero is taken (R133, R134), for the quotient n and remainder r of
a magnitude by the spacing d. -/
def Rounding.up (md : Rounding) (neg : Bool) (n r d : Nat) : Bool :=
  if r = 0 then false
  else
    match md.mode.toNat with
    | 0 => decide (d < 2 * r) || (decide (2 * r = d) && n % 2 == 1)
    | 1 => false
    | 2 => neg
    | 3 => !neg
    | _ => decide (2 ^ 16 ≤ r * 2 ^ 16 / d + md.draw)

/-- Whether a result that is too large goes to infinity (R129); `up` is the neighbour taken. -/
def Rounding.toInf (md : Rounding) (neg up : Bool) : Bool :=
  match md.mode.toNat with
  | 0 => true
  | 1 => false
  | 2 => neg
  | 3 => !neg
  | _ => up

/-- A nonzero magnitude num / den, in units of 2^-640, rounded to a format (R129, R133): the encoding
without its sign, and the flags. -/
def FpFmt.roundMag (f : FpFmt) (md : Rounding) (neg : Bool) (num den : Nat) : Nat × BitVec 5 :=
  let q := max (Nat.log2 (num / den) - f.m) f.qmin
  let d := den * 2 ^ q
  let n := num / d
  let r := num % d
  let up := md.up neg n r d
  let k := (q - f.qmin) * 2 ^ f.m + (if up then n + 1 else n)
  if f.maxFin < k then
    (if f.hasInf && md.toInf neg up then f.maxFin + 1 else f.maxFin, flagOF ||| flagNX)
  else if r = 0 then (k, 0)
  else if k < 2 ^ f.m then (k, flagUF ||| flagNX)
  else (k, flagNX)

/-- A value rounded to a format (R119, R129). -/
def FpFmt.round (f : FpFmt) (md : Rounding) : Val → Nat × BitVec 5
  | .nan => match f.nan with | some k => (k, 0) | none => (0, flagNV)
  | .inf neg =>
    if f.hasInf then (f.sign neg (f.maxFin + 1), 0)
    else match f.nan with
      | some k => (k, flagNV)
      | none => (f.sign neg f.maxFin, flagNV)
  | .fin neg mag =>
    if mag = 0 then (f.sign neg 0, 0)
    else
      let (k, fl) := f.roundMag md neg mag 1
      (f.sign neg k, fl)

/-- A subnormal result flushed to zero (R132). -/
def FpFmt.flush (f : FpFmt) (on : Bool) (r : Nat × BitVec 5) : Nat × BitVec 5 :=
  let k := r.1 % 2 ^ f.signPos
  if on && f != .f32 && decide (0 < k) && decide (k < 2 ^ f.m) then
    (r.1 - k, flagUF ||| flagNX)
  else r

/-! ### Exact arithmetic -/

/-- A finite value as a signed number of units. -/
def signedMag (neg : Bool) (mag : Nat) : Int := if neg then -(mag : Int) else mag

/-- The exact sum of two values (R133, R137). A sum that is zero is −0 only in RDN or from two
negative zeros. -/
def Val.add (md : Rounding) : Val → Val → Val × BitVec 5
  | .nan, _ => (.nan, 0)
  | _, .nan => (.nan, 0)
  | .inf a, .inf b => if a = b then (.inf a, 0) else (.nan, flagNV)
  | .inf a, .fin _ _ => (.inf a, 0)
  | .fin _ _, .inf b => (.inf b, 0)
  | .fin a x, .fin b y =>
    let z := signedMag a x + signedMag b y
    if z = 0 then (.fin (if x = 0 ∧ a = b then a else md.mode == 2) 0, 0)
    else (.fin (decide (z < 0)) z.natAbs, 0)

/-- A value with its sign inverted. -/
def Val.neg : Val → Val
  | .nan => .nan
  | .inf a => .inf (!a)
  | .fin a x => .fin (!a) x

/-- The exact product of two values (R137). -/
def Val.mul : Val → Val → Val × BitVec 5
  | .nan, _ => (.nan, 0)
  | _, .nan => (.nan, 0)
  | .inf a, .inf b => (.inf (a != b), 0)
  | .inf a, .fin b y => if y = 0 then (.nan, flagNV) else (.inf (a != b), 0)
  | .fin a x, .inf b => if x = 0 then (.nan, flagNV) else (.inf (a != b), 0)
  | .fin a x, .fin b y => (.fin (a != b) (x * y / unitOne), 0)

/-- The exact value of a × b + c (R137); a NaN operand raises nothing (R119). -/
def Val.fma (md : Rounding) (a b c : Val) : Val × BitVec 5 :=
  match a, b, c with
  | .nan, _, _ => (.nan, 0)
  | _, .nan, _ => (.nan, 0)
  | _, _, .nan => (.nan, 0)
  | a, b, c =>
    match Val.mul a b with
    | (.nan, fl) => (.nan, fl)
    | (p, _) => Val.add md p c

/-- A quotient rounded to a format (R133, R137). -/
def FpFmt.div (f : FpFmt) (md : Rounding) (a b : Val) : Nat × BitVec 5 :=
  match a, b with
  | .nan, _ => f.round md .nan
  | _, .nan => f.round md .nan
  | .inf _, .inf _ => ((f.nan).getD 0, flagNV)
  | .inf s, .fin t _ => f.round md (.inf (s != t))
  | .fin s _, .inf t => f.round md (.fin (s != t) 0)
  | .fin s x, .fin t y =>
    if y = 0 then
      if x = 0 then ((f.nan).getD 0, flagNV)
      else ((f.round md (.inf (s != t))).1, flagDZ)
    else if x = 0 then f.round md (.fin (s != t) 0)
    else
      let (k, fl) := f.roundMag md (s != t) (x * unitOne) y
      (f.sign (s != t) k, fl)

/-- The greatest r < 2^(n+1) with r^2 ≤ v that agrees with `r` above bit n. -/
def isqrtFrom (v : Nat) : Nat → Nat → Nat
  | 0, r => if (r + 1) * (r + 1) ≤ v then r + 1 else r
  | n + 1, r =>
    let t := r + 2 ^ (n + 1)
    isqrtFrom v n (if t * t ≤ v then t else r)

/-- A square root rounded to a format (R137). The root between two units is told from either by a
half unit, which no rounding threshold of a format reaches. -/
def FpFmt.sqrt (f : FpFmt) (md : Rounding) : Val → Nat × BitVec 5
  | .nan => f.round md .nan
  | .inf neg => if neg then ((f.nan).getD 0, flagNV) else f.round md (.inf false)
  | .fin neg x =>
    if x = 0 then f.round md (.fin neg 0)
    else if neg then ((f.nan).getD 0, flagNV)
    else
      let v := x * unitOne
      let r := isqrtFrom v 800 0
      f.roundMag md false (if r * r = v then 2 * r else 2 * r + 1) 2

/-- ln 2 in units of 2^-600: the first n terms of the sum of 1 / (k 2^k). (DEDUCED: log entry 68.) -/
def ln2Units : Nat → Nat
  | 0 => 0
  | k + 1 => 2 ^ 600 / ((k + 1) * 2 ^ (k + 1)) + ln2Units k

/-- The terms x^n / n! from the n-th on, in units of 2^-600. (DEDUCED: log entry 68.) -/
def expTerms (x : Nat) : Nat → Nat → Nat → Nat
  | 0, _, _ => 0
  | fuel + 1, n, t => t + expTerms x fuel (n + 1) (t * x / 2 ^ 600 / (n + 1))

/-- 2^a rounded to FP32 (R173). For an a that is no integer the power is irrational, so it is computed
to 500 bits and told from every shorter fraction by a last half unit; a power beyond 2^2000 or 2^-2000 rounds, draw
included, as the one of that size does. (DEDUCED: log entry 68.) -/
def exp2F32 (md : Rounding) : Val → Nat × BitVec 5
  | .nan => FpFmt.f32.round md .nan
  | .inf neg => if neg then (0, 0) else FpFmt.f32.round md (.inf false)
  | .fin neg mag =>
    let whole := min (mag / unitOne) 2000
    let frac := mag % unitOne
    let e : Int := if neg then -(whole : Int) - (if frac = 0 then 0 else 1) else whole
    let f := if neg ∧ frac ≠ 0 then unitOne - frac else frac
    let shift := (e + 3000).toNat
    if f = 0 then
      let (k, fl) := FpFmt.f32.roundMag md false (2 ^ (shift + 640)) (2 ^ 3000)
      (k, fl)
    else
      let x := f * ln2Units 600 / unitOne
      let y := expTerms x 200 0 (2 ^ 600) / 2 ^ 100
      let (k, fl) := FpFmt.f32.roundMag md false ((2 * y + 1) * 2 ^ (shift + 640)) (2 ^ 3501)
      (k, fl)

/-! ### Order -/

/-- A numeric key of a value that is no NaN: infinities stand beyond every finite value. -/
def Val.key : Val → Int
  | .nan => 0
  | .inf neg => if neg then -(2 ^ 2000) else 2 ^ 2000
  | .fin neg mag => signedMag neg mag

/-- a < b numerically; false with a NaN (R156, R174). -/
def Val.lt (a b : Val) : Bool := a != .nan && b != .nan && decide (a.key < b.key)

/-- a = b numerically. -/
def Val.eq (a b : Val) : Bool := a != .nan && b != .nan && decide (a.key = b.key)

/-- The sign of a value. -/
def Val.isNeg : Val → Bool
  | .nan => false
  | .inf neg => neg
  | .fin neg _ => neg

/-- The minimum or maximum of two encodings (R137): a NaN gives way, and −0 is below +0. -/
def FpFmt.minmax (f : FpFmt) (maxi : Bool) (a b : Nat) : Nat :=
  let x := f.decode a
  let y := f.decode b
  if x = .nan ∧ y = .nan then (f.nan).getD 0
  else if x = .nan then b
  else if y = .nan then a
  else
    let aLess := x.lt y || (x.eq y && x.isNeg && !y.isNeg)
    if maxi then (if aLess then b else a) else (if aLess then a else b)

/-! ### Integers -/

/-- A value rounded to an integer range (R130). -/
def Val.toInt (md : Rounding) (lo hi : Int) : Val → Int × BitVec 5
  | .nan => (0, flagNV)
  | .inf neg => (if neg then lo else hi, flagNV)
  | .fin neg mag =>
    let n := mag / unitOne
    let r := mag % unitOne
    let k := signedMag neg (if md.up neg n r unitOne then n + 1 else n)
    if k < lo then (lo, flagNV) else if hi < k then (hi, flagNV)
    else (k, if r = 0 then 0 else flagNX)

/-- An integer as a value (R121, R131). -/
def Val.ofInt (z : Int) : Val := .fin (decide (z < 0)) (z.natAbs * unitOne)

/-! ### The generator of R135 -/

/-- One step of the generator. -/
def srNext (seed : Word) : Word :=
  let x0 := if seed = 0 then 0x9E3779B97F4A7C15 else seed
  let x1 := x0 ^^^ (x0 <<< 13)
  let x2 := x1 ^^^ (x1 >>> 7)
  x2 ^^^ (x2 <<< 17)

/-- n consecutive steps: their values and the seed after them. -/
def srSteps : Nat → Word → List Word × Word
  | 0, x => ([], x)
  | n + 1, x =>
    let y := srNext x
    let (l, z) := srSteps n y
    (y :: l, z)

/-- Draw j of a step. -/
def drawIn (w : Word) (j : Nat) : Nat := w.toNat / 2 ^ (16 * j) % 2 ^ 16

/-- The draws of n elements from a seed, in element order. -/
def drawList (n : Nat) (seed : Word) : List Nat :=
  ((srSteps ((n + 3) / 4) seed).1.flatMap fun w => (List.range 4).map (drawIn w)).take n

/-- The seed after the steps of n elements. -/
def seedAfter (n : Nat) (seed : Word) : Word := (srSteps ((n + 3) / 4) seed).2

/-- FCTL.RM is stochastic. -/
def Slot.stochastic (x : Slot) : Bool := x.rm == 4

/-- How the elements of a scalar or vector instruction round: the dynamic mode and, where it is
stochastic, a draw for each of n elements. -/
def Slot.roundings (x : Slot) (n : Nat) : List Rounding :=
  if x.stochastic then (drawList n x.srseed).map fun d => ⟨x.rm, d⟩
  else List.replicate n ⟨x.rm, 0⟩

/-- The slot after the steps of an instruction that rounds n elements. -/
def Slot.takeSteps (x : Slot) (n : Nat) : Slot :=
  if x.stochastic then { x with srseed := seedAfter n x.srseed } else x

/-- The slot with flags merged into FFLAGS (R82, R136). -/
def Slot.orFlags (x : Slot) (f : BitVec 5) : Slot := { x with fflags := x.fflags ||| f }

/-! ### Types -/

/-- The floating format of a type code of R85. -/
def fmtOfTy (y : BitVec 4) : FpFmt :=
  match y.toNat with
  | 0 => .f32 | 1 => .f16 | 2 => .bf16 | 3 => .e4m3 | 4 => .e5m2 | 5 => .e3m2 | _ => .e2m1

/-- The lane width of a type code in bits (R94). -/
def tyWidth (y : BitVec 4) : Nat :=
  match y.toNat with
  | 0 => 32 | 1 => 16 | 2 => 16 | 3 => 8 | 4 => 8
  | 8 => 8 | 9 => 16 | 10 => 32 | 11 => 64 | 12 => 8 | 13 => 16 | 14 => 32 | _ => 64

/-- Whether an integer type code is signed. -/
def tySign (y : BitVec 4) : Bool := decide (y.toNat < 12)

/-- A w-bit pattern as a two's-complement number (R121). -/
def toSigned (w v : Nat) : Int := if v < 2 ^ (w - 1) then v else (v : Int) - 2 ^ w

/-- A number reduced to w bits. -/
def wrapTo (w : Nat) (z : Int) : Nat := (z % 2 ^ w).toNat

/-- The least value of an integer type of w bits. -/
def intMin (w : Nat) (signed : Bool) : Int := if signed then -(2 ^ (w - 1)) else 0

/-- The greatest value of an integer type of w bits. -/
def intMax (w : Nat) (signed : Bool) : Int := if signed then 2 ^ (w - 1) - 1 else 2 ^ w - 1

/-- A pattern of an integer type as a number. -/
def intOf (w : Nat) (signed : Bool) (v : Nat) : Int := if signed then toSigned w v else v

/-- A number clamped to an integer type. -/
def clampInt (w : Nat) (signed : Bool) (z : Int) : Int := max (intMin w signed) (min (intMax w signed) z)

/-- The QN4 codebook as FP32 words (R122). -/
def qn4Word (c : Nat) : Nat :=
  match c with
  | 0 => 0xBF800000 | 1 => 0xBF352334 | 2 => 0xBF0ACE32 | 3 => 0xBED56968
  | 4 => 0xBE9F2EF1 | 5 => 0xBE5D2100 | 6 => 0xBE0265A7 | 7 => 0xBD2C6C3A
  | 8 => 0x00000000 | 9 => 0x3E0265A7 | 10 => 0x3E5D2100 | 11 => 0x3E9F2EF1
  | 12 => 0x3ED56968 | 13 => 0x3F0ACE32 | 14 => 0x3F352334 | _ => 0x3F800000

/-- The exact value of a QN4 code. -/
def qn4Val (c : Nat) : Val := FpFmt.f32.decode (qn4Word c)

/-- The effective scale of a QN4 block (R123): none where E_SCALE is raised. -/
def qn4Scale (sig beta : Nat) : Option Val :=
  match FpFmt.f32.decode sig with
  | .fin false m =>
    if m = 0 then none
    else
      match FpFmt.f32.decode (FpFmt.f32.round rne (.fin false (m * beta))).1 with
      | .fin s e => some (.fin s e)
      | _ => none
  | _ => none

end Sys2Proof.Machine
end

