-- ==== Sys2Proof/Machine/Tensor.lean ====
section
/-! DEFINITION. Tensor-table entries (R68 to R72): their fields, where an element, a block scale and a
superscale lie, and the TID caches of the clusters. -/

namespace Sys2Proof.Machine

/-- VALID of an entry (R69). -/
def tValid (e : List Word) : Bool := (e.getD 0 0).getLsbD 63
/-- CONSTANT. -/
def tConstant (e : List Word) : Bool := (e.getD 0 0).getLsbD 62
/-- KEYPAGE. -/
def tKeypage (e : List Word) : Bool := (e.getD 0 0).getLsbD 61
/-- SCALED. -/
def tScaled (e : List Word) : Bool := (e.getD 0 0).getLsbD 60
/-- Columns of a tile, 2^TCOLS. -/
def tCols (e : List Word) : Nat := 2 ^ fieldOf (e.getD 0 0) 59 57
/-- Rows of a tile, 2^TROWS. -/
def tRows (e : List Word) : Nat := 2 ^ fieldOf (e.getD 0 0) 56 54
/-- SPAR. -/
def tSpar (e : List Word) : Nat := fieldOf (e.getD 0 0) 53 52
/-- The rank. -/
def tRank (e : List Word) : Nat := fieldOf (e.getD 0 0) 51 50 + 1
/-- FMT (R70). -/
def tFmt (e : List Word) : Nat := fieldOf (e.getD 0 0) 49 45
/-- The base address. -/
def tBase (e : List Word) : BitVec 57 := BitVec.ofNat 57 (fieldOf (e.getD 0 0) 44 0 * 4096)
/-- The extent of a dimension; 1 beyond the rank (R180). -/
def tExt (e : List Word) (d : Nat) : Nat :=
  if d < tRank e then fieldOf (e.getD 1 0) (16 * d + 15) (16 * d) + 1 else 1
/-- STR1. -/
def tStr1 (e : List Word) : Nat := fieldOf (e.getD 2 0) 31 0
/-- STR2. -/
def tStr2 (e : List Word) : Nat := fieldOf (e.getD 2 0) 63 32
/-- BSOFF. -/
def tBsoff (e : List Word) : Nat := fieldOf (e.getD 3 0) 31 0
/-- SSOFF. -/
def tSsoff (e : List Word) : Nat := fieldOf (e.getD 3 0) 63 32

/-- Bits of an element of a format code (R70, R120). -/
def fmtBits (f : Nat) : Nat :=
  match f with
  | 0 => 32 | 1 => 16 | 2 => 16 | 3 => 8 | 4 => 8 | 5 => 6 | 6 => 4 | 7 => 4 | 8 => 8 | 9 => 4
  | 10 => 8 | 11 => 32 | 12 => 8 | 13 => 32 | _ => 8

/-- Bytes that n elements of a format take, packed (R120). -/
def packedBytes (f n : Nat) : Nat := (n * fmtBits f + 7) / 8

/-- An address sum of R71, as a virtual address. -/
def tensorVa (e : List Word) (off : Nat) : Word := va57 (tBase e + BitVec.ofNat 57 off)

/-- Byte offset of a row of dimension 0 from the base (R69). -/
def rowOffset (e : List Word) (i1 i2 i3 : Nat) : Nat :=
  64 * (i1 * tStr1 e + i2 * tStr2 e + i3 * tStr2 e * tExt e 2)

/-- The linear number of an element (R71). -/
def linearElem (e : List Word) (i0 i1 i2 i3 : Nat) : Nat :=
  i0 + tExt e 0 * (i1 + tExt e 1 * (i2 + tExt e 2 * i3))

/-- The address of a block's scale byte (R71). -/
def scaleVa (e : List Word) (b : Nat) : Word := tensorVa e (4096 * tBsoff e + b)

/-- The address of the superscale of a block (R71). -/
def superVa (e : List Word) (b : Nat) : Word := tensorVa e (4096 * tSsoff e + 4 * (b / 256))

/-- Whether an entry may not be named by any instruction (R72). -/
def tBad (e : List Word) : Bool :=
  decide (0x0E ≤ tFmt e) || decide (2 ≤ tSpar e) || (tFmt e == 7 && !tScaled e)

/-- Whether a TID lies in the window of a launch of record (R68). -/
def State.tidInWindow (s : State) (q tid : Nat) : Bool :=
  let w := (s.recDesc (s.slot q).lrec).getD 6 0
  let first := fieldOf w 27 16
  decide (first ≤ tid) && decide (tid < first + fieldOf w 40 28)

/-- A TID-cache entry of a cluster (R68). -/
def State.tidCached (s : State) (c x tid : Nat) : Option (List Word) :=
  (s.tids.find? fun t => t.cluster == c && t.ctx == x && t.tid == tid).map (·.words)

/-- The state with an entry in the cluster's TID cache, of 256 entries (R17, R68): the oldest goes where it is full.
Which entry goes, and when, the manual leaves open (R228). (DESIGN CHOICE: log entry 9.) -/
def State.tidKeep (s : State) (c x tid : Nat) (ws : List Word) : State :=
  let mine := s.tids.filter fun t => t.cluster == c && !(t.ctx == x && t.tid == tid)
  let other := s.tids.filter fun t => t.cluster != c
  { s with tids := ⟨c, x, tid, ws⟩ :: mine.take 255 ++ other }

/-- The table entry of a TID read from memory, at level S (R68). (DEDUCED: log entry 12.) -/
def State.tidRead (s : State) (q tid : Nat) : State × (Except XFault (List Word)) :=
  let w := { s.who q with level := 1 }
  match resolve s w (s.reg (ttbaseOff w.ctx) + BitVec.ofNat 64 (32 * tid)) 32 .read with
  | (s1, .ok l) =>
    if s1.anyBad l.key 32 then (s1.detect (some q) l.key 32, .error (xf eAbort 0x02)) else (s1, .ok (s1.mem.words l.key 4))
  | (s1, .error f) => (s1, .error f)

/-- The entry of a TID in a cluster's cache, which may evict it at any time before a use (R228).
(DESIGN CHOICE: log entry 9.) -/
def State.tidHeld (s : State) (c x tid : Nat) : State × Option (List Word) :=
  match s.tidCached c x tid with
  | some ws =>
    let (s1, evicted) := s.coin
    if evicted then
      ({ s1 with tids := s1.tids.filter fun t => !(t.cluster == c && t.ctx == x && t.tid == tid) }, none)
    else (s1, some ws)
  | none => (s, none)

/-- The tests of an entry that an instruction names (R69, R72): valid, and none of the forms that may not be named. -/
def tidChecked (ws : List Word) : Except XFault (List Word) :=
  if !tValid ws then .error (xf eXlat 0x06) else if tBad ws then .error (xf eIll 0) else .ok ws

/-- The entry that a use of a TID finds (R68, R72): in the window, in the cluster's cache or filled from
the table, and valid. -/
def State.tidUse (s : State) (q tid : Nat) : State × (Except XFault (List Word)) :=
  let c := clusterOf q
  let x := (s.slot q).ctx
  if !s.tidInWindow q tid then (s, .error (xf eProt 0x05))
  else
    match s.tidHeld c x tid with
    | (s1, some ws) => (s1, tidChecked ws)
    | (s1, none) =>
      match s1.tidRead q tid with
      | (s2, .ok ws) => (s2.tidKeep c x tid ws, tidChecked ws)
      | (s2, .error f) => (s2, .error f)

/-- Bytes of a key page (R216): 64 rows. -/
def keyPageBytes (e : List Word) : Nat := 4096 * tStr1 e

/-- Pages of a key tensor (R216). -/
def keyPages (e : List Word) : Nat := tExt e 1 / 64 * tExt e 2

/-- Where an address lies in a registered key range (R217): its offset from the first key. -/
def KeyRange.offset (r : KeyRange) (va : Word) : Nat := (low57 va - tBase r.words).toNat

/-- What a store of a thread or a write of an engine carries for one registered key range that holds its address (R218).
(DEDUCED: log entry 70.) -/
def State.widenIn (s : State) (w : Who) (va : Word) (r : KeyRange) : State × List Widen :=
  let off := r.offset va
  let pg := off / keyPageBytes r.words
  match resolve s { w with level := 1 } (tensorVa r.words (4096 * tBsoff r.words + 512 * pg)) 512 .read with
  | (s1, .ok l) =>
    match homeOf l.key with
    | .far _ _ => (s1, [])
    | .reg _ => (s1, [])
    | .ctrl _ _ => (s1, [])
    | _ => (s1, [⟨l.key, off % keyPageBytes r.words, tFmt r.words⟩])
  | (s1, .error _) => (s1, [])

/-- What a store of a thread or a write of an engine carries for the registered key ranges that hold its address (R218).
(DEDUCED: log entry 70.) -/
def State.widenFor (s : State) (w : Who) (va : Word) : State × List Widen :=
  (s.keyRanges.filter fun r =>
    r.cluster == clusterOf w.q && r.ctx == w.ctx &&
      decide (r.offset va < keyPageBytes r.words * keyPages r.words)).foldl
    (fun (p : State × List Widen) r =>
      let (s1, l) := p.1.widenIn w va r
      (s1, p.2 ++ l)) (s, [])

end Sys2Proof.Machine
end

