-- ==== Sys2Proof/Machine/Memory.lean ====
section
/-! DEFINITION. The operations over memory that the access instructions and the steps of the homes
share: the cluster cache with its dirty bytes, copies and leases (R261 to R264), sending a write (R271,
R308), the read and the write at a home, the constant cache (R259) and the control page (R255). -/

namespace Sys2Proof.Machine

/-- Banks of a cluster whose mode is CACHE, a way that is being switched among them (R255, R257). -/
def State.cacheBanks (s : State) (c : Nat) : Nat :=
  ((List.range 16).filter fun b => (s.bank c b).mode == .cache).length

/-- Banks of a cluster that its cache may allocate lines into (R254, R257). -/
def State.cacheWays (s : State) (c : Nat) : Nat :=
  ((List.range 16).filter fun b => (s.bank c b).mode == .cache && !(s.bank c b).busy).length

/-- Whether accesses of a cluster to a key go through its cache (R254, R264). -/
def State.cacheable (s : State) (c key : Nat) : Bool :=
  match homeOf key with
  | .dram _ => decide (0 < s.cacheWays c)
  | .far _ _ => decide (0 < s.cacheWays c)
  | _ => false

/-- Whether a key's home is the issuing core or the NI of its own cluster, which performs an access as
it arrives. -/
def atOnce (q key : Nat) : Bool :=
  match homeOf key with
  | .pad t _ => t == tileOf q
  | .bank c _ _ => c == clusterOf q
  | _ => false

/-- Place of a cluster's copy of a line. -/
def copyKey (c line : Nat) : Nat := line * 1024 + c

/-- The state without a cluster's copy of the line of a key. -/
def State.dropCopy (s : State) (c key : Nat) : State :=
  { s with copies := delAt s.copies (copyKey c (key / 128)) }

/-- A first refused write is kept for the thread's next release (R285). -/
def State.refuse (s : State) (q : Nat) (cause reason : BitVec 8) (va : Word) : State :=
  s.modSlot q fun x => if x.nak.isSome then x else { x with nak := some (cause, reason, va) }

/-- A thread is the consumer of uncorrectable data that one of its writes met (R284, R411): with UEMODE 1
at T it traps at its next release, else its Caldera is fenced. (DEDUCED: log entry 18.) -/
def State.consumeLate (s : State) (q : Nat) (va : Word) : State :=
  if (s.reg (rctlOff (s.slot q).ctx)).getLsbD 0 ∧ (s.slot q).level = 0 then s.refuse q eAbort 0x02 va
  else s.fenceFor q 0x01

/-- A store, reduction or drain met uncorrectable data (R284, R411): it is not performed, and its thread
is the consumer. -/
def State.storeLost (s : State) (q : Nat) (key n : Nat) (va : Word) : State :=
  (s.detect (some q) key n).consumeLate q va

/-- Whether a packet of a context is refused at a home (R417, R418): the home is a scratchpad or bank in
a fenced rectangle or cluster. -/
def State.homeFenced (s : State) (x key : Nat) : Bool :=
  match homeOf key with
  | .pad t _ => s.fencedCluster (t / 16) || s.calderaFenced x (t / 16)
  | .bank c _ _ => s.fencedCluster c || s.calderaFenced x c
  | _ => false

/-- The key elements that a store of n bytes at a device-memory offset changed (R216, R218): the channel
and the new pattern of each. -/
def State.changedKeys (s : State) (i : Widen) (o n : Nat) : List (Nat × Nat) :=
  let es := fmtBits i.fmt / 8
  let first := i.byte / es
  (List.range ((i.byte + n + es - 1) / es - first)).map fun k =>
    ((first + k) % 128, leNat (s.mem.readBytes (dramKey (o + (first + k) * es - i.byte)) es))

/-- A write of a thread acknowledged (R271, R308), or still to be acknowledged once the widens it
caused are applied (R218). -/
def State.ackOrWiden (s : State) (q id key n : Nat) (widen : List Widen) (wts : Nat) : State :=
  match widen, homeOf key with
  | i :: t, .dram o =>
    s.push (.summaryWiden ⟨q, id, wts, (i :: t).flatMap fun i => (s.changedKeys i o n).map fun p => (i, p.1, p.2)⟩)
  | _, _ => s.push (.writeAck q id wts)

/-- The slot in which no command waits for the acknowledgement of a write any more; where one did, the write was the
command's, and raises its pts in place of the thread's (R261, R278). -/
def Slot.sentDone (x : Slot) (id wts : Nat) : Slot :=
  if x.ring.any fun e => e.2.sent.contains id then
    { x with ring := x.ring.map fun e =>
        (e.1, if e.2.sent.contains id then { e.2 with sent := e.2.sent.filter (· ≠ id), pts := max e.2.pts wts } else e.2) }
  else { x with pts := max x.pts wts }

/-- The home has performed a write of a thread (R261, R271, R308). -/
def State.acked (s : State) (q id wts : Nat) : State :=
  match s.outWrites.find? fun w => w.id == id && w.thread == q with
  | none => s
  | some w =>
    { s with outWrites := s.outWrites.filter fun v => !(v.id == id && v.thread == q) }.modSlot q fun x =>
      (x.countAcked q (128 * w.line)).sentDone id wts

/-- A write performed at its home (R261, R263), and the timestamp to acknowledge it with: a refused one is kept for the
next release, and a cluster's own copy of the line is read afresh. -/
def State.performWrite (s : State) (w : WriteReq) : State × Nat :=
  if s.homeFenced (s.slot w.thread).ctx w.key then (s.refuse w.thread eFenced 0 w.va, 0)
  else if s.anyBad w.key w.data.length then (s.storeLost w.thread w.key w.data.length w.va, 0)
  else
    let (s1, wts) := s.homeApply w.key w.pts w.data
    (s1.dropCopy w.cluster w.key, wts)

/-- Whether a write at its home widens no summary: it may be acknowledged at once. -/
def State.plainAck (s : State) (w : WriteReq) : Bool :=
  w.widen.isEmpty || s.homeFenced (s.slot w.thread).ctx w.key || s.anyBad w.key w.data.length

/-- A write performed at its home, whose acknowledgement follows. -/
def State.applyWrite (s : State) (w : WriteReq) : State :=
  let (s1, wts) := s.performWrite w
  s1.ackOrWiden w.thread w.id w.key w.data.length (if s.plainAck w then [] else w.widen) wts

/-- Whether a write may leave for its home, behind no older write of its thread to its line. -/
def State.canSend (s : State) (w : WriteReq) : Bool :=
  s.mayGo w.thread w.id w.key w.data.length w.hold &&
    !(s.dirty.any fun d => d.thread == w.thread && d.key / 128 == w.key / 128 && decide (d.id < w.id))

/-- Whether a store may put its bytes into its line of the cluster's cache (R263): nothing holds them (R267, R275 row 1,
R279, R422), nor an older store of its thread to the line. -/
def State.mayEnter (s : State) (w : WriteReq) : Bool :=
  (s.slot w.thread).clearOf w.hold && !(s.slot w.thread).locUnread w.key w.data.length w.id &&
    !(s.slot w.thread).joinsBefore w.id && !s.pairHolds w.thread w.key &&
    !(s.dirty.any fun d =>
      d.thread == w.thread && d.place == .held && d.key / 128 == w.key / 128 && decide (d.id < w.id))

/-- A write handed to the network (R271, R308, R321, R325): its line is outstanding and it counts. -/
def State.sendWrite (s : State) (w : WriteReq) : State :=
  let s1 := (s.outstanding w.thread w.id w.key).modSlot w.thread fun x => x.countSent w.thread w.key
  match homeOf w.key with
  | .far p o =>
    s1.farSend { farRequest s1 w.thread none w.id p o tyWrite (w.release || w.ordered) true
      (BitVec.ofNat 64 w.data.length :: BitVec.ofNat 64 w.pts :: bytesWords w.data) with va := w.va }
  | _ => s1.push (.sliceWrite w)

/-- A write of a slot that its own core or NI performs as it arrives. (DEDUCED: log entry 8.) -/
def State.applyNear (s : State) (w : WriteReq) : State :=
  if s.anyBad w.key w.data.length then s.storeLost w.thread w.key w.data.length w.va
  else (s.homeApply w.key w.pts w.data).1

/-- A dirty entry leaves for its home; of one whose bytes are lost, the thread is the consumer (R410). -/
def State.sendDirty (s : State) (w : WriteReq) : State :=
  let w' := { w with pts := s.heldPts w.thread w.hold w.pts }
  let s1 := { s with dirty := s.dirty.filter fun d => d.id ≠ w.id }
  if w.lost then s1.consumeLate w.thread w.va
  else if atOnce w.thread w.key then s1.applyNear w' else s1.sendWrite w'

/-- Whether bytes are dirty in a line of a cluster's cache (R263). -/
def dirtyIn (c : Nat) (w : WriteReq) : Bool := w.cluster == c && w.place == .line

/-- The lines that a cluster's cache holds: leased copies, and lines with dirty bytes. -/
def State.cacheLines (s : State) (c : Nat) : List Nat :=
  ((s.copies.filter fun e => e.1 % 1024 == c).map (fun (e : Nat × Copy) => e.1 / 1024) ++
    (s.dirty.filter (dirtyIn c)).map fun (w : WriteReq) => w.key / 128).eraseDups

/-- The lines of a cluster's cache in the set of a line (R254). -/
def State.linesInSet (s : State) (c line : Nat) : List Nat :=
  (s.cacheLines c).filter fun l => l % 1024 == line % 1024

/-- The entries of a list of dirty ones that may leave for their homes, in order; of one thread's to one line, each goes
once the one before it is acknowledged (R308). -/
def State.sendAll (s : State) (ws : List WriteReq) : State :=
  ws.foldl (fun s w => if s.canSend w then s.sendDirty w else s) s

/-- Dirty bytes of lines that `gone` names leave a cluster's cache (R263). -/
def State.leave (s : State) (c : Nat) (gone : Nat → Bool) : State :=
  let out (w : WriteReq) : WriteReq := if dirtyIn c w && gone (w.key / 128) then { w with place := .leaving } else w
  let s1 := { s with dirty := s.dirty.map out }
  s1.sendAll (s1.dirty.filter fun w => w.cluster == c && w.place == .leaving && !atOnce w.thread w.key)

/-- A line leaves a cluster's cache: its dirty bytes drain (R263). -/
def State.evict (s : State) (c line : Nat) : State := (s.dropCopy c (128 * line)).leave c (· == line)

/-- A cluster's cache with no more lines in a set than it has ways, after a way has left it (R254, R257). -/
def State.trimCache (s : State) (c : Nat) : State :=
  (s.cacheLines c).foldl (fun s l => if s.cacheWays c < (s.linesInSet c l).length then s.evict c l else s) s

/-- A place for a line in its set of a cluster's cache (R254): where the set is full, a line of it, by free choice,
is evicted. (DESIGN CHOICE: log entry 9.) -/
def State.makeRoom (s : State) (c line : Nat) : State :=
  let ls := s.linesInSet c line
  if ls.contains line ∨ ls.length < s.cacheWays c then s
  else
    match ls[Config.choice s.choices % ls.length]? with
    | some l => { s with choices := s.choices + 1 }.evict c l
    | none => s

/-- A copy put into a cluster's cache, where it has a bank in CACHE mode (R254). -/
def State.install (s : State) (c line : Nat) (k : Copy) : State :=
  if 0 < s.cacheWays c then
    let s1 := s.makeRoom c line
    { s1 with copies := putAt s1.copies (copyKey c line) k }
  else s

/-- Bytes of a store put into their line of the cluster's cache (R263). -/
def State.enterLine (s : State) (w : WriteReq) : State :=
  let s1 := s.makeRoom w.cluster (w.key / 128)
  { s1 with dirty := s1.dirty.filter (fun d => d.id ≠ w.id) ++ [{ w with place := .line }] }

/-- A store of a thread (R263, R267), an item of a lockstep pair (R422): performed or sent at once, or put into its line
of the cluster's cache, where it may be; else it is held. It drains by itself after a time. (DEDUCED: log entry 8.) -/
def State.putStore (s0 : State) (w : WriteReq) : State :=
  let s := s0.pairItem w.thread ⟨1, (s0.slot w.thread).pc,
    BitVec.ofNat 64 w.key :: BitVec.ofNat 64 w.data.length :: bytesWords w.data⟩
  if s.canSend w && !s.cacheable w.cluster w.key then
    if atOnce w.thread w.key then s.applyNear w else s.sendWrite w
  else
    (if s.mayEnter w && s.cacheable w.cluster w.key then s.enterLine w else { s with dirty := s.dirty ++ [w] }).push
      (.dirtyDrainTimeout w.id)

/-- The thread's dirty bytes that may leave, sent to their homes (R263, R271 step 1). (DEDUCED: log entry 8.) -/
def State.drainThread (s : State) (q : Nat) : State := s.sendAll (s.dirty.filter fun w => w.thread == q)

/-- Whether stores of a thread are not yet performed. -/
def State.storesLeft (s : State) (q : Nat) : Bool :=
  s.dirty.any (fun w => w.thread == q) || s.outWrites.any fun w => w.thread == q

/-- Stores of a thread go on once nothing holds them (R267): into their line of the cluster's cache, or, out of the cache,
to their homes. (DEDUCED: log entry 8.) -/
def State.flushHeld (s : State) (q : Nat) : State :=
  (s.dirty.filter fun w => w.thread == q && w.place != .line).foldl (fun s w =>
    if w.place = .held ∧ s.cacheable w.cluster w.key then (if s.mayEnter w then s.enterLine w else s)
    else if s.canSend w then s.sendDirty w
    else s) s

/-- Dirty bytes performed at their home in this package in one step with their acknowledgement, so that more bytes of
their thread to the line can follow in the same step (R263). -/
def State.drainNow (s0 : State) (w : WriteReq) : State :=
  let s := { s0 with dirty := s0.dirty.filter fun d => d.id ≠ w.id }
  let s1 := (s.outstanding w.thread w.id w.key).modSlot w.thread fun x => x.countSent w.thread w.key
  let w1 := { w with pts := s0.heldPts w.thread w.hold w.pts }
  if s1.plainAck w1 then
    let (s2, wts) := s1.performWrite w1
    s2.acked w.thread w.id wts
  else s1.applyWrite w1

/-- Other threads' dirty bytes of a line in a cluster drain before the line is read (R263). -/
def State.drainLine (s : State) (c q key : Nat) : State :=
  (s.dirty.filter fun w => w.cluster == c && w.thread != q && w.key / 128 == key / 128).foldl (fun s w =>
    if s.canSend w then (if w.lost || isFar w.key then s.sendDirty w else s.drainNow w) else s) s

/-- Whether other threads' bytes of a line, dirty in a cluster's cache or on their way out of it, have still to drain. -/
def State.lineDirty (s : State) (c q key : Nat) : Bool :=
  s.dirty.any fun w => w.cluster == c && w.thread != q && w.key / 128 == key / 128 && w.place != .held

/-- Bytes with those of one write laid over them. -/
def overlayOne (key : Nat) (bs : List Byte) (w : WriteReq) : List Byte :=
  bs.mapIdx fun i b =>
    if w.key ≤ key + i ∧ key + i < w.key + w.data.length then w.data.getD (key + i - w.key) 0 else b

/-- Bytes read with the thread's own older dirty bytes over them (R263). -/
def State.overlay (s : State) (q before key : Nat) (bs : List Byte) : List Byte :=
  (s.dirty.filter fun w => w.thread == q && decide (w.id < before)).foldl (overlayOne key) bs

/-- A line put into a cluster's constant cache, which holds 64 KiB (R17, R259): the oldest goes.
(DESIGN CHOICE: log entry 9.) -/
def State.constKeep (s : State) (l : ConstLine) : State :=
  { s with constLines := keepFirst (fun m : ConstLine => m.cluster == l.cluster) 1024 (l :: s.constLines) }

/-- The line of a constant cache at an address, where it holds it; it may have evicted it at any time.
(DESIGN CHOICE: log entry 9.) -/
def State.constHeld (s : State) (c x pa : Nat) : State × Option (List Byte) :=
  match s.constLines.find? fun l => l.cluster == c && l.ctx == x && l.pa == pa with
  | some l =>
    let (s1, evicted) := s.coin
    if evicted then ({ s1 with constLines := s1.constLines.filter fun m => m ≠ l }, none) else (s1, some l.data)
  | none => (s, none)

/-- The two lines of a constant cache that a 128-byte line of another package fills (R259), where it holds both. -/
def State.constPair (s : State) (c x line : Nat) : State × Option (List Byte) :=
  match s.constHeld c x line with
  | (s1, some a) =>
    match s1.constHeld c x (line + 64) with
    | (s2, some b) => (s2, some (a ++ b))
    | (s2, none) => (s2, none)
  | (s1, none) => (s1, none)

/-- A 128-byte line of another package put into a constant cache (R259). -/
def State.constKeepPair (s : State) (c x line : Nat) (bs : List Byte) : State :=
  (s.constKeep ⟨c, x, 0, line, bs.take 64⟩).constKeep ⟨c, x, 0, line + 64, bs.drop 64⟩

/-- One 64-byte line of the constant cache (R259): kept, or read from its home in this package. -/
def State.constLine (s : State) (c x pa : Nat) : State × List Byte :=
  match s.constHeld c x pa with
  | (s1, some d) => (s1, d)
  | (s1, none) =>
    let d := s1.mem.readBytes pa 64
    (s1.constKeep ⟨c, x, 0, pa, d⟩, d)

/-- Bytes of a constant page through the constant cache. -/
def State.constRead (s : State) (c x key n : Nat) : State × List Byte :=
  let lines := (List.range ((key + n + 63) / 64 - key / 64)).map fun i => 64 * (key / 64 + i)
  let (s1, bs) := lines.foldl (fun (p : State × List Byte) pa =>
    let (s', d) := p.1.constLine c x pa
    (s', p.2 ++ d)) (s, [])
  (s1, (bs.drop (key % 64)).take n)

/-- Cycles for which a copy of a line serves loads (R262): a load that hits it sees every write performed as long ago.
(DEDUCED: log entry 69.) -/
def copyLife : Nat := 1088

/-- Whether a copy of a line serves a load with timestamp pts (R261, R262), being in the cache.
(DEDUCED: log entry 69.) -/
def State.copyServes (s : State) (c : Nat) (k : Copy) (pts : Nat) : Bool :=
  decide (pts ≤ k.rts) && decide (s.cycle < k.born + copyLife) && decide (0 < s.cacheWays c)

/-- A line of device memory for a thread's load (R261): from the cluster's copy while its lease covers
the thread's pts and it has not been evicted, else from the slice with a new lease. The result is the
line's bytes and the write timestamp. (DESIGN CHOICE: log entry 9.) -/
def State.loadLine (s : State) (c key pts : Nat) : State × List Byte × Nat :=
  let line := key / 128
  let miss (s : State) : State × List Byte × Nat :=
    let (s1, w, r) := s.sliceLease (128 * line) pts
    let d := s1.mem.readBytes (128 * line) 128
    (s1.install c line ⟨d, w, r, s.cycle⟩, d, w)
  match findAt s.copies (copyKey c line) with
  | some k =>
    let (s1, evicted) := s.coin
    if s1.copyServes c k pts ∧ !evicted then (s1, k.data, k.wts) else miss s1
  | none => miss s

/-- A read of a load at its home (R261, R263, R264): the bytes and their write timestamp, or none where
they are uncorrectable (R284). -/
def State.readAtHome (s : State) (q : Nat) (l : LoadRec) : State × Option (List Byte × Nat) :=
  let c := clusterOf q
  let x := s.slot q
  let own (s : State) (bs : List Byte) : List Byte := s.overlay q l.before l.key bs
  if s.anyBad l.key l.size then (s.detect (some q) l.key l.size, none)
  else
    match homeOf l.key with
    | .dram _ =>
      let s1 := s.drainLine c q l.key
      if l.const then
        let (s2, bs) := s1.constRead c x.ctx l.key l.size
        (s2, some (own s2 bs, 0))
      else
        let (s2, d, w) := s1.loadLine c l.key x.pts
        (s2, some (own s2 ((d.drop (l.key % 128)).take l.size), w))
    | _ =>
      if l.const then
        let (s1, bs) := s.constRead c x.ctx l.key l.size
        (s1, some (own s1 bs, 0))
      else (s, some (own s (s.mem.readBytes l.key l.size), s.tsOver l.key l.size))

/-! ### The control page (R255, R256) -/

/-- The code of a bank mode. -/
def BankMode.code : BankMode → Nat
  | .cache => 0 | .scratch => 1 | .fifo => 2

/-- BANKCTL of a bank (R256). -/
def Bank.ctl (b : Bank) : Word :=
  BitVec.ofNat 64 (b.owner.toNat * 2 ^ 18 + (if b.busy then 2 ^ 17 else 0) + b.result.toNat * 2 ^ 15 + b.mode.code)

/-- The value of the control-page register at a multiple of 8; where none is listed it reads zero.
(DEDUCED: log entry 50.) -/
def State.ctrlValue (s : State) (c o : Nat) : Word :=
  if o < 0x80 then (s.bank c (o / 8)).ctl
  else if o = 0x80 then BitVec.ofNat 64 (s.cacheBanks c)
  else if o = 0x88 then if getAt false s.ccdrain c then 1 else 0
  else 0

/-- `size` bytes of the control page as a number. (DEDUCED: log entry 50.) -/
def State.ctrlRead (s : State) (c o size : Nat) : Nat :=
  (s.ctrlValue c (o / 8 * 8)).toNat / 2 ^ (8 * (o % 8)) % 2 ^ (8 * size)

/-- Whether level S of a context may make a write to BANKCTL (R257): the bank is not another context's, where
it has an owner, and is not given to one. OWNER is ignored in CACHE mode (R256). -/
def State.bankMine (s : State) (x c b : Nat) (v : Word) : Bool :=
  ((s.bank c b).mode == .cache || (s.bank c b).owner.toNat == x) && fieldOf v 23 18 == x

/-- The half of a register that an access of `size` bytes at an offset reaches (R438). -/
def halfOf (o size : Nat) : Half := if size = 8 then .both else if o % 8 = 4 then .hi else .lo

end Sys2Proof.Machine
end

