-- ==== Sys2Proof/Machine/Banks.lean ====
section
/-! DEFINITION. The control page's actions (R255 to R257): a write to BANKCTL, the switch of a bank, and the
drain of a cluster cache. -/

namespace Sys2Proof.Machine

/-- The mode that a code names; 0b11 is reserved. -/
def bankModeOf (v : Word) : Option BankMode :=
  match fieldOf v 1 0 with
  | 0 => some .cache | 1 => some .scratch | 2 => some .fifo | _ => none

/-- Whether a launch that is admitted and not completed declares a CB in bank b, and cluster c lies in its
context's Calderas (R257). (DEDUCED: log entry 49.) -/
def State.bankNamed (s : State) (c b : Nat) : Bool :=
  s.launches.any fun l => !l.2.complete && s.inCalderas l.2.ctx c &&
    l.2.cbs.any fun d => d.2.1.getLsbD 41 && fieldOf d.2.1 23 0 % 16 == b

/-- BANKCTL_WRITE (R256, R257): refused with a RESULT, without effect, or the start of a switch.
(DEDUCED: log entry 49.) -/
def execBankctlWrite (c b : Nat) (v : Word) (level ctx : Nat) (s : State) : Result :=
  let k := s.bank c b
  let result (r : BitVec 2) : Result := .next (s.setBank c b { k with result := r })
  let owner := BitVec.ofNat 6 (fieldOf v 23 18)
  if level ≠ 2 ∧ !s.bankMine ctx c b v then .next s
  else if k.busy then result 3
  else
    match bankModeOf v with
    | none => result 2
    | some m =>
      if m = k.mode ∧ owner = k.owner then result 0
      else if s.bankNamed c b then result 1
      else
        .next ((s.setBank c b { k with busy := true, result := 0, nextMode := m, nextOwner := owner, mark := s.nextId }).push
          (.bankSwitchComplete c b))

/-- Whether a key lies in a bank. -/
def inBank (c b key : Nat) : Bool := decide (bankKey c b 0 ≤ key) && decide (key < bankKey c b 0 + 2 ^ 17)

/-- Whether an access to a bank that was accepted is still to be performed. -/
def State.bankInUse (s : State) (c b : Nat) : Bool :=
  s.outWrites.any (fun w => inBank c b (128 * w.line)) || s.dirty.any (fun w => inBank c b w.key) ||
    s.slots.any fun e => e.2.loads.any fun l => l.data.isNone && !l.abort && inBank c b l.key

/-- Every dirty line of a cluster's cache drains (R263). (DEDUCED: log entry 49.) -/
def State.drainCluster (s : State) (c : Nat) : State := s.leave c fun _ => true

/-- Whether a key lies in device memory, of this package or another. -/
def inDevice (key : Nat) : Bool :=
  match homeOf key with
  | .dram _ => true
  | .far _ _ => true
  | _ => false

/-- Whether dirty bytes that have left a cluster's cache, of stores below an identifier, have still to be acknowledged.
(DEDUCED: log entry 49.) -/
def State.leavingOut (s : State) (c before : Nat) : Bool :=
  s.dirty.any (fun w => w.cluster == c && w.place == .leaving && decide (w.id < before)) ||
    s.outWrites.any fun w => clusterOf w.thread == c && inDevice (128 * w.line) && decide (w.id < before)

/-- A bank zero-filled, and the waits on counters in it due to be checked (R54). -/
def State.zeroBank (s : State) (c b : Nat) : State :=
  State.recheck { s with
    mem := s.mem.zeroRange (bankKey c b 0) (2 ^ 17),
    bad := s.bad.filter fun e => !inBank c b (8 * e.1) } (bankKey c b 0) (2 ^ 17)

/-- BANK_SWITCH_COMPLETE (R257): the switch of a bank runs to its end. A way that leaves the cache takes no line from the
start of the switch on; the lines that the other ways cannot hold are evicted, and their dirty bytes written back, before
the mode is set. (DEDUCED: log entry 49.) -/
def execBankSwitchComplete (c b : Nat) (s : State) : Result :=
  let k := s.bank c b
  if !k.busy then .next s
  else
    let s1 := if k.mode = .cache then (s.trimCache c).leave c (fun _ => false) else s
    if (if k.mode = .cache then s1.leavingOut c k.mark else s1.bankInUse c b) then .next (s1.push (.bankSwitchComplete c b))
    else
      .next ((s1.zeroBank c b).setBank c b { k with mode := k.nextMode, owner := k.nextOwner, busy := false })

/-- CCDRAIN (R255): every dirty line of a cluster cache drains; the bit reads 1 until the last drain is
acknowledged. -/
def execCcdrain (c : Nat) (s : State) : Result :=
  let s1 := s.drainCluster c
  if s1.leavingOut c s1.nextId then .next (State.push { s1 with ccdrain := putAt s1.ccdrain c true } (.ccdrain c))
  else .next { s1 with ccdrain := delAt s1.ccdrain c }

end Sys2Proof.Machine
end

