-- ==== Sys2Proof/Machine/MemInstr.lean ====
section
/-! DEFINITION. The access instructions of majors 0x18 to 0x1F (R283 to R294): loads, stores, acquire,
release and fence, taint control, atomics, reductions and 4-bit stores, up to the moment they leave the
core. What happens at the homes is in HomeEvents. -/

namespace Sys2Proof.Machine

/-- Bytes of an access of type code 0x8 + y (R85). -/
def accBytes (y : BitVec 3) : Nat := 2 ^ (y.toNat % 4)

/-- Whether a load of type code 0x8 + y sign-extends (R286). -/
def accSigned (y : BitVec 3) : Bool := decide (y.toNat < 4)

/-- A base and a signed byte offset (R286): wrap64. (DEDUCED: log entry 7.) -/
def ea (base : Word) (o : BitVec 12) : Word := base + o.signExtend 64

/-- A base and a signed count of 128-byte units (R287): wrap64. -/
def eaLine (base : Word) (o : BitVec 12) : Word := base + 128 * o.signExtend 64

/-- A pointer moved by its step, its mask unchanged (R153, R286). -/
def Slot.postInc (x : Slot) (p : BitVec 3) : Slot := x.setP p (x.preg p + x.step p) (x.pmask p)

/-- The slot after the post-increment of an access, where it has one. -/
def Slot.postIncOpt (x : Slot) (p : Option (BitVec 3)) : Slot :=
  match p with
  | some p => x.postInc p
  | none => x

/-! ### Loads -/

/-- A load instruction (R283): its address and mask, size, extension, destination, kind and the pointer
that it moves. -/
structure LoadForm where
  va : Word
  mask : Taint
  size : Nat
  sext : Bool
  dest : Dest
  kind : LoadKind
  bump : Option (BitVec 3)
  deriving DecidableEq, Repr

/-- The load record of a load that issues: the tag and serial are given by `takeLoad`. -/
def LoadForm.record (f : LoadForm) (x : Slot) (w : InstrWord) (before : Nat) (l : Loc) (data : Option Nat)
    (wts : Nat) : LoadRec where
  serial := 0
  before := before
  tag := 0
  dest := f.dest
  kind := f.kind
  key := l.key
  size := f.size
  sext := f.sext
  data := data
  abort := false
  wts := wts
  status := 0
  flags := 0
  blocking := isFar l.key || (match f.kind, homeOf l.key with | .acquire _, _ => true | .atomic _, .host _ => true | _, _ => false)
  const := l.const
  origin := ⟨x.pc, w, f.va, x.repst,
    (match f.dest with | .scalar r => x.smask (BitVec.ofNat 5 r) | .vector r => x.vmask (BitVec.ofNat 5 r)),
    f.bump.map fun p => (p, x.preg p)⟩

/-- A load issues: it takes its tag, its pointer moves, the PC advances, and the step that brings its
value follows. (DEDUCED: log entry 4.) -/
def State.startLoad (s : State) (q : Nat) (i : Instr) (f : LoadForm) (l : Loc) (data : Option Nat) (wts : Nat) :
    State :=
  let x := s.slot q
  let r := f.record x ((encode i).getD 0) s.nextId l data wts
  let s1 := s.setSlot q ((x.takeLoad r).postIncOpt f.bump).advance
  s1.push (if data.isSome then .loadCompletion q x.nextSerial else .sliceRead q x.nextSerial)

/-- A load (R283, R286): the taint wait, alignment, the address, and then by the home. Register space
and the control page answer as the access arrives (R255, R438). -/
def loadOp (i : Instr) (q : Nat) (f : LoadForm) (s : State) : State :=
  let x := s.slot q
  if !x.satisfied f.mask then s
  else if f.va.toNat % f.size ≠ 0 then s.trapAt q i eAlign 0 f.va
  else
    match resolve s (s.who q) f.va f.size .read with
    | (s1, .error e) => s1.accessFault q i e .read f.va
    | (s1, .ok l) =>
      match homeOf l.key with
      | .reg o =>
        if f.size ≠ 4 ∧ f.size ≠ 8 then s1.trapAt q i eAlign 0 f.va
        else
          let h := halfOf o f.size
          match s1.regCheck x.level.toNat x.ctx (o / 8 * 8) h none with
          | some e => s1.accessFault q i e .read f.va
          | none =>
            if s1.lineOut q l.key s1.nextId || x.joinsBefore s1.nextId then s1
            else
              let (s2, v) := s1.regRead (o / 8 * 8) h
              s2.startLoad q i f l (some v.toNat) (s2.tsOver l.key f.size)
      | .ctrl c o =>
        if x.joinsBefore s1.nextId then s1 else s1.startLoad q i f l (some (s1.ctrlRead c o f.size)) 0
      | _ => s1.startLoad q i f l none 0

/-- LD (R286). -/
def execLd (t a : BitVec 5) (y : BitVec 3) (o : BitVec 12) (s : State) : Result :=
  issue (.ld t a y o) s fun q s =>
    let x := s.slot q
    .next (loadOp (.ld t a y o) q
      ⟨ea (x.sreg a) o, x.smask a, accBytes y, accSigned y, .scalar t.toNat, .plain, none⟩ s)

/-- LDP (R286). -/
def execLdp (t : BitVec 5) (p y : BitVec 3) (o : BitVec 12) (s : State) : Result :=
  issue (.ldp t p y o) s fun q s =>
    let x := s.slot q
    .next (loadOp (.ldp t p y o) q
      ⟨ea (x.preg p) o, x.pmask p, accBytes y, accSigned y, .scalar t.toNat, .plain, none⟩ s)

/-- LDPI (R286). -/
def execLdpi (t : BitVec 5) (p y : BitVec 3) (s : State) : Result :=
  issue (.ldpi t p y) s fun q s =>
    let x := s.slot q
    .next (loadOp (.ldpi t p y) q
      ⟨x.preg p, x.pmask p, accBytes y, accSigned y, .scalar t.toNat, .plain, some p⟩ s)

/-- VLD (R287). -/
def execVld (v a : BitVec 5) (o : BitVec 12) (s : State) : Result :=
  issue (.vld v a o) s fun q s =>
    let x := s.slot q
    .next (loadOp (.vld v a o) q
      ⟨eaLine (x.sreg a) o, x.smask a, 128, false, .vector v.toNat, .plain, none⟩ s)

/-- VLDP (R287). -/
def execVldp (v : BitVec 5) (p : BitVec 3) (o : BitVec 12) (s : State) : Result :=
  issue (.vldp v p o) s fun q s =>
    let x := s.slot q
    .next (loadOp (.vldp v p o) q
      ⟨eaLine (x.preg p) o, x.pmask p, 128, false, .vector v.toNat, .plain, some p⟩ s)

/-- LDA (R288): a load performed as an acquire at its scope. -/
def execLda (t a : BitVec 5) (k y : BitVec 3) (s : State) : Result :=
  issue (.lda t a k y) s fun q s =>
    let x := s.slot q
    .next (loadOp (.lda t a k y) q
      ⟨x.sreg a, x.smask a, accBytes y, accSigned y, .scalar t.toNat, .acquire k.toNat, none⟩ s)

/-! ### Stores -/

/-- A store instruction: its address, its bytes, the masks that hold it (R267) and the pointer that it
moves. -/
structure StoreForm where
  va : Word
  data : List Byte
  hold : Taint
  bump : Option (BitVec 3)
  deriving DecidableEq, Repr

/-- The control page written (R255, R257): bits of a bank's BANKCTL or CCDRAIN; the rest is read-only
or absent and keeps its value. At S a bank of another context, or a write that would give it to
another, traps. (DEDUCED: log entry 50.) -/
def ctrlStore (s : State) (q : Nat) (i : Instr) (f : StoreForm) (c o : Nat) : State :=
  let x := s.slot q
  let base := o / 8 * 8
  let old := natBytes (s.ctrlValue c base).toNat 8
  let v := BitVec.ofNat 64 (leNat (overlayOne base old ⟨0, q, c, o, f.va, f.data, 0, [], false, false, [], false, .held⟩))
  let done (s : State) : State := s.modSlot q fun x => (x.postIncOpt f.bump).advance
  if base < 0x80 then
    let b := base / 8
    if x.level ≠ 2 ∧ !s.bankMine x.ctx c b v then
      s.trapAt q i eProt 0x04 f.va
    else (done s).pushNext (.bankctlWrite c b v x.level.toNat x.ctx)
  else if base = 0x88 ∧ o = base ∧ v.getLsbD 0 then (done s).pushNext (.ccdrain c)
  else done s

/-- The write of a store: what its home will perform. -/
def storeReq (s : State) (q : Nat) (f : StoreForm) (l : Loc) (release : Bool) (widen : List Widen) : WriteReq :=
  ⟨s.nextId, q, clusterOf q, l.key, f.va, f.data, (s.slot q).pts, (s.slot q).behind f.hold, release, l.ord, widen, false, .held⟩

/-- A register write of a slot (R438). -/
def regReq (s : State) (q o : Nat) (data : List Byte) : RegWrite :=
  let x := s.slot q
  ⟨s.nextId, .slot q, x.level.toNat, x.ctx, o / 8 * 8, halfOf o data.length,
    BitVec.ofNat 64 (leNat data), x.pts⟩

/-- A fresh write identifier has been used. -/
def State.useId (s : State) : State := { s with nextId := s.nextId + 1 }

/-- A store (R283, R286): alignment, the address, and then by the home. It retires at once; R267 holds
its bytes. -/
def storeOp (i : Instr) (q : Nat) (f : StoreForm) (s : State) : State :=
  let x := s.slot q
  let done (s : State) : State := s.modSlot q fun x => (x.postIncOpt f.bump).advance
  if f.va.toNat % f.data.length ≠ 0 then s.trapAt q i eAlign 0 f.va
  else
    match resolve s (s.who q) f.va f.data.length .write with
    | (s1, .error e) =>
      if e.late then done (s1.refuse q e.cause e.reason f.va) else s1.accessFault q i e .write f.va
    | (s1, .ok l) =>
      match homeOf l.key with
      | .reg o =>
        if f.data.length ≠ 4 ∧ f.data.length ≠ 8 then s1.trapAt q i eAlign 0 f.va
        else
          let r := regReq s1 q o f.data
          match s1.regCheck x.level.toNat x.ctx r.offset r.half (some r.value) with
          | some e => s1.accessFault q i e .write f.va
          | none =>
            if !s1.mayGo q s1.nextId l.key f.data.length (x.behind f.hold) then s1
            else
              (done (((s1.outstanding q s1.nextId l.key).modSlot q fun x => x.countSent q l.key).useId)).push
                (.registerWrite r)
      | .ctrl c o => if x.satisfied f.hold && !x.joinsBefore s1.nextId then ctrlStore s1 q i f c o else s1
      | _ =>
        let (s2, wd) := s1.widenFor (s1.who q) f.va
        done (s2.useId.putStore (storeReq s2 q f l false wd))

/-- What holds a store whose address comes from a scalar register and data from another (R267). -/
def Slot.holdS (x : Slot) (a t : BitVec 5) : Taint := ((x.smask a).union (x.smask t)).union x.ctm

/-- What holds a store through a pointer register. -/
def Slot.holdP (x : Slot) (p : BitVec 3) (t : BitVec 5) : Taint := ((x.pmask p).union (x.smask t)).union x.ctm

/-- ST (R286). -/
def execSt (t a : BitVec 5) (y : BitVec 3) (o : BitVec 12) (s : State) : Result :=
  issue (.st t a y o) s fun q s =>
    let x := s.slot q
    .next (storeOp (.st t a y o) q
      ⟨ea (x.sreg a) o, natBytes (x.sreg t).toNat (accBytes y), x.holdS a t, none⟩ s)

/-- STP (R286). -/
def execStp (t : BitVec 5) (p y : BitVec 3) (o : BitVec 12) (s : State) : Result :=
  issue (.stp t p y o) s fun q s =>
    let x := s.slot q
    .next (storeOp (.stp t p y o) q
      ⟨ea (x.preg p) o, natBytes (x.sreg t).toNat (accBytes y), x.holdP p t, none⟩ s)

/-- STPI (R286). -/
def execStpi (t : BitVec 5) (p y : BitVec 3) (s : State) : Result :=
  issue (.stpi t p y) s fun q s =>
    let x := s.slot q
    .next (storeOp (.stpi t p y) q
      ⟨x.preg p, natBytes (x.sreg t).toNat (accBytes y), x.holdP p t, some p⟩ s)

/-- VST (R287). -/
def execVst (v a : BitVec 5) (o : BitVec 12) (s : State) : Result :=
  issue (.vst v a o) s fun q s =>
    let x := s.slot q
    .next (storeOp (.vst v a o) q
      ⟨eaLine (x.sreg a) o, natBytes (x.vreg v).toNat 128,
        ((x.smask a).union (x.vmask v)).union x.ctm, none⟩ s)

/-- VSTP (R287). -/
def execVstp (v : BitVec 5) (p : BitVec 3) (o : BitVec 12) (s : State) : Result :=
  issue (.vstp v p o) s fun q s =>
    let x := s.slot q
    .next (storeOp (.vstp v p o) q
      ⟨eaLine (x.preg p) o, natBytes (x.vreg v).toNat 128,
        ((x.pmask p).union (x.vmask v)).union x.ctm, some p⟩ s)

/-! ### Release and fence -/

/-- The refused write that a release, FENCE or retirement of the thread must raise (R285). -/
def State.nakTrap (s : State) (q : Nat) (i : Instr) (n : BitVec 8 × BitVec 8 × Word) : State :=
  (s.modSlot q fun x => { x with nak := none }).trapAt q i n.1 n.2.1 n.2.2

/-- A release of a slot is pending (R288): it takes the next number, its own write is outstanding to its
line from now on (R308), and the step that performs it follows. (DEDUCED: log entry 11.) -/
def State.startRelease (s : State) (q scope key : Nat) (act : ReleaseAct) : State :=
  let x := s.slot q
  let id := s.nextId
  (((s.outstanding q id key).useId).setSlot q { x with relNext := x.relNext + 1 }).push
    (.releaseComplete ⟨q, x.relNext, id, scope, act⟩)

/-- STL (R288): a release whose own write is a store. It retires at once; to the control page it waits
in the slot. (DEDUCED: log entry 50.) -/
def stlOp (i : Instr) (q scope : Nat) (f : StoreForm) (s : State) : State :=
  let x := s.slot q
  let done (s : State) : State := s.modSlot q Slot.advance
  if f.va.toNat % f.data.length ≠ 0 then s.trapAt q i eAlign 0 f.va
  else
    match resolve s (s.who q) f.va f.data.length .write with
    | (s1, .error e) =>
      if e.late then (s1.refuse q e.cause e.reason f.va).nakTrap q i (((s1.refuse q e.cause e.reason f.va).slot q).nak.getD (e.cause, e.reason, f.va))
      else s1.accessFault q i e .write f.va
    | (s1, .ok l) =>
      match x.nak with
      | some n => s1.nakTrap q i n
      | none =>
        match homeOf l.key with
        | .reg o =>
          if f.data.length ≠ 4 ∧ f.data.length ≠ 8 then s1.trapAt q i eAlign 0 f.va
          else
            let r := regReq s1 q o f.data
            match s1.regCheck x.level.toNat x.ctx r.offset r.half (some r.value) with
            | some e => s1.accessFault q i e .write f.va
            | none => if x.satisfied f.hold then done (s1.startRelease q scope l.key (.register r)) else s1
        | .ctrl c o =>
          let s2 := s1.drainThread q
          if (s2.slot q).satisfied f.hold && s2.relReady q scope (s2.slot q).relNext s2.nextId then
            ctrlStore (s2.modSlot q Slot.clearTouched) q i f c o
          else s2
        | _ =>
          let (s2, wd) := s1.widenFor (s1.who q) f.va
          done (s2.startRelease q scope l.key (.store (storeReq s2 q f l true wd)))

/-- STL (R288). -/
def execStl (t a : BitVec 5) (k y : BitVec 3) (s : State) : Result :=
  issue (.stl t a k y) s fun q s =>
    let x := s.slot q
    .next (stlOp (.stl t a k y) q k.toNat
      ⟨x.sreg a, natBytes (x.sreg t).toNat (accBytes y), x.holdS a t, none⟩ s)

/-- FENCE (R272, R288): it waits in the slot until the release half is done and every earlier load has
completed; a refused write traps at it (R285). -/
def execFence (k : BitVec 3) (s : State) : Result :=
  issue (.fence k) s fun q s =>
    let s1 := s.drainThread q
    if s1.relReady q k.toNat (s1.slot q).relNext s1.nextId then
      match (s1.slot q).nak with
      | some n => .next (s1.nakTrap q (.fence k) n)
      | none => complete q s1 Slot.clearTouched
    else .next s1

/-! ### Taint control -/

/-- TCLR (R289). -/
def execTclr (d : BitVec 5) (s : State) : Result :=
  issue (.tclr d) s fun q s => complete q s fun x => x.setSmask d Taint.none

/-- TDEP (R289). -/
def execTdep (d a : BitVec 5) (s : State) : Result :=
  issue (.tdep d a) s fun q s => complete q s fun x => x.setSmask d ((x.smask d).union (x.smask a))

/-- VTCLR (R289). -/
def execVtclr (d : BitVec 5) (s : State) : Result :=
  issue (.vtclr d) s fun q s => complete q s fun x => x.setVmask d Taint.none

/-- VTDEP (R289). -/
def execVtdep (d a : BitVec 5) (s : State) : Result :=
  issue (.vtdep d a) s fun q s => complete q s fun x => x.setVmask d ((x.vmask d).union (x.vmask a))

/-! ### Atomics and reductions -/

/-- Why an atomic may not use an address that resolves (R292): FIFO-mode banks, constant pages, CTRL
and, which the manual lists nowhere among the homes of R292, register space. (DEDUCED: log entry 65.) -/
def atomicPlace (s : State) (l : Loc) : Option XFault :=
  if l.const then some (xf eProt 0x03)
  else
    match homeOf l.key with
    | .bank c b _ => if (s.bank c b).mode = .fifo then some (xf eProt 0x05) else none
    | .ctrl _ _ => some (xf eProt 0x05)
    | .reg _ => some (xf eProt 0x05)
    | _ => none

/-- An atomic or reduction (R290): its operands and the function code of its row. `dest` is none for a
reduction. -/
structure AtomicForm where
  fn : Nat
  wide : Bool
  signed : Bool
  scope : Nat
  va : Word
  b : Word
  t : Word
  hold : Taint
  dest : Option (BitVec 5)
  deriving DecidableEq, Repr

/-- An atomic or reduction leaves for the home of its location (R291, R293): the first takes a load tag
(R265), the second retires like a store. -/
def atomicOp (i : Instr) (q : Nat) (f : AtomicForm) (s : State) : State :=
  let n := if f.wide then 8 else 4
  if f.va.toNat % n ≠ 0 then s.trapAt q i eAlign 0 f.va
  else
    match resolve s (s.who q) f.va n .write with
    | (s1, .error e) =>
      if e.late ∧ f.dest = none then
        (s1.refuse q e.cause e.reason f.va).modSlot q Slot.advance
      else s1.accessFault q i e .write f.va
    | (s1, .ok l) =>
      match atomicPlace s1 l with
      | some e => s1.accessFault q i e .write f.va
      | none =>
        let x := s1.slot q
        let (s1, wd) := s1.widenFor (s1.who q) f.va
        let id := s1.nextId
        let s2 := ((s1.outstanding q id l.key).modSlot q fun x => x.countSent q l.key).useId
        let req (serial : Option Nat) : AtomicReq :=
          ⟨id, q, serial, f.fn, f.wide, f.signed, l.key, f.va, f.b, f.t, x.behind f.hold, x.pts, f.scope == 4, l.ord, wd⟩
        match f.dest with
        | some t =>
          let form : LoadForm := ⟨f.va, Taint.none, n, f.signed && !f.wide, .scalar t.toNat, .atomic (f.fn == 8), none⟩
          let r := form.record x ((encode i).getD 0) (id + 1) l none 0
          (s2.modSlot q fun x => (x.takeLoad r).advance).push (.homeAtomic (req (some x.nextSerial)))
        | none => (s2.modSlot q Slot.advance).push (.homeReduction (req none))

/-- An atomic that returns its old value (R291). -/
def atomicInstr (i : Instr) (fn : Nat) (wide signed useT : Bool) (t a b : BitVec 5) (k : BitVec 3)
    (s : State) : Result :=
  issue i s fun q s =>
    let x := s.slot q
    let hold := ((x.smask a).union (x.smask b)).union x.ctm
    .next (atomicOp i q
      ⟨fn, wide, signed, k.toNat, x.sreg a, x.sreg b, x.sreg t,
        if useT then hold.union (x.smask t) else hold, some t⟩ s)

/-- ASWAP (R291). -/
def execAswap (t a b : BitVec 5) (k : BitVec 3) (w : BitVec 1) (s : State) : Result :=
  atomicInstr (.aswap t a b k w) 0x00 (w == 1) false false t a b k s

/-- ACAS (R291). -/
def execAcas (t a b : BitVec 5) (k : BitVec 3) (w : BitVec 1) (s : State) : Result :=
  atomicInstr (.acas t a b k w) 0x01 (w == 1) false true t a b k s

/-- AADD (R291). -/
def execAadd (t a b : BitVec 5) (k : BitVec 3) (w : BitVec 1) (s : State) : Result :=
  atomicInstr (.aadd t a b k w) 0x02 (w == 1) false false t a b k s

/-- AAND (R291). -/
def execAand (t a b : BitVec 5) (k : BitVec 3) (w : BitVec 1) (s : State) : Result :=
  atomicInstr (.aand t a b k w) 0x03 (w == 1) false false t a b k s

/-- AOR (R291). -/
def execAor (t a b : BitVec 5) (k : BitVec 3) (w : BitVec 1) (s : State) : Result :=
  atomicInstr (.aor t a b k w) 0x04 (w == 1) false false t a b k s

/-- AXOR (R291). -/
def execAxor (t a b : BitVec 5) (k : BitVec 3) (w : BitVec 1) (s : State) : Result :=
  atomicInstr (.axor t a b k w) 0x05 (w == 1) false false t a b k s

/-- AMIN (R291). -/
def execAmin (t a b : BitVec 5) (k : BitVec 3) (w g : BitVec 1) (s : State) : Result :=
  atomicInstr (.amin t a b k w g) 0x06 (w == 1) (g == 1) false t a b k s

/-- AMAX (R291). -/
def execAmax (t a b : BitVec 5) (k : BitVec 3) (w g : BitVec 1) (s : State) : Result :=
  atomicInstr (.amax t a b k w g) 0x07 (w == 1) (g == 1) false t a b k s

/-- AFADD (R291). -/
def execAfadd (t a b : BitVec 5) (k : BitVec 3) (s : State) : Result :=
  atomicInstr (.afadd t a b k) 0x08 false false false t a b k s

/-- A reduction (R293). -/
def reduceInstr (i : Instr) (fn : Nat) (wide : Bool) (a b : BitVec 5) (k : BitVec 3) (s : State) : Result :=
  issue i s fun q s =>
    let x := s.slot q
    .next (atomicOp i q
      ⟨fn, wide, false, k.toNat, x.sreg a, x.sreg b, 0, ((x.smask a).union (x.smask b)).union x.ctm, none⟩ s)

/-- RADD (R293). -/
def execRadd (a b : BitVec 5) (k : BitVec 3) (w : BitVec 1) (s : State) : Result :=
  reduceInstr (.radd a b k w) 0x09 (w == 1) a b k s

/-- RFADD (R293). -/
def execRfadd (a b : BitVec 5) (k : BitVec 3) (s : State) : Result :=
  reduceInstr (.rfadd a b k) 0x0A false a b k s

/-! ### STN4 -/

/-- A byte with one nibble replaced (R294). -/
def setNibble (old : Byte) (high : Bool) (v : BitVec 4) : Byte :=
  if high then (old &&& 0x0F) ||| (v.setWidth 8 <<< 4) else (old &&& 0xF0) ||| v.setWidth 8

/-- STN4 (R281, R294): the byte at wrap64 (a + ⌊off / 2⌋), its nibble off mod 2. -/
def execStn4 (t a : BitVec 5) (o : BitVec 12) (s : State) : Result :=
  issue (.stn4 t a o) s fun q s =>
    let x := s.slot q
    let va := x.sreg a + (o.sshiftRight 1).signExtend 64
    let high := o.getLsbD 0
    let v : BitVec 4 := (x.sreg t).truncate 4
    let hold := x.holdS a t
    let i : Instr := .stn4 t a o
    match resolve s (s.who q) va 1 .write with
    | (s1, .error e) =>
      if e.late then .next ((s1.refuse q e.cause e.reason va).modSlot q Slot.advance)
      else .next (s1.accessFault q i e .write va)
    | (s1, .ok l) =>
      match homeOf l.key with
      | .host _ => .next (s1.accessFault q i (xf eProt 0x05) .write va)
      | .reg _ => .next (s1.trapAt q i eAlign 0 va)
      | .ctrl c p =>
        if x.satisfied hold && !x.joinsBefore s1.nextId then
          let old := BitVec.ofNat 8 (s1.ctrlRead c p 1)
          .next (ctrlStore s1 q i ⟨va, [setNibble old high v], hold, none⟩ c p)
        else .next s1
      | _ =>
        let (s2, wd) := s1.widenFor (s1.who q) va
        let id := s2.nextId
        .next (((((s2.outstanding q id l.key).modSlot q fun x => x.countSent q l.key).useId).modSlot q Slot.advance).push
          (.nibbleStoreAtHome ⟨id, q, l.key, va, wd, high, v, x.behind hold, x.pts, l.ord⟩))

end Sys2Proof.Machine
end

