-- ==== Sys2Proof/Machine/Scalar.lean ====
section
/-! DEFINITION. Scalar integer, immediate and pointer instructions: majors 0x01 to 0x0A (R149 to R153). -/

namespace Sys2Proof.Machine

/-- The union of the masks of scalar registers (R79). -/
def Slot.masks (x : Slot) (rs : List (BitVec 5)) : Taint :=
  rs.foldl (fun m r => m.union (x.smask r)) Taint.none

/-- An instruction that writes one scalar register from the slot's registers, with the union of its
operands' masks (R147). -/
def aluOp (i : Instr) (d : BitVec 5) (srcs : List (BitVec 5)) (f : Slot → Word) (s : State) : Result :=
  issue i s fun q s => complete q s fun x => x.setS d (f x) (x.masks srcs)

/-- A truth value as a register holds it. -/
def boolWord (b : Bool) : Word := if b then 1 else 0

/-- Signed quotient of R150. -/
def divS (a b : Word) : Word :=
  if b = 0 then BitVec.allOnes 64 else BitVec.ofInt 64 (Int.tdiv a.toInt b.toInt)

/-- Unsigned quotient of R150. -/
def divZ (a b : Word) : Word := if b = 0 then BitVec.allOnes 64 else BitVec.ofNat 64 (a.toNat / b.toNat)

/-- Signed remainder of R150. -/
def remS (a b : Word) : Word := if b = 0 then a else BitVec.ofInt 64 (Int.tmod a.toInt b.toInt)

/-- Unsigned remainder of R150. -/
def remZ (a b : Word) : Word := if b = 0 then a else BitVec.ofNat 64 (a.toNat % b.toNat)

/-- Leading zero bits among the n low bits. -/
def leadingZeros (a : Word) : Nat → Nat
  | 0 => 0
  | n + 1 => if a.getLsbD n then 0 else 1 + leadingZeros a n

/-- One bits among the n low bits. -/
def oneBits (a : Word) : Nat → Nat
  | 0 => 0
  | n + 1 => (if a.getLsbD n then 1 else 0) + oneBits a n

/-- EXT of a type 0x8 + t (R149). -/
def extend (t : BitVec 3) (a : Word) : Word :=
  match t.toNat with
  | 0 => (a.truncate 8).signExtend 64
  | 1 => (a.truncate 16).signExtend 64
  | 2 => (a.truncate 32).signExtend 64
  | 4 => (a.truncate 8).setWidth 64
  | 5 => (a.truncate 16).setWidth 64
  | 6 => (a.truncate 32).setWidth 64
  | _ => a

/-- ADD (R149). -/
def execAdd (d a b : BitVec 5) (s : State) : Result :=
  aluOp (.add d a b) d [a, b] (fun x => x.sreg a + x.sreg b) s

/-- SUB (R149). -/
def execSub (d a b : BitVec 5) (s : State) : Result :=
  aluOp (.sub d a b) d [a, b] (fun x => x.sreg a - x.sreg b) s

/-- MUL (R149). -/
def execMul (d a b : BitVec 5) (s : State) : Result :=
  aluOp (.mul d a b) d [a, b] (fun x => x.sreg a * x.sreg b) s

/-- MULH_S64 (R149). -/
def execMulhS64 (d a b : BitVec 5) (s : State) : Result :=
  aluOp (.mulhS64 d a b) d [a, b] (fun x => BitVec.ofInt 64 ((x.sreg a).toInt * (x.sreg b).toInt / 2 ^ 64)) s

/-- MULH_Z64 (R149). -/
def execMulhZ64 (d a b : BitVec 5) (s : State) : Result :=
  aluOp (.mulhZ64 d a b) d [a, b] (fun x => BitVec.ofNat 64 ((x.sreg a).toNat * (x.sreg b).toNat / 2 ^ 64)) s

/-- DIV_S64 (R150). -/
def execDivS64 (d a b : BitVec 5) (s : State) : Result :=
  aluOp (.divS64 d a b) d [a, b] (fun x => divS (x.sreg a) (x.sreg b)) s

/-- DIV_Z64 (R150). -/
def execDivZ64 (d a b : BitVec 5) (s : State) : Result :=
  aluOp (.divZ64 d a b) d [a, b] (fun x => divZ (x.sreg a) (x.sreg b)) s

/-- REM_S64 (R150). -/
def execRemS64 (d a b : BitVec 5) (s : State) : Result :=
  aluOp (.remS64 d a b) d [a, b] (fun x => remS (x.sreg a) (x.sreg b)) s

/-- REM_Z64 (R150). -/
def execRemZ64 (d a b : BitVec 5) (s : State) : Result :=
  aluOp (.remZ64 d a b) d [a, b] (fun x => remZ (x.sreg a) (x.sreg b)) s

/-- AND (R149). -/
def execAnd (d a b : BitVec 5) (s : State) : Result :=
  aluOp (.and d a b) d [a, b] (fun x => x.sreg a &&& x.sreg b) s

/-- OR (R149). -/
def execOr (d a b : BitVec 5) (s : State) : Result :=
  aluOp (.or d a b) d [a, b] (fun x => x.sreg a ||| x.sreg b) s

/-- XOR (R149). -/
def execXor (d a b : BitVec 5) (s : State) : Result :=
  aluOp (.xor d a b) d [a, b] (fun x => x.sreg a ^^^ x.sreg b) s

/-- SHL (R149). -/
def execShl (d a b : BitVec 5) (s : State) : Result :=
  aluOp (.shl d a b) d [a, b] (fun x => x.sreg a <<< ((x.sreg b).toNat % 64)) s

/-- SHR_Z64 (R149). -/
def execShrZ64 (d a b : BitVec 5) (s : State) : Result :=
  aluOp (.shrZ64 d a b) d [a, b] (fun x => x.sreg a >>> ((x.sreg b).toNat % 64)) s

/-- SHR_S64 (R149). -/
def execShrS64 (d a b : BitVec 5) (s : State) : Result :=
  aluOp (.shrS64 d a b) d [a, b] (fun x => (x.sreg a).sshiftRight ((x.sreg b).toNat % 64)) s

/-- MIN_S64 (R149). -/
def execMinS64 (d a b : BitVec 5) (s : State) : Result :=
  aluOp (.minS64 d a b) d [a, b] (fun x => if (x.sreg a).slt (x.sreg b) then x.sreg a else x.sreg b) s

/-- MAX_S64 (R149). -/
def execMaxS64 (d a b : BitVec 5) (s : State) : Result :=
  aluOp (.maxS64 d a b) d [a, b] (fun x => if (x.sreg a).slt (x.sreg b) then x.sreg b else x.sreg a) s

/-- SLT_S64 (R149). -/
def execSltS64 (d a b : BitVec 5) (s : State) : Result :=
  aluOp (.sltS64 d a b) d [a, b] (fun x => boolWord ((x.sreg a).slt (x.sreg b))) s

/-- SLT_Z64 (R149). -/
def execSltZ64 (d a b : BitVec 5) (s : State) : Result :=
  aluOp (.sltZ64 d a b) d [a, b] (fun x => boolWord ((x.sreg a).ult (x.sreg b))) s

/-- SEQ (R149). -/
def execSeq (d a b : BitVec 5) (s : State) : Result :=
  aluOp (.seq d a b) d [a, b] (fun x => boolWord (x.sreg a == x.sreg b)) s

/-- CLZ (R149). -/
def execClz (d a : BitVec 5) (s : State) : Result :=
  aluOp (.clz d a) d [a] (fun x => BitVec.ofNat 64 (leadingZeros (x.sreg a) 64)) s

/-- POPC (R149). -/
def execPopc (d a : BitVec 5) (s : State) : Result :=
  aluOp (.popc d a) d [a] (fun x => BitVec.ofNat 64 (oneBits (x.sreg a) 64)) s

/-- SEL (R149). -/
def execSel (d a b c : BitVec 5) (s : State) : Result :=
  aluOp (.sel d a b c) d [a, b, c] (fun x => if x.sreg c = 0 then x.sreg b else x.sreg a) s

/-- MADD (R149). -/
def execMadd (d a b c : BitVec 5) (s : State) : Result :=
  aluOp (.madd d a b c) d [a, b, c] (fun x => x.sreg a * x.sreg b + x.sreg c) s

/-- EXT (R149). -/
def execExt (d a : BitVec 5) (t : BitVec 3) (s : State) : Result :=
  aluOp (.ext d a t) d [a] (fun x => extend t (x.sreg a)) s

/-- ADDI (R151). -/
def execAddi (d a : BitVec 5) (i : BitVec 16) (s : State) : Result :=
  aluOp (.addi d a i) d [a] (fun x => x.sreg a + i.signExtend 64) s

/-- ANDI (R151). -/
def execAndi (d a : BitVec 5) (i : BitVec 16) (s : State) : Result :=
  aluOp (.andi d a i) d [a] (fun x => x.sreg a &&& i.setWidth 64) s

/-- ORI (R151). -/
def execOri (d a : BitVec 5) (i : BitVec 16) (s : State) : Result :=
  aluOp (.ori d a i) d [a] (fun x => x.sreg a ||| i.setWidth 64) s

/-- XORI (R151). -/
def execXori (d a : BitVec 5) (i : BitVec 16) (s : State) : Result :=
  aluOp (.xori d a i) d [a] (fun x => x.sreg a ^^^ i.setWidth 64) s

/-- SHLI (R151). -/
def execShli (d a : BitVec 5) (k : BitVec 6) (s : State) : Result :=
  aluOp (.shli d a k) d [a] (fun x => x.sreg a <<< k.toNat) s

/-- SHRI_Z64 (R151). -/
def execShriZ64 (d a : BitVec 5) (k : BitVec 6) (s : State) : Result :=
  aluOp (.shriZ64 d a k) d [a] (fun x => x.sreg a >>> k.toNat) s

/-- SHRI_S64 (R151). -/
def execShriS64 (d a : BitVec 5) (k : BitVec 6) (s : State) : Result :=
  aluOp (.shriS64 d a k) d [a] (fun x => (x.sreg a).sshiftRight k.toNat) s

/-- SLTI_S64 (R151). -/
def execSltiS64 (d a : BitVec 5) (i : BitVec 16) (s : State) : Result :=
  aluOp (.sltiS64 d a i) d [a] (fun x => boolWord ((x.sreg a).slt (i.signExtend 64))) s

/-- LI (R151). -/
def execLi (d : BitVec 5) (i : BitVec 21) (s : State) : Result :=
  aluOp (.li d i) d [] (fun _ => i.signExtend 64) s

/-- LSI (R151). -/
def execLsi (d : BitVec 5) (i : BitVec 16) (s : State) : Result :=
  aluOp (.lsi d i) d [d] (fun x => (x.sreg d <<< 16) ||| i.setWidth 64) s

/-- PSET (R152). -/
def execPset (p : BitVec 3) (a : BitVec 5) (s : State) : Result :=
  issue (.pset p a) s fun q s => complete q s fun x => x.setP p (x.sreg a) (x.smask a)

/-- PSTEP (R152). -/
def execPstep (p : BitVec 3) (a : BitVec 5) (s : State) : Result :=
  issue (.pstep p a) s fun q s => complete q s fun x =>
    (x.setStep p (x.sreg a)).setPmask p ((x.pmask p).union (x.smask a))

/-- PGET (R152). -/
def execPget (d : BitVec 5) (p : BitVec 3) (s : State) : Result :=
  issue (.pget d p) s fun q s => complete q s fun x => x.setS d (x.preg p) (x.pmask p)

/-- PADD (R152). -/
def execPadd (p : BitVec 3) (a : BitVec 5) (s : State) : Result :=
  issue (.padd p a) s fun q s => complete q s fun x =>
    x.setP p (x.preg p + x.sreg a) ((x.pmask p).union (x.smask a))

end Sys2Proof.Machine
end

