-- ==== Sys2Proof/Machine/ScalarFp.lean ====
section
/-! DEFINITION. Scalar FP32 instructions: major 0x0C (R156, R157). -/

namespace Sys2Proof.Machine

/-- The FP32 word in a scalar register (R147). -/
def Slot.f32 (x : Slot) (r : BitVec 5) : Nat := (x.sreg r).toNat % 2 ^ 32

/-- The value of the FP32 word in a scalar register. -/
def Slot.f32Val (x : Slot) (r : BitVec 5) : Val := FpFmt.f32.decode (x.f32 r)

/-- A scalar FP32 instruction that rounds (R156): one generator step where the mode is stochastic, the
result, its mask and the flags. -/
def fpRound (i : Instr) (d : BitVec 5) (srcs : List (BitVec 5)) (f : Rounding → Slot → Nat × BitVec 5)
    (s : State) : Result :=
  issue i s fun q s => complete q s fun x =>
    let r := f ((x.roundings 1).headD rne) x
    ((x.setS d (BitVec.ofNat 64 r.1) (x.masks srcs)).orFlags r.2).takeSteps 1

/-- A scalar FP32 instruction that does not round and sets no flag. -/
def fpPlain (i : Instr) (d : BitVec 5) (srcs : List (BitVec 5)) (f : Slot → Nat) (s : State) : Result :=
  issue i s fun q s => complete q s fun x => x.setS d (BitVec.ofNat 64 (f x)) (x.masks srcs)

/-- A sum of two exact values rounded to a format (R129, R133). -/
def FpFmt.addR (f : FpFmt) (md : Rounding) (a b : Val) : Nat × BitVec 5 :=
  let (v, fl) := Val.add md a b
  let (k, fl') := f.round md v
  (k, fl ||| fl')

/-- A product rounded to a format. -/
def FpFmt.mulR (f : FpFmt) (md : Rounding) (a b : Val) : Nat × BitVec 5 :=
  let (v, fl) := Val.mul a b
  let (k, fl') := f.round md v
  (k, fl ||| fl')

/-- A fused multiply-add rounded once to a format (R137). -/
def FpFmt.fmaR (f : FpFmt) (md : Rounding) (a b c : Val) : Nat × BitVec 5 :=
  let (v, fl) := Val.fma md a b c
  let (k, fl') := f.round md v
  (k, fl ||| fl')

/-- FXSE (R157). -/
def fxseCode (md : Rounding) : Val → Nat × BitVec 5
  | .nan => (0xFF, flagNV)
  | .inf _ => (0xFF, flagNV)
  | .fin neg mag =>
    if mag = 0 then (0, 0) else if neg then (0xFF, flagNV) else FpFmt.xs8.roundMag md false mag 1

/-- FADD (R156). -/
def execFadd (d a b : BitVec 5) (s : State) : Result :=
  fpRound (.fadd d a b) d [a, b]
    (fun md x => FpFmt.f32.addR md (x.f32Val a) (x.f32Val b)) s

/-- FSUB (R156). -/
def execFsub (d a b : BitVec 5) (s : State) : Result :=
  fpRound (.fsub d a b) d [a, b]
    (fun md x => FpFmt.f32.addR md (x.f32Val a) (x.f32Val b).neg) s

/-- FMUL (R156). -/
def execFmul (d a b : BitVec 5) (s : State) : Result :=
  fpRound (.fmul d a b) d [a, b]
    (fun md x => FpFmt.f32.mulR md (x.f32Val a) (x.f32Val b)) s

/-- FDIV (R156). -/
def execFdiv (d a b : BitVec 5) (s : State) : Result :=
  fpRound (.fdiv d a b) d [a, b]
    (fun md x => FpFmt.f32.div md (x.f32Val a) (x.f32Val b)) s

/-- FMIN (R156). -/
def execFmin (d a b : BitVec 5) (s : State) : Result :=
  fpPlain (.fmin d a b) d [a, b] (fun x => FpFmt.f32.minmax false (x.f32 a) (x.f32 b)) s

/-- FMAX (R156). -/
def execFmax (d a b : BitVec 5) (s : State) : Result :=
  fpPlain (.fmax d a b) d [a, b] (fun x => FpFmt.f32.minmax true (x.f32 a) (x.f32 b)) s

/-- FEQ (R156). -/
def execFeq (d a b : BitVec 5) (s : State) : Result :=
  fpPlain (.feq d a b) d [a, b] (fun x => ((x.f32Val a).eq (x.f32Val b)).toNat) s

/-- FLT (R156). -/
def execFlt (d a b : BitVec 5) (s : State) : Result :=
  fpPlain (.flt d a b) d [a, b] (fun x => ((x.f32Val a).lt (x.f32Val b)).toNat) s

/-- FLE (R156). -/
def execFle (d a b : BitVec 5) (s : State) : Result :=
  fpPlain (.fle d a b) d [a, b] (fun x => ((x.f32Val a).lt (x.f32Val b) || (x.f32Val a).eq (x.f32Val b)).toNat) s

/-- FMA (R156). -/
def execFma (d a b c : BitVec 5) (s : State) : Result :=
  fpRound (.fma d a b c) d [a, b, c]
    (fun md x => FpFmt.f32.fmaR md (x.f32Val a) (x.f32Val b) (x.f32Val c)) s

/-- FSQRT (R156). -/
def execFsqrt (d a : BitVec 5) (s : State) : Result :=
  fpRound (.fsqrt d a) d [a]
    (fun md x => FpFmt.f32.sqrt md (x.f32Val a)) s

/-- FABS (R156). -/
def execFabs (d a : BitVec 5) (s : State) : Result :=
  fpPlain (.fabs d a) d [a] (fun x => x.f32 a % 2 ^ 31) s

/-- FCVT.s64 (R130, R156). -/
def execFcvtS64 (d a : BitVec 5) (s : State) : Result :=
  fpRound (.fcvtS64 d a) d [a]
    (fun md x => let (z, fl) := Val.toInt md (intMin 64 true) (intMax 64 true) (x.f32Val a); (wrapTo 64 z, fl)) s

/-- FCVTI.s64 (R131, R156). -/
def execFcvtiS64 (d a : BitVec 5) (s : State) : Result :=
  fpRound (.fcvtiS64 d a) d [a]
    (fun md x => FpFmt.f32.round md (Val.ofInt (x.sreg a).toInt)) s

/-- FXSD (R157). -/
def execFxsd (d a : BitVec 5) (s : State) : Result :=
  fpPlain (.fxsd d a) d [a] (fun x => (FpFmt.f32.round rne (FpFmt.xs8.decode ((x.sreg a).toNat % 256))).1) s

/-- FXSE (R157). -/
def execFxse (d a : BitVec 5) (s : State) : Result :=
  fpRound (.fxse d a) d [a]
    (fun md x => fxseCode md (x.f32Val a)) s

end Sys2Proof.Machine
end

