-- ==== Sys2Proof/Machine/HomeEvents.lean ====
section
/-! DEFINITION. What happens to accesses after they leave the core: reads and writes at their homes
(R260, R261), atomics, reductions and nibble stores (R280 to R282, R291), summary widens (R218), the
completion of loads (R265) and releases (R271), acknowledgements and refusals (R285, R325). -/

namespace Sys2Proof.Machine

/-! ### Loads -/

/-- Whether a slot waits in a counter wait whose load has a number. -/
def Slot.waitsFor (x : Slot) (n : Nat) : Bool :=
  match x.wait with
  | some (.counter _ _ _ _ k) => k == n
  | _ => false

/-- A load answered with an abort (R284): it completes with its register poisoned, and a counter wait
ends with it (R371). -/
def State.abortLoad (s : State) (q n : Nat) : State :=
  (s.modSlot q fun x =>
    let y := x.fillLoad n fun l => { l with abort := true }
    if x.waitsFor n then { y.advance with state := .running, wait := none } else y).push (.loadCompletion q n)

/-- A load answered with its bytes and their write timestamp. -/
def State.answerLoad (s : State) (q n : Nat) (bs : List Byte) (wts : Nat) : State :=
  (s.modSlot q fun x => x.fillLoad n fun l => { l with data := some (leNat bs), wts := wts }).push
    (.loadCompletion q n)

/-- Whether another thread of the cluster still has bytes for a line of another package under way, which
must reach it before the line is read (R263, R280). -/
def State.clusterOut (s : State) (c q key : Nat) : Bool :=
  s.outWrites.any fun w => clusterOf w.thread == c && w.thread != q && w.line == key / 128

/-- A read of a line of another package (R261): from the cluster's copy while its lease holds, or its constant cache
(R259), else by a read request for the whole line. (DESIGN CHOICE: log entry 9.) -/
def State.farRead (s : State) (q : Nat) (l : LoadRec) (p o : Nat) : State :=
  let x := s.slot q
  let line := l.key / 128 * 128
  let ask (s : State) : State :=
    s.farSend { farRequest s q (some l.serial) 0 p (o / 128 * 128) tyRead true false
      [BitVec.ofNat 64 x.pts, BitVec.ofNat 64 (o % 128), BitVec.ofNat 64 l.size] with va := l.origin.va }
  if l.const then
    match s.constPair (clusterOf q) x.ctx line with
    | (s1, some bs) => s1.answerLoad q l.serial (s1.overlay q l.before l.key ((bs.drop (l.key % 128)).take l.size)) 0
    | (s1, none) => ask s1
  else
  match findAt s.copies (copyKey (clusterOf q) (line / 128)) with
  | some k =>
    let (s1, evicted) := s.coin
    if s1.copyServes (clusterOf q) k x.pts ∧ !evicted then
      s1.answerLoad q l.serial (s1.overlay q l.before l.key ((k.data.drop (l.key % 128)).take l.size)) k.wts
    else ask s1
  | none => ask s

/-- Whether an older store of the thread to bytes that a load reads is still held by loads (R267): the load must not
see its bytes before those loads complete (R269). -/
def State.heldOver (s : State) (q : Nat) (l : LoadRec) : Bool :=
  s.pairHolds q l.key || s.dirty.any fun w =>
    w.thread == q && decide (w.id < l.before) && !(s.slot q).clearOf w.hold && decide (w.key < l.key + l.size) &&
      decide (l.key < w.key + w.data.length)

/-- Whether a load reads bytes of its thread that its cluster's cache has lost (R410). -/
def State.readsLost (s : State) (q : Nat) (l : LoadRec) : Bool :=
  s.dirty.any fun w =>
    w.lost && w.thread == q && decide (w.id < l.before) && decide (w.key < l.key + l.size) &&
      decide (l.key < w.key + w.data.length)

/-- The slot as it was before a load that must trap at itself (R285). (DEDUCED: log entry 81.) -/
def Slot.unissue (x : Slot) (l : LoadRec) : Slot :=
  let y := { x.dropLoad l.serial with pc := l.origin.pc, repst := l.origin.repst }
  let z := match l.dest with
    | .scalar r => y.setSmask (BitVec.ofNat 5 r) l.origin.mask
    | .vector r => y.setVmask (BitVec.ofNat 5 r) l.origin.mask
  match l.origin.undo with
  | some (p, v) => z.setP p v (z.pmask p)
  | none => z

/-- Whether a load that is not answered must still wait before it reads its home: for a write of its thread to the line that
precedes it and is unacknowledged (R308) or held (R269), for an earlier load of the thread of the same location (R276
condition 1), or for an EGET before it (R192, R279). -/
def State.loadWaits (s : State) (q : Nat) (l : LoadRec) : Bool :=
  s.lineOut q l.key l.before || s.heldOver q l || (s.slot q).joinsBefore l.before ||
    (s.slot q).loads.any fun k =>
      decide (k.serial < l.serial) && k.data.isNone && !k.abort && locsMeet k.key k.size l.key l.size

/-- A load or atomic whose answer is a refusal traps at itself (R285, R418). (DEDUCED: log entry 81.) -/
def State.loadRefused (s : State) (q n : Nat) (cause : BitVec 8) : State :=
  match (s.slot q).loads.find? fun l => l.serial == n with
  | some l =>
    (s.modSlot q fun x => x.unissue l).deliver q ⟨cause, 0, l.origin.pc, l.origin.word, l.origin.va, none, false⟩
  | none => s

/-- SLICE_READ (R261, R263, R264, R308): a load reads its location at its home, behind the dirty bytes that other threads of
its cluster hold of the line. At a home that was fenced meanwhile it traps at itself (R418).
(DEDUCED: log entry 4.) -/
def execSliceRead (q n : Nat) (s : State) : Result :=
  let x := s.slot q
  match x.loads.find? fun l => l.serial == n with
  | none => .next s
  | some l =>
    if l.data.isSome ∨ l.abort then .next s
    else if s.loadWaits q l then .next (s.push (.sliceRead q n))
    else if s.readsLost q l then .next (s.abortLoad q n)
    else if s.homeFenced x.ctx l.key then .next (s.loadRefused q n eFenced)
    else
      let s1 := s.drainLine (clusterOf q) q l.key
      if s1.lineDirty (clusterOf q) q l.key then .next (s1.push (.sliceRead q n))
      else
        match homeOf l.key with
        | .far p o =>
          if s1.clusterOut (clusterOf q) q l.key then .next (s1.push (.sliceRead q n)) else .next (s1.farRead q l p o)
        | _ =>
          match s1.readAtHome q l with
          | (s2, some (bs, w)) => .next (s2.answerLoad q n bs w)
          | (s2, none) => .next (s2.abortLoad q n)

/-- The slot with the status of a counter operation in CSTAT, where no later one has written it (R362). -/
def Slot.setStatus (x : Slot) (l : LoadRec) : Slot :=
  if x.cstatOf ≤ l.serial then { x with cstat := l.status, cstatOf := l.serial } else x

/-- The slot with the value of a completed load in its register, whose mask stays (R265, R284, R291,
R370). -/
def Slot.landLoad (x : Slot) (l : LoadRec) : Slot :=
  let v := l.data.getD 0
  let w := 8 * l.size
  let val : Word := BitVec.ofNat 64 (if l.sext then wrapTo 64 (toSigned w v) else v)
  let y :=
    if l.abort then
      match l.dest with
      | .scalar r => { x with poison := putAt x.poison r true }
      | .vector r => { x with poison := putAt x.poison (32 + r) true }
    else
      match l.dest with
      | .scalar r => x.setS (BitVec.ofNat 5 r) val (x.smask (BitVec.ofNat 5 r))
      | .vector r => x.setV (BitVec.ofNat 5 r) (BitVec.ofNat 1024 v) (x.vmask (BitVec.ofNat 5 r))
  match l.kind, l.abort with
  | .addOld _, false => y.setStatus l
  | .wait _, false => y.setStatus l
  | _, _ => y

/-- LOAD_COMPLETION (R265): the value is written, pts rises to the timestamp of what was read, wherever it stands, so that
what is ordered after the load is (R261, R272, R275 row 2, R468), and the tag is free. (DEDUCED: log entry 4.) -/
def execLoadCompletion (q n : Nat) (s : State) : Result :=
  match (s.slot q).loads.find? fun l => l.serial == n with
  | none => .next s
  | some l =>
    let s1 := s.modSlot q fun x =>
      let y := ((x.landLoad l).dropLoad n).orFlags l.flags
      { y with pts := max y.pts l.wts }.dropSatisfied
    .next (s1.flushHeld q)

/-! ### Stores -/

/-- Whether a write of a thread is still outstanding: it goes with its thread (R417). -/
def State.isOut (s : State) (q id : Nat) : Bool := s.outWrites.any fun w => w.id == id && w.thread == q

/-- SLICE_WRITE (R261): a store or a drain is performed at its home. -/
def execSliceWrite (w : WriteReq) (s : State) : Result :=
  if s.isOut w.thread w.id then .next (s.applyWrite w) else .next s

/-- The command of a slot that waits for the acknowledgement of a write. -/
def Slot.sender (x : Slot) (id : Nat) : Option RingEntry := (x.ring.find? fun e => e.2.sent.contains id).map (·.2)

/-- WRITE_ACK (R261, R271, R308): the home has performed a write of a thread. -/
def execWriteAck (q id wts : Nat) (s : State) : Result :=
  if s.isOut q id then .next ((s.acked q id wts).flushHeld q) else .next s

/-- DIRTY_DRAIN_TIMEOUT (R263): dirty bytes drain by themselves. (DEDUCED: log entry 8.) -/
def execDirtyDrainTimeout (id : Nat) (s : State) : Result :=
  match s.dirty.find? fun w => w.id == id with
  | none => .next s
  | some w => if s.canSend w then .next (s.sendDirty w) else .next (s.push (.dirtyDrainTimeout id))

/-- An FP32 pattern rounded to BF16 for a summary (R218, R224): down for the minimum, up for the
maximum; a NaN gives −∞ and +∞. -/
def summaryBounds (fmt pat : Nat) : Nat × Nat :=
  match (fmtOfTy (BitVec.ofNat 4 fmt)).decode pat with
  | .nan => (0xFF80, 0x7F80)
  | v => ((FpFmt.bf16.round ⟨2, 0⟩ v).1, (FpFmt.bf16.round ⟨3, 0⟩ v).1)

/-- One widen of a channel of a summary (R218), by a store with a write timestamp (R468): the timestamps of the two words
are in the answer. -/
def State.widenOne (s : State) (summary c : Nat) (b : Nat × Nat) (pts : Nat) : State × Nat :=
  let kmin := summary + 2 * c
  let kmax := summary + 256 + 2 * c
  let old (k : Nat) : Nat := leNat (s.mem.readBytes k 2)
  if s.anyBad kmin 2 then (s.detect none kmin 2, pts)
  else if s.anyBad kmax 2 then (s.detect none kmax 2, pts)
  else
    let (s1, w) := s.homeApply kmin pts (natBytes (FpFmt.bf16.minmax false (old kmin) b.1) 2)
    let (s2, v) := s1.homeApply kmax pts (natBytes (FpFmt.bf16.minmax true (old kmax) b.2) 2)
    (s2, max pts (max w v))

/-- The widens of a store applied one after another (R218), and the greatest timestamp of the store and its widens. -/
def State.widenAll (s : State) (es : List (Widen × Nat × Nat)) (wts : Nat) : State × Nat :=
  es.foldl (fun (p : State × Nat) e =>
    let (s1, w) := p.1.widenOne e.1.summary e.2.1 (summaryBounds e.1.fmt e.2.2) wts
    (s1, max p.2 w)) (s, wts)

/-- SUMMARY_WIDEN (R218): the slice of the summary applies the widens of a store, and the store is
acknowledged, to the command whose store it was where it was one's. (DEDUCED: log entry 70.) -/
def execSummaryWiden (r : WidenReq) (s : State) : Result :=
  let (s1, w) := s.widenAll r.elems r.wts
  .next (s1.push (.writeAck r.thread r.id w))

/-! ### Atomics, reductions and nibble stores -/

/-- `atomic` of R291 on patterns of w bits: the new pattern, where one is written, and the flags. -/
def atomicNew (fn w : Nat) (sgn : Bool) (old b t : Nat) : Option Nat × BitVec 5 :=
  let bw := b % 2 ^ w
  match fn with
  | 0 => (some bw, 0)
  | 1 => (if old = t % 2 ^ w then some bw else none, 0)
  | 2 => (some ((old + bw) % 2 ^ w), 0)
  | 3 => (some (Nat.land old bw), 0)
  | 4 => (some (Nat.lor old bw), 0)
  | 5 => (some (Nat.xor old bw), 0)
  | 6 => (some (if intOf w sgn old ≤ intOf w sgn bw then old else bw), 0)
  | 7 => (some (if intOf w sgn bw ≤ intOf w sgn old then old else bw), 0)
  | 9 => (some ((old + bw) % 2 ^ w), 0)
  | _ =>
    let (v, fl) := FpFmt.f32.addR rne (FpFmt.f32.decode old) (FpFmt.f32.decode bw)
    (some v, fl)

/-- A read-modify-write at a home in this package (R280): the old value, its timestamp and the flags. An
ACAS that fails is a read. -/
def State.rmwAt (s : State) (key pts fn : Nat) (wide sgn : Bool) (b t : Nat) : State × Nat × Nat × BitVec 5 :=
  let n := if wide then 8 else 4
  let old := leNat (s.mem.readBytes key n)
  match atomicNew fn (8 * n) sgn old b t with
  | (some v, fl) =>
    let (s1, w) := s.homeApply key pts (natBytes v n)
    (s1, old, w, fl)
  | (none, fl) =>
    match homeOf key with
    | .dram o =>
      let (s1, w, _) := s.sliceLease o pts
      (s1, old, w, fl)
    | _ => (s, old, s.tsOver key n, fl)

/-- An atomic or reduction of a thread done: the old value goes back, or only the acknowledgement. AFADD
reports the flags of its addition when its register is written. A changed key widens its summary first (R212, R218).
(DEDUCED: log entry 70.) -/
def State.rmwDone (s : State) (q : Nat) (serial : Option Nat) (id key n : Nat) (widen : List Widen) (old wts : Nat)
    (fl : BitVec 5) : State :=
  let s1 := match serial with
    | some k =>
      (s.modSlot q fun x => x.fillLoad k fun l => { l with data := some old, wts := wts, flags := fl }).push
        (.loadCompletion q k)
    | none => s
  s1.ackOrWiden q id key n widen wts

/-- An atomic or reduction whose home withholds its data (R284): an abort completion, or an error of
which its thread is the consumer. -/
def State.rmwLost (s : State) (r : AtomicReq) : State :=
  let s1 := match r.serial with
    | some n => (s.detect (some r.thread) r.key (if r.wide then 8 else 4)).abortLoad r.thread n
    | none => s.storeLost r.thread r.key (if r.wide then 8 else 4) r.va
  s1.push (.writeAck r.thread r.id 0)

/-- The word that names the operation of an atomic in its packet. -/
def atomicCode (r : AtomicReq) : Word :=
  BitVec.ofNat 64 (r.fn + (if r.wide then 2 ^ 8 else 0) + (if r.signed then 2 ^ 9 else 0))

/-- The proxy queue of a granule (R332). (DESIGN CHOICE: log entry 58.) -/
def proxyQueue (a : Nat) : Nat :=
  Nat.xor (Nat.xor (a / 8 % 16) (a / 128 % 16)) (Nat.xor (a / 2048 % 16) (a / 32768 % 16))

/-- Whether a thread's read-modify-write must still wait at the NI: taint (R267), the thread's older
accesses to the line (R275, R308), and its own dirty bytes (R280). -/
def State.rmwWaits (s : State) (q id key n : Nat) (hold : List Nat) : Bool :=
  !s.mayGo q id key n hold ||
    (s.dirty.any fun w => w.thread == q && w.key / 128 == key / 128 && decide (w.id < id))

/-- An atomic or reduction at the home of its location (R280, R282, R291 to R293, R321, R332). `ev` is
the step itself, which is due again while it must wait. -/
def homeRmw (ev : Event) (r : AtomicReq) (s : State) : State :=
  let q := r.thread
  if !s.isOut q r.id then s
  else if s.rmwWaits q r.id r.key (if r.wide then 8 else 4) r.hold then (s.drainThread q).push ev
  else
    let s1 := s.drainLine (clusterOf q) q r.key
    let pts := s.heldPts q r.hold r.pts
    if s1.lineDirty (clusterOf q) q r.key then s1.push ev
    else
    match homeOf r.key with
    | .far p o =>
      if s1.clusterOut (clusterOf q) q r.key then s1.push ev
      else
        let merge := r.serial.isNone && r.domain && !r.ordered
        s1.farSend { farRequest s1 q r.serial r.id p o (if merge then tyReduce else tyAtomic)
          (r.serial.isSome || r.ordered) r.serial.isNone
          [atomicCode r, r.b, r.t, BitVec.ofNat 64 pts] with va := r.va }
    | .host a =>
      let d := dieOf (clusterOf q)
      let k := proxyQueue a
      { s1 with proxies := putAt s1.proxies (16 * d + k) (getAt [] s1.proxies (16 * d + k) ++ [{ r with pts := pts }]) }.push
        (.proxyAtomic d k)
    | _ =>
      if s1.homeFenced (s1.slot q).ctx r.key then
        match r.serial with
        | some n => (s1.push (.writeAck q r.id 0)).loadRefused q n eFenced
        | none => (s1.refuse q eFenced 0 r.va).push (.writeAck q r.id 0)
      else if s1.anyBad r.key (if r.wide then 8 else 4) then s1.rmwLost r
      else
        let (s2, old, w, fl) := s1.rmwAt r.key pts r.fn r.wide r.signed r.b.toNat r.t.toNat
        s2.rmwDone q r.serial r.id r.key (if r.wide then 8 else 4) r.widen old w (if r.fn = 8 then fl else 0)

/-- HOME_ATOMIC (R291). -/
def execHomeAtomic (r : AtomicReq) (s : State) : Result := .next (homeRmw (.homeAtomic r) r s)

/-- HOME_REDUCTION (R282, R293). -/
def execHomeReduction (r : AtomicReq) (s : State) : Result := .next (homeRmw (.homeReduction r) r s)

/-- The function code with which a nibble store to another package travels: 0x20, or 0x21 for the high
nibble. -/
def nibbleFn (high : Bool) : Nat := if high then 0x21 else 0x20

/-- A nibble written at a home in this package (R281): the other nibble stays. -/
def State.nibbleAt (s : State) (key pts : Nat) (high : Bool) (v : BitVec 4) : State × Nat :=
  s.homeApply key pts [setNibble (s.mem.read key) high v]

/-- NIBBLE_STORE_AT_HOME (R281): one nibble of a byte is written and the other kept, in one step. -/
def execNibbleStoreAtHome (r : NibbleReq) (s : State) : Result :=
  let q := r.thread
  let ev : Event := .nibbleStoreAtHome r
  if !s.isOut q r.id then .next s
  else if s.rmwWaits q r.id r.key 1 r.hold then .next ((s.drainThread q).push ev)
  else
    let s1 := s.drainLine (clusterOf q) q r.key
    let pts := s.heldPts q r.hold r.pts
    if s1.lineDirty (clusterOf q) q r.key then .next (s1.push ev)
    else
    match homeOf r.key with
    | .far p o =>
      if s1.clusterOut (clusterOf q) q r.key then .next (s1.push ev)
      else
        .next (s1.farSend { farRequest s1 q none r.id p o tyAtomic r.ordered true
          [BitVec.ofNat 64 (nibbleFn r.high), r.value.setWidth 64, 0, BitVec.ofNat 64 pts] with va := r.va })
    | _ =>
      if s1.homeFenced (s1.slot q).ctx r.key then .next ((s1.refuse q eFenced 0 r.va).push (.writeAck q r.id 0))
      else if s1.anyBad r.key 1 then .next ((s1.storeLost q r.key 1 r.va).push (.writeAck q r.id 0))
      else
        let (s2, w) := s1.nibbleAt r.key pts r.high r.value
        .next ((s2.dropCopy (clusterOf q) r.key).ackOrWiden q r.id r.key 1 r.widen w)

/-! ### Releases -/

/-- The key and size of a release's own write and the loads that hold it. -/
def actWrite : ReleaseAct → Nat × Nat × List Nat
  | .store w => (w.key, w.data.length, w.hold)
  | .add r => (r.key, 16, r.hold)
  | .register w => (regKey w.offset, 8, [])

/-- The state without a thread's outstanding write. -/
def State.notOut (s : State) (q id : Nat) : State :=
  { s with outWrites := s.outWrites.filter fun w => !(w.id == id && w.thread == q) }

/-- A release's own write made visible, with the pts its thread holds now (R468). -/
def State.performAct (s : State) (q id : Nat) (act : ReleaseAct) : State :=
  let pts := (s.slot q).pts
  match act with
  | .store w =>
    let w := { w with pts := pts }
    let s1 := s.notOut q id
    if atOnce q w.key then s1.applyNear w else s1.sendWrite w
  | .add r => (s.modSlot q fun x => x.countSent q r.key).push (.counterAddAtHome { r with pts := pts })
  | .register w =>
    (s.modSlot q fun x => x.countSent q (regKey w.offset)).push (.registerWrite { w with pts := pts })

/-- A release of a slot is complete (R271, R288). -/
def Slot.releaseDone (x : Slot) : Slot := { x with relDone := x.relDone + 1 }.clearTouched

/-- The load that a release's own write answers, which goes when the release traps. -/
def actSerial : ReleaseAct → Option Nat
  | .add r => r.serial
  | _ => none

/-- RELEASE_COMPLETE (R271, R285, R288): a release whose waits are met performs its own write; a
refused write of the thread traps here instead. (DEDUCED: log entry 11.) -/
def execReleaseComplete (r : Release) (s : State) : Result :=
  let q := r.thread
  if !s.isOut q r.before then .next s
  else
    let s1 := s.drainThread q
    let x := s1.slot q
    let (key, n, hold) := actWrite r.act
    if !(s1.relReady q r.scope r.num r.before && s1.mayGo q r.before key n hold) then
      .next (s1.push (.releaseComplete r))
    else
      match x.nak with
      | some n =>
        let s2 := (s1.notOut q r.before).modSlot q fun x =>
          let y := match actSerial r.act with | some k => x.dropLoad k | none => x
          { y.releaseDone with nak := none }
        .next (s2.openWord.1.push (.trapDelivery q ⟨n.1, n.2.1, x.pc, s2.openWord.2.truncate 32, n.2.2, none, false⟩))
      | none => .next ((s1.performAct q r.before r.act).modSlot q Slot.releaseDone)

/-! ### Other packages and time -/

/-- Cycles in which a request must be answered: 1 ms of the core clock (R6, R325). (DEDUCED: log entry 72.) -/
def ackLimit : Nat := 1700000

/-- The record of a NOTIFY add that faulted (R364, R413): the context, the place of the task and the counter. -/
def State.notifyFailed (s : State) (x place : Nat) (cause reason : BitVec 8) (va : Word) : State :=
  s.record { ErrRec.ofKind 0x09 with
    cause := cause.toNat, reason := reason.toNat, ctx := some x, place := place, addr := va, data0 := va }

/-- A request of the hub refused: a line that it asked for will not come, a hop stays with its sender (R346),
and a merged group is refused to its contributors (R330). -/
def State.hubRefused (s : State) (r : FarReq) (reason : Nat) : State :=
  let s0 := match r.report with
    | some (x, place) => s.notifyFailed x place (nakCause reason).cause (nakCause reason).reason r.va
    | none => s
  let s1 := (s0.orphanAnswered r.tag 0).answerGroup r.tag tyNak [BitVec.ofNat 64 reason]
  let s2 := if r.store then s1 else { s1 with hubLines := putAt s1.hubLines r.id (0, [BitVec.ofNat 8 reason]) }
  s2.pushAll ((s2.hopping.filter fun h => h.target == clusterCount + r.tag).map .hopAccept)

/-- The identifier of a command's read of a line of another package, but for its sequence number. -/
def engRead0 : Nat := 2 ^ 48

/-- That of a read through the constant cache. -/
def engReadConst : Nat := 2 ^ 48 + 4096

/-- A line of another package, or the reason why it is refused, joins the lines of the command that asked for it; a
constant line joins the cluster's constant cache (R259). -/
def State.lineArrives (s : State) (q id key : Nat) (bs : List Byte) (wts : Nat) : State :=
  let s1 := if engReadConst ≤ id ∧ bs.length = 128 then s.constKeepPair (clusterOf q) (s.slot q).ctx key bs else s
  s1.modSlot q fun x =>
    match x.entry (id % 4096) with
    | some e => x.setEntry { e with lines := e.lines ++ [(key, bs)], pts := max e.pts wts }
    | none => x

/-- A request to another package refused (R285, R314, R325). A load or atomic traps at itself, or with
reason ABORT completes with an abort; a store or reduction is kept for the thread's next release; a
command's read or write faults the command; a fetch traps at the word. (DEDUCED: log entry 72.) -/
def State.farRefused (s : State) (tag reason : Nat) : State :=
  match s.farReqs.find? fun r => r.tag == tag with
  | none => s
  | some r =>
    let s1 := s.farDone r
    match r.thread with
    | none => s1.hubRefused r reason
    | some q =>
      let cause := if reason = 4 then eFenced else eFab
      match r.serial with
      | some n =>
        let s2 := if s1.isOut q r.id then s1.push (.writeAck q r.id 0) else s1
        if reason = 5 then s2.abortLoad q n else s2.loadRefused q n cause
      | none =>
        if r.store then
          let s2 := s1.push (.writeAck q r.id 0)
          match (s.slot q).sender r.id with
          | some e =>
            s2.pushNext (if reason = 5 then .engineFault q e.seq eAbort 0x02 r.va else .engineFault q e.seq cause 0 r.va)
          | none => if reason = 5 then s2.consumeLate q r.va else s2.refuse q cause 0 r.va
        else if engRead0 ≤ r.id then s1.lineArrives q r.id r.va.toNat [BitVec.ofNat 8 reason] 0
        else if r.id = 1 then
          { s1 with hubLines := putAt s1.hubLines (ownKey q r.va.toNat) (0, [BitVec.ofNat 8 reason]) }
        else if r.id = 2 ∨ va57 (s.slot q).pc ≠ r.va ∨ (s.slot q).state ≠ .running then s1
        else if reason = 5 ∧ !((s.reg (rctlOff (s.slot q).ctx)).getLsbD 0 ∧ (s.slot q).level = 0) then s1.fenceFor q 0x01
        else
          s1.openWord.1.deliver q ⟨if reason = 5 then eAbort else cause, if reason = 5 then 0x02 else 0,
            (s.slot q).pc, s1.openWord.2.truncate 32, r.va, none, false⟩

/-- NAK_RECEIVED (R285, R314). (DEDUCED: log entry 81.) -/
def execNakReceived (tag reason : Nat) (s : State) : Result := .next (s.farRefused tag reason)

/-- ACK_TIMEOUT (R325): a request that nothing has answered within 1 ms is answered NOROUTE by the NI.
(DEDUCED: log entry 72.) -/
def execAckTimeout (tag : Nat) (s : State) : Result :=
  match s.farReqs.find? fun r => r.tag == tag with
  | none => .next s
  | some r =>
    if s.cycle - r.sent < ackLimit then .next (s.push (.ackTimeout tag)) else .next (s.farRefused tag 1)

/-- PTS_TICK (R262): every thread's pts rises by one for each 64 cycles, as they end. (DEDUCED: log entry 69.) -/
def execPtsTick (s : State) : Result :=
  if s.cycle < 64 * (s.ticks + 1) then .next (s.push .ptsTick)
  else
    .next (State.push { s with
      ticks := s.ticks + 1,
      slots := s.slots.map (fun e => (e.1,
        if e.2.state = .free then e.2
        else { e.2 with
          pts := e.2.pts + 1,
          ring := e.2.ring.map fun r => (r.1, { r.2 with pts := r.2.pts + 1 }) })) } .ptsTick)

end Sys2Proof.Machine
end

