-- ==== Sys2Proof/Machine/Fabric.lean ====
section
/-! DEFINITION. The Llynsy ports and what the hub keeps for them (R309, R315 to R335, R433): replay, failures and
exclusion, routing tables, reduction windows, proxies, management packets and notices. -/

namespace Sys2Proof.Machine

/-- Routers of the package, in the order of the escape ring: die, quadrant, router index (R15, R309), 16 in each of four
quadrants of eight dies. -/
def ringSize : Nat := 512

/-- A packet of the escape channel at the next router of the ring: ESC.B from router 0 of quadrant 0 of CD0 on (R309).
(DEDUCED: log entry 78.) -/
def NetPacket.along (p : NetPacket) (now : Nat) : NetPacket :=
  let r := (p.site + 1) % ringSize
  { p with site := r, escape := some (p.escape.getD false || r == 0), since := now }

/-- ESCAPE_TIMEOUT (R309): a packet that has stood at the head of a request or response channel for 2,048 cycles moves
to the escape channel, where it enters on ESC.A; one that is in it goes on along the ring until it is delivered, and
keeps its class and its traffic class. (DEDUCED: log entry 78.) -/
def execEscapeTimeout (n : Nat) (s : State) : Result :=
  match findAt s.net n with
  | none => .next s
  | some p =>
    match p.escape with
    | none =>
      if p.vclass < 2 ∧ 2048 ≤ s.cycle - p.since then
        .next (State.push { s with net := putAt s.net n { p with escape := some false, since := s.cycle } }
          (.escapeTimeout n))
      else .next (s.push (.escapeTimeout n))
    | some _ =>
      if p.site = p.goal then .next { s with net := delAt s.net n }
      else .next (State.push { s with net := putAt s.net n (p.along s.cycle) } (.escapeTimeout n))

/-! ### Links (R315, R326, R432) -/

/-- LINK_REPLAY (R315): the peer of port p asks for the flits from link sequence n on, and so has those before it. The
fifth request in succession from one flit is the fourth replay that failed, and the port fails (R326).
(DESIGN CHOICE: log entry 46.) -/
def execLinkReplay (p n : Nat) (s : State) : Result :=
  let kept := getAt [] s.replay p
  let first := getAt 0 s.txSeq p - kept.length
  let from_ : List (Nat × Flit) := kept.drop (n - first)
  let v := s.reg (portstatOff p)
  let asks := match findAt s.txAsk p with
    | some (m, k) => if m = n then k + 1 else 1
    | none => 1
  let s1 := { s with
    flitsOut := s.flitsOut ++ from_.map (fun (e : Nat × Flit) => (p, e.2)), replay := putAt s.replay p from_,
    txAsk := putAt s.txAsk p (n, asks) }.setReg (portstatOff p)
    (withField v 63 40 (min (fieldOf v 63 40 + 1) (2 ^ 24 - 1)))
  .next (if 5 ≤ asks then s1.pushNext (.portFailure p 3) else s1)

/-- Whether a request expects an ack or a NAK (R325): not a response, a notice or a peer's report. -/
def wantsAnswer (f : Flit) : Bool :=
  f.type == tyWrite || f.type == tyRead || f.type == tyAtomic || f.type == tyReduce || (f.type == tyMessage && f.addr != 2)

/-- A flit refused by this node (R314): a NAK toward its source, where one is expected. -/
def State.nakFlit (s : State) (f : Flit) (reason : Nat) : State :=
  if wantsAnswer f then s.answer f tyNak [BitVec.ofNat 64 reason] else s

/-- A flit routed by table t (R318): forwarded, or refused with NOROUTE. A reduce packet without the ordered
flag passes the reduction engine of its port (R329). -/
def State.forward (s : State) (t : Nat) (f : Flit) : State :=
  match s.routeOn t f.dst.toNat f.path.toNat with
  | some (p, port) =>
    let g := { f with path := BitVec.ofNat 2 p }
    if f.type = tyReduce ∧ !f.ord ∧ port ≠ 0x3F then s.pushNext (.reducePacketAtPort (t, port) g) else s.emit t port g
  | none => s.nakFlit f 1

/-- The nodes whose path x leaves through a port in any table (R326 step 3). -/
def State.nodesThrough (s : State) (port x : Nat) : List Nat :=
  (List.range 16384).filter fun n =>
    (List.range 49).any fun t =>
      let e := s.activeRte t n
      s.pathValid e n x && rtePort e x == port

/-- Destinations of one exclusion flit: 29 payload words of the bitmap (R326 step 4). -/
def exclusionSpan : Nat := 29 * 64

/-- The exclusion packets of a failed port, nine for each path; the hub applies them as any node does. -/
def State.excludeThrough (s : State) (port : Nat) : State :=
  let flood := s.nextId
  { s with nextId := flood + 1 }.pushAll ([0, 1, 2, 3].flatMap fun x =>
    let ds := s.nodesThrough port x
    (List.range 9).map fun k =>
      .exclusionPacket s.nodeId (16 * flood + k) x (ds.filter fun d => decide (d / exclusionSpan = k)))

/-- Word 1 of a notice about a port (R432). -/
def portWord (s : State) (p cause : Nat) : Nat :=
  let v := s.reg (portstatOff p)
  fieldOf v 35 30 * 2 ^ 30 + fieldOf v 29 16 * 2 ^ 16 + cause * 2 ^ 8 + p

/-- A packet that a failed port had accepted, on its way again by the table of its ingress and the rewritten path (R318,
R326); where no path is left its sender is refused. -/
def State.resend (s : State) (table : Nat) (f : Flit) : State :=
  match s.routeOn table f.dst.toNat f.path.toNat with
  | some (x, port) => s.emit table port { f with path := BitVec.ofNat 2 x }
  | none => if f.src.toNat = s.nodeId ∧ wantsAnswer f then s.push (.nakReceived f.tag.toNat 1) else s.nakFlit f 1

/-- PORT_FAILURE (R326): the port is down, what its peer has not taken leaves again on other paths, as do
the packets that its reduction engine holds, unmerged (R329); the exclusion bitmaps are flooded and FMNODE learns of it. How much the peer had taken is open.
(DESIGN CHOICE: log entry 46.) -/
def execPortFailure (p cause : Nat) (s : State) : Result :=
  let v := s.reg (portstatOff p)
  if !v.getLsbD 0 then .next s
  else
    let kept := getAt [] s.replay p
    let taken := Config.choice s.choices % (kept.length + 1)
    let s1 := State.setReg { s with
      choices := s.choices + 1, replay := delAt s.replay p, portQueue := delAt s.portQueue p,
      rxAsk := delAt s.rxAsk p, txAsk := delAt s.txAsk p } (portstatOff p)
      (withField (withField v 1 0 2) 3 2 cause)
    let s2 := (kept.drop taken).foldl (fun (s : State) e => s.resend e.1 e.2) s1
    let groups := s2.held.filter fun (g : HeldGroup) => g.port == p && g.tag.isNone
    let s3 := groups.foldl (fun (s : State) g => g.flits.foldl (fun (s : State) f => s.resend g.table f) s)
      { s2 with held := s2.held.filter fun (g : HeldGroup) => !(g.port == p && g.tag.isNone) }
    .next ((s3.excludeThrough p).notice 1 (portWord s3 p cause))

/-- The payload words of one exclusion flit. (DESIGN CHOICE: log entry 44.) -/
def exclusionWords (k : Nat) (dests : List Nat) : List Word :=
  (List.range 29).map fun i =>
    dests.foldl (fun w d => if d / 64 = 29 * k + i then w ||| BitVec.twoPow 64 (d % 64) else w) 0

/-- EXCLUSION_PACKET (R326): a bitmap is applied once, and flooded on. -/
def execExclusionPacket (node id path : Nat) (dests : List Nat) (s : State) : Result :=
  let mark := (node, 4 * id + path)
  if s.floods.contains mark then .next s
  else
    let s1 := { s with
      floods := mark :: s.floods,
      excluded := dests.foldl (fun m d => putAt m (16384 * path + d) true) s.excluded }
    .next ((List.range 48).foldl (fun (s : State) p =>
      if s.portOpen p then
        s.emit 48 p
          { dst := BitVec.ofNat 14 (fieldOf (s.reg (portstatOff p)) 29 16), src := BitVec.ofNat 14 s.nodeId,
            pkey := BitVec.ofNat 16 (fieldOf (s.reg fmkeyOff) 15 0), type := tyExclusion, path := 0, ord := false,
            tc := 0, hops := 0, vclass := 2, len := 29, addr := BitVec.ofNat 52 (node * 2 ^ 38 + 4 * id + path),
            payload := exclusionWords (id % 16) dests, tag := 0, crc := 0 }
      else s) s1)

/-- PORT_UP (R326, R334, R432): a port has trained; one that is up again after a failure is reported.
(DESIGN CHOICE: log entry 46.) -/
def execPortUp (p : Nat) (node : BitVec 14) (port : BitVec 6) (s : State) : Result :=
  let v := s.reg (portstatOff p)
  if v.getLsbD 0 then .next s
  else
    let s1 := State.setReg { s with
      replay := delAt s.replay p, txSeq := delAt s.txSeq p, rxSeq := delAt s.rxSeq p, portQueue := delAt s.portQueue p,
      rxAsk := delAt s.rxAsk p, txAsk := delAt s.txAsk p } (portstatOff p) (withField (withField (withField v 0 0 1) 29 16 node.toNat) 35 30 port.toNat)
    .next (if fieldOf v 3 2 = 0 then s1 else s1.notice 2 (portWord s1 p 0))

/-! ### Routing tables (R319, R320) -/

/-- WREJ of a table set. -/
def State.writeRejected (s : State) (t : Nat) : State := s.setReg (rtctlOff t) (s.reg (rtctlOff t) ||| 4)

/-- Whether an entry has a valid path whose port is 0x30 to 0x3E. -/
def rteBad (v : BitVec 32) : Bool :=
  [0, 1, 2, 3].any fun p => v.getLsbD (28 + p) && decide (0x30 ≤ rtePort v p) && rtePort v p != 0x3F

/-- A routing entry written (R319, R320): only in the bank that is not active, and only one that names no absent port.
(DEDUCED: log entry 83.) -/
def State.routeWrite (s : State) (t b n : Nat) (v : BitVec 32) : State :=
  if rteBad v ∨ fieldOf (s.reg (rtctlOff t)) 0 0 = b then s.writeRejected t else s.setRte t b n (v &&& 0xF0FFFFFF)

/-- ROUTING_ENTRY_WRITE (R319, R320). (DEDUCED: log entry 83.) -/
def execRoutingEntryWrite (t b n : Nat) (v : BitVec 32) (s : State) : Result := .next (s.routeWrite t b n v)

/-- ROUTING_SWAP (R320): the other bank is active; at table 48 the exclusion state is cleared (R324). -/
def execRoutingSwap (t : Nat) (s : State) : Result :=
  let v := s.reg (rtctlOff t)
  if v.getLsbD 1 then .next s
  else
    let s1 := (s.setReg (rtctlOff t) ((v ^^^ 1) ||| 2)).push (.routingSwapComplete t)
    .next (if t = 48 then { s1 with excluded := [] } else s1)

/-- ROUTING_SWAP_COMPLETE (R320): every lookup under the old bank has finished. -/
def execRoutingSwapComplete (t : Nat) (s : State) : Result :=
  .next (s.setReg (rtctlOff t) (s.reg (rtctlOff t) &&& ~~~2))

/-! ### Reduction windows (R328 to R330) -/

/-- The bit of the operation word of a packet that carries a group's sums: its word 1 has a bit for each 4-byte half of
the granule that has a sum, and nine words from word 4 and nine from word 13 hold the sums. (DESIGN CHOICE: log entry
45.) -/
def groupBit : Nat := 2 ^ 10

/-- A word of a packet's payload as a number. -/
def flitNat (f : Flit) (i : Nat) : Nat := (f.payload.getD i 0).toNat

/-- Whether a packet carries a group's sums. -/
def isGroup (f : Flit) : Bool := flitNat f 0 / groupBit % 2 = 1

/-- Whether a reduce packet adds to a half of its granule; an 8-byte addend counts as one for half 0. -/
def hasLane (f : Flit) (i : Nat) : Bool :=
  if isGroup f then (flitNat f 1).testBit i else f.addr.toNat / 4 % 2 == i

/-- The nine words of a packet for a half of its granule. -/
def laneWords (f : Flit) (i : Nat) : List Word := (f.payload.drop (4 + 9 * i)).take 9

/-- An addend of RFADD for a half, exactly: an FP32 pattern, or the sum that an earlier engine formed, in units of
2^−149. -/
def addendVal (f : Flit) (i : Nat) : Val :=
  if !isGroup f then FpFmt.f32.decode (flitNat f 1 % 2 ^ 32)
  else
    match (laneWords f i).head? with
    | some 0 => .fin false (leNat (((laneWords f i).drop 1).flatMap wordBytes) * 2 ^ 491)
    | some 1 => .fin true (leNat (((laneWords f i).drop 1).flatMap wordBytes) * 2 ^ 491)
    | some 2 => .inf false
    | some 3 => .inf true
    | _ => .nan

/-- An addend of RADD for a half. -/
def addendInt (f : Flit) (i : Nat) : Nat := if isGroup f then ((laneWords f i).getD 1 0).toNat else flitNat f 1

/-- The exact sum of a group's addends for a half (R329, R137). (DEDUCED: log entry 45.) -/
def groupVal (fs : List Flit) (i : Nat) : Val :=
  match fs.filter fun f => hasLane f i with
  | [] => .fin false 0
  | f :: t => t.foldl (fun v g => (Val.add rne v (addendVal g i)).1) (addendVal f i)

/-- The sum of a group's addends for a half, wrapped to the width (R329). -/
def groupInt (fs : List Flit) (w i : Nat) : Nat :=
  ((fs.filter fun f => hasLane f i).foldl (fun n f => n + addendInt f i) 0) % 2 ^ w

/-- The words that carry an exact sum. -/
def valWords : Val → List Word
  | .nan => 4 :: List.replicate 8 0
  | .inf neg => (if neg then 3 else 2) :: List.replicate 8 0
  | .fin neg mag => (if neg then 1 else 0) :: bytesWords (natBytes (mag / 2 ^ 491) 64)

/-- The nine words that carry a group's sum for a half. -/
def sumWords (op : Nat) (fs : List Flit) (i : Nat) : List Word :=
  if op = 2 then valWords (groupVal fs i)
  else [0, BitVec.ofNat 64 (groupInt fs (if op = 1 then 64 else 32) i)] ++ List.replicate 7 0

/-- The payload of a merged packet. (DEDUCED: log entry 45.) -/
def groupPayload (op : Nat) (fs : List Flit) : List Word :=
  let mask := (if fs.any fun f => hasLane f 0 then 1 else 0) + (if fs.any fun f => hasLane f 1 then 2 else 0)
  let code := ((fs.map fun f => flitNat f 0).headD 0) % groupBit
  let pts := fs.foldl (fun p f => max p (flitNat f 3)) 0
  [BitVec.ofNat 64 (code + groupBit), BitVec.ofNat 64 mask, 0, BitVec.ofNat 64 pts] ++ sumWords op fs 0 ++ sumWords op fs 1

/-- OP of a reduce packet, coded as in RWIN (R328); none for what is no RADD or RFADD. -/
def reduceOp (f : Flit) : Option Nat :=
  let c := flitNat f 0
  match c % 256 with
  | 9 => some (if c / 256 % 2 = 1 then 1 else 0)
  | 10 => some 2
  | _ => none

/-- The lowest window that a packet matches (R328, R329). -/
def State.windowFor (s : State) (f : Flit) : Option Nat :=
  (List.range 16).find? fun w =>
    let w0 := s.reg (rwinOff w 0)
    let base := fieldOf (s.reg (rwinOff w 1)) 51 0
    w0.getLsbD 63 && fieldOf w0 15 0 == f.pkey.toNat && reduceOp f == some (fieldOf w0 62 61) &&
      decide (base ≤ f.addr.toNat) && decide (f.addr.toNat < base + fieldOf (s.reg (rwinOff w 2)) 41 0)

/-- A held group leaves its port (R329): a group of one as the packet it is, a larger one as a single reduce
packet of this node's, which its home answers here (R330). (DEDUCED: log entry 45.) -/
def State.sendGroup (s : State) (g : HeldGroup) : State :=
  let s1 := { s with held := s.held.erase g }
  match g.flits with
  | [] => s1
  | [f] => s1.emit g.table g.port f
  | f :: t =>
    let tag := s1.nextTag
    let payload := groupPayload g.op g.flits
    let req : FarReq :=
      { tag := tag, thread := none, serial := none, id := 0, path := f.path.toNat, dst := f.dst.toNat, ord := false,
        store := true, va := 0, sent := s1.cycle }
    let h := { f with
      src := BitVec.ofNat 14 s1.nodeId, addr := BitVec.ofNat 52 g.addr, payload := payload, len := payload.length,
      tag := BitVec.ofNat 32 tag,
      hops := t.foldl (fun n f => if n.toNat < f.hops.toNat then f.hops else n) f.hops }
    State.push (State.emit { s1 with
      nextTag := (tag + 1) % 2 ^ 32, farReqs := s1.farReqs ++ [req],
      held := s1.held ++ [{ g with tag := some tag }] } 48 g.port h) (.ackTimeout tag)

/-- The granule at which a reduce packet adds (R329). -/
def granuleOf (f : Flit) : Nat := f.addr.toNat / 8 * 8

/-- The number that names a group at its port: its granule, its operation, its destination and its key.
(DEDUCED: log entry 45.) -/
def groupNumber (granule op : Nat) (f : Flit) : Nat := ((granule * 4 + op) * 2 ^ 14 + f.dst.toNat) * 2 ^ 16 + f.pkey.toNat

/-- The number of a held group. -/
def HeldGroup.number (g : HeldGroup) : Nat :=
  match g.flits with
  | f :: _ => groupNumber g.addr g.op f
  | [] => 0

/-- REDUCE_PACKET_AT_PORT (R329): a packet that matches a window joins the group of its granule, operation, destination and
key, or opens one; any other passes unmerged. The place p is the table of its ingress and the output port.
(DEDUCED: log entry 45.) -/
def execReducePacketAtPort (p : Nat × Nat) (f : Flit) (s : State) : Result :=
  match (if f.ord then none else s.windowFor f) with
  | none => .next (s.emit p.1 p.2 f)
  | some w =>
    let op := (reduceOp f).getD 0
    let mine := s.held.filter fun g => g.port == p.2 && g.tag.isNone
    match mine.find? fun g => g.number == groupNumber (granuleOf f) op f with
    | some g =>
      let g1 := { g with flits := g.flits ++ [f] }
      let m := s.reg (rwinOff w 3)
      let s1 := State.setReg { s with held := s.held.map fun h => if h = g then g1 else h } (rwinOff w 3) (m + 1)
      .next (if 64 ≤ g1.flits.length then s1.sendGroup g1 else s1)
    | none =>
      if 256 ≤ mine.length then .next (s.emit p.1 p.2 f)
      else
        let g : HeldGroup :=
          { port := p.2, table := p.1, window := w, addr := granuleOf f, op := op, flits := [f], since := s.cycle, tag := none }
        .next (State.push { s with held := s.held ++ [g] } (.reductionHoldExpiry p.2 g.number))

/-- REDUCTION_HOLD_EXPIRY (R328, R329): a group held for HOLD leaves. -/
def execReductionHoldExpiry (p n : Nat) (s : State) : Result :=
  match s.held.find? fun g => g.port == p && g.tag.isNone && g.number == n with
  | none => .next s
  | some g =>
    if s.cycle - g.since < 16 * fieldOf (s.reg (rwinOff g.window 0)) 60 52 then .next (s.push (.reductionHoldExpiry p n))
    else .next (s.sendGroup g)

/-- The bits of a word of RWIN that can be written (R328). -/
def rwinMask (i : Nat) : Word :=
  match i with
  | 0 => 0xFFF000000000FFFF
  | 1 => 0x000FFFFFFFFFFFFF
  | 2 => 0x000003FFFFFFFFFF
  | _ => 0

/-- RWIN_WRITE (R328, R335): ignored while VALID is 1 unless it clears VALID, which forwards every held group.
At S the entry's key must be the context's. (DEDUCED: log entry 48.) -/
def execRwinWrite (w i : Nat) (v : Word) (h : Half) (level ctx : Nat) (s : State) : Result :=
  let old := s.reg (rwinOff w i)
  let new := mergeHalf old v h &&& rwinMask i
  let valid := (s.reg (rwinOff w 0)).getLsbD 63
  let key := fieldOf (if i = 0 then new else s.reg (rwinOff w 0)) 15 0
  if i = 3 ∨ (level ≠ 2 ∧ key ≠ s.pkey ctx) then .next s
  else if valid ∧ !(i = 0 ∧ !new.getLsbD 63) then .next s
  else
    let s1 := s.setReg (rwinOff w i) new
    .next (if valid then (s1.held.filter fun g => g.window == w && g.tag.isNone).foldl (fun s g => s.sendGroup g) s1 else s1)

/-! ### Proxies (R332) -/

/-- The place of a die's proxy, where it has one and its cluster is not fenced. -/
def State.proxyAt (s : State) (d : Nat) : Option Nat :=
  let v := fieldOf (s.reg (proxyplOff d)) 15 0
  if v = 0xFFFF ∨ s.fencedCluster (placeCluster (BitVec.ofNat 16 v)) then none else some v

/-- An atomic that its die's proxy cannot perform completes with E_FENCED at its requester. -/
def State.proxyRefused (s : State) (r : AtomicReq) : State :=
  match r.serial with
  | some n => (s.push (.writeAck r.thread r.id 0)).loadRefused r.thread n eFenced
  | none => (s.refuse r.thread eFenced 0 r.va).push (.writeAck r.thread r.id 0)

/-- PROXY_ATOMIC (R332): the first atomic of a queue is performed on host memory. (DESIGN CHOICE: log entry 58.) -/
def execProxyAtomic (d k : Nat) (s : State) : Result :=
  match getAt [] s.proxies (16 * d + k) with
  | [] => .next s
  | r :: t =>
    let s1 := { s with proxies := if t = [] then delAt s.proxies (16 * d + k) else putAt s.proxies (16 * d + k) t }
    if !s1.isOut r.thread r.id then .next s1
    else
      match s1.proxyAt d with
      | none => .next (s1.proxyRefused r)
      | some _ =>
        let (s2, old, w, fl) := s1.rmwAt r.key r.pts r.fn r.wide r.signed r.b.toNat r.t.toNat
        .next (s2.rmwDone r.thread r.serial r.id r.key (if r.wide then 8 else 4) r.widen old w (if r.fn = 8 then fl else 0))

/-! ### The fabric manager (R335, R433) -/

/-- Whether a management packet may write a register: of the recovery block FNACK alone (R414).
(DEDUCED: log entry 80.) -/
def managerWrites (o : Nat) : Bool :=
  match regBlock o with
  | some (.recov, r) => r == 0x30
  | _ => true

/-- MANAGEMENT_PACKET (R335): a packet of the fabric manager with its key reads or writes a register as level
M may, a write at once, and is answered; any other is dropped and counted. The payload is an operation (0 read, 1 write,
2 and 3 a write of the low or the high half), the register's offset and the value.
(DEDUCED, DESIGN CHOICE: log entries 44, 47.) -/
def execManagementPacket (p : Nat) (f : Flit) (s : State) : Result :=
  let fm := s.reg fmnodeOff
  if !fm.getLsbD 31 ∨ fieldOf fm 13 0 ≠ f.src.toNat ∨ fieldOf (s.reg fmkeyOff) 15 0 ≠ f.pkey.toNat then
    .next (if p < 48 then s.keyViolation p else s)
  else
    let op := (f.payload.getD 0 0).toNat
    let o := (f.payload.getD 1 0).toNat / 8 * 8
    let v := f.payload.getD 2 0
    let reply (s : State) (v : Word) : State :=
      s.sendPlain
        { dst := f.src, src := BitVec.ofNat 14 s.nodeId, pkey := f.pkey, type := tyManagement, path := 0, ord := false,
          tc := f.tc, hops := 0, vclass := 2, len := 3, addr := f.addr,
          payload := [BitVec.ofNat 64 op, BitVec.ofNat 64 o, v], tag := f.tag, crc := 0 }
    if op = 0 then
      let (s1, r) := s.regRead o .both
      .next (reply s1 r)
    else if op ≤ 3 ∧ regExists o ∧ managerWrites o then
      let h : Half := if op = 1 then .both else if op = 2 then .lo else .hi
      .next ((reply s v).pushNext (.registerWrite
        { id := 0, agent := .manager, level := 2, ctx := 0, offset := o, half := h, value := v, pts := 0 }))
    else .next (reply s 0)

/-- NOTICE_RESEND (R433): a notice not acknowledged is sent again every 64 µs, up to 16 sends.
(DEDUCED: log entry 80.) -/
def execNoticeResend (n : Nat) (s : State) : Result :=
  match s.notices.find? fun m => m.seq.toNat == n with
  | none => .next s
  | some m =>
    if 16 ≤ m.sends then .next { s with notices := s.notices.filter (· ≠ m) }
    else if s.hubNs < (m.words.getD 2 0).toNat + 64000 * m.sends then .next (s.push (.noticeResend n))
    else
      .next ((State.managementFlit { s with
        notices := s.notices.map fun k => if k = m then { m with sends := m.sends + 1 } else k } m.words).push
        (.noticeResend n))

/-- FNACK_WRITE (R433). -/
def execFnackWrite (n : BitVec 16) (s : State) : Result :=
  .next { s with notices := s.notices.filter fun m => m.seq ≠ n }

end Sys2Proof.Machine
end

