-- ==== Sys2Proof/Machine/Tile.lean ====
section
/-! DEFINITION. The tile class directory (R210 to R213) and the writes that engines and channel arrivals
make at homes. -/

namespace Sys2Proof.Machine

/-- Element i of a packed run of elements of w bits (R120), whose bytes form the number n. -/
def packedElem (w n i : Nat) : Nat := n / 2 ^ (w * i) % 2 ^ w

/-- The encoding of 1 in a format for the IDENT class (R211). -/
def identOne (f : Nat) : Nat :=
  match f with
  | 0 => 0x3F800000 | 1 => 0x3C00 | 2 => 0x3F80 | 3 => 0x38 | 4 => 0x3C | 6 => 0x2 | _ => 1

/-- The formats whose granules may be CONST or IDENT (R211). -/
def classFmt (f : Nat) : Bool := decide (f ≤ 4) || f == 6 || f == 8 || f == 9 || f == 10 || f == 11

/-- `ident` of R211. -/
def identGranule (n f g : Nat) : Bool :=
  let w := fmtBits f
  let rows := 8192 / (32 * w)
  (List.range (32 * rows)).all fun i =>
    packedElem w n i == (if i % 32 = (g * rows + i / 32) % 32 then identOne f else 0)

/-- Whether an element of a format is an infinity or a NaN (R118). -/
def nonFinite (f e : Nat) : Bool :=
  if f ≤ 6 then
    match (fmtOfTy (BitVec.ofNat 4 f)).decode e with
    | .fin _ _ => false
    | _ => true
  else false

/-- `classify_full` of R211: the entry of granule g for its 1,024 bytes. -/
def classifyFull (d : List Byte) (f g : Nat) : BitVec 7 :=
  let n := leNat d
  let w := fmtBits f
  let count := 8192 / w
  let z := d.all (· == (if f = 7 then 0x88 else 0))
  let cls : Nat :=
    if z then 1
    else if classFmt f && identGranule n f g then 3
    else if classFmt f && ((List.range count).all fun i => packedElem w n i == packedElem w n 0) then 2
    else 0
  let nf := if f = 15 then !z else (List.range count).any fun i => nonFinite f (packedElem w n i)
  BitVec.ofNat 7 ((if nf then 64 else 0) + f % 16 * 4 + cls)

/-- One piece of an engine write within a granule: a whole granule is classified, a part is a partial
store (R211, R212). -/
def State.padWrite (s : State) (tile off : Nat) (bs : List Byte) (tag : Nat) : State :=
  let s1 := { s with mem := s.mem.writeBytes (padKey tile off) bs }
  if bs.length = 1024 ∧ off % 1024 = 0 then s1.setTcd tile (off / 1024) (classifyFull bs tag (off / 1024))
  else s1.tcdStore tile off bs

/-- The state with the timestamps of a written run: at a slice every line gets a write timestamp above its leases,
elsewhere every location the writer's pts (R261, R468). The result is the greatest. -/
def State.stampRun (s : State) (key n pts : Nat) : State × Nat :=
  match homeOf key with
  | .dram _ =>
    (List.range ((key + n + 127) / 128 - key / 128)).foldl
      (fun p i =>
        let (s1, w) := p.1.sliceStamp (128 * (key / 128 + i)) pts
        (s1, max p.2 w))
      (s, pts)
  | _ => (s.stampLocs key n pts, pts)

/-- A run of bytes written at homes in this package by an engine or an arrival, with its format tag
(R211, R277): the greatest write timestamp it received. -/
def State.bulkWrite (s : State) (key : Nat) (bs : List Byte) (tag pts : Nat) : State × Nat :=
  let (s1, w) := s.stampRun key bs.length pts
  match homeOf key with
  | .pad t off =>
    (((splitGranules off bs).foldl (fun s p => s.padWrite t p.2.1 p.2.2 tag) s1).recheck key bs.length, w)
  | _ => ({ s1 with mem := s1.mem.writeBytes key bs }.recheck key bs.length, w)

end Sys2Proof.Machine
end

