-- ==== Sys2Proof/Machine/HostPort.lean ====
section
/-! DEFINITION. The writes that register space performs (R438) and the requests of the host die (R440). -/

namespace Sys2Proof.Machine

/-! ### Register writes -/

/-- Some bits of a register set to those of a value. -/
def State.setBits (s : State) (o : Nat) (mask v : Word) : State := s.setReg o ((s.reg o &&& ~~~mask) ||| (v &&& mask))

/-- A ring-control register (R344, R379, R414): HEAD and the other fields of `mask`, and SIZE where it is in
range. (DEDUCED: log entry 64.) -/
def State.setRing (s : State) (o : Nat) (mask v : Word) (top : Nat) : State :=
  let s1 := s.setBits o mask v
  if fieldOf v 4 0 ≤ top then s1.setReg o (withField (s1.reg o) 4 0 (fieldOf v 4 0)) else s1

/-- A write to the scheduling block (R344 to R353). -/
def schedWrite (r : RegWrite) (k : Nat) (s : State) : State :=
  let full := mergeHalf (s.reg r.offset) r.value r.half
  let m := r.level == 2
  let low := halfReaches r.half false
  let ring (n : Nat) : State :=
    if low then s.pushNext (.doorbell n (BitVec.ofNat 32 (mergeHalf 0 r.value r.half).toNat) r.pts) else s
  if 0x1000000 ≤ k then
    if k % 0x10000 = 0 then ring ((k - 0x1000000) / 0x10000) else s
  else if k < 0x2000 then
    if k % 0x80 = 0 then s.pushNext (.grctlWrite (k / 0x80) full)
    else if k % 0x80 = 0x38 then s.setRing r.offset 0xFFFFFFFF00000000 full 16
    else s.regPlain r.offset m r.value r.half
  else if k < 0x6000 then
    let n := (k - 0x2000) / 0x40
    if k % 0x40 = 0x08 then s.pushNext (.queueControlWrite n r.value r.half r.level)
    else if k % 0x40 = 0x18 then ring n
    else s.regPlain r.offset m r.value r.half
  else if k = 0x6008 then
    if low ∧ 10000 ≤ fieldOf full 31 0 then s.setBits r.offset 0xFFFFFFFF full else s
  else s.regPlain r.offset m r.value r.half

/-- A write to the isolation block (R378, R396). -/
def isoWrite (r : RegWrite) (k : Nat) (s : State) : State :=
  let full := mergeHalf (s.reg r.offset) r.value r.half
  let low := halfReaches r.half false
  let x := k / 0x100
  let f := mergeHalf 0 r.value r.half
  if k < 0x4000 then
    let j := k % 0x100
    if j = 0 then s.pushNext (.cctlWrite x r.value r.half r.level)
    else if j = 0x28 then s.setRing r.offset 0xFFFFFFFF0000FF00 full 12
    else if 0x40 ≤ j ∧ j < 0x80 then s.pushNext (.caldWrite x ((j - 0x40) / 8) r.value r.half)
    else if j = 0xA8 then if low ∧ f.getLsbD 0 then s.pushNext (.attestGo x) else s
    else s.regPlain r.offset (r.level == 2) r.value r.half
  else if 0x10000 ≤ k ∧ k < 0x10200 then
    let i := (k - 0x10000) / 8
    let who := if r.level = 2 then fieldOf f 29 24 else r.ctx
    if !low then s
    else if f.getLsbD 16 then s.pushNext (.fresFail (i / 8) (i % 8) who (fieldOf f 15 0))
    else s.pushNext (.fresRetry (i / 8) (i % 8) who (fieldOf f 15 0))
  else s.regPlain r.offset (r.level == 2) r.value r.half

/-- The fences and restarts that a write to FCMD asks for (R414). (DEDUCED: log entry 64.) -/
def fcmdEvents (x : Nat) (v : Word) : List Event :=
  ((List.range 8).filter v.getLsbD).map (Event.fcmdFence x) ++
    ((List.range 8).filter fun i => v.getLsbD (8 + i)).map (Event.fcmdRestart x)

/-- A write to the recovery block (R414, R415). (DEDUCED: log entry 64.) -/
def recovWrite (r : RegWrite) (k : Nat) (s : State) : State :=
  let full := mergeHalf (s.reg r.offset) r.value r.half
  let low := halfReaches r.half false
  let m := r.level == 2
  let f := mergeHalf 0 r.value r.half
  if k = 0x08 then if m then s.setRing r.offset 0xFFFFFFFF00000000 full 16 else s
  else if k = 0x20 then if m then (s.setReg r.offset (full &&& 0x00FFFFFFFFFFFF80)).pushNext (.errheal full) else s
  else if k = 0x30 then if low then s.pushNext (.fnackWrite (BitVec.ofNat 16 (fieldOf f 15 0))) else s
  else if 0x10000 ≤ k ∧ k < 0x12000 then
    let x := (k - 0x10000) / 0x80
    let j := k % 0x80
    if j = 0x10 then if low then s.pushAll (fcmdEvents x f) else s
    else if j = 0x18 then
      let c := s.reg (cctlOff x)
      if !m then s
      else if c.getLsbD 0 ∨ c.getLsbD 2 then s.setBits r.offset 0x70 full
      else s.setBits r.offset 0x71 full
    else if j = 0x48 then
      let z := fieldOf full 4 0
      let held := s.slots.any fun e => e.2.state == .saved && e.2.ctx == x
      if held ∨ !(z = 0 ∨ (8 ≤ z ∧ z ≤ 24)) then s else s.setBits r.offset 0x1F full
    else s.regPlain r.offset m r.value r.half
  else s.regPlain r.offset m r.value r.half

/-- A write to the management block (R442). (DESIGN CHOICE: log entry 67.) -/
def mgmtWrite (r : RegWrite) (k : Nat) (s : State) : State :=
  let full := mergeHalf (s.reg r.offset) r.value r.half
  let low := halfReaches r.half false
  if k = 0x08 then if low ∧ (mergeHalf 0 r.value r.half).getLsbD 0 then s.pushNext .packageReset else s
  else if k = 0x20 then
    let v := fieldOf full 12 0
    if low ∧ 2000 ≤ v ∧ v ≤ 6000 then s.setBits r.offset 0x1FFF full else s
  else if 0x100 ≤ k ∧ k < 0x180 ∧ k % 0x10 = 0 then
    let v := fieldOf full 9 0
    if low ∧ 200 ≤ v ∧ v ≤ 500 then s.setBits r.offset 0x3FF full else s
  else s.regPlain r.offset true r.value r.half

/-- A write to the fabric block (R319, R320, R328, R333). (DEDUCED: log entry 83.) -/
def fabricWrite (r : RegWrite) (k : Nat) (s : State) : State :=
  let low := halfReaches r.half false
  let f := mergeHalf 0 r.value r.half
  if 0x400 ≤ k ∧ k < 0x588 then
    let t := (k - 0x400) / 8
    let s1 := if f.getLsbD 2 then s.setReg r.offset (s.reg r.offset &&& ~~~4) else s
    if low ∧ f.getLsbD 1 then s1.pushNext (.routingSwap t) else s1
  else if 0x1000 ≤ k ∧ k < 0x1200 then
    s.pushNext (.rwinWrite ((k - 0x1000) / 0x20) (k % 0x20 / 8) r.value r.half r.level r.ctx)
  else if 0x100000 ≤ k then
    let t := (k - 0x100000) / 0x20000
    let b := (k - 0x100000) / 0x10000 % 2
    let n := (k - 0x100000) % 0x10000 / 4
    let lo := BitVec.ofNat 32 (fieldOf f 31 0)
    if halfReaches r.half true then
      (if low then s.routeWrite t b n lo else s).pushNext
        (.routingEntryWrite t b (n + 1) (BitVec.ofNat 32 (fieldOf f 63 32)))
    else s.pushNext (.routingEntryWrite t b n lo)
  else s.regPlain r.offset (r.level == 2) r.value r.half

/-- A write to a register by its block: plain fields change at once, and an action that it starts is the next
step (R438). (DEDUCED: log entry 64.) -/
def State.regWrite (s : State) (r : RegWrite) : State :=
  match regBlock r.offset with
  | some (.pkg, _) => s
  | some (.fabric, k) => fabricWrite r k s
  | some (.sched, k) => schedWrite r k s
  | some (.iso, k) => isoWrite r k s
  | some (.recov, k) => recovWrite r k s
  | some (.mgmt, k) => mgmtWrite r k s
  | none => s

/-- The pending start of a slot of the time-triggered table that has begun already (R353): a write to an entry takes effect
after it. -/
def State.slotBegun (s : State) : Option Nat :=
  if (s.reg ttctlOff).getLsbD 0 then
    s.agenda.findIdx? fun e => match e with
      | .ttSlotStart k => decide (k ≤ s.ttNow)
      | _ => false
  else none

/-- REGISTER_WRITE (R438, R468): a write performed at the management controller, with its writer's timestamp; a
thread's is acknowledged. -/
def execRegisterWrite (r : RegWrite) (s : State) : Result :=
  match (if ttentOff 0 0 ≤ r.offset ∧ r.offset < ttentOff 256 0 then s.slotBegun else none) with
  | some n => .next { s.push (.registerWrite r) with focus := some (.event n) }
  | none =>
  let s1 := s.stampLocs (regKey r.offset) 8 r.pts
  let s2 := match r.agent with
    | .slot q => s1.push (.writeAck q r.id r.pts)
    | _ => s1
  .next (s2.regWrite r)

/-! ### The host die (R440) -/

/-- Dirty bytes of a line drain before the host reads or updates it (R263, R440). -/
def State.drainAll (s : State) (key n : Nat) : State :=
  (s.dirty.filter fun w => decide (w.key < key + n) && decide (key < w.key + w.data.length)).foldl
    (fun (s : State) w => s.drainLine w.cluster (2 ^ 40) w.key) s

/-- A reply to the host. -/
def State.reply (s : State) (r : HostReply) : State := { s with hostOut := s.hostOut ++ [r] }

/-- The kinds of place that a host request reaches: device memory and register space, for an access of n bytes;
none where the completion is an unsupported request (R438, R440). (DEDUCED: log entry 63.) -/
def hostPlace (s : State) (pa n : Nat) : Option Home :=
  let low := pa % 2 ^ 54
  match pa / 2 ^ 54 with
  | 0 => if low + n ≤ 2 ^ 42 ∧ fieldOf (s.reg bootstatOff) 55 48 = 0 then some (.dram low) else none
  | 3 =>
    if regExists (low / 8 * 8) ∧ (n = 4 ∨ n = 8) ∧ low % n = 0 then some (.reg low) else none
  | _ => none

/-- The greatest timestamp returned for a module's writes (R468) raised. -/
def State.hostStamp (s : State) (m w : Nat) : State :=
  { s with hostTs := putAt s.hostTs m (max (getAt 0 s.hostTs m) w) }

/-- A host read (R440): the bytes their home last performed, or a register with the effects of its access code.
(DEDUCED: log entry 66.) -/
def hostRead (m pa n : Nat) (s : State) : State :=
  match hostPlace s pa n with
  | some (.dram o) =>
    let s1 := s.drainAll (dramKey o) n
    if s1.anyBad (dramKey o) n then (s1.detect none (dramKey o) n).reply (.abort m)
    else s1.reply (.data m (s1.mem.readBytes (dramKey o) n))
  | some (.reg o) =>
    let (s1, v) := s.regRead (o / 8 * 8) (halfOf o n)
    s1.reply (.data m (natBytes v.toNat n))
  | _ => s.reply (.unsupported m)

/-- A host write (R440): performed at its home, in the order sent, with the greatest timestamp of the module's earlier ones.
(DEDUCED: log entry 66.) -/
def hostWrite (m pa : Nat) (bs : List Byte) (s : State) : State :=
  match hostPlace s pa bs.length with
  | some (.dram o) =>
    if s.anyBad (dramKey o) bs.length then (s.detect none (dramKey o) bs.length).reply (.abort m)
    else
      let (s1, w) := s.bulkWrite (dramKey o) bs 15 (getAt 0 s.hostTs m)
      (s1.hostStamp m w).reply (.done m)
  | some (.reg o) =>
    (s.reply (.done m)).pushNext (.registerWrite
      { id := 0, agent := .host m, level := 2, ctx := 0, offset := o / 8 * 8, half := halfOf o bs.length,
        value := BitVec.ofNat 64 (leNat bs), pts := getAt 0 s.hostTs m })
  | _ => s.reply (.unsupported m)

/-- A host atomic on an aligned 64-bit granule, performed at the slice (R291, R440). (DEDUCED: log entry 66.) -/
def hostAtomic (m pa fn : Nat) (b t : Word) (s : State) : State :=
  match hostPlace s pa 8 with
  | some (.dram o) =>
    if o % 8 ≠ 0 then s.reply (.unsupported m)
    else
      let s1 := s.drainAll (dramKey o) 8
      if s1.anyBad (dramKey o) 8 then (s1.detect none (dramKey o) 8).reply (.abort m)
      else
        let (s2, old, w, _) := s1.rmwAt (dramKey o) (getAt 0 s.hostTs m) fn true false b.toNat t.toNat
        (s2.hostStamp m w).reply (.data m (natBytes old 8))
  | _ => s.reply (.unsupported m)

/-- Whether an earlier request of the same module has still to be performed. (DEDUCED: log entry 66.) -/
def State.hostBehind (s : State) (r : HostReq) : Bool :=
  s.agenda.any fun e => match e with
    | .hostRequest k => k.module == r.module && decide (k.number < r.number)
    | _ => false

/-- The place and size of what a host request reads: no read, none. -/
def hostReads : HostOp → Nat × Nat
  | .read pa n => (pa, n)
  | .write pa _ => (pa, 0)
  | .swap pa _ => (pa, 8)
  | .cas pa _ _ => (pa, 8)
  | .add pa _ => (pa, 8)

/-- The dirty bytes of what a host request reads drain before it (R263, R440). -/
def State.hostDrain (s : State) (op : HostOp) : State :=
  match hostPlace s (hostReads op).1 (hostReads op).2 with
  | some (.dram o) => s.drainAll (dramKey o) (hostReads op).2
  | _ => s

/-- Whether a host request must still wait for dirty bytes of what it reads to drain (R263, R440). -/
def State.hostWaits (s : State) (op : HostOp) : Bool :=
  match hostPlace s (hostReads op).1 (hostReads op).2 with
  | some (.dram o) =>
    decide (0 < (hostReads op).2) && (s.hostDrain op).dirty.any fun w => decide (w.key < dramKey o + (hostReads op).2) &&
      decide (dramKey o < w.key + w.data.length) && w.place != .held
  | _ => false

/-- HOST_REQUEST (R439, R440): the requests of a module are performed in the order sent; a module that is down
accepts none. (DEDUCED: log entry 66.) -/
def execHostRequest (r : HostReq) (s : State) : Result :=
  if !(s.reg (ucstatOff r.module)).getLsbD 0 then .next s
  else if s.hostBehind r then .next (s.push (.hostRequest r))
  else if s.hostWaits r.op then .next ((s.hostDrain r.op).push (.hostRequest r))
  else
    match r.op with
    | .read pa n => .next (hostRead r.module pa n s)
    | .write pa bs => .next (hostWrite r.module pa bs s)
    | .swap pa v => .next (hostAtomic r.module pa 0 v 0 s)
    | .cas pa t v => .next (hostAtomic r.module pa 1 v t s)
    | .add pa v => .next (hostAtomic r.module pa 2 v 0 s)

end Sys2Proof.Machine
end

