-- ==== Sys2Proof/Machine/Counter.lean ====
section
/-! DEFINITION. The counter instructions CADD, CADDO, CWAIT and CWAITT (R370, R371) and what happens to
them at the home of the counter (R52, R53, R359). -/

namespace Sys2Proof.Machine

/-- The record of an add of a thread. -/
def addReq (s : State) (q : Nat) (serial : Option Nat) (l : Loc) (va amount : Word) (hold : Taint)
    (widen : List Widen) : AddReq :=
  ⟨s.nextId, some q, serial, l.key, va, amount, (s.slot q).behind hold, (s.slot q).pts, (s.slot q).ctx, widen, .plain⟩

/-- CADD and CADDO (R370, R371): a release whose own write is the add; CADDO takes a load tag for the
value before the add. A refused write of the thread traps here (R285). -/
def addOp (i : Instr) (q scope : Nat) (va amount : Word) (hold : Taint) (dest : Option (BitVec 5)) (s : State) :
    State :=
  match counterLoc s (s.who q) va .write with
  | (s1, .error e) =>
    if e.late ∧ dest = none then
      let s2 := s1.refuse q e.cause e.reason va
      s2.nakTrap q i ((s2.slot q).nak.getD (e.cause, e.reason, va))
    else s1.accessFault q i e .write va
  | (s0, .ok l) =>
    match (s0.slot q).nak with
    | some n => s0.nakTrap q i n
    | none =>
      let (s1, wd) := s0.widenFor (s0.who q) va
      let x := s1.slot q
      match dest with
      | none => (s1.startRelease q scope l.key (.add (addReq s1 q none l va amount hold wd))).modSlot q Slot.advance
      | some t =>
        let form : LoadForm := ⟨va, Taint.none, 8, false, .scalar t.toNat, .addOld scope, none⟩
        let r := form.record x ((encode i).getD 0) (s1.nextId + 1) l none 0
        (s1.startRelease q scope l.key (.add (addReq s1 q (some x.nextSerial) l va amount hold wd))).modSlot q
          fun x => (x.takeLoad r).advance

/-- What holds a counter add: the masks of its address and amount registers, and ctm (R267). -/
def Slot.holdAdd (x : Slot) (a b : BitVec 5) : Taint := ((x.smask a).union (x.smask b)).union x.ctm

/-- CADD (R370). -/
def execCadd (a b : BitVec 5) (k : BitVec 3) (s : State) : Result :=
  issue (.cadd a b k) s fun q s =>
    let x := s.slot q
    .next (addOp (.cadd a b k) q k.toNat (x.sreg a) (x.sreg b) (x.holdAdd a b) none s)

/-- CADDO (R370). -/
def execCaddo (t a b : BitVec 5) (k : BitVec 3) (s : State) : Result :=
  issue (.caddo t a b k) s fun q s =>
    let x := s.slot q
    .next (addOp (.caddo t a b k) q k.toNat (x.sreg a) (x.sreg b) (x.holdAdd a b) (some t) s)

/-- CWAIT and CWAITT (R370, R371): the slot waits, with a load tag for the value, until the counter's
home answers. -/
def waitOp (i : Instr) (q scope : Nat) (va target : Word) (trap : Bool) (t : BitVec 5) (s : State) : State :=
  match counterLoc s (s.who q) va .read with
  | (s1, .error e) => s1.accessFault q i e .read va
  | (s1, .ok l) =>
    let x := s1.slot q
    let word := (encode i).getD 0
    let form : LoadForm := ⟨va, Taint.none, 8, false, .scalar t.toNat, .wait scope, none⟩
    let r := form.record x word s1.nextId l none 0
    (s1.setSlot q
      { x.takeLoad r with state := .waiting, wait := some (.counter l.key va target trap x.nextSerial) }).push
      (.counterWaitAtHome ⟨q, x.nextSerial, l.key, va, target, trap, word, 0⟩)

/-- A counter wait: it waits for the mask of its address register (R267). (DEDUCED: log entry 33.) -/
def waitInstr (i : Instr) (t a b : BitVec 5) (k : BitVec 3) (trap : Bool) (s : State) : Result :=
  issue i s fun q s =>
    let x := s.slot q
    if x.satisfied (x.smask a) then .next (waitOp i q k.toNat (x.sreg a) (x.sreg b) trap t s) else .next s

/-- CWAIT (R370). -/
def execCwait (t a b : BitVec 5) (k : BitVec 3) (s : State) : Result :=
  waitInstr (.cwait t a b k) t a b k false s

/-- CWAITT (R370). -/
def execCwaitt (t a b : BitVec 5) (k : BitVec 3) (s : State) : Result :=
  waitInstr (.cwaitt t a b k) t a b k true s

/-! ### At the home -/

/-- The function code with which a counter add travels to another package. -/
def farAddFn : Nat := 0x22

/-- A CADDO's answer: the value before the add and the status after it. -/
def State.answerAdd (s : State) (q : Nat) (serial : Option Nat) (old : Nat) (st : Word) (wts : Nat) : State :=
  match serial with
  | some n =>
    (s.modSlot q fun x => x.fillLoad n fun l =>
      { l with data := some old, status := st.extractLsb' 0 2, wts := wts }).push (.loadCompletion q n)
  | none => s

/-- A thread's add that its home refuses: kept for the thread's next release (R285), or, of a walk's WSIG, the fault of its
command (R249). -/
def State.addLost (s : State) (q : Nat) (r : AddReq) (cause reason : BitVec 8) : State :=
  match (s.slot q).sender r.id with
  | some e => s.pushNext (.engineFault q e.seq cause reason r.va)
  | none => s.refuse q cause reason r.va

/-- A thread's counter add at its home (R52, R284, R371, R418). -/
def State.threadAdd (s : State) (q : Nat) (r : AddReq) : State :=
  if s.homeFenced r.ctx r.key then
    match r.serial with
    | some n => (s.push (.writeAck q r.id 0)).loadRefused q n eFenced
    | none => (s.addLost q r eFenced 0).push (.writeAck q r.id 0)
  else if s.anyBad r.key 16 then
    match r.serial with
    | some n => ((s.detect (some q) r.key 16).abortLoad q n).push (.writeAck q r.id 0)
    | none =>
      if ((s.slot q).sender r.id).isSome then ((s.detect (some q) r.key 16).addLost q r eAbort 0x02).push (.writeAck q r.id 0)
      else (s.storeLost q r.key 16 r.va).push (.writeAck q r.id 0)
  else
    let old := s.counter r.key
    let (s1, w) := s.addCounter r.key r.amount.toNat r.pts
    (s1.answerAdd q r.serial old (s1.status r.key) (getAt 0 s1.counterTs r.key)).ackOrWiden q r.id r.key 16 r.widen w

/-- The packet of a device's own add to a counter of another package, or of the atomic that sets ABANDONED there. -/
def addPacket (r : AddReq) (o : Nat) : Nat × List Word :=
  if r.what = .abandon then (o + 8, [BitVec.ofNat 64 (0x04 + 2 ^ 8), 1, 0, BitVec.ofNat 64 r.pts])
  else (o, [BitVec.ofNat 64 farAddFn, r.amount, 0, BitVec.ofNat 64 r.pts])

/-- A device's own add that its home refuses: a NOTIFY add is recorded (R364). -/
def State.addRefused (s : State) (r : AddReq) (cause reason : BitVec 8) : State :=
  match r.what with
  | .notify place => s.notifyFailed r.ctx place cause reason r.va
  | _ => s

/-- COUNTER_ADD_AT_HOME (R52): an add is performed at its counter's home; one to another package
travels there in order (R321, R371). -/
def execCounterAddAtHome (r : AddReq) (s : State) : Result :=
  match r.thread with
  | some q =>
    if !s.isOut q r.id then .next s
    else
      match homeOf r.key with
      | .far p o =>
        .next (s.farSend { farRequest s q r.serial r.id p o tyAtomic true r.serial.isNone
          [BitVec.ofNat 64 farAddFn, r.amount, 0, BitVec.ofNat 64 r.pts] with va := r.va })
      | _ => .next (s.threadAdd q r)
  | none =>
    match homeOf r.key with
    | .far p o =>
      .next (s.farSend
        { thread := none, serial := none, id := r.id, dst := s.domNode p, ty := tyAtomic, ord := true, vclass := 0,
          addr := p * 2 ^ 42 + (addPacket r o).1, payload := (addPacket r o).2,
          pkey := s.pkey r.ctx, tc := s.tc r.ctx, store := true, va := r.va, ctx := some r.ctx,
          report := match r.what with | .notify place => some (r.ctx, place) | _ => none })
    | _ =>
      if s.homeFenced r.ctx r.key then .next (s.addRefused r eFenced 0)
      else if s.anyBad r.key 16 then .next ((s.detect none r.key 16).addRefused r eAbort 0x02)
      else if r.what = .abandon then .next (s.abandonKey r.key)
      else .next (s.addCounter r.key r.amount.toNat r.pts).1

/-- The unit that holds the registrations of a counter: a slice, or a cluster or core (R359). -/
def waitUnit (key : Nat) : Nat × Nat :=
  match homeOf key with
  | .dram o => (0, sliceOf o)
  | .pad t _ => (1, t)
  | .bank c _ _ => (2, c)
  | _ => (3, 0)

/-- Whether the home of a counter has room for one more registration (R359). (DEDUCED: log entry 33.) -/
def State.waitRoom (s : State) (key : Nat) : Bool :=
  decide ((s.waits.filter fun r => waitUnit r.key == waitUnit key).length < 64)

/-- The cycles between two polls of a wait that its home could not register (R359). -/
def pollCycles : Nat := 1024

/-- A wait observes its counter (R53, R284, R359, R371, R418): it ends, or stays registered, or polls.
(DEDUCED: log entry 33.) -/
def State.observe (s : State) (r : WaitReq) : State :=
  let q := r.thread
  let s0 := { s with waits := s.waits.filter (· ≠ r) }
  if !(s.slot q).waitsFor r.serial then s0
  else
    match homeOf r.key with
    | .far p o =>
      let x := s.slot q
      s0.farSend { farRequest s0 q (some r.serial) 0 p (o / 128 * 128) tyRead true false
        [BitVec.ofNat 64 x.pts, BitVec.ofNat 64 (o % 128), 16] with va := r.va, polled := r.due != 0 }
    | _ =>
      if s.homeFenced (s.slot q).ctx r.key then s0.wakeWith r (s.counter r.key) (s.status r.key ||| 1) 0
      else if s.anyBad r.key 16 then (s0.detect (some q) r.key 16).abortLoad q r.serial
      else if s.waitMet r then s0.wake r
      else if s0.waitRoom r.key then { s0 with waits := s0.waits ++ [r] }
      else s0.push (.counterWaitPoll { r with due := s.cycle + pollCycles })

/-- COUNTER_WAIT_AT_HOME (R359): the thread's own older writes to the counter's line come first
(R308). -/
def execCounterWaitAtHome (r : WaitReq) (s : State) : Result :=
  let q := r.thread
  let s1 := s.drainThread q
  match (s1.slot q).loads.find? fun l => l.serial == r.serial with
  | none => .next s1
  | some l =>
    if s1.lineOut q r.key l.before ∨ (s1.slot q).joinsBefore l.before ∨
        (s1.dirty.any fun w => w.thread == q && w.key / 128 == r.key / 128 && decide (w.id < l.before)) then
      .next (s1.push (.counterWaitAtHome r))
    else
      let s2 := s1.drainLine (clusterOf q) q r.key
      if s2.lineDirty (clusterOf q) q r.key then .next (s2.push (.counterWaitAtHome r)) else .next (s2.observe r)

/-- COUNTER_WAIT_POLL (R359): a wait that the home could not register looks again every 1,024 cycles.
(DEDUCED: log entry 33.) -/
def execCounterWaitPoll (r : WaitReq) (s : State) : Result :=
  if s.cycle < r.due then .next (s.push (.counterWaitPoll r)) else .next (s.observe r)

end Sys2Proof.Machine
end

