-- ==== Sys2Proof/Machine/CbOps.lean ====
section
/-! DEFINITION. Circular buffers and channels: the operations of R64 on an instance, slots on a channel
(R65, R310), markers (R356), and the slots that wait on them. -/

namespace Sys2Proof.Machine

/-! ### The declaration (R62) -/

/-- CHAN. -/
def CbInst.chan (c : CbInst) : Bool := c.w0.getLsbD 46
/-- CSTAGE. -/
def CbInst.cstage (c : CbInst) : Nat := fieldOf c.w0 45 44
/-- PSTAGE. -/
def CbInst.pstage (c : CbInst) : Nat := fieldOf c.w0 43 42
/-- LOC: whether the slots lie in a FIFO-mode bank. -/
def CbInst.inBank (c : CbInst) : Bool := c.w0.getLsbD 41
/-- NSLOTS. -/
def CbInst.nslots (c : CbInst) : Nat := fieldOf c.w0 40 32
/-- Bytes of a slot. -/
def CbInst.slotBytes (c : CbInst) : Nat :=
  let z := fieldOf c.w0 31 24
  64 * (if z = 0 then 256 else z)
/-- Whether the tile holds the receiving end of a channel. -/
def CbInst.receiving (c : CbInst) : Bool := c.chan && c.w1.getLsbD 24
/-- Whether the tile holds the sending end of a channel. -/
def CbInst.sending (c : CbInst) : Bool := c.chan && !c.w1.getLsbD 24
/-- Whether the tile holds the producer end. -/
def CbInst.hasProducer (c : CbInst) : Bool := !c.receiving
/-- Whether the tile holds the consumer end. -/
def CbInst.hasConsumer (c : CbInst) : Bool := !c.sending
/-- The tile that holds the other end of a channel (R62). -/
def CbInst.peerTile (c : CbInst) : Nat :=
  if fieldOf c.w1 1 0 = 0 then torusNeighbour c.key.tile (fieldOf c.w1 3 2)
  else placeTile (BitVec.ofNat 16 (fieldOf c.w1 19 4))
/-- The handle of the other end. -/
def CbInst.peerHandle (c : CbInst) : Nat := fieldOf c.w1 23 20
/-- The CB scope of the instance (R372), coded as in R86. -/
def CbInst.scope (c : CbInst) : Nat := if c.inBank then 1 else 0
/-- Where slot i of the instance begins. -/
def CbInst.slotKey (c : CbInst) (i : Nat) : Nat :=
  let base := fieldOf c.w0 23 0
  if c.inBank then bankKey (c.key.tile / 16) (base % 16) (i * c.slotBytes)
  else padKey c.key.tile (base + i * c.slotBytes)
/-- FILLED as the consumer sees it (R356). -/
def CbInst.filled (c : CbInst) : Nat := if c.sending then c.unsent else c.segs.headD 0
/-- Markers held at the consumer end. -/
def CbInst.marks (c : CbInst) : Nat := c.segs.length - 1
/-- PEND (R64). -/
def CbInst.pend (c : CbInst) : Nat :=
  (c.permits.filter fun p => match p with | .slot _ _ => true | .marker => false).length

/-! ### Finding an instance -/

/-- The state with an instance replaced. -/
def State.setCb (s : State) (c : CbInst) : State :=
  { s with cbs := s.cbs.map fun d => if d.key = c.key then c else d }

/-- The instance with a key. -/
def State.cbAt (s : State) (k : CbKey) : Option CbInst := s.cbs.find? fun c => c.key == k

/-- The instance of a handle on a tile for a launch of record: that of the lowest group the tile holds
(R374). -/
def State.cbLowest (s : State) (tile l h : Nat) : Option CbInst :=
  (s.cbs.filter fun c => c.key.tile == tile && c.key.lrec == l && c.key.handle == h).foldl
    (fun b c => match b with
      | none => some c
      | some d => if c.key.group < d.key.group then some c else some d) none

/-- The instance that a handle names for a slot's activation (R63, R374, R469). -/
def State.cbFor (s : State) (q h : Nat) : Option CbInst :=
  let x := s.slot q
  match x.lrec with
  | none => none
  | some l =>
    match x.kind with
    | .group g => s.cbAt ⟨tileOf q, l, g, h⟩
    | _ => s.cbLowest (tileOf q) l h

/-- The other end of a channel. -/
def State.cbPeer (s : State) (c : CbInst) : Option CbInst := s.cbLowest c.peerTile c.key.lrec c.peerHandle

/-- Whether an end's peer lies in a rectangle or cluster that is fenced for the context (R418). -/
def State.peerFenced (s : State) (c : CbInst) : Bool :=
  c.chan && (s.fencedCluster (c.peerTile / 16) || s.calderaFenced c.ctx (c.peerTile / 16))

/-! ### Slots that wait -/

/-- Whether what a slot waits for on a CB or channel is there (R64, R356, R375). -/
def State.cbMet (s : State) (q : Nat) (w : WaitInfo) : Bool :=
  match w with
  | .cbProducer h n =>
    match s.cbFor q h with
    | some c => decide (n ≤ c.free)
    | none => false
  | .cbConsumer h n =>
    match s.cbFor q h with
    | some c => decide (n ≤ c.filled)
    | none => false
  | .marker h =>
    match s.cbFor q h with
    | some c => decide (c.marksOut < 15)
    | none => false
  | .markers mask =>
    (List.range 16).all fun h =>
      !mask.testBit h || (match s.cbFor q h with
        | some c => decide (0 < c.marks)
        | none => false)
  | _ => false

/-- The slot past a CB wait that is met: an acquire (R272, R468). -/
def Slot.pastWait (x : Slot) (pts : Nat) : Slot :=
  { x with state := .running, wait := none, pts := max x.pts pts }.advance

/-- A marker goes from an instance's producer end, behind every slot advanced or permitted before it
(R356). -/
def CbInst.putMarker (c : CbInst) : CbInst :=
  if c.permits = [] then { c with segs := c.segs ++ [0], marksOut := c.marksOut + 1 }
  else { c with permits := c.permits ++ [.marker], marksOut := c.marksOut + 1 }

/-- An item goes onto a channel from its sending end; where the receiving end does not exist yet, it stays with the
sending end until it does (R63, R356). -/
def State.sendItem (s : State) (c : CbInst) (i : ChanItem) : State :=
  match s.cbPeer c with
  | some p => s.push (.channelSlotArrival p.key i)
  | none => s.setCb { c with early := c.early ++ [i] }

/-- The items that sending ends kept for a receiving end that now exists. -/
def State.sendKept (s : State) (p : CbInst) : State :=
  (s.cbs.filter fun c => c.sending && c.early != [] && (s.cbPeer c).any fun d => d.key == p.key).foldl (fun s c =>
    (s.setCb { c with early := [] }).pushAll (c.early.map (.channelSlotArrival p.key))) s

/-- A marker placed by MARK or WEMIT: on a channel it travels to the receiving end. -/
def State.markCb (s : State) (c : CbInst) : State :=
  if c.sending then
    if c.permits = [] then
      let c1 := { c with txNum := (c.txNum + 1) % 65536, marksOut := c.marksOut + 1 }
      (s.setCb c1).sendItem c1 (.marker c.txNum)
    else s.setCb { c with permits := c.permits ++ [.marker], marksOut := c.marksOut + 1 }
  else s.setCb c.putMarker

/-- A marker consumed at an end: the next part becomes visible, and the producer end has one fewer
unconsumed; a channel's sending end learns of it by a credit of no slots. -/
def State.takeMarker (s : State) (c : CbInst) : State :=
  let rest := match c.segs with
    | _ :: b :: t => b :: t
    | l => l
  let left := c.segs.headD 0
  let segs := match rest with
    | b :: t => (b + left) :: t
    | [] => [left]
  if c.receiving then
    let s1 := s.setCb { c with segs := segs }
    match s.cbPeer c with
    | some p => s1.push (.channelCreditArrival p.key 0)
    | none => s1
  else s.setCb { c with segs := segs, marksOut := c.marksOut - 1 }

/-- MWAIT met (R375): one marker from each named end, the next round, and an acquire. -/
def State.consumeMarkers (s : State) (q mask : Nat) : State :=
  let hs := (List.range 16).filter fun h => mask.testBit h
  let pts := hs.foldl (fun p h => match s.cbFor q h with | some c => max p c.pts | none => p) 0
  let s1 := hs.foldl (fun s h => match s.cbFor q h with | some c => s.takeMarker c | none => s) s
  s1.modSlot q fun x => { x.pastWait pts with round := x.round + 1, passedMwait := true }

/-- A met wait of a slot ends. -/
def State.endCbWait (s : State) (q : Nat) (w : WaitInfo) : State :=
  match w with
  | .cbProducer h _ =>
    match s.cbFor q h with
    | some c => s.modSlot q fun x => x.pastWait c.pts
    | none => s
  | .cbConsumer h _ =>
    match s.cbFor q h with
    | some c => s.modSlot q fun x => x.pastWait c.pts
    | none => s
  | .marker h =>
    match s.cbFor q h with
    | some c => (s.markCb c).modSlot q fun x => x.pastWait 0
    | none => s
  | .markers mask => s.consumeMarkers q mask
  | _ => s

/-- The slots of a tile whose CB or channel wait is now met go on (R361). -/
def State.wakeCbs (s : State) (tile : Nat) : State :=
  (List.range 144).foldl (fun s i =>
    let q := 12 * tile + i % 12
    match (s.slot q).state, (s.slot q).wait with
    | .waiting, some w => if s.cbMet q w then s.endCbWait q w else s
    | _, _ => s) s

/-! ### The operations of R64 -/

/-- One slot committed at a sending end leaves on the link (R65, R310). -/
def State.sendSlot (s : State) (k : CbKey) (ix : Nat) : State :=
  match s.cbAt k with
  | none => s
  | some c =>
    let data := s.mem.readBytes (c.slotKey ix) c.slotBytes
    let c1 := { c with txNum := (c.txNum + 1) % 65536, unsent := c.unsent + 1 }
    let s1 := { s with operands := s.operands.map fun (o : OperandSlot) =>
      if o.key = k ∧ o.ix = ix ∧ o.number = none then { o with number := some c.txNum } else o }
    (s1.setCb c1).sendItem c1 (.slot c.txNum data c.pts)

/-- A producer advance of n (R64, R65) by a writer with timestamp pts. -/
def State.cbProduce (s : State) (c : CbInst) (n pts : Nat) : State :=
  let c1 := { c with free := c.free - n, wptr := (c.wptr + n) % c.nslots, pts := max c.pts pts }
  let s1 :=
    if c.sending then
      (List.range n).foldl (fun s i => s.sendSlot c.key ((c.wptr + i) % c.nslots)) (s.setCb c1)
    else s.setCb { c1 with segs := c1.segs.dropLast ++ [c1.segs.getLastD 0 + n] }
  s1.wakeCbs c.key.tile

/-- A consumer advance of n (R64): FILLED falls, and FREE rises here, or at the sending end when its
credits arrive (R65). -/
def State.cbConsume (s : State) (c : CbInst) (n pts : Nat) : State :=
  let segs := match c.segs with
    | f :: t => (f - n) :: t
    | [] => []
  let s1 := s.setCb { c with
    segs := segs, free := c.free + n, rptr := (c.rptr + n) % c.nslots, pts := max c.pts pts }
  let s2 := if c.receiving then
      match s.cbPeer c with
      | some p => s1.push (.channelCreditArrival p.key n)
      | none => s1
    else s1
  s2.wakeCbs c.key.tile

/-- A permit (R64, R66): the slot it gives. -/
def State.cbPermitTake (s : State) (c : CbInst) : State × Nat :=
  (s.setCb { c with
    free := c.free - 1, permits := c.permits ++ [.slot c.wptr false], wptr := (c.wptr + 1) % c.nslots }, c.wptr)

/-- The first permitted slot with an index marked written. -/
def markWritten (ix : Nat) : List PermitItem → List PermitItem
  | [] => []
  | .slot i w :: t => if i = ix ∧ !w then .slot i true :: t else .slot i w :: markWritten ix t
  | .marker :: t => .marker :: markWritten ix t

/-- Written slots at the head of the permit order are counted (R64), and markers behind them are held
or sent (R356). The number bounds the work. -/
def countWritten (k : CbKey) : Nat → State → State
  | 0, s => s
  | f + 1, s =>
    match s.cbAt k with
    | none => s
    | some c =>
      match c.permits with
      | .slot ix true :: t =>
        if c.sending then countWritten k f ((s.setCb { c with permits := t }).sendSlot k ix)
        else
          countWritten k f (s.setCb { c with
            permits := t, segs := c.segs.dropLast ++ [c.segs.getLastD 0 + 1] })
      | .marker :: t =>
        if c.sending then
          let c1 := { c with permits := t, txNum := (c.txNum + 1) % 65536 }
          countWritten k f ((s.setCb c1).sendItem c1 (.marker c.txNum))
        else countWritten k f (s.setCb { c with permits := t, segs := c.segs ++ [0] })
      | _ => s

/-- Fill complete (R64): slot ix is marked written, by a filler with timestamp pts. -/
def State.cbFill (s : State) (k : CbKey) (ix pts : Nat) : State :=
  match s.cbAt k with
  | none => s
  | some c =>
    let s1 := s.setCb { c with permits := markWritten ix c.permits, pts := max c.pts pts }
    (countWritten k (c.permits.length + 1) s1).wakeCbs k.tile

/-! ### Channels -/

/-- The number of a channel item. -/
def chanNumber : ChanItem → Nat
  | .slot n _ _ => n
  | .marker n => n

/-- The items at a receiving end that stand next in the order sent are counted (R65, R310). -/
def landItems (k : CbKey) : Nat → State → State
  | 0, s => s
  | f + 1, s =>
    match s.cbAt k with
    | none => s
    | some c =>
      match c.early.find? fun i => chanNumber i == c.rxNum with
      | none => s
      | some i =>
        let c1 := { c with early := c.early.filter (· ≠ i), rxNum := (c.rxNum + 1) % 65536 }
        match i with
        | .marker _ => landItems k f (s.setCb { c1 with segs := c1.segs ++ [0] })
        | .slot _ data pts =>
          let s1 := (s.bulkWrite (c.slotKey c.wptr) (data.take c.slotBytes) 15 pts).1
          let s2 := s1.setCb { c1 with
            free := c1.free - 1, segs := c1.segs.dropLast ++ [c1.segs.getLastD 0 + 1],
            wptr := (c1.wptr + 1) % c1.nslots, pts := max c1.pts pts }
          landItems k f (match s2.cbPeer c with
            | some p => s2.setCb { p with unsent := p.unsent - 1 }
            | none => s2)

/-- The instance for a new group's declaration (R63). -/
def CbInst.start (k : CbKey) (x : Nat) (w0 w1 : Word) : CbInst :=
  let c : CbInst := ⟨k, x, w0, w1, 0, [0], [], 0, 0, 0, 0, 0, [], 0, 0⟩
  { c with free := if c.sending then 0 else c.nslots }

end Sys2Proof.Machine
end

