-- ==== Sys2Proof/Machine/Deal.lean ====
section
/-! DEFINITION. Dealing a tile's resources to activations: the fields of a launch descriptor (R43), what
fits on a tile (R49, R50), the hand-over of a tile between contexts (R383), and the start of groups, tasks
and handlers (R40, R46, R48, R63, R469). -/

namespace Sys2Proof.Machine

/-! ### The launch descriptor (R43) -/

/-- A field of a word of a descriptor. -/
def dField (d : List Word) (w h l : Nat) : Nat := fieldOf (d.getD w 0) h l

/-- ENTRY of a descriptor. -/
def descEntry (d : List Word) : BitVec 57 := low57 (d.getD 0 0)
/-- NVREG. -/
def descNvreg (d : List Word) : Nat := dField d 3 60 58
/-- NSREG. -/
def descNsreg (d : List Word) : Nat := dField d 3 57 55
/-- STAGES. -/
def descStages (d : List Word) : Nat := dField d 3 54 52
/-- HOMEMODE. -/
def descMode (d : List Word) : Nat := dField d 3 51 50
/-- CLASS. -/
def descClass (d : List Word) : Nat := dField d 3 49 48
/-- DELTA. -/
def descDelta (d : List Word) : Nat := dField d 3 47 32
/-- GROUPS. -/
def descGroups (d : List Word) : Nat := dField d 3 31 0
/-- OPBYTES. -/
def descOpbytes (d : List Word) : Nat := dField d 4 63 32
/-- SPILLKB. -/
def descSpillKB (d : List Word) : Nat := dField d 4 28 24
/-- COST. -/
def descCost (d : List Word) : Nat := dField d 4 23 16
/-- The cluster of HOME. -/
def descHome (d : List Word) : Nat := placeCluster (BitVec.ofNat 16 (dField d 4 15 0))
/-- CBMASK. -/
def descCbmask (d : List Word) : Nat := dField d 6 56 41
/-- The stages that STAGES selects. -/
def descStageList (d : List Word) : List Nat := [0, 1, 2].filter fun i => (descStages d).testBit i

/-! ### Tasks (R55) -/

/-- STAGE of a task's descriptor. -/
def taskStage (ws : List Word) : Nat := dField ws 0 60 59
/-- CLASS. -/
def taskClass (ws : List Word) : Nat := dField ws 0 58 57
/-- COST. -/
def taskCost (ws : List Word) : Nat := dField ws 4 39 32
/-- NOTIFY as an address; 0 means none. -/
def taskNotify (ws : List Word) : Word := va57 (low57 (ws.getD 3 0))

/-- The launch of record named by an index. -/
def State.launchDesc (s : State) (l : Nat) : List Word :=
  match findAt s.launches l with
  | some r => r.desc
  | none => []

/-! ### What fits (R347, R383) -/

/-- The cycles that an activation occupies its slot for at least (R37). -/
def minStay : Nat := 32

/-- Whether the last activation dispatched into a slot came there long enough ago (R37).
(DESIGN CHOICE: log entry 75.) -/
def State.stayed (s : State) (q : Nat) : Bool := (s.slot q).born.all fun b => decide (b + minStay ≤ s.cycle)

/-- The first slot of a core of a tile that is free for a dispatch. -/
def State.openSlot (s : State) (tile stage : Nat) : Option Nat :=
  ((List.range 4).map (slotNum tile stage)).find? fun q =>
    (s.slot q).state == .free && !(s.slot q).reserved && s.stayed q

/-- Registers dealt on a tile's math core, in units of 8: scalar and vector (R49). -/
def State.dealt (s : State) (tile : Nat) : Nat × Nat :=
  ((List.range 4).map (slotNum tile 2)).foldl
    (fun (p : Nat × Nat) q => (p.1 + (s.slot q).nsreg, p.2 + (s.slot q).nvreg)) (0, 0)

/-- The lowest place in the carve pool, the top 32 KiB of the scratchpad, that holds `kb` KiB free (R50).
(DESIGN CHOICE: log entry 20.) -/
def State.carveAt (s : State) (tile kb : Nat) : Option Nat :=
  ((List.range (33 - kb)).map fun i => 0x18000 + 1024 * i).find? fun o =>
    (List.range 12).all fun i =>
      let x := s.slot (12 * tile + i)
      decide (x.state = .free) || decide (o + 1024 * kb ≤ x.carve) || decide (x.carve + 1024 * x.spillKB ≤ o) ||
        decide (x.spillKB = 0)

/-- Whether a context may have an activation on a tile (R383): no other context holds it. -/
def State.tileHolds (s : State) (tile x : Nat) : Bool :=
  (List.range 12).any (fun i => (s.slot (12 * tile + i)).state != .free && (s.slot (12 * tile + i)).ctx == x &&
      !(s.slot (12 * tile + i)).reserved) ||
    s.pools.any (fun e => e.1 / 256 == tile && e.2.ctx == x) ||
    s.cbs.any (fun c => c.key.tile == tile && c.ctx == x) ||
    s.hqueues.any fun e => e.1 / 256 == x && placeTile e.2.place == tile

/-- The follower of a tile in lockstep (R421). -/
def followerTile (tile : Nat) : Nat := tile + 16

/-- Whether a tile is free for a context: its recorded holder, if another, holds nothing there any more,
nor on the leader of the tile where it runs in lockstep. -/
def State.tileOpen (s : State) (tile x : Nat) : Bool :=
  match (s.tile tile).holder with
  | some y => y == x || !(s.tileHolds tile y || (s.lockstep y && tile / 16 % 2 == 1 && s.tileHolds (tile - 16) y))
  | none => true

/-- Whether a context may take a tile (R383), with its follower in lockstep (R421). (DEDUCED: log entry 37.) -/
def State.tileFree (s : State) (tile x : Nat) : Bool :=
  s.tileOpen tile x && (!s.lockstep x || s.tileOpen (followerTile tile) x)

/-- A directory of ZERO granules with TAG 0xF and NF 0 (R383, R417). -/
def tcdZero : Store (BitVec 7) := (List.range 128).map fun g => (g, 0x3D)

/-- A tile zero-filled. -/
def State.zeroTile (s : State) (tile : Nat) : State :=
  let t := s.tile tile
  { s with mem := s.mem.zeroRange (padKey tile 0) (2 ^ 17) }.setTile tile { t with tcd := tcdZero }

/-- A context takes one tile: one that passes to it is zero-filled first. -/
def State.takeOne (s : State) (tile x : Nat) : State :=
  if (s.tile tile).holder = some x then s
  else
    let s1 := s.zeroTile tile
    s1.setTile tile { s1.tile tile with holder := some x }

/-- A context takes a tile (R383), and its follower in lockstep (R421). -/
def State.takeTile (s : State) (tile x : Nat) : State :=
  let s1 := s.takeOne tile x
  if s.lockstep x then s1.takeOne (followerTile tile) x else s1

/-! ### The start of an activation -/

/-- What an activation starts with (R48, R469). -/
structure Start where
  kind : ActKind
  ctx : Nat
  level : BitVec 2
  lrec : Option Nat
  queue : Option Nat
  notify : Word
  home : Nat
  poolIx : Nat
  nsreg : Nat
  nvreg : Nat
  spillKB : Nat
  pc : BitVec 57
  regs : Store Word
  pts : Nat

/-- A slot that an activation is dispatched into in a cycle (R36, R37, R48). -/
def Slot.started (x : Slot) (a : Start) (carve now : Nat) : Slot :=
  { Slot.empty with
    state := .running, gen := x.gen + 1, reserved := x.reserved, kind := a.kind, ctx := a.ctx, level := a.level,
    lrec := a.lrec, queue := a.queue, notify := a.notify, home := a.home, poolIx := a.poolIx,
    nsreg := a.nsreg, nvreg := a.nvreg, spillKB := a.spillKB, carve := carve, pc := a.pc,
    s := a.regs.filter fun e => e.2 ≠ 0, pts := a.pts, born := some now }

/-- An activation dispatched on a core of a tile, where a slot is free and its dealt resources fit. -/
def State.deal (s : State) (tile stage : Nat) (a : Start) : Option State :=
  let (ns, nv) := if stage = 2 then (a.nsreg, a.nvreg) else (0, 0)
  let (us, uv) := if stage = 2 then s.dealt tile else (0, 0)
  match s.openSlot tile stage, s.carveAt tile a.spillKB with
  | some q, some o =>
    if us + ns ≤ 12 ∧ uv + nv ≤ 8 then
      some ((s.setSlot q ((s.slot q).started { a with nsreg := ns, nvreg := nv } o s.cycle)).queueActive a.queue true 0)
    else none
  | _, _ => none

/-- The start of one activation of group g of a launch. -/
def groupStart (r : Launch) (l g : Nat) : Start :=
  let d := r.desc
  { kind := .group g, ctx := r.ctx, level := 0, lrec := some l, queue := r.queue, notify := 0, home := 0, poolIx := 0,
    nsreg := descNsreg d, nvreg := descNvreg d, spillKB := descSpillKB d, pc := descEntry d,
    regs := [(1, d.getD 1 0), (2, descDone d), (3, BitVec.ofNat 64 g), (4, BitVec.ofNat 64 (descGroups d))],
    pts := r.pts }

/-- The start of a task: its words 0 to 5, its launch of record, its home tile and its pool entry. -/
def taskStart (r : Launch) (l home pool : Nat) (ws : List Word) (pts : Nat) : Start :=
  let d := r.desc
  { kind := .task, ctx := r.ctx, level := 0, lrec := some l, queue := r.queue, notify := taskNotify ws, home := home,
    poolIx := pool, nsreg := descNsreg d, nvreg := descNvreg d, spillKB := descSpillKB d,
    pc := low57 (ws.getD 0 0),
    regs := [(1, ws.getD 1 0), (2, ws.getD 2 0), (3, tilesAddress home (0x14000 + 64 * (pool % 256)))],
    pts := pts }

/-- The circular-buffer instances of a new group, and the start credit that each receiving end sends; what sending ends
kept for it follows (R63, R356). (DEDUCED: log entry 13.) -/
def State.startInstances (s : State) (tile l g : Nat) (r : Launch) : State :=
  r.cbs.foldl (fun s c =>
    let i := CbInst.start ⟨tile, l, g, c.1⟩ r.ctx c.2.1 c.2.2
    let s1 := { s with cbs := s.cbs ++ [i] }
    if i.receiving then
      (s1.sendKept i).push (.channelCreditArrival ⟨i.peerTile, l, g, i.peerHandle⟩ i.nslots)
    else s1) s

/-- A group dispatched on a tile (R46): one activation on each selected core, all or none. -/
def State.startGroup (s : State) (tile l g : Nat) : Option State :=
  match findAt s.launches l with
  | none => none
  | some r =>
    if s.tileFree tile r.ctx then
      let s1 := (s.takeTile tile r.ctx).startInstances tile l g r
      let n := (descStageList r.desc).length
      ((descStageList r.desc).foldl
        (fun (o : Option State) st => o.bind fun s => s.deal tile st (groupStart r l g)) (some s1)).map fun s2 =>
        s2.modLaunch l fun r => { r with running := r.running + n, remaining := r.remaining - 1 }
    else none

/-- A task dispatched on a tile. -/
def State.startTask (s : State) (tile l home pool : Nat) (ws : List Word) (pts : Nat) : Option State :=
  match findAt s.launches l with
  | none => none
  | some r =>
    if s.tileFree tile r.ctx then
      ((s.takeTile tile r.ctx).deal tile (taskStage ws) (taskStart r l home pool ws pts)).map fun s1 =>
        { s1 with pools := s1.pools.map fun e =>
            if e.1 = 256 * home + pool ∧ pool < farPool then (e.1, { e.2 with started := true }) else e }
    else none

/-! ### Handlers (R40, R469) -/

/-- The start of a handler with its message: the payload in s1 to s8, the sender in s9. -/
def handlerStart (x n : Nat) (h : HandlerQueue) (m : Msg) : Start :=
  { kind := .handler n, ctx := x, level := h.level, lrec := none, queue := none, notify := 0, home := 0, poolIx := 0,
    nsreg := h.nsreg, nvreg := h.nvreg, spillKB := 0, pc := h.entry,
    regs := (List.range 8).map (fun i => (i + 1, m.payload.getD i 0)) ++
      [(9, BitVec.ofNat 64 (m.senderGen.toNat * 65536 + m.sender.toNat))],
    pts := m.pts }

/-- Whether a tile drains for a bound head (R348). -/
def State.draining (s : State) (tile : Nat) : Bool := (s.tile tile).drain.isSome

/-- The next message of a handler queue started, where the queue is free, its core has a free slot and
its tile does not drain. -/
def State.tryHandler (s : State) (x n : Nat) : Option State :=
  match findAt s.hqueues (256 * x + n) with
  | none => none
  | some h =>
    match h.msgs with
    | [] => none
    | m :: t =>
      let tile := placeTile h.place
      if h.running ∨ h.unbinding ∨ s.draining tile ∨ s.calderaFenced x (tile / 16) ∨ s.fencedCluster (tile / 16) then none
      else
        (s.deal tile (placeStage h.place) (handlerStart x n h m)).map fun s1 =>
          { s1 with hqueues := putAt s1.hqueues (256 * x + n) { h with msgs := t, running := true } }

/-- HANDLER_START (R40). (DEDUCED: log entry 37.) -/
def execHandlerStart (x n : Nat) (s : State) : Result := .next ((s.tryHandler x n).getD s)

/-! ### Retention of the carve-out, and waiting for a pool entry -/

/-- The lowest free entry of a tile's task pool (R61, R363). -/
def State.freeEntry (s : State) (tile : Nat) : Option Nat :=
  (List.range 256).find? fun e => (findAt s.pools (256 * tile + e)).isNone

end Sys2Proof.Machine
end

