-- ==== Sys2Proof/Machine/CtlRegs.lean ====
section
/-! DEFINITION. The control registers of R80, R164, R362, R387, R431 and R434 and the instructions of
major 0x0B (R154, R155). -/

namespace Sys2Proof.Machine

/-- The place of a ring entry in sequence order: how long before the next number it was given out. -/
def Slot.seqAge (x : Slot) (n : Nat) : Nat := (x.seqnext - BitVec.ofNat 12 n).toNat

/-- An entry put before the first that is younger. -/
def insertOld (x : Slot) (e : RingEntry) : List RingEntry → List RingEntry
  | [] => [e]
  | f :: t => if x.seqAge f.seq ≤ x.seqAge e.seq then e :: f :: t else f :: insertOld x e t

/-- The ring entries in sequence order, oldest first. -/
def Slot.ordered (x : Slot) : List RingEntry := x.ring.foldl (fun l e => insertOld x e.2 l) []

/-- The ring entries that have faulted, oldest first (R430). -/
def Slot.faulted (x : Slot) : List RingEntry := x.ordered.filter fun e => e.fault.isSome

/-- RINGST (R431). -/
def Slot.ringst (x : Slot) : Word :=
  match (x.faulted.map (·.seq)).min? with
  | none => if x.drop then 1 else 0
  | some n => BitVec.ofNat 64 (n * 2 ^ 32 + 2 ^ 16 + (if x.drop then 1 else 0))

/-- FCTL (R81). -/
def Slot.fctl (x : Slot) : Word := BitVec.ofNat 64 (x.rm.toNat + (if x.flush then 8 else 0))

/-- A trap record register of a level by its number within the level (R387). -/
def TrapRegs.get (t : TrapRegs) (n : Nat) : Word :=
  match n with
  | 0 => t.epc | 1 => t.cause | 2 => t.tval | 3 => t.word | 4 => t.repst | 5 => t.repcnt | _ => t.scratch

/-- The fields of SCAUSE and MCAUSE (R387). -/
def causeMask : Word := 0x000000FFFFFC00FF

/-- The trap record with a register written: SWORD and SREPCNT hold 32 bits, SCAUSE and SREPST their fields (R4). -/
def TrapRegs.set (t : TrapRegs) (n : Nat) (v : Word) : TrapRegs :=
  match n with
  | 0 => { t with epc := v }
  | 1 => { t with cause := v &&& causeMask }
  | 2 => { t with tval := v }
  | 3 => { t with word := v &&& 0xFFFFFFFF }
  | 4 => { t with repst := v &&& repstMask }
  | 5 => { t with repcnt := v &&& 0xFFFFFFFF }
  | _ => { t with scratch := v }

/-- CTXID (R387). -/
def State.ctxid (s : State) (x : Nat) : Word := BitVec.ofNat 64 (s.asid x * 2 ^ 16 + x)

/-- The value of a control register. -/
def State.creg (s : State) (q : Nat) (c : BitVec 12) : Word :=
  let x := s.slot q
  let n := c.toNat
  if n = 0x000 then (placeOf q).setWidth 64
  else if n = 0x001 then x.gen.setWidth 64
  else if n = 0x002 then x.fflags.setWidth 64
  else if n = 0x003 then x.fctl
  else if n = 0x004 then x.seqnext.setWidth 64
  else if n = 0x005 then x.level.setWidth 64
  else if n = 0x006 then BitVec.ofNat 64 s.cycle
  else if n = 0x007 then x.repst
  else if n < 0x010 then x.step (BitVec.ofNat 3 n)
  else if n = 0x010 then x.srseed
  else if n = 0x011 then x.repcnt.setWidth 64
  else if n = 0x012 then x.lastspawn
  else if n = 0x013 then x.cstat.setWidth 64
  else if n = 0x100 then s.reg (ttbaseOff x.ctx)
  else if n < 0x407 then x.strap.get (n - 0x400)
  else if n = 0x407 then s.ctxid x.ctx
  else if n = 0x408 then x.slres.setWidth 64
  else if n = 0x409 then x.ringst
  else if n = 0x40A then (s.core (coreOf q)).sleepd.setWidth 64
  else if n < 0x807 then x.mtrap.get (n - 0x800)
  else x.plevel.setWidth 64

/-- `write_cr` (R154): the RW fields of a control register change; `m` is the mask of the register
written from, which a step register's pointer takes (R153). -/
def State.writeCr (s : State) (q : Nat) (c : BitVec 12) (v : Word) (m : Taint) : State :=
  let x := s.slot q
  let n := c.toNat
  if n = 0x002 then s.setSlot q { x with fflags := v.truncate 5 }
  else if n = 0x003 then
    s.setSlot q { x with
      rm := if fieldOf v 2 0 ≤ 4 then v.truncate 3 else x.rm, flush := v.getLsbD 3 }
  else if 0x008 ≤ n ∧ n < 0x010 then
    let p := BitVec.ofNat 3 n
    s.setSlot q ((x.setStep p v).setPmask p ((x.pmask p).union m))
  else if n = 0x010 then s.setSlot q { x with srseed := v }
  else if n = 0x100 then
    if x.level = 2 then s.setReg (ttbaseOff x.ctx) (v &&& 0x01FFFFFFFFFFF000) else s
  else if 0x400 ≤ n ∧ n < 0x407 then s.setSlot q { x with strap := x.strap.set (n - 0x400) v }
  else if n = 0x409 then s.setSlot q { x with drop := v.getLsbD 0 }
  else if n = 0x40A then
    s.setCore (coreOf q) { s.core (coreOf q) with sleepd := v.truncate 2 }
  else if 0x800 ≤ n ∧ n < 0x807 then s.setSlot q { x with mtrap := x.mtrap.set (n - 0x800) v }
  else if n = 0x807 then
    if fieldOf v 1 0 = 3 then s else s.setSlot q { x with plevel := v.truncate 2 }
  else s

/-- Whether an FFLAGS access must wait (R82): an earlier coprocessor command has neither reached its
result phase nor faulted. -/
def Slot.flagsPending (x : Slot) : Bool :=
  x.ring.any fun e => decide (e.2.phase.toNat < 2) && e.2.fault.isNone

/-- Whether an AFADD is outstanding, whose flags are those of an earlier instruction (R82). -/
def Slot.addPending (x : Slot) : Bool :=
  x.loads.any fun l => match l.kind with
    | .atomic fp => fp
    | _ => false

/-- Whether a counter operation that returns a status is outstanding (R362). -/
def Slot.statusPending (x : Slot) : Bool :=
  x.loads.any fun l => match l.kind with
    | .addOld _ => true
    | .wait _ => true
    | _ => false

/-- A control-register instruction (R154): an access of FFLAGS waits for the flags of every earlier instruction (R82),
one of CSTAT for the status of the most recent counter operation (R362). -/
def crOp (i : Instr) (c : BitVec 12) (s : State) (body : Nat → State → Result) : Result :=
  issue i s fun q s =>
    let x := s.slot q
    if (c = 0x002 ∧ (x.flagsPending ∨ x.addPending)) ∨ (c = 0x013 ∧ x.statusPending) then .next s
    else body q s

/-- The write of CRWR, CRSET and CRCLR, then the next PC. -/
def crWrite (a : BitVec 5) (c : BitVec 12) (f : Word → Word → Word) (q : Nat) (s : State) : Result :=
  let x := s.slot q
  complete q (s.writeCr q c (f (s.creg q c) (x.sreg a)) (x.smask a)) id

/-- CRRD (R154). -/
def execCrrd (d : BitVec 5) (c : BitVec 12) (s : State) : Result :=
  crOp (.crrd d c) c s fun q s => complete q s fun x => x.setS d (s.creg q c) Taint.none

/-- CRWR (R154). -/
def execCrwr (a : BitVec 5) (c : BitVec 12) (s : State) : Result :=
  crOp (.crwr a c) c s (crWrite a c fun _ v => v)

/-- CRSET (R154). -/
def execCrset (a : BitVec 5) (c : BitVec 12) (s : State) : Result :=
  crOp (.crset a c) c s (crWrite a c fun o v => o ||| v)

/-- CRCLR (R154). -/
def execCrclr (a : BitVec 5) (c : BitVec 12) (s : State) : Result :=
  crOp (.crclr a c) c s (crWrite a c fun o v => o &&& ~~~v)

end Sys2Proof.Machine
end

