-- ==== Sys2Proof/Machine/EngineOps.lean ====
section
/-! DEFINITION. What the engines share: the ring (R89, R90), register sets (R88), dispatch (R82, R135),
references (R179), reads and writes by an engine operation (R278), operands of tiles (R180, R181, R204),
faults of commands (R430, R470) and their settlement. -/

namespace Sys2Proof.Machine

/-! ### Words and register sets -/

/-- ENG of a coprocessor word (R87). -/
def wordEng (w : InstrWord) : Nat := w.toNat / 2 ^ 12 % 16
/-- FN of a coprocessor word. -/
def wordFn (w : InstrWord) : Nat := w.toNat / 2 ^ 4 % 256
/-- SEL of a coprocessor word. -/
def wordSel (w : InstrWord) : Nat := w.toNat % 16
/-- Whether a coprocessor word is a CMD. -/
def wordIsCmd (w : InstrWord) : Bool := w.toNat / 2 ^ 26 == 0x2C

/-- Place of a register in the slot's engine register sets (R88). -/
def esetKey (eng set reg : Nat) : Nat := (eng * 4 + set) * 16 + reg

/-- An engine register. -/
def Slot.ereg (x : Slot) (eng set reg : Nat) : Word := getAt 0 x.eset (esetKey eng set reg)

/-- Registers of a set of an engine (R182, R198, R219, R226, R231, R296, R300, R302). -/
def engRegs (eng : Nat) : Nat :=
  match eng with
  | 0 => 4 | 1 => 5 | 2 => 4 | 3 => 8 | 4 => 4 | 5 => 2 | 6 => 7 | _ => 3

/-- The register that counts the commands of an engine that have reached DONE. -/
def doneReg (eng : Nat) : Option Nat :=
  match eng with
  | 0 => some 3 | 1 => some 4 | 2 => some 3 | 3 => some 7 | 4 => some 3 | 6 => some 6 | 7 => some 2 | _ => none

/-- The set whose registers a command copies (R87): the one SEL names, or set 0 of an engine with one. -/
def wordSet (w : InstrWord) : Nat :=
  match wordEng w with
  | 0 => 0 | 1 => 0 | 5 => 0 | _ => wordSel w % 4

/-- The copy of its register set that a command makes at dispatch (R88). -/
def Slot.copySet (x : Slot) (w : InstrWord) : List Word :=
  (List.range (engRegs (wordEng w))).map fun r => x.ereg (wordEng w) (wordSet w) r

/-- The slot with a command of an engine counted as DONE, in every set. -/
def Slot.countDone (x : Slot) (eng : Nat) : Slot :=
  match doneReg eng with
  | some r =>
    let up (m : Store Word) (k : Nat) : Store Word :=
      if k = 0 ∨ 2 ≤ eng then putAt m (esetKey eng k r) (getAt 0 m (esetKey eng k r) + 1) else m
    { x with eset := [0, 1, 2, 3].foldl up x.eset }
  | none => x

/-! ### The ring (R89, R90) -/

/-- The ring entries older than an entry. -/
def Slot.olderThan (x : Slot) (e : RingEntry) : List RingEntry :=
  x.ordered.filter fun f => decide (x.seqAge e.seq < x.seqAge f.seq)

/-- Whether an entry is DONE. -/
def RingEntry.isDone (e : RingEntry) : Bool := e.phase == 3

/-- The slot with the entries freed that are DONE and have none before them that is not (R90). -/
def Slot.reapRing (x : Slot) : Slot :=
  let keep := x.ordered.dropWhile RingEntry.isDone
  { x with ring := x.ring.filter fun e => keep.any fun f => f.seq == e.2.seq }

/-- Whether the entry that the next coprocessor instruction would take is still in use (R90). -/
def Slot.ringFull (x : Slot) : Bool := (findAt x.ring (x.seqnext.toNat % 64)).isSome

/-- The engine of an entry. -/
def RingEntry.eng (e : RingEntry) : Nat := wordEng e.word
/-- The function code of an entry. -/
def RingEntry.fn (e : RingEntry) : Nat := wordFn e.word
/-- SEL of an entry. -/
def RingEntry.sel (e : RingEntry) : Nat := wordSel e.word
/-- A register of the entry's copied set. -/
def RingEntry.reg (e : RingEntry) (r : Nat) : Word := e.eset.getD r 0
/-- The tensor-table entry an entry captured for a TID. -/
def RingEntry.ent (e : RingEntry) (tid : Nat) : List Word :=
  ((e.ents.find? fun p => p.1 == tid).map (·.2)).getD []

/-- Whether the activation has a command on an engine that is not DONE (R88). -/
def Slot.engBusy (x : Slot) (eng : Nat) : Bool :=
  x.ring.any fun e => wordIsCmd e.2.word && e.2.eng == eng && !e.2.isDone

/-- A new entry of the ring (R89, R90): the word, the values of RA and RB, and what R82, R88 and R278
copy at dispatch. -/
def Slot.newEntry (x : Slot) (w : InstrWord) (a b : Word) (before : Nat) : RingEntry where
  seq := x.seqnext.toNat
  before := before
  word := w
  phase := 0
  level := x.level.toNat
  pc := x.pc
  valA := a
  valB := b
  eset := x.copySet w
  rm := x.rm
  flush := x.flush
  seed := x.srseed
  pts := x.pts
  round := x.round
  flags := 0
  permits := []
  fault := none
  staged := []
  stagedAcc := none
  stagedRegs := []
  ents := []
  lines := []
  sent := []
  count := none
  suspended := false
  progress := 0
  parked := false
  stale := false

/-- The slot with an entry dispatched. -/
def Slot.addEntry (x : Slot) (e : RingEntry) : Slot :=
  { x.setEntry e with seqnext := x.seqnext + 1 }

/-! ### References (R179) -/

/-- A tile reference. -/
inductive TileRef where
  | slot (handle k : Nat)
  | tensor (tid t0 t1 t2 t3 : Nat)
  deriving DecidableEq, Repr

/-- A reference word; none where its KIND is reserved or a reserved bit is set. -/
def parseRef (v : Word) : Option TileRef :=
  match fieldOf v 63 62 with
  | 0 => if v.toNat < 2 ^ 12 then some (.slot (fieldOf v 3 0) (fieldOf v 11 4)) else none
  | 1 =>
    if fieldOf v 49 48 = 0 then
      some (.tensor (fieldOf v 61 50) (fieldOf v 11 0) (fieldOf v 23 12) (fieldOf v 35 24) (fieldOf v 47 36))
    else none
  | _ => none

/-- The CB handle of a reference. -/
def refHandle (v : Word) : List Nat :=
  match parseRef v with
  | some (.slot h _) => [h]
  | _ => []

/-- The handles that a command names as sources and as destinations (R191). -/
def RingEntry.handles (e : RingEntry) : List Nat × List Nat :=
  let a := refHandle e.valA
  let b := refHandle e.valB
  match e.eng, e.fn with
  | 0, 1 => (b ++ [fieldOf (e.reg 2) 11 8], [])
  | 0, 3 => (a ++ b, [fieldOf (e.reg 2) 7 4])
  | 0, 4 => ([], [])
  | 0, 5 => (a, [])
  | 0, 6 => ([], a)
  | 0, _ => (a ++ b, [])
  | 1, _ => (a, b)
  | 2, 2 => (b, [])
  | 2, _ => ([], b)
  | 3, 2 => ([], [])
  | 3, _ => (a, b)
  | 4, _ => (a, b)
  | _, _ => ([], [])

/-- Whether a command has still to take a permit (R191): a TWMC takes one on each tile of its mask, an SGG one
for each page. -/
def RingEntry.permitsDue (e : RingEntry) : Bool :=
  if e.eng = 4 then e.phase == 0 || (!e.isDone && decide (e.permits.length < e.stagedRegs.length))
  else if e.eng = 2 ∧ e.fn = 1 then
    e.phase == 0 && decide (e.permits.length < ((List.range 16).filter fun i => (e.reg 0).getLsbD i).length)
  else e.phase == 0 && e.permits == []

/-- Whether a CBAC on a handle must wait for a command that has still to capture it as a source, or a
CBAP for one that has still to take its permits there (R191). -/
def Slot.cbHeld (x : Slot) (h : Nat) (produce : Bool) : Bool :=
  x.ring.any fun e =>
    wordIsCmd e.2.word &&
      (if produce then e.2.handles.2.contains h && e.2.permitsDue else e.2.phase == 0 && e.2.handles.1.contains h)

/-! ### Reads and writes of an engine operation -/

/-- Why a step of an engine operation cannot go on: a fault, or n bytes that it must read first, in one step of
its own, through the constant cache or not. -/
inductive EngStop where
  | fault (f : XFault) (a : Access) (tval : Word)
  | need (key n : Nat) (const : Bool)
  deriving DecidableEq, Repr

/-- The outcome of a part of an engine operation. -/
abbrev Eng (α : Type) := State × (Except EngStop α)

/-- One part after another. -/
def engThen {α β : Type} (r : Eng α) (k : State → α → Eng β) : Eng β :=
  match r with
  | (s, .ok a) => k s a
  | (s, .error e) => (s, .error e)

/-- A part for each item of a list, in order. -/
def engEach {α β : Type} (f : State → α → Eng β) : List α → State → Eng (List β)
  | [], s => (s, .ok [])
  | a :: t, s => engThen (f s a) fun s b => engThen (engEach f t s) fun s bs => (s, .ok (b :: bs))

/-- A fault of an engine operation that no collector takes. -/
def engBad {α : Type} (s : State) (cause reason : BitVec 8) (tval : Word) : Eng α :=
  (s, .error (.fault (xf cause reason) .read tval))

/-- A fault whose STVAL R388 does not name. -/
def engOpen {α : Type} (s : State) (cause reason : BitVec 8) : Eng α :=
  engBad s.openWord.1 cause reason s.openWord.2

/-- Who makes the accesses of a command (R278): the activation, at the level it had at dispatch. -/
def State.engWho (s : State) (q : Nat) (e : RingEntry) : Who := ⟨(s.slot q).ctx, e.level, q⟩

/-- A range of addresses cut at 64 KiB pages, in the spill window at each KiB (R258): address, offset in
the range and length of each piece. -/
def pagePieces (va : Word) (n : Nat) : List (Word × Nat × Nat) :=
  let z := if 0xFFFFFFFFF0000000 ≤ va.toNat ∧ va.toNat < 0xFFFFFFFFF8000000 then 1024 else 65536
  let lo := va.toNat % z
  (List.range ((lo + n + z - 1) / z)).map fun i =>
    let a := max lo (z * i)
    let b := min (lo + n) (z * (i + 1))
    (va + BitVec.ofNat 64 (a - lo), a - lo, b - a)

/-- Not the number of any slot: a read for it takes every thread of a cluster as another (R278). -/
def noSlot : Nat := 2 ^ 40

/-- Dirty bytes of a cluster in a range drain before an engine reads it (R263, R278). -/
def State.drainRange (s : State) (c key n : Nat) : State :=
  (List.range ((key + n + 127) / 128 - key / 128)).foldl
    (fun s i => s.drainLine c noSlot (128 * (key / 128 + i))) s

/-- Whether bytes dirty in a cluster in a range, or on their way out of it, have still to reach their home (R263). -/
def State.rangeDirty (s : State) (c key n : Nat) : Bool :=
  (List.range ((key + n + 127) / 128 - key / 128)).any fun i => s.lineDirty c noSlot (128 * (key / 128 + i))

/-- Bytes that a command reads in one step at a home: a granule of a scratchpad (R213), else a line. -/
def unitSize (key : Nat) : Nat :=
  match homeOf key with
  | .pad _ _ => 1024
  | _ => 128

/-- The units that a run of bytes touches, in ascending order. -/
def unitsOf (key n : Nat) : List Nat :=
  let u := unitSize key
  (List.range ((key + n + u - 1) / u - key / u)).map fun i => u * (key / u + i)

/-- What a command holds of a unit it has read. -/
def RingEntry.unit (e : RingEntry) (k : Nat) : Option (List Byte) := (e.lines.find? fun p => p.1 == k).map (·.2)

/-- Bytes from the units that a command has read: the first it lacks is to be read next. A unit that its home
refused holds the reason alone (R285). (DEDUCED: log entry 27.) -/
def RingEntry.fromUnits (e : RingEntry) (va : Word) (key n : Nat) (const : Bool) : Except EngStop (List Byte) :=
  let ks := unitsOf key n
  match ks.find? fun k => (e.unit k).isNone with
  | some k => .error (.need k (unitSize k) const)
  | none =>
    match ks.find? fun k => decide (((e.unit k).getD []).length < unitSize k) with
    | some k => .error (.fault (nakCause (((e.unit k).getD []).headD 1).toNat) .read va)
    | none => .ok (((ks.flatMap fun k => (e.unit k).getD []).drop (key % unitSize key)).take n)

/-- Why an engine operation may not read bytes at a resolved place (R305, R410, R418). -/
def engReadBad (q : Nat) (s : State) (va : Word) (n : Nat) (l : Loc) : Eng Unit :=
  if s.homeFenced (s.slot q).ctx l.key then engBad s eFenced 0 va
  else if s.anyBad l.key n then engBad (s.detect (some q) l.key n) eAbort 0x02 va
  else
    match homeOf l.key with
    | .reg _ => engBad s eAlign 0 va
    | .ctrl _ _ => engBad s eProt 0x05 va
    | _ => (s, .ok ())

/-- Bytes of one page, read by a command unit by unit, each in a step of its own. -/
def engReadAt (q : Nat) (e : RingEntry) (s : State) (va : Word) (n : Nat) (l : Loc) (const : Bool) : Eng (List Byte) :=
  engThen (engReadBad q s va n l) fun s _ => (s, e.fromUnits va l.key n (const || l.const))

/-- The entry of a command with pts no less than a write timestamp that it has read (R261, R278). -/
def State.engSaw (s : State) (q seq w : Nat) : State :=
  s.modSlot q fun x =>
    match x.entry seq with
    | some e => x.setEntry { e with pts := max e.pts w }
    | none => x

/-- The pts that a command holds now. -/
def State.entryPts (s : State) (q : Nat) (e : RingEntry) : Nat := (((s.slot q).entry e.seq).map (·.pts)).getD e.pts

/-- Bytes of homes in this package read by an engine operation in one step (R261, R263, R278): those of device
memory through the cluster's cache, or with `const` through its constant cache (R259), line by line; and the
operation's pts. (DEDUCED: log entry 27.) -/
def State.unitRead (s : State) (q : Nat) (e : RingEntry) (key n : Nat) (const : Bool) : State × List Byte :=
  let c := clusterOf q
  if const then s.constRead c (s.slot q).ctx key n
  else
    match homeOf key with
    | .dram _ =>
      let (s1, bs) := (List.range ((key + n + 127) / 128 - key / 128)).foldl
        (fun (p : State × List Byte) i =>
          let k := 128 * (key / 128 + i)
          let (s1, d, w) := (p.1.drainLine c noSlot k).loadLine c k (p.1.entryPts q e)
          (s1.engSaw q e.seq w, p.2 ++ d)) (s, [])
      (s1, (bs.drop (key % 128)).take n)
    | _ => (s.engSaw q e.seq (s.tsOver key n), s.mem.readBytes key n)

/-- Bytes of one page, read by an engine operation at once: those of other packages from the lines it has read. Where
bytes that are dirty in its cluster have still to drain, the first line is to be read first. -/
def engReadNow (q : Nat) (e : RingEntry) (s : State) (va : Word) (n : Nat) (l : Loc) : Eng (List Byte) :=
  engThen (engReadBad q s va n l) fun s _ =>
    if isFar l.key then (s, e.fromUnits va l.key n l.const)
    else if s.rangeDirty (clusterOf q) l.key n then (s, .error (.need (128 * (l.key / 128)) 128 l.const))
    else
      let (s1, bs) := s.unitRead q e l.key n l.const
      (s1, .ok bs)

/-- Where the window ends in which an address lies (R250); none for an address outside the windows. -/
def windowEnd (v : Nat) : Option Nat :=
  (windowOf v).map fun w => w.1 + w.2

/-- Whether a range runs past the end of the window in which it starts (R251). -/
def pastWindow (va : Word) (n : Nat) : Bool :=
  match windowEnd va.toNat with
  | some z => decide (z < va.toNat + n)
  | none => false

/-- Bytes at a virtual address, read by a command (R278), with `const` through the constant cache (R69). -/
def engRead (q : Nat) (e : RingEntry) (const : Bool) (s : State) (va : Word) (n : Nat) : Eng (List Byte) :=
  if pastWindow va n then engBad s eXlat 0x04 va
  else
    engThen (engEach (fun s (p : Word × Nat × Nat) =>
      match resolve s (s.engWho q e) p.1 p.2.2 .read with
      | (s1, .error f) => (s1, .error (.fault f .read p.1))
      | (s1, .ok l) => engReadAt q e s1 p.1 p.2.2 l const) (pagePieces va n) s)
      fun s bs => (s, .ok bs.flatten)

/-- Bytes within one page, which a command reads in one step at their slices (R221). (DEDUCED: log entry 27.) -/
def engReadWhole (q : Nat) (e : RingEntry) (s : State) (va : Word) (n : Nat) : Eng (List Byte) :=
  match resolve s (s.engWho q e) va n .read with
  | (s1, .error f) => (s1, .error (.fault f .read va))
  | (s1, .ok l) =>
    engThen (engReadBad q s1 va n l) fun s _ =>
      match e.fromUnits va l.key n l.const with
      | .error (.need k m c) => (s, .error (if isFar k then .need k m c else .need l.key n c))
      | r => (s, r)

/-- Bytes of a CB slot. -/
def slotRead (q : Nat) (e : RingEntry) (s : State) (c : CbInst) (ix off n : Nat) : Eng (List Byte) :=
  let key := c.slotKey ix + off
  if s.anyBad key n then engOpen (s.detect (some q) key n) eAbort 0x02
  else (s, e.fromUnits 0 key n false)

/-- Pieces of a staged write to another package, one line at a time (R314). -/
def linePieces (key : Nat) (bs : List Byte) : List (Nat × List Byte) :=
  (List.range ((key + bs.length + 127) / 128 - key / 128)).map fun i =>
    let lo := max key (128 * (key / 128 + i))
    (lo, (bs.drop (lo - key)).take (128 * (key / 128 + i + 1) - lo))

/-- A write of a command that must be acknowledged before the command is DONE: it is outstanding and counts
(R271, R308), under the identifier that follows. -/
def State.engSent (s : State) (q seq key : Nat) : State :=
  let id := s.nextId
  ((s.outstanding q id key).modSlot q fun x =>
    let y := x.countSent q key
    match y.entry seq with
    | some e => y.setEntry { e with sent := id :: e.sent }
    | none => y).useId

/-- Bytes written at a resolved place by an engine operation, with its pts (R211, R261, R325): those for another
package leave as writes that the command waits for; keys of registered tensors widen their summaries (R218). -/
def State.engPut (s : State) (q seq : Nat) (l : Loc) (va : Word) (bs : List Byte) (tag : Nat)
    (widen : List Widen) : State :=
  let e := ((s.slot q).entry seq).map (·.pts) |>.getD 0
  match homeOf l.key with
  | .far _ _ =>
    (linePieces l.key bs).foldl (fun s p =>
      match homeOf p.1 with
      | .far pk o =>
        let s1 := s.engSent q seq p.1
        s1.farSend { farRequest s1 q none s.nextId pk o tyWrite l.ord true
          (BitVec.ofNat 64 p.2.length :: BitVec.ofNat 64 e :: bytesWords p.2) with va := va }
      | _ => s) s
  | h =>
    let (s1, w) := s.bulkWrite l.key bs tag e
    let s2 := s1.engSaw q seq w
    match widen, h with
    | i :: t, .dram _ => (s2.engSent q seq l.key).ackOrWiden q s2.nextId l.key bs.length (i :: t) w
    | _, _ => s2

/-- A staged write of whole bytes. -/
def stagedAt (key : Nat) (va : Word) (data : List Byte) (tag : Nat) : StagedWrite := ⟨key, va, data, tag, 0, 0, false⟩

/-- Bytes with `lo` low bits of the first and `hi` high bits of the last taken from the bytes that stood there. -/
def keepEdges (lo hi : Nat) (old bs : List Byte) : List Byte :=
  bs.mapIdx fun i b =>
    let o := (old.getD i 0).toNat
    let l := if i = 0 then lo else 0
    let h := if i + 1 = bs.length then 8 - hi else 8
    BitVec.ofNat 8 (o % 2 ^ l + b.toNat % 2 ^ h / 2 ^ l * 2 ^ l + o / 2 ^ h * 2 ^ h)

/-- A staged write of a command performed (R194, R209, R305): page by page, in order, stopping at the
first page that it may not write. Uncorrectable data at its home stops it too (R284). -/
def engWrite (q seq : Nat) (e : RingEntry) (s : State) (w : StagedWrite) : Eng Unit :=
  if w.key ≠ 0 then
    if s.anyBad w.key w.data.length then engOpen (s.detect (some q) w.key w.data.length) eAbort 0x02
    else (s.engPut q seq ⟨w.key, false, false, true⟩ w.va w.data w.tag [], .ok ())
  else if w.past then (s, .error (.fault (xf eXlat 0x04) .write w.va))
  else
    engThen (engEach (fun s (p : Word × Nat × Nat) =>
      match resolve s (s.engWho q e) p.1 p.2.2 .write with
      | (s1, .error f) => (s1, .error (.fault f .write p.1))
      | (s1, .ok l) =>
        let bad (c r : BitVec 8) : Eng Unit := (s1, .error (.fault (xf c r) .write p.1))
        if s1.homeFenced (s1.slot q).ctx l.key then bad eFenced 0
        else if s1.anyBad l.key p.2.2 then
          (s1.detect (some q) l.key p.2.2, .error (.fault (xf eAbort 0x02) .write p.1))
        else
          match homeOf l.key with
          | .reg _ => bad eAlign 0
          | .ctrl _ _ => bad eProt 0x05
          | _ =>
            let bs := (w.data.drop p.2.1).take p.2.2
            let lo := if p.2.1 = 0 then w.keepLo else 0
            let hi := if p.2.1 + p.2.2 = w.data.length then w.keepHi else 0
            engThen (if lo + hi = 0 then (s1, .ok bs) else engReadNow q e s1 p.1 p.2.2 l) fun s old =>
              let (s2, wd) := s.widenFor (s.engWho q e) p.1
              (s2.engPut q seq l p.1 (keepEdges lo hi old bs) w.tag wd, .ok ())) (pagePieces w.va w.data.length) s)
      fun s _ => (s, .ok ())

/-- The place in a scratchpad or a bank that a window address of a slot names (R250); none for any other
address. (DESIGN CHOICE: log entry 101.) -/
def windowPlace (q v : Nat) : Option Nat :=
  if 0xFFFFFFFFFFFE0000 ≤ v then some (padKey (tileOf q) (v - 0xFFFFFFFFFFFE0000))
  else if 0xFFFFFFFFFFC00000 ≤ v ∧ v < 0xFFFFFFFFFFE00000 then some (bankKey (clusterOf q) 0 (v - 0xFFFFFFFFFFC00000))
  else if windowFloor ≤ v ∧ v < 0xFFFFFFFFF0000000 then some (padKey (2048 * dieOf (clusterOf q)) (v - windowFloor))
  else none

/-- Whether two ranges of n bytes share one. -/
def rangesMeet (a b n : Nat) : Bool := decide (a < b + n) && decide (b < a + n)

/-- Whether a command is a BCOPY whose ranges do not overlap, by the addresses it names (R304, R425). -/
def copyByLines (q : Nat) (e : RingEntry) : Bool :=
  let n := (e.reg 0).toNat
  let a := e.valA.toNat
  let b := e.valB.toNat
  e.eng == 7 && e.fn == 0 && !rangesMeet a b n &&
    (match windowPlace q a, windowPlace q b with
      | some i, some j => !rangesMeet i j n
      | _, _ => true)

/-- Bytes that an engine writes in one step at an address (R277): a granule of a scratchpad, else a line. -/
def unitAt (w : StagedWrite) : Nat :=
  if w.key ≠ 0 then (match homeOf w.key with | .pad _ _ => 1024 | _ => 128)
  else if 0xFFFFFFFFFFE00000 ≤ w.va.toNat ∧ w.va.toNat < 0xFFFFFFFFFFFE0000 then 128
  else if 0xFFFFFFFFFFC00000 ≤ w.va.toNat ∧ w.va.toNat < 0xFFFFFFFFFFE00000 then 128
  else if windowFloor ≤ w.va.toNat then 1024
  else 128

/-- A staged write cut where one step ends (R277). -/
def writePieces (w : StagedWrite) : List StagedWrite :=
  let u := unitAt w
  let lo := (if w.key ≠ 0 then w.key else w.va.toNat) % u
  (List.range ((lo + w.data.length + u - 1) / u)).map fun i =>
    let a := max lo (u * i) - lo
    let b := min (lo + w.data.length) (u * (i + 1)) - lo
    { w with
      key := if w.key ≠ 0 then w.key + a else 0, va := w.va + BitVec.ofNat 64 a, data := (w.data.drop a).take (b - a),
      keepLo := if a = 0 then w.keepLo else 0, keepHi := if b = w.data.length then w.keepHi else 0,
      past := w.key = 0 ∧ pastWindow w.va b }

/-! ### Operands -/

/-- How the elements of a tile are held: format code, scaled, 2:4 compressed, rows and columns. -/
structure TileForm where
  fmt : Nat
  scaled : Bool
  sparse : Bool
  rows : Nat
  cols : Nat
  deriving DecidableEq, Repr

/-- Whether a format takes block scales (R125). -/
def scalable (f : Nat) : Bool := decide (3 ≤ f) && decide (f ≤ 6)

/-- Elements of a block: 64 for QN4, else 32 (R123, R125). -/
def blockLen (f : Nat) : Nat := if f = 7 then 64 else 32

/-- The next multiple of 64. -/
def up64 (n : Nat) : Nat := (n + 63) / 64 * 64

/-- Blocks of a tile. -/
def TileForm.blocks (t : TileForm) : Nat := t.rows * t.cols / blockLen t.fmt

/-- Whether the tile has scale bytes. -/
def TileForm.hasScales (t : TileForm) : Bool := t.fmt == 7 || t.scaled

/-- Elements stored: half of a compressed tile's positions. -/
def TileForm.stored (t : TileForm) : Nat := if t.sparse then t.rows * t.cols / 2 else t.rows * t.cols

/-- Offset of the index fields of a compressed tile in a slot (R204). -/
def TileForm.indexOff (t : TileForm) : Nat := up64 (packedBytes t.fmt t.stored)

/-- Offset of the scale bytes in a slot (R181, R204). -/
def TileForm.scaleOff (t : TileForm) : Nat :=
  if t.sparse then up64 (t.indexOff + t.rows * t.cols / 8) else up64 (packedBytes t.fmt t.stored)

/-- Offset of the QN4 superscale in a slot (R181). -/
def TileForm.superOff (t : TileForm) : Nat := up64 (t.scaleOff + t.blocks)

/-- Bytes that the tile needs in a slot (R181, R204). -/
def TileForm.slotNeed (t : TileForm) : Nat :=
  if t.fmt = 7 then t.superOff + 4
  else if t.scaled then t.scaleOff + t.blocks
  else if t.sparse then t.indexOff + t.rows * t.cols / 8
  else packedBytes t.fmt t.stored

/-- A captured tile: the stored elements in order, the index fields of a compressed one, and for each
block its scale byte, its superscale and the number that names it in a trap (R127). -/
structure Captured where
  form : TileForm
  elems : List Nat
  index : List Nat
  scales : List Nat
  supers : List Nat
  names : List Nat
  deriving DecidableEq, Repr

/-- The elements of packed bytes. -/
def unpack (f n : Nat) (bs : List Byte) : List Nat :=
  let v := leNat bs
  (List.range n).map fun i => packedElem (fmtBits f) v i

/-- n elements of w bits read from a bit offset of an address. -/
def bitsRead (q : Nat) (re : RingEntry) (const : Bool) (va : Word) (bit w n : Nat) (s : State) : Eng (List Nat) :=
  engThen (engRead q re const s (va + BitVec.ofNat 64 (bit / 8)) ((bit % 8 + n * w + 7) / 8)) fun s bs =>
    let v := leNat bs / 2 ^ (bit % 8)
    (s, .ok ((List.range n).map fun i => packedElem w v i))

/-- The pattern of a source element outside the extents (R180). -/
def absentElem (f : Nat) : Nat := if f = 7 then 8 else 0

/-- A tile captured from a CB slot (R181, R204). -/
def captureSlot (q : Nat) (e : RingEntry) (s : State) (c : CbInst) (ix : Nat) (t : TileForm) : Eng Captured :=
  engThen (slotRead q e s c ix 0 t.slotNeed) fun s bs =>
    (s, .ok {
      form := t
      elems := unpack t.fmt t.stored bs
      index := if t.sparse then unpack 9 (t.rows * t.cols / 4) (bs.drop t.indexOff) else []
      scales := if t.hasScales then (bs.drop t.scaleOff).take t.blocks |>.map (·.toNat) else []
      supers := if t.fmt = 7 then List.replicate t.blocks (leNat ((bs.drop t.superOff).take 4)) else []
      names := List.range t.blocks })

/-- The bytes that hold n elements of w bits from a bit offset of an address. -/
def bitSpan (va : Word) (bit w n : Nat) : Word × Nat := (va + BitVec.ofNat 64 (bit / 8), (bit % 8 + n * w + 7) / 8)

/-- The ranges that one row of a tile reads in a tensor. -/
def rowSpans (e : List Word) (t : TileForm) (i0 i2 i3 i1 : Nat) : List (Word × Nat) :=
  if tExt e 1 ≤ i1 ∨ tExt e 2 ≤ i2 ∨ tExt e 3 ≤ i3 ∨ tExt e 0 ≤ i0 then []
  else
    let half (n : Nat) : Nat := if t.sparse then n / 2 else n
    let n := min t.cols (tExt e 0 - i0)
    let row := rowOffset e i1 i2 i3
    bitSpan (tensorVa e row) (half i0 * fmtBits t.fmt) (fmtBits t.fmt) (half n) ::
      (if t.sparse then [bitSpan (tensorVa e (row + up64 (packedBytes t.fmt (tExt e 0 / 2)))) i0 4 (n / 4)] else [])

/-- The ranges that the scales of the block of an element are read from. -/
def scaleSpans (e : List Word) (f i2 i3 : Nat) (p : Nat × Nat) : List (Word × Nat) :=
  let (i1, i0) := p
  if tExt e 1 ≤ i1 ∨ tExt e 2 ≤ i2 ∨ tExt e 3 ≤ i3 ∨ tExt e 0 ≤ i0 then []
  else
    let b := linearElem e i0 i1 i2 i3 / blockLen f
    (scaleVa e b, 1) :: (if f = 7 then [(superVa e b, 4)] else [])

/-- Ranges in ascending order of their addresses. -/
def ascending (l : List (Word × Nat)) : List (Word × Nat) :=
  let put (p : Word × Nat) (m : List (Word × Nat)) : List (Word × Nat) :=
    m.takeWhile (fun r => decide (r.1.toNat < p.1.toNat)) ++ p :: m.dropWhile (fun r => decide (r.1.toNat < p.1.toNat))
  l.foldr put []

/-- The units that an operand lies in, read in ascending order of address (R213). -/
def captureSpans (q : Nat) (re : RingEntry) (const : Bool) (l : List (Word × Nat)) (s : State) : Eng Unit :=
  engThen (engEach (fun s (p : Word × Nat) => engRead q re const s p.1 p.2) (ascending l) s) fun s _ => (s, .ok ())

/-- One row of a tile in a tensor (R69, R180, R204): elements (r, i0 …) as stored, and index fields.
(DESIGN CHOICE: log entry 92.) -/
def captureRow (q : Nat) (re : RingEntry) (e : List Word) (t : TileForm) (i0 i2 i3 : Nat) (s : State)
    (i1 : Nat) : Eng (List Nat × List Nat) :=
  let w := fmtBits t.fmt
  let half (n : Nat) : Nat := if t.sparse then n / 2 else n
  let blank := (List.replicate (half t.cols) (absentElem t.fmt), if t.sparse then List.replicate (t.cols / 4) 4 else [])
  if tExt e 1 ≤ i1 ∨ tExt e 2 ≤ i2 ∨ tExt e 3 ≤ i3 ∨ tExt e 0 ≤ i0 then (s, .ok blank)
  else
    let n := min t.cols (tExt e 0 - i0)
    let row := rowOffset e i1 i2 i3
    engThen (bitsRead q re (tConstant e) (tensorVa e row) (half i0 * w) w (half n) s) fun s ns =>
      let es := ns ++ List.replicate (half t.cols - half n) (absentElem t.fmt)
      if t.sparse then
        let at_ := up64 (packedBytes t.fmt (tExt e 0 / 2))
        engThen (bitsRead q re (tConstant e) (tensorVa e (row + at_)) i0 4 (n / 4) s) fun s xs =>
          (s, .ok (es, xs ++ List.replicate (t.cols / 4 - n / 4) 4))
      else (s, .ok (es, []))

/-- The scale byte and superscale of the block of a tensor that holds an element, and its number (R71,
R180): outside the extents a zero scale under a superscale of 1. -/
def captureScale (q : Nat) (re : RingEntry) (e : List Word) (f : Nat) (i2 i3 : Nat) (s : State)
    (p : Nat × Nat) : Eng (Nat × Nat × Nat) :=
  let (i1, i0) := p
  if tExt e 1 ≤ i1 ∨ tExt e 2 ≤ i2 ∨ tExt e 3 ≤ i3 ∨ tExt e 0 ≤ i0 then
    (s, .ok (if f = 7 then 0 else 0x78, 0x3F800000, 0))
  else
    let b := linearElem e i0 i1 i2 i3 / blockLen f
    engThen (engRead q re (tConstant e) s (scaleVa e b) 1) fun s bs =>
      if f = 7 then
        engThen (engRead q re (tConstant e) s (superVa e b) 4) fun s ws => (s, .ok (leNat bs, leNat ws, b))
      else (s, .ok (leNat bs, 0x3F800000, b))

/-- A tile captured from a tensor, its rows being the given indices of dimension 1 (R180, R203); the granules and lines that
it lies in are read in ascending order first (R213). -/
def captureTensor (q : Nat) (re : RingEntry) (e : List Word) (t : TileForm) (t0 t2 t3 : Nat) (rows : List Nat)
    (s : State) : Eng Captured :=
  let i0 := t0 * t.cols
  let places := rows.flatMap fun i1 =>
    (List.range (t.cols / blockLen t.fmt)).map fun j => (i1, i0 + j * blockLen t.fmt)
  let spans := rows.flatMap (rowSpans e t i0 t2 t3) ++ (if t.hasScales then places.flatMap (scaleSpans e t.fmt t2 t3) else [])
  engThen (captureSpans q re (tConstant e) spans s) fun s _ =>
  engThen (engEach (captureRow q re e t i0 t2 t3) rows s) fun s rs =>
    engThen (if t.hasScales then engEach (captureScale q re e t.fmt t2 t3) places s else (s, .ok [])) fun s ss =>
      (s, .ok {
        form := t
        elems := rs.flatMap (·.1)
        index := rs.flatMap (·.2)
        scales := ss.map (·.1)
        supers := ss.map (·.2.1)
        names := ss.map (·.2.2) })

/-- The value of an element of an unscaled format. -/
def plainVal (f n : Nat) : Val :=
  if f ≤ 6 then (fmtOfTy (BitVec.ofNat 4 f)).decode n
  else if f = 8 then .ofInt (toSigned 8 n)
  else if f = 9 then .ofInt (toSigned 4 n)
  else if f = 10 then .ofInt n
  else .ofInt (toSigned 32 n)

/-- An element times its xs8 scale (R125, R126): the exact value, and NV where it has none. -/
def xs8Val (f n sc : Nat) : Val × BitVec 5 :=
  let v := plainVal f n
  if sc = 0xFF then (.nan, flagNV)
  else
    match v with
    | .nan => if sc = 0 then (.nan, flagNV) else (.nan, 0)
    | .inf neg => if sc = 0 then (.nan, flagNV) else (.inf neg, 0)
    | .fin neg _ => if sc = 0 then (.fin neg 0, 0) else ((Val.mul v (FpFmt.xs8.decode sc)).1, 0)

/-- The effective QN4 scales of the blocks of a captured tile (R123), or the first bad block (R127). -/
def Captured.qnScales (c : Captured) : Except Nat (List Val) :=
  let rec go : List Nat → List Nat → List Nat → List Val → Except Nat (List Val)
    | b :: bs, g :: gs, n :: ns, acc =>
      match qn4Scale g b with
      | some v => go bs gs ns (v :: acc)
      | none => .error n
    | _, _, _, acc => .ok acc.reverse
  go c.scales c.supers c.names []

/-- The values of the logical elements of a captured tile, with the flags of their decoding (R123,
R125, R126, R204); a position that a compressed tile does not keep has none. -/
def Captured.values (c : Captured) : Except Nat (List (Option Val) × BitVec 5) :=
  let t := c.form
  if t.fmt = 7 then
    match c.qnScales with
    | .error b => .error b
    | .ok ss =>
      .ok (c.elems.mapIdx (fun i n =>
        some (Val.mul (qn4Val n) (ss.getD (i / 64) (.fin false 0))).1), 0)
  else
    let scaleOf (pos : Nat) : Nat := c.scales.getD (pos / 32) 0x78
    let one (pos n : Nat) : Val × BitVec 5 :=
      if t.scaled then xs8Val t.fmt n (scaleOf pos) else (plainVal t.fmt n, 0)
    let vs : List (Option (Val × BitVec 5)) :=
      if t.sparse then
        (List.range (t.rows * t.cols)).map fun pos =>
          let g := pos / 4
          let ix := c.index.getD g 4
          if ix % 4 = pos % 4 then some (one pos (c.elems.getD (2 * g) 0))
          else if ix / 4 = pos % 4 then some (one pos (c.elems.getD (2 * g + 1) 0))
          else none
      else c.elems.mapIdx fun i n => some (one i n)
    .ok (vs.map (·.map (·.1)), vs.foldl (fun f v => match v with | some p => f ||| p.2 | none => f) 0)

/-- Whether every index field of a compressed tile names rising positions (R204). -/
def Captured.indexOk (c : Captured) : Bool := c.index.all fun ix => decide (ix % 4 < ix / 4)

/-- The bits that ESET keeps of an engine register: TCDG's reserved bits are ignored (R4, R226).
(DESIGN CHOICE: log entry 88.) -/
def engRegMask (eng r : Nat) : Word := if eng = 5 ∧ r = 0 then 0x7F else BitVec.allOnes 64

/-- The bits of an engine's writable register that are not reserved, as an EGET reads them (R4, R182, R183, R198, R199, R219,
R231, R232, R296, R300, R302). A command's own copy keeps what was written, since a reserved bit may be an error of the command
(R233). (DESIGN CHOICE: log entry 88.) -/
def engReadMask (eng r : Nat) : Word :=
  match eng, r with
  | 0, 0 => 0x3F | 0, 1 => 0x3F3F | 0, 2 => 0xFFFF3
  | 1, 0 => 0x7F7F | 1, 1 => 0x3F3F | 1, 2 => 0x3 | 1, 3 => 0xFFFFFFFF
  | 2, 0 => 0xFFFF | 2, 1 => 0x3 | 2, 2 => 0x1FFFFFFFFFFFFF0
  | 3, 0 => 0xFFF | 3, 1 => 0xFFFFFFFF | 3, 2 => 0x1FFF | 3, 3 => 0x10FFF | 3, 4 => 0xFFFFFFFF | 3, 5 => 0x1F
  | 4, 0 => 0xFFF | 4, 1 => 0x1 | 4, 2 => 0x1FFFFFFFFFFFFF0
  | 5, 0 => 0x7F
  | 6, 0 => 0x1FFFFFFFFFFFFFF | 6, 1 => 0x1F7F7F
  | 7, 0 => 0xFFFFFFFF | 7, 1 => 0x1FFFFFFFFFFFFF0
  | _, _ => BitVec.allOnes 64

/-! ### Faults and settlement -/

/-- A command of an engine stops at a fault: before its capture the fault is collected where the
context collects (R394), and otherwise ENGINE_FAULT follows at once. -/
def State.engStop (s : State) (q seq : Nat) (f : XFault) (a : Access) (tval : Word) : State :=
  match (s.slot q).entry seq with
  | none => s
  | some e =>
    if f.cause = shadowFull then s.shadowOverflow q
    else if f.collect ∧ e.phase = 0 ∧ s.collects (s.slot q).ctx then
      s.push (.trapMessageAtCollector (faultMsg s q f a tval (some seq) e.word))
    else s.pushNext (.engineFault q seq f.cause f.reason tval)

/-- A line of another package is asked for (R261, R325) by a reader with timestamp pts, under an identifier. -/
def State.askLine (s : State) (q id pts key : Nat) : State :=
  match homeOf key with
  | .far p o =>
    s.farSend { farRequest s q none id p o tyRead true false
      [BitVec.ofNat 64 pts, 0, 128] with va := BitVec.ofNat 64 key }
  | _ => s

/-- The identifier of a read that an instruction of a slot makes of a line of another package. -/
def ownRead : Nat := 1

/-- A line of another package for an instruction of a slot, whose pts it raises (R261), or why it is refused, once it has
come. -/
def State.ownLine (s : State) (q line : Nat) : State × Option (Except XFault (List Byte)) :=
  match findAt s.hubLines (ownKey q line) with
  | some (w, bs) =>
    let s1 := { s with hubLines := delAt s.hubLines (ownKey q line) }.modSlot q fun x => { x with pts := max x.pts w }
    (s1, some (if bs.length < 128 then .error (nakCause (bs.headD 1).toNat) else .ok bs))
  | none => (s, none)

/-- Whether an instruction of a slot awaits a line of another package. -/
def State.ownAsked (s : State) (q : Nat) : Bool :=
  s.farReqs.any fun r => r.thread == some q && r.serial == none && !r.store && r.id == ownRead

/-- Whether a command has asked for a line that has not come. -/
def State.engAsked (s : State) (q seq : Nat) : Bool :=
  s.farReqs.any fun r => r.thread == some q && (r.id == engRead0 + seq || r.id == engReadConst + seq)

/-- What a command needs is read, behind the dirty bytes of its cluster (R263, R278): bytes of this package at once, a line
of another from the constant cache where it is constant and held there (R259), else by a request, whose answer joins the
command's lines. -/
def State.engFetch (s : State) (q seq key n : Nat) (const : Bool) : State :=
  match (s.slot q).entry seq with
  | none => s
  | some e =>
    let keep (s : State) (ls : List (Nat × List Byte)) : State :=
      s.modSlot q fun x =>
        match x.entry seq with
        | some e => x.setEntry { e with lines := e.lines ++ ls }
        | none => x
    let c := clusterOf q
    let s0 := s.drainRange c key n
    if s0.rangeDirty c key n ∨ (isFar key ∧ s0.clusterOut c noSlot key) then s0
    else if isFar key then
      if s0.engAsked q seq then s0
      else if const then
        match s0.constPair c (s.slot q).ctx key with
        | (s1, some bs) => keep s1 [(key, bs)]
        | (s1, none) => s1.askLine q (engReadConst + seq) e.pts key
      else s0.askLine q (engRead0 + seq) e.pts key
    else
      let (s1, bs) := s0.unitRead q e key n const
      let u := unitSize key
      keep s1 (((chunks u (n / u) bs).zipIdx.map fun p => (key + u * p.2, p.1)))

/-- Whether a fault of a command cannot be replayed (R430). -/
def fatalCause (c : BitVec 8) : Bool := c == eIll || c == eCb || c == eScale || c == eWalk

/-- The slot with the end status of a walk in the registers of its set (R231). -/
def Slot.walkStatus (x : Slot) (e : RingEntry) : Slot :=
  if e.eng = 6 then
    { x with eset := e.stagedRegs.foldl (fun m r => putAt m (esetKey 6 (wordSet e.word) r.1) r.2) x.eset }
  else x

/-- Whether an engine performs the commands of an activation one after another, so that a command sees what every earlier
one wrote (R189, R208, R225, R295): any but the TWE and the walker. -/
def oneByOne (eng : Nat) : Bool := eng != 2 && eng != 6

/-- The slot in which the commands of an engine that ends one with timestamp w see its writes (R189, R261, R295). -/
def Slot.followers (x : Slot) (eng w : Nat) : Slot :=
  if oneByOne eng then
    { x with ring := x.ring.map fun e => (e.1, if e.2.eng = eng then { e.2 with pts := max e.2.pts w } else e.2) }
  else x

/-- A command ends (R90): its entry is DONE, its engine's count rises and entries are freed. -/
def Slot.finish (x : Slot) (e : RingEntry) : Slot :=
  (((({ x with pts := max x.pts e.pts }.followers e.eng e.pts).walkStatus e).setEntry
    { e with phase := 3, fault := none, staged := [], stagedAcc := none, lines := [] }).countDone e.eng).reapRing

/-- The permits that a command still holds. A WSTART's entry names the slots that its walk has filled, which
the walk has spent its permits on, but for the last where the walk could not write it (R244). -/
def RingEntry.heldPermits (e : RingEntry) : List (CbKey × Nat) :=
  if e.eng = 6 then (if e.parked then e.permits.getLast?.toList else []) else e.permits

/-- A command ends with no effect (R430): a held permit's slot counts in FILLED with its bytes as they
are. (DEDUCED: log entry 43.) -/
def State.settleEmpty (s : State) (q : Nat) (e : RingEntry) : State :=
  e.heldPermits.foldl (fun s p => s.cbFill p.1 p.2 (s.entryPts q e)) (s.modSlot q fun x => x.finish { e with permits := [] })

/-- Whether the trap of a faulted entry has been delivered. -/
def State.delivered (s : State) (q : Nat) (e : RingEntry) : Bool :=
  !((s.slot q).heldTraps.any fun t => t.seq == some (BitVec.ofNat 12 e.seq)) &&
    !(s.agenda.any fun ev => match ev with
      | .trapDelivery r t => r == q && t.seq == some (BitVec.ofNat 12 e.seq)
      | _ => false)

/-- A delivered faulted entry settled when ERET returns to T (R430). (DEDUCED: log entry 43.) -/
def State.settleOne (s : State) (q : Nat) (dropped : Bool) (e : RingEntry) : State :=
  if dropped then s.settleEmpty q e
  else
    (s.modSlot q fun x => x.setEntry
      (if e.phase = 0 then { e with fault := none, ents := [], lines := [] } else { e with fault := none, progress := 0 })).push
      (if e.phase = 0 then .cbPermit q e.seq else .engineDone q e.seq)

/-- The settlement of ERET (R430): every delivered faulted entry in sequence order, and DROP clear.
(DEDUCED: log entry 43.) -/
def State.settle (s : State) (q : Nat) : State :=
  let x := s.slot q
  ((x.faulted.filter (s.delivered q)).foldl (fun s e => s.settleOne q x.drop e) s).modSlot q fun x =>
    { x with drop := false, fatal := [] }

end Sys2Proof.Machine
end

