-- ==== Sys2Proof/Machine/HubMem.lean ====
section
/-! DEFINITION. Memory as the hub and the NIs read and write it for a context (R351, R353, R355, R395),
and the words that one instruction of a slot reads at once (R363, R366, R367, R407). -/

namespace Sys2Proof.Machine

/-- What a read of a block of words gives. -/
inductive Got where
  | wait
  | fault (f : XFault)
  | words (ws : List Word) (wts : Nat)
  deriving DecidableEq, Repr

/-- The words that a run of bytes holds. -/
def byteWords (bs : List Byte) (n : Nat) : List Word :=
  (List.range n).map fun i => BitVec.ofNat 64 (leNat ((bs.drop (8 * i)).take 8))

/-- The identity of the hub's accesses for a context: level S, through a cluster of its Calderas.
(DEDUCED: log entry 12.) -/
def State.hubWho (s : State) (x : Nat) : Who := ⟨x, 1, slotNum (16 * (s.usableList x).headD 0) 0 0⟩

/-- Whether the hub has asked for a line of another package. -/
def State.hubAsked (s : State) (va : Word) : Bool :=
  s.farReqs.any fun r => r.thread == none && !r.store && r.va == va

/-- The key of the hub's copy of a line asked for at a virtual address of a context. -/
def hubKey (key : Nat) : Nat := key / 128

/-- n words, of at most one line, read for a context by the hub (R351): an acquire. A line of another
package is asked for first. (DEDUCED: log entry 12.) -/
def State.hubWords (s : State) (x : Nat) (va : Word) (n : Nat) : State × Got :=
  match resolve s (s.hubWho x) va (8 * n) .read with
  | (s1, .error f) => (s1, .fault f)
  | (s1, .ok l) =>
    match homeOf l.key with
    | .far p o =>
      match findAt s1.hubLines (hubKey l.key) with
      | some (w, bs) =>
        ({ s1 with hubLines := delAt s1.hubLines (hubKey l.key) },
          if bs.length < 128 then .fault (nakCause ((bs.headD 1).toNat))
          else .words (byteWords (bs.drop (l.key % 128)) n) w)
      | none =>
        let lva := BitVec.ofNat 64 (hubKey l.key)
        if s1.hubAsked lva then (s1, .wait)
        else
          (s1.farSend
            { thread := none, serial := none, id := hubKey l.key, dst := s1.domNode p, ty := tyRead, ord := true,
              vclass := 0, addr := p * 2 ^ 42 + o / 128 * 128, payload := [0, 0, 128], pkey := s1.pkey x,
              tc := s1.tc x, store := false, va := lva, ctx := some x }, .wait)
    | .reg _ => (s1, .fault (xf eAlign 0))
    | _ =>
      if s1.anyBad l.key (8 * n) then (s1.detect none l.key (8 * n), .fault (xf eAbort 0x02))
      else (s1, .words (s1.mem.words l.key n) (s1.tsOver l.key (8 * n)))

/-- A line of another package for an instruction of a slot: of a constant page through its cluster's constant cache, which
a line that has come joins (R259). -/
def State.ownLineOf (s : State) (q line : Nat) (const : Bool) : State × Option (Except XFault (List Byte)) :=
  let c := clusterOf q
  let x := (s.slot q).ctx
  match (if const then s.constPair c x line else (s, none)) with
  | (s1, some bs) => (s1, some (.ok bs))
  | (s1, none) =>
    match s1.ownLine q line with
    | (s2, some (.ok bs)) => (if const then s2.constKeepPair c x line bs else s2, some (.ok bs))
    | r => r

/-- n words, of at most one line, read by an instruction of a slot (R259, R261, R263, R283, R284): behind its own stores to
the line and the dirty bytes of its cluster, from the cluster's caches or the home. A line of another package is asked for
first. -/
def State.slotWords (s : State) (q : Nat) (va : Word) (n : Nat) : State × Got :=
  match resolve s (s.who q) va (8 * n) .read with
  | (s1, .error f) => (s1, .fault f)
  | (s1, .ok l) =>
    let x := s1.slot q
    if s1.homeFenced x.ctx l.key then (s1, .fault (xf eFenced 0))
    else if (s1.dirty.any fun w => w.thread == q && w.key / 128 == l.key / 128) || s1.lineOut q l.key s1.nextId then
      (s1.drainThread q, .wait)
    else
      let c := clusterOf q
      let s2 := s1.drainLine c q l.key
      if s2.lineDirty c q l.key || (isFar l.key && s2.clusterOut c q l.key) then (s2, .wait)
      else
        match homeOf l.key with
        | .far _ _ =>
          match s2.ownLineOf q (l.key / 128 * 128) l.const with
          | (s3, some (.ok bs)) => (s3, .words (byteWords (bs.drop (l.key % 128)) n) (s3.slot q).pts)
          | (s3, some (.error f)) => (s3, .fault f)
          | (s3, none) => (if s3.ownAsked q then s3 else s3.askLine q ownRead x.pts (l.key / 128 * 128), .wait)
        | .reg _ => (s2, .fault (xf eAlign 0))
        | .ctrl c o => (s2, .words ((List.range n).map fun i => s2.ctrlValue c (o + 8 * i)) 0)
        | h =>
          if s2.anyBad l.key (8 * n) then (s2.detect (some q) l.key (8 * n), .fault (xf eAbort 0x02))
          else if l.const then
            let (s3, bs) := s2.constRead c x.ctx l.key (8 * n)
            (s3, .words (byteWords bs n) 0)
          else
            match h with
            | .dram _ =>
              let (s3, d, w) := s2.loadLine c l.key x.pts
              (s3.modSlot q fun x => { x with pts := max x.pts w }, .words (byteWords (d.drop (l.key % 128)) n) w)
            | _ =>
              let w := s2.tsOver l.key (8 * n)
              (s2.modSlot q fun x => { x with pts := max x.pts w }, .words (s2.mem.words l.key n) w)

/-- Bytes that the hub or an NI writes for a context at a virtual address (R355, R395, R402, R428), within one
page: performed at their home, or sent to it; not written where the address does not resolve.
(DEDUCED: log entry 12.) -/
def State.hubWrite (s : State) (w : Who) (va : Word) (bs : List Byte) (pts : Nat) : State × Bool :=
  match resolve s w va bs.length .write with
  | (s1, .error _) => (s1, false)
  | (s1, .ok l) =>
    match homeOf l.key with
    | .far p o =>
      ((chunks 120 (bs.length / 120 + 1) bs).zipIdx.foldl (fun (s : State) b =>
        if b.1 = [] then s
        else
          s.farSend
            { thread := none, serial := none, id := 0, dst := s.domNode p, ty := tyWrite, ord := true, vclass := 0,
              addr := p * 2 ^ 42 + o + 120 * b.2,
              payload := BitVec.ofNat 64 b.1.length :: BitVec.ofNat 64 pts :: bytesWords b.1,
              pkey := s.pkey w.ctx, tc := s.tc w.ctx, store := true, va := va, ctx := some w.ctx }) s1, true)
    | .reg _ => (s1, false)
    | .ctrl _ _ => (s1, false)
    | _ => if s1.homeFenced w.ctx l.key then (s1, false) else ((s1.bulkWrite l.key bs 15 pts).1, true)

/-- The write timestamp of a ring entry at a virtual address in this package, after the hub has written it (R468). -/
def State.hubTs (s : State) (w : Who) (va : Word) : Nat :=
  match resolve s w va 1 .write with
  | (s1, .ok l) => if isFar l.key then 0 else s1.tsOver l.key 64
  | _ => 0

/-- The tail of a ring to advance over an entry that the hub has just written at an address, once its writes to other
packages are answered: `before` is the state before the write (R355, R395). (DEDUCED: log entry 53.) -/
def State.ringPut (s before : State) (w : Who) (va : Word) (reg tail pts : Nat) (count : Option Nat) : State :=
  let sent := (List.range ((s.nextTag + 2 ^ 32 - before.nextTag) % 2 ^ 32)).map fun i => (before.nextTag + i) % 2 ^ 32
  State.orphanStep { s with
    orphanOut := s.orphanOut ++ [⟨reg, BitVec.ofNat 64 ((tail + 1) % 2 ^ 32), sent, max pts (s.hubTs w va), count⟩] }

end Sys2Proof.Machine
end

