-- ==== Sys2Proof/Machine/Admit.lean ====
section
/-! DEFINITION. Admission of launches (R42 to R47, R59, R349, R351, R423): the checks of a descriptor and of
its circular-buffer declarations, the homes of its groups, its record and its launch entries. -/

namespace Sys2Proof.Machine

/-! ### The constraints -/

/-- The constraints that R43 puts on a descriptor's own fields, broken or kept (reason 0x01). -/
def descBad (d : List Word) : Bool :=
  dField d 0 63 57 != 0 || dField d 0 1 0 != 0 || dField d 2 63 57 != 0 || dField d 2 3 0 != 0 ||
    dField d 3 63 61 != 0 || decide (4 < descNvreg d) || descNsreg d == 0 || decide (4 < descNsreg d) ||
    descStages d == 0 || descMode d == 3 || dField d 4 31 29 != 0 || decide (16 < descSpillKB d) ||
    descCost d == 0 || dField d 5 63 57 != 0 || dField d 5 11 0 != 0 || dField d 6 63 57 != 0 ||
    dField d 6 63 57 != 0 || decide (4096 < dField d 6 40 28) || dField d 7 63 57 != 0 || dField d 7 3 0 != 0

/-- The TID window of a descriptor runs past 4,096 (reason 0x02). -/
def tidBad (d : List Word) : Bool := decide (4096 < dField d 6 27 16 + dField d 6 40 28)

/-- The handles that CBMASK declares, in order. -/
def descHandles (d : List Word) : List Nat := (List.range 16).filter fun h => (descCbmask d).testBit h

/-- A declaration as an instance whose place does not matter, for its fields. -/
def declInst (c : Nat × Word × Word) : CbInst := CbInst.start ⟨0, 0, 0, c.1⟩ 0 c.2.1 c.2.2

/-- The scratchpad bytes of a declaration: first and past the last. -/
def declRange (c : Nat × Word × Word) : Nat × Nat :=
  let i := declInst c
  (fieldOf i.w0 23 0, fieldOf i.w0 23 0 + i.nslots * i.slotBytes)

/-- A declaration that breaks a constraint of R62 on its own. -/
def declBad (stages : Nat) (c : Nat × Word × Word) : Bool :=
  let i := declInst c
  let base := fieldOf i.w0 23 0
  fieldOf i.w0 63 47 != 0 || i.cstage == 3 || i.pstage == 3 || i.nslots == 0 || decide (256 < i.nslots) ||
    (if i.inBank then decide (16 ≤ base) || decide (2 ^ 17 < i.nslots * i.slotBytes)
     else base % 64 != 0 || decide (0x14000 < (declRange c).2)) ||
    (if i.chan then fieldOf i.w1 63 25 != 0 || decide (2 ≤ fieldOf i.w1 1 0)
     else i.w1 != 0 || (i.pstage == i.cstage && !stages.testBit i.pstage))

/-- Whether two scratchpad declarations overlap. -/
def declOverlap (a b : Nat × Word × Word) : Bool :=
  a.1 != b.1 && !(declInst a).inBank && !(declInst b).inBank &&
    decide ((declRange a).1 < (declRange b).2) && decide ((declRange b).1 < (declRange a).2)

/-- Whether a bank serves a context as a FIFO on every cluster that may run it (R62). -/
def State.fifoEverywhere (s : State) (x b : Nat) : Bool :=
  (s.usableList x).all fun c =>
    let k := s.bank c b
    k.mode == .fifo && k.owner.toNat == x && !k.busy

/-- The declarations break a constraint of R62 (reason 0x03). -/
def State.cbsBad (s : State) (x stages : Nat) (cbs : List (Nat × Word × Word)) : Bool :=
  cbs.any (fun c => declBad stages c || cbs.any (declOverlap c) ||
    ((declInst c).inBank && !s.fifoEverywhere x (fieldOf c.2.1 3 0)))

/-! ### Homes -/

/-- Place of a value in a list. -/
def placeIn (c : Nat) (l : List Nat) : Option Nat := l.findIdx? (· == c)

/-- The launch entries of a launch (R45, R336): the cluster, its first group, the step and the count.
`good` are the clusters that may run the context's work. -/
def homesOf (d : List Word) (good : List Nat) (i0 : Nat) : List (Nat × Nat × Nat × Nat) :=
  let g := descGroups d
  let n := good.length
  if g = 0 then []
  else
    match descMode d with
    | 0 => [(descHome d, 0, 1, g)]
    | 1 => (List.range (min n g)).map fun i => (good.getD ((i0 + i) % n) 0, i, n, (g - i + n - 1) / n)
    | _ => (List.range ((g + 15) / 16)).map fun j => (good.getD (i0 + j) 0, 16 * j, 1, min 16 (g - 16 * j))

/-- The homes of copy B in shadow mode (R423). -/
def shiftDie (die : Nat) (hs : List (Nat × Nat × Nat × Nat)) : List (Nat × Nat × Nat × Nat) :=
  hs.map fun h => (128 * die + h.1 % 128, h.2)

/-- The launch that an entry holds a launch entry of: its own, or that of a group that has not hopped. -/
def homeLaunch : RunEntry → Option Nat
  | .launch _ l _ _ _ _ _ => some l
  | .group _ l _ 0 _ _ => some l
  | _ => none

/-- Launch entries that a cluster holds (R351): those of every launch with a group there that has neither been dispatched
nor accepted elsewhere. (DEDUCED: log entry 82.) -/
def State.launchEntries (s : State) (c : Nat) : Nat :=
  ((((List.range 4).flatMap (s.runList c)) ++ (s.hopping.filter fun h => h.source == c).map (·.entry)).filterMap
    homeLaunch).eraseDups.length

/-- The live launches of a context in shadow mode (R423). -/
def State.shadowBusy (s : State) (x : Nat) : Bool :=
  s.launches.any fun e => e.2.ctx == x && e.2.pair.isSome && !e.2.complete

/-! ### Admission -/

/-- What becomes of a launch at admission: it is admitted, it waits for launch entries or a launch index
(R351, R59), or it is rejected with a reason of R350 and the trap of R366. -/
inductive Admission where
  | ok (s : State)
  | wait
  | reject (reason : Nat) (f : XFault)

/-- A new record. -/
def newLaunch (desc : List Word) (cbs : List (Nat × Word × Word)) (x : Nat) (queue tt : Option Nat) (pts : Nat) :
    Launch :=
  { desc := desc, cbs := cbs, ctx := x, queue := queue, remaining := descGroups desc, running := 0, tasks := 0,
    abandoned := false, complete := false, pts := pts, ttEntry := tt, copyB := false, pair := none, far := none,
    torn := false }

/-- A cluster's constant cache drops every line of a context (R259). -/
def State.dropConst (s : State) (x c : Nat) : State :=
  { s with constLines := s.constLines.filter fun l => !(l.ctx == x && l.cluster == c) }

/-- A launch's entries put on the run lists of their clusters, to which it is admitted (R259). -/
def State.putEntries (s : State) (x l cls : Nat) (hs : List (Nat × Nat × Nat × Nat)) : State :=
  hs.foldl (fun s h =>
    ((s.setRun h.1 cls (s.runList h.1 cls ++ [.launch x l h.2.1 h.2.2.1 h.2.2.2 false 0])).arrived h.1).dropConst x h.1) s

/-- A rejection with the reason of R350 and the REASON of E_PROT or E_FENCED. -/
def rejectAs (reason : Nat) (cause : BitVec 8) : Admission := .reject reason (xf cause (BitVec.ofNat 8 reason))

/-- Admission of a launch whose descriptor and declarations have been read. (DEDUCED: log entry 34.) -/
def admission (s : State) (x : Nat) (queue tt : Option Nat) (pts : Nat) (desc : List Word)
    (cbs : List (Nat × Word × Word)) : Admission :=
  let good := s.usableList x
  let shadow := (s.reg (shctlOff x)).getLsbD 0
  let dieB := fieldOf (s.reg (shctlOff x)) 6 4
  if descBad desc then rejectAs 0x01 eIll
  else if tidBad desc then rejectAs 0x02 eProt
  else if s.cbsBad x (descStages desc) cbs then rejectAs 0x03 eIll
  else
    match placeIn (descHome desc) good with
    | none =>
      rejectAs 0x04 (if s.inCalderas x (descHome desc) ∧ !(s.lockstep x ∧ descHome desc % 2 = 1) then eFenced else eProt)
    | some i0 =>
      if shadow ∧ dieB = dieOf (descHome desc) then rejectAs 0x04 eProt
      else if descMode desc = 2 ∧ descGroups desc ≠ 0 ∧ good.length ≤ i0 + (descGroups desc - 1) / 16 then
        rejectAs 0x05 eProt
      else if descMode desc ≠ 2 ∧ (cbs.any fun c => (declInst c).chan) then rejectAs 0x06 eIll
      else if 32 < descSpillKB desc * (descStageList desc).length then rejectAs 0x07 eIll
      else
        let hs := homesOf desc good i0
        let hsB := if shadow then shiftDie dieB hs else []
        if hsB.any (fun h => !good.contains h.1) then rejectAs 0x04 eProt
        else if shadow ∧ s.shadowBusy x then .wait
        else if (hs ++ hsB).any fun h => decide (256 ≤ s.launchEntries h.1) then .wait
        else
          let a := lowestFree 0 s.launches
          let b := lowestFree (a + 1) s.launches
          if 65536 ≤ (if shadow then b else a) then .wait
          else
            let r := newLaunch desc cbs x queue tt pts
            if shadow then
              let ra := { r with pair := some b }
              let rb := { r with pair := some a, copyB := true, ttEntry := none }
              let s1 := { s with
                launches := putAt (putAt s.launches a ra) b rb,
                shadow := delAt (delAt s.shadow (shadowKey x 0)) (shadowKey x 1) }
              .ok (((((s1.putEntries x a (descClass desc) hs).putEntries x b (descClass desc) hsB)).checkLaunch a).checkLaunch b)
            else
              let s1 := { s with launches := putAt s.launches a r }
              .ok ((s1.putEntries x a (descClass desc) hs).checkLaunch a)

/-- What reading a launch gives: its descriptor and its declarations. -/
inductive LaunchRead where
  | wait
  | fault (f : XFault) (va : Word) (desc : List Word)
  | ok (desc : List Word) (cbs : List (Nat × Word × Word)) (wts : Nat)

/-- The declarations of a descriptor read from CBTAB in handle order (R62). -/
def readDecls (rd : State → Word → Nat → State × Got) (base : Word) :
    List Nat → Nat → State → State × (Except (Option (XFault × Word)) (List (Nat × Word × Word) × Nat))
  | [], _, s => (s, .ok ([], 0))
  | h :: t, i, s =>
    let va := base + BitVec.ofNat 64 (16 * i)
    match rd s va 2 with
    | (s1, .wait) => (s1, .error none)
    | (s1, .fault f) => (s1, .error (some (f, va)))
    | (s1, .words ws w) =>
      match readDecls rd base t (i + 1) s1 with
      | (s2, .ok (l, v)) => (s2, .ok ((h, ws.getD 0 0, ws.getD 1 0) :: l, max w v))
      | (s2, .error e) => (s2, .error e)

/-- A launch read at an address (R44): the descriptor and, where its own fields keep R43, the declarations.
(DEDUCED: log entry 34.) -/
def readLaunch (rd rdCbs : State → Word → Nat → State × Got) (va : Word) (s : State) :
    State × LaunchRead :=
  match rd s va 8 with
  | (s1, .wait) => (s1, .wait)
  | (s1, .fault f) => (s1, .fault f va [])
  | (s1, .words d w) =>
    if descBad d ∨ tidBad d then (s1, .ok d [] w)
    else
      match readDecls rdCbs (va57 (low57 (d.getD 7 0))) (descHandles d) 0 s1 with
      | (s2, .ok (cbs, v)) => (s2, .ok d cbs (max w v))
      | (s2, .error none) => (s2, .wait)
      | (s2, .error (some (f, a))) => (s2, .fault f a d)

/-- ABANDONED set in the DONE of a launch that is rejected or torn down before admission, where it is a
valid, mapped address (R44). -/
def State.abandonDone (s : State) (x : Nat) (desc : List Word) : State :=
  if desc = [] then s else s.abandonAt (s.hubWho x) (descDone desc)

end Sys2Proof.Machine
end

