-- ==== Sys2Proof/Machine/Launch.lean ====
section
/-! DEFINITION. Launches: the LAUNCH instruction (R366), submission queues (R350, R351, R354), the
time-triggered table (R353) and the completion of a launch (R47). -/

namespace Sys2Proof.Machine

/-! ### LAUNCH -/

/-- A release that an instruction performs in its slot before its own effect (R271, R363, R366, R367, R406): none
while it must wait, else the state in which it is done, and a refused write that traps here (R285).
(DEDUCED: log entries 11, 36.) -/
def State.slotRelease (s : State) (q scope : Nat) : State × Option (Option (BitVec 8 × BitVec 8 × Word)) :=
  let s1 := s.drainThread q
  if s1.relReady q scope (s1.slot q).relNext s1.nextId then (s1.modSlot q Slot.clearTouched, some (s1.slot q).nak)
  else (s1, none)

/-- The trap of a rejected LAUNCH (R366), with the rejection's code in REASON. -/
def State.launchTrap (s : State) (q : Nat) (a : BitVec 5) (f : XFault) : State :=
  s.trapOpen q (.launch a) f.cause f.reason

/-- The trap of a LAUNCH whose descriptor or declarations cannot be read (R366): reason 0x08, unless the
fault is collected (R394), or uncorrectable data is consumed where the Caldera is fenced for it (R411).
(DEDUCED: log entry 34.) -/
def State.launchUnread (s : State) (q : Nat) (a : BitVec 5) (f : XFault) (va : Word) (desc : List Word) : State :=
  let x := s.slot q
  if f.collect ∧ x.level = 0 ∧ s.collects x.ctx then
    (s.setSlot q { x with state := .waiting, wait := some (.collected va (some desc)) }).push
      (.trapMessageAtCollector (faultMsg s q f .read va none ((encode (.launch a)).getD 0)))
  else
    let s1 := s.abandonDone x.ctx desc
    if f.cause = eAbort ∧ !((s.reg (rctlOff x.ctx)).getLsbD 0 ∧ x.level = 0) then s1.fenceFor q 0x01
    else s1.trapAt q (.launch a) f.cause 0x08 va

/-- A LAUNCH whose descriptor has been read is admitted, waits, or is rejected. (DEDUCED: log entry 34.) -/
def State.launchBy (s : State) (q : Nat) (a : BitVec 5) (desc : List Word) (cbs : List (Nat × Word × Word)) :
    State :=
  let x := s.slot q
  match admission s x.ctx x.queue none x.pts desc cbs with
  | .ok s1 => s1.modSlot q fun x => { x with state := .running, wait := none }.advance
  | .wait =>
    (s.modSlot q fun x => { x with state := .waiting, wait := some (.launch a desc cbs) }).push (.launchAdmission (256 + q))
  | .reject _ f => (s.abandonDone x.ctx desc).launchTrap q a f

/-- The declarations of a LAUNCH, which the hub reads where the activation may (R59, R366). -/
def declReader (q : Nat) (s : State) (va : Word) (n : Nat) : State × Got :=
  match resolve s (s.who q) va (8 * n) .read with
  | (s1, .error f) => (s1, .fault f)
  | (s1, .ok l) => if isFar l.key then s1.hubWords (s1.slot q).ctx va n else s1.slotWords q va n

/-- LAUNCH (R366). (DEDUCED: log entry 36.) -/
def execLaunch (a : BitVec 5) (s : State) : Result :=
  issue (.launch a) s fun q s =>
    match s.slotRelease q 3 with
    | (s1, none) => .next s1
    | (s1, some (some n)) => .next (s1.nakTrap q (.launch a) n)
    | (s1, some none) =>
      let va := (s1.slot q).sreg a
      if (s1.shadowCopy q).isSome then .next (s1.trapOpen q (.launch a) eProt 0x05)
      else if va.toNat % 64 ≠ 0 then .next (s1.trapAt q (.launch a) eAlign 0 va)
      else
        match readLaunch (fun s va n => s.slotWords q va n) (declReader q) va s1 with
        | (s2, .wait) => .next s2
        | (s2, .fault f v d) => .next (s2.launchUnread q a f v d)
        | (s2, .ok d cbs w) => .next ((s2.modSlot q fun x => { x with pts := max x.pts w }).launchBy q a d cbs)

/-! ### Submission queues -/

/-- QERR after a refused doorbell (R350): INDEX stays that of the last rejected descriptor. -/
def State.doorbellError (s : State) (n reason : Nat) : State :=
  let v := s.reg (qerrOff n)
  s.setReg (qerrOff n) (withField (withField v 31 16 (min (fieldOf v 31 16 + 1) 65535)) 7 0 reason)

/-- QERR after a rejection (R350). -/
def State.queueError (s : State) (n index reason : Nat) : State :=
  let c := min (fieldOf (s.reg (qerrOff n)) 31 16 + 1) 65535
  s.setReg (qerrOff n) (BitVec.ofNat 64 (index * 2 ^ 32 + c * 65536 + reason))

/-- Whether a queue is being torn down (R350). -/
def State.resetting (s : State) (n : Nat) : Bool := (s.reg (qstatOff n)).getLsbD 0

/-- The context of a queue. -/
def State.queueCtx (s : State) (n : Nat) : Nat := fieldOf (s.reg (qctlOff n)) 45 40

/-- Address of the descriptor of a ring index (R350). -/
def State.ringSlot (s : State) (n i : Nat) : Word :=
  va57 (low57 (s.reg (qbaseOff n))) + BitVec.ofNat 64 (64 * (i % 2 ^ fieldOf (s.reg (qctlOff n)) 4 1))

/-- DOORBELL (R351): a tail that is accepted admits the descriptors up to it; any other is logged. -/
def execDoorbell (n : Nat) (t : BitVec 32) (pts : Nat) (s : State) : Result :=
  let tail := fieldOf (s.reg (qtailOff n)) 31 0
  let head := fieldOf (s.reg (qheadOff n)) 31 0
  let c := s.reg (qctlOff n)
  if s.resetting n then .next (s.doorbellError n 0x11)
  else if c.getLsbD 0 ∧ (t.toNat + 2 ^ 32 - tail) % 2 ^ 32 < 2 ^ 31 ∧
      (t.toNat + 2 ^ 32 - head) % 2 ^ 32 ≤ 2 ^ fieldOf c 4 1 then
    .next ((s.stampReg (qtailOff n) (t.setWidth 64) pts).push (.launchAdmission n))
  else .next (s.doorbellError n 0x10)

/-- QHEAD moved past the descriptor at the head. -/
def State.passHead (s : State) (n : Nat) : State :=
  (s.setReg (qheadOff n) (BitVec.ofNat 64 ((fieldOf (s.reg (qheadOff n)) 31 0 + 1) % 2 ^ 32))).push (.launchAdmission n)

/-- The descriptor at the head of a queue admitted or rejected (R44, R350, R351). -/
def State.admitHead (s : State) (n : Nat) : State :=
  let head := fieldOf (s.reg (qheadOff n)) 31 0
  let x := s.queueCtx n
  let ix := head % 2 ^ fieldOf (s.reg (qctlOff n)) 4 1
  let rd := fun (s : State) va k => s.hubWords x va k
  let pts := s.tsOver (regKey (qtailOff n)) 8
  match readLaunch rd rd (s.ringSlot n head) s with
  | (s1, .wait) => s1.push (.launchAdmission n)
  | (s1, .fault _ _ d) => ((s1.abandonDone x d).queueError n ix 0x08).passHead n
  | (s1, .ok d cbs w) =>
    match admission s1 x (some n) none (max pts w) d cbs with
    | .ok s2 => s2.passHead n
    | .wait => s1.push (.launchAdmission n)
    | .reject r _ => ((s1.abandonDone x d).queueError n ix r).passHead n

/-- A slot that waits in a LAUNCH. -/
def State.admitSlot (s : State) (q : Nat) : State :=
  match (s.slot q).state, (s.slot q).wait with
  | .waiting, some (.launch a d cbs) => s.launchBy q a d cbs
  | _, _ => s

/-- The first number of LAUNCH_ADMISSION that stands for a firing of the time-triggered table. -/
def ttAdmission : Nat := 2 ^ 20

/-- A firing in progress reads its launch and admits it (R353), or is due again. Its DESC is the one that its entry held at the
start of its slot. (DESIGN CHOICE: log entry 73.) -/
def State.ttTry (s : State) (e : Nat) : State :=
  match findAt s.firing e with
  | none => s
  | some (w0, desc, pts) =>
    let x := fieldOf w0 61 56
    let ended (s : State) : State := { s with firing := delAt s.firing e }
    let rd := fun (s : State) va n => s.hubWords x va n
    match readLaunch rd rd (va57 (low57 desc)) s with
    | (s1, .wait) => s1.push (.launchAdmission (ttAdmission + e))
    | (s1, .fault _ _ d) => ended (s1.abandonDone x d)
    | (s1, .ok d cbs w) =>
      match admission s1 x none (some e) (max pts w) d cbs with
      | .ok s2 => ended { s2 with ttLaunch := putAt s2.ttLaunch e (lowestFree 0 s1.launches) }
      | .wait => s1.push (.launchAdmission (ttAdmission + e))
      | .reject _ _ => ended (s1.abandonDone x d)

/-- LAUNCH_ADMISSION (R44, R351, R353, R366): the head of queue n, for 256 + q the LAUNCH that slot q waits in, or a firing
of the time-triggered table. -/
def execLaunchAdmission (n : Nat) (s : State) : Result :=
  if ttAdmission ≤ n then .next (s.ttTry (n - ttAdmission))
  else if 256 ≤ n then .next (s.admitSlot (n - 256))
  else if s.resetting n ∨ fieldOf (s.reg (qheadOff n)) 31 0 = fieldOf (s.reg (qtailOff n)) 31 0 then .next s
  else .next (s.admitHead n)

/-- QUEUE_CONTROL_WRITE (R350): EN always, SIZE and CTX where EN was 0 (CTX at level M only), and RESET. -/
def execQueueControlWrite (n : Nat) (v : Word) (h : Half) (level : Nat) (s : State) : Result :=
  let old := s.reg (qctlOff n)
  let full := mergeHalf old v h
  let on := old.getLsbD 0
  let v1 := if halfReaches h false then withField old 0 0 (fieldOf full 0 0) else old
  let v2 := if on ∨ !halfReaches h false then v1 else withField v1 4 1 (fieldOf full 4 1)
  let v3 := if on ∨ !halfReaches h true ∨ level ≠ 2 then v2 else withField v2 45 40 (fieldOf full 45 40)
  let s1 := s.setReg (qctlOff n) v3
  if halfReaches h true ∧ full.getLsbD 63 ∧ !s.resetting n then
    .next ((s1.setReg (qstatOff n) (qstatValue (fieldOf (s.reg (qstatOff n)) 63 32) true)).push (.queueReset n))
  else .next s1

/-! ### Teardown (R354) -/

/-- The state without the run-list and arrival-pool entries, the hops and the bound heads of some
launches. -/
def State.removeEntries (s : State) (p : Nat → Bool) : State :=
  let keep (e : RunEntry) : Bool := !p (entryLaunch e)
  { s with
    runs := s.runs.map (fun r => (r.1, r.2.filter keep)),
    hopping := s.hopping.filter (fun h => keep h.entry),
    tiles := s.tiles.map fun t =>
      (t.1, { t.2 with drain := match t.2.drain with | some e => if keep e then some e else none | none => none }) }

/-- An access for a task that never ran, from its home tile. -/
def tileWho (x tile : Nat) : Who := ⟨x, 1, slotNum tile 0 0⟩

/-- A task not yet dispatched is discarded (R354 step 3, R417 step 4). -/
def State.discardTask (s : State) (key : Nat) (p : PoolRec) : State :=
  let tile := key / 256
  let notify := taskNotify (s.poolWords tile (key % 256))
  let s1 := if notify = 0 then s else s.abandon (tileWho p.ctx tile) notify
  ((s1.modLaunch p.lrec fun r => { r with tasks := r.tasks - 1 }).freePool tile (key % 256)).reapLaunch p.lrec

/-- Step 1 of R354: ABANDONED in the DONE of each descriptor not yet admitted. None while a descriptor in
another package is being read. The number bounds the work. -/
def abandonRing (n x : Nat) : Nat → Nat → State → Option State × State
  | 0, _, s => (some s, s)
  | f + 1, i, s =>
    match s.hubWords x (s.ringSlot n i) 8 with
    | (s1, .wait) => (none, s1)
    | (s1, .fault _) => abandonRing n x f ((i + 1) % 2 ^ 32) s1
    | (s1, .words d _) =>
      let s2 := (s1.abandonDone x d).setReg (qheadOff n) (BitVec.ofNat 64 ((i + 1) % 2 ^ 32))
      abandonRing n x f ((i + 1) % 2 ^ 32) s2

/-- Whether a launch came from a queue. -/
def State.ofQueue (s : State) (n l : Nat) : Bool :=
  match findAt s.launches l with
  | some r => r.queue == some n
  | none => false

/-- Steps 2 to 4 of R354. -/
def State.tearDown (s : State) (n : Nat) : State :=
  let ls := (s.launches.filter fun e => e.2.queue == some n)
  let s1 := s.removeEntries (s.ofQueue n)
  let s2 := ls.foldl (fun (s : State) e =>
    let t := if 0 < e.2.remaining then s.abandonLaunch e.1 else s
    t.modLaunch e.1 fun r => { r with torn := true, remaining := 0 }) s1
  let ps := s2.pools.filter fun e => !e.2.started && s2.ofQueue n e.2.lrec
  let s3 := ps.foldl (fun (s : State) e => s.discardTask e.1 e.2) s2
  let s4 := ls.foldl (fun (s : State) e => s.reapLaunch e.1) s3
  s4.setReg (qstatOff n) (qstatValue (fieldOf (s4.reg (qstatOff n)) 63 32) false)

/-- QUEUE_RESET (R354). -/
def execQueueReset (n : Nat) (s : State) : Result :=
  let head := fieldOf (s.reg (qheadOff n)) 31 0
  let tail := fieldOf (s.reg (qtailOff n)) 31 0
  match abandonRing n (s.queueCtx n) ((tail + 2 ^ 32 - head) % 2 ^ 32) head s with
  | (none, s1) => .next (s1.push (.queueReset n))
  | (some s1, _) => .next ((s1.setReg (qheadOff n) (BitVec.ofNat 64 tail)).tearDown n)

/-! ### The time-triggered table (R353) -/

/-- Whether an entry fires in a slot. -/
def ttFires (w0 : Word) (k : Nat) : Bool :=
  let p := fieldOf w0 47 32
  w0.getLsbD 63 && p != 0 && k % p == fieldOf w0 15 0 % p

/-- An entry's bit of TTOVR set, which raises the hub's table event (R441). -/
def State.ttOverrun (s : State) (e : Nat) : State :=
  (s.setReg (ttovrOff (e / 64)) (s.reg (ttovrOff (e / 64)) ||| BitVec.twoPow 64 (e % 64))).hostEvent 1

/-- Whether the launch of an entry's last firing has neither completed nor been rejected or abandoned. -/
def State.ttRunning (s : State) (e : Nat) : Bool :=
  match findAt s.ttLaunch e with
  | some l =>
    match findAt s.launches l with
    | some r => r.ttEntry == some e && !r.complete && !r.abandoned
    | none => false
  | none => false

/-- One entry at the start of slot k (R353): LAST is set, and the firing is skipped while the last one's launch has not
ended, else begun with the fields that the entry holds. (DEDUCED, DESIGN CHOICE: log entries 73, 79.) -/
def State.ttFire (s : State) (k e : Nat) : State :=
  let w0 := s.reg (ttentOff e 0)
  if !ttFires w0 k ∨ k ≤ (s.reg (ttentOff e 3)).toNat then s
  else
    let s1 := s.setReg (ttentOff e 3) (BitVec.ofNat 64 k)
    if s.ttRunning e ∨ (findAt s.firing e).isSome then
      (s1.setReg (ttentOff e 2) (bump32 (s.reg (ttentOff e 2)) 31 0 1)).ttOverrun e
    else
      let pts := s.tsOver (regKey (ttentOff e 0)) 16
      { s1 with firing := putAt s1.firing e (w0, s.reg (ttentOff e 1), pts) }.ttTry e

/-- The entries of the table at the start of a slot. -/
def State.ttSlot (s : State) (k : Nat) : State := (List.range 256).foldl (fun s e => s.ttFire k e) s

/-- TT_SLOT_START (R353): slot k has begun, or is still to come. -/
def execTtSlotStart (k : Nat) (s : State) : Result :=
  let n := s.ttNow
  if n < k then .next (s.push (.ttSlotStart (if n + 1 < k then n + 1 else k)))
  else if !(s.reg ttctlOff).getLsbD 0 then .next (s.push (.ttSlotStart (k + 1)))
  else .next ((s.ttSlot k).push (.ttSlotStart (k + 1)))

/-- Slots from 0 to m in which an entry fires. (DEDUCED: log entry 79.) -/
def ttCount (w0 : Word) (m : Nat) : Nat :=
  let p := fieldOf w0 47 32
  if !w0.getLsbD 63 ∨ p = 0 then 0
  else
    let r := fieldOf w0 15 0 % p
    if m < r then 0 else (m - r) / p + 1

/-- TT_CLOCK_STEP (R353): the hub clock steps to t. Slots that a forward step passes over do not fire and
count in MISSED; a slot that has begun is served before. (DEDUCED: log entry 79.) -/
def execTtClockStep (t : Nat) (s : State) : Result :=
  let n := s.ttNow
  let s1 := { s with hubNs := t }
  let m := s1.ttNow
  let late := s.agenda.any fun e => match e with | .ttSlotStart k => decide (k ≤ n) | _ => false
  if m ≤ n then .next s1
  else if late then .next (s.push (.ttClockStep t))
  else
    let s2 := (List.range 256).foldl (fun (s : State) e =>
      let w0 := s.reg (ttentOff e 0)
      let miss := ttCount w0 m - ttCount w0 (max n (min m (s.reg (ttentOff e 3)).toNat))
      if miss = 0 ∨ !(s.reg ttctlOff).getLsbD 0 then s
      else (s.setReg (ttentOff e 2) (bump32 (s.reg (ttentOff e 2)) 63 32 miss)).ttOverrun e) s1
    .next { s2 with agenda := s2.agenda.map fun e =>
      match e with
      | .ttSlotStart k => .ttSlotStart (max k (m + 1))
      | e => e }

/-! ### Completion (R47) -/

/-- The report of an entry that hopped in from another package (R346): its launch of record there learns
that it has ended. (DESIGN CHOICE: log entry 44.) -/
def State.reportHome (s : State) (h : FarHome) (x : Nat) : State :=
  s.farSend
    { thread := none, serial := none, id := 0, dst := h.node, ty := tyMessage, ord := false, vclass := 2, addr := 1,
      payload := [BitVec.ofNat 64 h.ctx, BitVec.ofNat 64 h.lrec,
        (match h.task with | some t => BitVec.ofNat 64 (2 ^ 32 + t.1 * 256 + t.2) | none => 0)],
      pkey := s.pkey x, tc := s.tc x, store := true, va := 0 }

/-- Whether both copies of a launch in shadow mode have ended (R424). -/
def State.pairDone (s : State) (p : Nat) : Bool :=
  match findAt s.launches p with
  | some r => r.remaining == 0 && r.running == 0 && r.tasks == 0
  | none => true

/-- DELTA added to DONE (R47): a release with every write of the launch before it. (DESIGN CHOICE: log entry 96.) -/
def State.addDone (s : State) (r : Launch) : State :=
  if descDelta r.desc = 0 then s
  else
    let va := descDone r.desc
    match counterLoc s (homeWho r.ctx r.desc) va .write with
    | (s1, .ok l) =>
      { s1 with nextId := s1.nextId + 1 }.push (.counterAddAtHome
        ⟨s1.nextId, none, none, l.key, va, BitVec.ofNat 64 (descDelta r.desc), [], r.pts, r.ctx, [], .plain⟩)
    | (s1, .error _) => s1

/-- LAUNCH_COMPLETION (R47, R346, R424): every activation of every group has retired. -/
def execLaunchCompletion (l : Nat) (s : State) : Result :=
  match findAt s.launches l with
  | none => .next s
  | some r =>
    if r.remaining ≠ 0 ∨ r.running ≠ 0 ∨ r.abandoned ∨ r.complete then .next s
    else
      match r.far, r.pair with
      | some h, _ => .next (((s.modLaunch l fun r => { r with complete := true }).reportHome h r.ctx).reapLaunch l)
      | none, some p => .next (if r.tasks = 0 ∧ s.pairDone p then s.push (.shadowCommit r.ctx) else s)
      | none, none => .next (((s.modLaunch l fun r => { r with complete := true }).addDone r).reapLaunch l)

end Sys2Proof.Machine
end

