-- ==== Sys2Proof/Machine/Task.lean ====
section
/-! DEFINITION. Tasks and messages: SPAWN (R363 to R365), MSEND (R367, R368), RETIRE and YIELD (R369), the end
of an activation (R60), the release of pool waiters (R361) and the delivery of messages (R37, R355, R368). -/

namespace Sys2Proof.Machine

/-! ### SPAWN -/

/-- Whether a template breaks R364: reserved bits, STAGE, COST or ENTRY. LREC, HOPS and ORIGIN are ignored. -/
def templateBad (t : List Word) : Bool :=
  dField t 0 63 61 != 0 || taskStage t == 3 || dField t 0 1 0 != 0 || dField t 3 63 57 != 0 || dField t 3 3 0 != 0 ||
    dField t 4 47 44 != 0 || taskCost t == 0 || dField t 5 63 48 != 0

/-- The home tile that SPAWN's second operand names; none where it is ill formed. -/
def spawnHome (q : Nat) (b : Word) : Option Nat :=
  if fieldOf b 63 17 ≠ 0 ∨ (!b.getLsbD 16 ∧ fieldOf b 15 0 ≠ 0) then none
  else some (if b.getLsbD 16 then placeTile (BitVec.ofNat 16 (fieldOf b 15 0)) else tileOf q)

/-- The words 0 to 5 that SPAWN writes: the template with LREC, HOPS and ORIGIN supplied. -/
def spawnWords (t : List Word) (l q : Nat) : List Word :=
  [t.getD 0 0, t.getD 1 0, t.getD 2 0, t.getD 3 0, withField (withField (t.getD 4 0) 63 48 l) 43 40 0,
    withField (t.getD 5 0) 47 32 (placeOf q).toNat]

/-- Why a context may not place work on a tile (R364, R368, R407, R421). -/
def placeFault (s : State) (x tile : Nat) : Option XFault :=
  let c := tile / 16
  if !s.inCalderas x c ∨ (s.lockstep x ∧ c % 2 = 1) then some (xf eProt 0x04)
  else if s.fencedCluster c ∨ s.calderaFenced x c then some (xf eFenced 0)
  else none

/-- A task written into a free entry of a pool (R363); one whose queue was torn down is discarded at once
(R354). (DEDUCED: log entry 97.) -/
def State.spawnAt (s : State) (q home e : Nat) (ws : List Word) : State :=
  let x := s.slot q
  let l := x.lrec.getD 0
  let key := padKey home (0x14000 + 64 * e)
  let s1 := s.takeTile home x.ctx
  let s2 := (s1.homeApply key x.pts ((ws ++ [0, 0]).flatMap wordBytes)).1
  let thresh := dField ws 4 31 0
  let p : PoolRec := ⟨x.ctx, l, thresh, false, false⟩
  let s3 := { s2 with
    pools := putAt s2.pools (256 * home + e) p, counterTs := putAt s2.counterTs (key + 0x30) 0 }
  let s4 := s3.modLaunch l fun r => { r with tasks := r.tasks + 1 }
  let torn := match findAt s4.launches l with
    | some r => r.torn || r.queue.any s4.resetting
    | none => false
  if torn then s4.discardTask (256 * home + e) p
  else if thresh = 0 then s4.enqueueTask home e x.pts
  else s4

/-- The slot past a SPAWN that has completed. -/
def Slot.spawned (x : Slot) (home e : Nat) : Slot :=
  { x with state := .running, wait := none, lastspawn := tilesAddress home (0x14000 + 64 * e) }.advance

/-- The SPAWN that is first for an entry of a tile's pool: those of a context that may not take the tile (R383) stand aside
(R384). (DEDUCED: log entry 37.) -/
def State.firstWaiter (s : State) (tile : Nat) : Option (Nat × Nat) :=
  s.poolWaiters.find? fun w => w.1 == tile && s.tileFree tile (s.slot w.2).ctx

/-- A SPAWN with its task ready: it takes an entry, or waits in the pool's arrival order (R361).
(DEDUCED: log entry 37.) -/
def State.spawnReady (s : State) (q home : Nat) (ws : List Word) : State :=
  let x := s.slot q
  match (if s.tileFree home x.ctx ∧ (s.firstWaiter home).isNone then s.freeEntry home else none) with
  | some e => (s.spawnAt q home e ws).modSlot q fun x => x.spawned home e
  | none =>
    State.push { s.modSlot q fun x => { x with state := .waiting, wait := some (.pool home ws) } with
      poolWaiters := s.poolWaiters ++ [(home, q)] } (.spawnPoolRelease home)

/-- SPAWN's tests of its template and home (R364). -/
def State.spawnChecked (s : State) (q home : Nat) (i : Instr) (t : List Word) : State :=
  let x := s.slot q
  let notify := taskNotify t
  if templateBad t then s.trapOpen q i eIll 0
  else
    match (if notify = 0 then (s, none) else
      match counterLoc s (s.who q) notify .write with
      | (s1, .ok _) => (s1, none)
      | (s1, .error f) => (s1, some f)) with
    | (s1, some f) => s1.accessFault q i f .write notify
    | (s1, none) =>
      if dieOf (home / 16) ≠ dieOf (clusterOf q) then s1.trapOpen q i eProt 0x04
      else
        match placeFault s1 x.ctx home with
        | some f => s1.trapOpen q i f.cause f.reason
        | none => s1.spawnReady q home (spawnWords t (x.lrec.getD 0) q)

/-- SPAWN (R363, R364). (DEDUCED: log entry 36.) -/
def execSpawn (a b : BitVec 5) (s : State) : Result :=
  let i : Instr := .spawn a b
  issue i s fun q s =>
    match s.slotRelease q 3 with
    | (s1, none) => .next s1
    | (s1, some (some n)) => .next (s1.nakTrap q i n)
    | (s1, some none) =>
      let x := s1.slot q
      let va := x.sreg a
      if x.lrec = none then .next (s1.trapOpen q i eProt 0x05)
      else
        match spawnHome q (x.sreg b) with
        | none => .next (s1.trapOpen q i eIll 0)
        | some home =>
          if va.toNat % 64 ≠ 0 then .next (s1.trapAt q i eAlign 0 va)
          else
            match s1.slotWords q va 6 with
            | (s2, .wait) => .next s2
            | (s2, .fault f) => .next (s2.accessFault q i f .read va)
            | (s2, .words t _) => .next (s2.spawnChecked q home i t)

/-- SPAWN_POOL_RELEASE (R61, R361): the SPAWN that came first to a pool takes its lowest free entry; one whose home has been
fenced meanwhile is executed again, and traps (R418). (DEDUCED: log entry 37.) -/
def execSpawnPoolRelease (tile : Nat) (s : State) : Result :=
  match s.firstWaiter tile with
  | none => .next (if s.poolWaiters.any fun w => w.1 == tile then s.push (.spawnPoolRelease tile) else s)
  | some w =>
    let s1 := { s with poolWaiters := s.poolWaiters.filter (· ≠ w) }
    if (placeFault s (s.slot w.2).ctx tile).isSome then
      .next (State.push (s1.modSlot w.2 fun x => { x with state := .running, wait := none }) (.spawnPoolRelease tile))
    else
    match (s.slot w.2).wait with
    | some (.pool _ ws) =>
      match s.freeEntry tile with
      | some e =>
        .next (((s1.spawnAt w.2 tile e ws).modSlot w.2 fun x => x.spawned tile e).push (.spawnPoolRelease tile))
      | none => .next s
    | _ => .next (s1.push (.spawnPoolRelease tile))

/-! ### MSEND -/

/-- Whether a destination word breaks the table of R367; its place names a core, so its STAGE is not 0b11 (R24). -/
def destBad (b : Word) : Bool :=
  fieldOf b 63 48 != 0 || decide (2 ≤ fieldOf b 47 46) || fieldOf b 1 0 == 3 ||
    (if fieldOf b 47 46 = 0 then fieldOf b 45 38 != 0
     else fieldOf b 37 34 != 0 || fieldOf b 33 32 != 0 || fieldOf b 31 16 != 0)

/-- The message that a slot sends to a destination. -/
def slotMsg (s : State) (q : Nat) (b : Word) (payload : List Word) : Msg :=
  let x := s.slot q
  { id := s.nextId, ctx := x.ctx, sender := placeOf q, senderGen := x.gen, thread := some q, relNum := x.relNext,
    queueKind := fieldOf b 47 46 == 1, queue := fieldOf b 45 38, handle := fieldOf b 37 34, slot := fieldOf b 33 32,
    gen := BitVec.ofNat 16 (fieldOf b 31 16), place := BitVec.ofNat 16 (fieldOf b 15 0), payload := payload,
    sent := s.cycle, heldTime := 0, pts := x.pts }

/-- MSEND (R367, R368). (DEDUCED: log entries 36, 103.) -/
def execMsend (a b : BitVec 5) (s : State) : Result :=
  let i : Instr := .msend a b
  issue i s fun q s =>
    match s.slotRelease q 3 with
    | (s1, none) => .next s1
    | (s1, some (some n)) => .next (s1.nakTrap q i n)
    | (s1, some none) =>
      let x := s1.slot q
      let va := x.sreg a
      let d := x.sreg b
      if destBad d then .next (s1.trapOpen q i eIll 0)
      else if (s1.shadowCopy q).isSome ∧ fieldOf d 47 46 = 1 then .next (s1.trapOpen q i eProt 0x05)
      else
        match placeFault s1 x.ctx (placeTile (BitVec.ofNat 16 (fieldOf d 15 0))) with
        | some f => .next (s1.trapOpen q i f.cause f.reason)
        | none =>
          if va.toNat % 64 ≠ 0 then .next (s1.trapAt q i eAlign 0 va)
          else
            match s1.slotWords q va 8 with
            | (s2, .wait) => .next s2
            | (s2, .fault f) => .next (s2.accessFault q i f .read va)
            | (s2, .words p _) =>
              let m := slotMsg s2 q d p
              .next (State.pushAll (({ s2 with nextId := s2.nextId + 1 }).modSlot q Slot.advance)
                [.messageDelivery m, .messageExpiry m])

/-! ### RETIRE and YIELD -/

/-- RETIRE (R60, R369): the slot issues nothing more, and its retirement follows. -/
def execRetire (s : State) : Result :=
  issue .retire s fun q s => .next ((s.modSlot q fun x => { x with retiring := true }).push (.retirement q))

/-- YIELD (R369): the slot waits for every other RUNNING slot of its core to issue once, for 16 cycles at
most. (DEDUCED: log entry 76.) -/
def execYield (s : State) : Result :=
  issue .yield s fun q s =>
    let others := ((List.range 4).map (4 * coreOf q + ·)).filter fun r => r != q && (s.slot r).state == .running
    complete q s fun x => { x with yielding := others, yieldEnd := s.cycle + 16 }

/-- The NOTIFY add of a task that retires (R60 step 3, R364): dropped and recorded where it faults; one that a full shadow
copy cannot hold ends the launch (R423). -/
def State.notifyAdd (s : State) (q : Nat) : State :=
  let x := s.slot q
  if x.notify = 0 then s
  else
    match counterLoc s (s.who q) x.notify .write with
    | (s1, .ok l) =>
      { s1 with nextId := s1.nextId + 1 }.push (.counterAddAtHome
        ⟨s1.nextId, none, none, l.key, x.notify, 1, [], x.pts, x.ctx, [], .notify (placeOf q).toNat⟩)
    | (s1, .error f) =>
      if f.cause = shadowFull then s1.shadowOverflow q
      else s1.notifyFailed x.ctx (placeOf q).toNat f.cause f.reason x.notify

/-- RETIREMENT (R37, R60): commands DONE and every store accepted, those to other packages included, the release,
the NOTIFY add, and the slot FREE, 32 cycles after its dispatch at the earliest. A
refused write of the thread traps at its RETIRE (R285). An activation that a trap has discarded ends with no release once
its stores are performed (R389, R408). (DEDUCED: log entries 39, 43.) -/
def execRetirement (q : Nat) (s : State) : Result :=
  let x := s.slot q
  if !x.retiring then .next s
  else if x.dying then
    let s1 := s.drainThread q
    .next (if s1.storesLeft q || !s1.stayed q then s1.push (.retirement q) else s1.discardSlot q)
  else if (x.ring.any fun e => !e.2.isDone) || !s.stayed q then .next ((s.drainThread q).push (.retirement q))
  else
    match s.slotRelease q 3 with
    | (s1, none) => .next (s1.push (.retirement q))
    | (s1, some (some n)) => .next ((s1.modSlot q fun x => { x with retiring := false }).nakTrap q .retire n)
    | (s1, some none) =>
      let s2 := match x.kind, x.lrec with
        | .group _, some l => s1.modLaunch l fun r => { r with pts := max r.pts (s1.slot q).pts }
        | _, _ => s1
      let s3 := s2.notifyAdd q
      .next (if (s3.slot q).state = .free then s3 else s3.freeSlot q)

/-! ### Delivery of messages -/

/-- Age of a message in cycles (R37): while a SAVED slot holds it, the age it then had. -/
def msgAge (m : Msg) (now : Nat) : Nat := if m.heldTime = 0 then now - m.sent else m.heldTime - 1

/-- A message while a SAVED slot holds it, and one no longer held. (DEDUCED: log entry 38.) -/
def msgHeld (m : Msg) (now : Nat) (held : Bool) : Msg :=
  if held then { m with heldTime := msgAge m now + 1 }
  else if m.heldTime = 0 then m else { m with sent := now - msgAge m now, heldTime := 0 }

/-- A message in the orphan ring of its context (R355), with a reason and the tag of the slot at arrival. -/
def State.orphan (s : State) (m : Msg) (gen : BitVec 16) (reason : Nat) : State :=
  let x := m.ctx
  let ctl := s.reg (orphctlOff x)
  let cnt := s.reg (orphcntOff x)
  let size := fieldOf ctl 4 0
  let tail := s.ringTail (orphtailOff x)
  let count (w : Word) : Word := bump32 w 31 0 1
  if size = 0 ∨ (tail + 2 ^ 32 - fieldOf ctl 63 32) % 2 ^ 32 = 2 ^ size then
    s.setReg (orphcntOff x) (count (bump32 cnt 63 32 1))
  else
    let n := BitVec.ofNat 64
    let ws : List Word :=
      [n (m.place.toNat * 2 ^ 48 + gen.toNat * 2 ^ 32 + m.gen.toNat * 2 ^ 16 + reason * 2 ^ 8),
        n (m.sender.toNat * 2 ^ 48 + m.senderGen.toNat * 2 ^ 32), n s.cycle, 0, 0, 0, 0, 0] ++
      (List.range 8).map fun i => m.payload.getD i 0
    let va := va57 (low57 (s.reg (orphbaseOff x))) + BitVec.ofNat 64 (128 * (tail % 2 ^ size))
    let who : Who := ⟨x, 1, slotNum (placeTile m.place) 0 0⟩
    let s1 := (s.hubWrite who va (ws.flatMap wordBytes) m.pts).1
    s1.ringPut s who va (orphtailOff x) tail m.pts (some (orphcntOff x))

/-- A message refused at its target (R368): its sender traps at its next release; one of the device is
dropped. (DEDUCED: log entry 38.) -/
def State.msgRefused (s : State) (m : Msg) (cause reason : BitVec 8) : State :=
  match m.thread with
  | some q =>
    if (s.slot q).gen = m.senderGen ∧ (s.slot q).state ≠ .free then
      s.openWord.1.refuse q cause reason s.openWord.2
    else s
  | none => s

/-- Whether an earlier message of the same sender to the same destination is still under way (R367).
(DEDUCED: log entry 38.) -/
def State.msgBehind (s : State) (m : Msg) : Bool :=
  s.agenda.any fun e => match e with
    | .messageDelivery n =>
      decide (n.id < m.id) && n.sender == m.sender && n.senderGen == m.senderGen && n.ctx == m.ctx &&
        n.thread == m.thread && n.place == m.place && n.slot == m.slot && n.gen == m.gen && n.handle == m.handle &&
        n.queueKind == m.queueKind && n.queue == m.queue
    | _ => false

/-- A message to a handler queue (R40, R368, R407). (DEDUCED: log entry 38.) -/
def State.deliverQueue (s : State) (m : Msg) : State :=
  match findAt s.hqueues (256 * m.ctx + m.queue) with
  | some h =>
    if h.place ≠ m.place ∨ h.unbinding then s.msgRefused m eProt 0x05
    else if 64 ≤ h.msgs.length then s.push (.messageDelivery m)
    else
      { s with hqueues := putAt s.hqueues (256 * m.ctx + m.queue) { h with msgs := h.msgs ++ [m] } }.push
        (.handlerStart m.ctx m.queue)
  | none => s.msgRefused m eProt 0x05

/-- Units of a context's spill buffer in use and in all (R428). -/
def State.spillRoom (s : State) (x : Nat) : Nat :=
  let size := fieldOf (s.reg (spctlOff x)) 4 0
  if size = 0 then 0
  else
    2 ^ size - (fieldOf (s.reg (sptailOff x)) 31 0 + 2 ^ 32 - fieldOf (s.reg (spheadOff x)) 31 0) % 2 ^ 32

/-- A record of the spill buffer written at a unit (R428), in pieces of one unit. -/
def State.spillWrite (s : State) (x : Nat) (w : Who) (unit : Nat) (ws : List Word) (pts : Nat) : State :=
  let size := fieldOf (s.reg (spctlOff x)) 4 0
  (chunks 8 (ws.length / 8 + 1) ws).zipIdx.foldl (fun (s : State) p =>
    let va := va57 (low57 (s.reg (spbaseOff x))) + BitVec.ofNat 64 (64 * ((unit + p.2) % 2 ^ size))
    (s.hubWrite w va (p.1.flatMap wordBytes) pts).1) s

/-- The header of a spill record (R428) for a slot with a generation tag: KIND, UNITS, CHSEQ and HANDLE. -/
def spillHeader (kind units q gen chseq handle now : Nat) : List Word :=
  let n := BitVec.ofNat 64
  [n (kind * 2 ^ 56 + units * 2 ^ 32 + (placeOf q).toNat), n (chseq * 2 ^ 48 + q % 4 * 2 ^ 32 + gen * 2 ^ 16 + handle), n now,
    0, 0, 0, 0, 0]

/-- A record of the spill buffer for a slot (R428): its unit, or none where it has no room. A record never wraps: a pad
record fills the units left before the end. -/
def State.spillRecord (s : State) (x q kind gen chseq handle : Nat) (body : List Word) (pts : Nat) : Option (State × Nat) :=
  let units := 1 + (body.length + 7) / 8
  let size := fieldOf (s.reg (spctlOff x)) 4 0
  let tail := fieldOf (s.reg (sptailOff x)) 31 0
  let left := 2 ^ size - tail % 2 ^ size
  let pad := if left < units then left else 0
  if s.spillRoom x < units + pad then none
  else
    let who : Who := ⟨x, 1, q⟩
    let s1 := if pad = 0 then s else s.spillWrite x who tail (spillHeader 3 pad q gen 0 handle s.cycle) pts
    let s2 := s1.spillWrite x who (tail + pad) (spillHeader kind units q gen chseq handle s.cycle ++ body) pts
    some (s2.setReg (sptailOff x) (BitVec.ofNat 64 ((tail + pad + units) % 2 ^ 32)), (tail + pad) % 2 ^ 32)

/-- A message for a SAVED slot whose buffer has no free slot goes to the spill buffer (R428): none where it has no room. -/
def State.spillMsg (s : State) (q : Nat) (m : Msg) : Option State :=
  (s.spillRecord m.ctx q 1 m.gen.toNat 0 m.handle ((List.range 8).map fun i => m.payload.getD i 0) m.pts).map fun (s1, u) =>
    { s1 with spilled := s1.spilled ++ [{ msgHeld m s.cycle true with relNum := u }] }

/-- Whether an earlier message for the same buffer of the same slot still stands in the spill buffer. -/
def State.spilledBefore (s : State) (m : Msg) : Bool :=
  (s.spilled.takeWhile fun n => n.id != m.id).any fun n =>
    n.place == m.place && n.slot == m.slot && n.gen == m.gen && n.handle == m.handle

/-- The units of a context's spill buffer at which a record stands that SLREST has not consumed. -/
def State.spillUnits (s : State) (x : Nat) : List Nat :=
  ((s.spilled.filter fun m => m.ctx == x).map (·.relNum)) ++ (s.operands.filter fun o => o.ctx == x).filterMap (·.unit)

/-- The first of some units of a context's spill buffer, counted from SPHEAD. -/
def State.firstUnit (s : State) (x : Nat) (us : List Nat) : Option Nat :=
  let far (u : Nat) : Nat := (u + 2 ^ 32 - fieldOf (s.reg (spheadOff x)) 31 0) % 2 ^ 32
  us.foldl (fun b u => match b with
    | some v => if far u < far v then some u else some v
    | none => some u) none

/-- A record of the spill buffer is consumed (R428): it is marked DONE, and SPHEAD advances over the consumed prefix. -/
def State.spillDone (s : State) (x q kind units unit pts : Nat) : State :=
  let size := fieldOf (s.reg (spctlOff x)) 4 0
  let va := va57 (low57 (s.reg (spbaseOff x))) + BitVec.ofNat 64 (64 * (unit % 2 ^ size))
  let hdr := BitVec.ofNat 64 (kind * 2 ^ 56 + 2 ^ 55 + units * 2 ^ 32 + (placeOf q).toNat)
  let s1 := (s.hubWrite ⟨x, 1, q⟩ va (wordBytes hdr) pts).1
  s1.setReg (spheadOff x) (match s1.firstUnit x (s1.spillUnits x) with
    | some u => BitVec.ofNat 64 u
    | none => s1.reg (sptailOff x))

/-- A spilled message that has been delivered, orphaned or refused (R428). (DEDUCED: log entry 38.) -/
def State.unspill (s : State) (m : Msg) : State :=
  match s.spilled.find? fun n => n.id == m.id with
  | none => s
  | some n =>
    State.spillDone { s with spilled := s.spilled.filter fun k => k.id != m.id } n.ctx
      (slotNum (placeTile n.place) (placeStage n.place) n.slot) 1 2 n.relNum n.pts

/-- The messages that wait for a permit of a slot's buffers, held for it from the moment it is SAVED to the moment it is
not (R37, R368). (DEDUCED: log entry 38.) -/
def State.holdMsgs (s : State) (q : Nat) (held : Bool) : State :=
  let waits (m : Msg) : Bool :=
    !m.queueKind && slotNum (placeTile m.place) (placeStage m.place) m.slot == q && m.gen == (s.slot q).gen &&
      (match s.cbFor q m.handle with | some c => c.free == 0 || s.spilledBefore m | none => false)
  { s with agenda := s.agenda.map fun (e : Event) => match e with
      | .messageDelivery m => if waits m then .messageDelivery (msgHeld m s.cycle held) else e
      | _ => e }

/-- A message to an activation (R36, R37, R368, R428): the tag is compared, a permit taken, the payload
written into the slot and the slot counted. -/
def State.deliverSlot (s : State) (m : Msg) : State :=
  let q := slotNum (placeTile m.place) (placeStage m.place) m.slot
  let x := s.slot q
  if x.state = .free then (s.orphan m x.gen 0x3).unspill m
  else if x.gen ≠ m.gen ∨ x.ctx ≠ m.ctx then (s.orphan m x.gen 0x1).unspill m
  else
    match s.cbFor q m.handle with
    | none => (s.msgRefused m eCb 0).unspill m
    | some c =>
      if !c.hasConsumer ∨ c.cstage ≠ stageOf q ∨ c.slotBytes < 64 then (s.msgRefused m eCb 0).unspill m
      else if c.free = 0 ∨ s.spilledBefore m then
        if x.state ≠ .saved then s.push (.messageDelivery (msgHeld m s.cycle false))
        else if s.spilled.any fun n => n.id == m.id then s
        else
          match s.spillMsg q m with
          | some s1 => s1
          | none => s.push (.messageDelivery (msgHeld m s.cycle true))
      else
        let (s1, ix) := s.cbPermitTake c
        let bytes := (List.range 8).flatMap fun i => wordBytes (m.payload.getD i 0)
        (((s1.bulkWrite (c.slotKey ix) bytes 15 m.pts).1).cbFill c.key ix m.pts).unspill m

/-- MESSAGE_DELIVERY (R368): a message reaches its target. One that has expired, or whose target is
fenced, does not. -/
def execMessageDelivery (m : Msg) (s : State) : Result :=
  let tile := placeTile m.place
  if s.msgBehind m then .next (s.push (.messageDelivery m))
  else if s.fencedCluster (tile / 16) ∨ s.calderaFenced m.ctx (tile / 16) then .next ((s.msgRefused m eFenced 0).unspill m)
  else if ackLimit ≤ msgAge m s.cycle then
    .next ((s.orphan m (s.slot (slotNum tile (placeStage m.place) m.slot)).gen 0x2).unspill m)
  else .next (if m.queueKind then s.deliverQueue m else s.deliverSlot m)

/-- MESSAGE_EXPIRY (R37, R368, R407): a message not delivered within 1 ms goes to the orphan ring. -/
def execMessageExpiry (m : Msg) (s : State) : Result :=
  match s.agenda.findSome? fun e => match e with
    | .messageDelivery n => if n.id = m.id then some n else none
    | _ => none with
  | none => .next s
  | some n =>
    if msgAge n s.cycle < ackLimit then .next (s.push (.messageExpiry m))
    else
      let s1 := { s with agenda := s.agenda.filter fun e => match e with
        | .messageDelivery k => decide (k.id ≠ m.id)
        | _ => true }
      .next ((s1.orphan n (s.slot (slotNum (placeTile n.place) (placeStage n.place) n.slot)).gen 0x2).unspill m)

end Sys2Proof.Machine
end

