-- ==== Sys2Proof/Machine/System.lean ====
section
/-! DEFINITION. The system instructions (R403 to R408): calls and returns, IFENCE, translation
invalidation, handler bindings, and saving (R425 to R427), restoring (R429) and killing thread slots. -/

namespace Sys2Proof.Machine

/-! ### Calls and returns (R404) -/

/-- ECALL (R404): the cause 0x10 is delivered with the next PC. -/
def execEcall (s : State) : Result :=
  issue .ecall s fun q s =>
    .next (s.deliver q ⟨0x10, 0, (s.slot q).pc + 4, (encode .ecall).getD 0, 0, none, false⟩)

/-- MCALL (R404): the cause 0x11 is delivered with the next PC. -/
def execMcall (s : State) : Result :=
  issue .mcall s fun q s =>
    .next (s.deliver q ⟨0x11, 0, (s.slot q).pc + 4, (encode .mcall).getD 0, 0, none, false⟩)

/-- BRK (R404): the cause 0x12 is delivered with its own PC. -/
def execBrk (s : State) : Result :=
  issue .brk s fun q s => .next (s.trapAt q .brk 0x12 0 0)

/-- The traps of commands that were held while the slot was above T: the first is delivered next (R389).
(DEDUCED: log entry 43.) -/
def State.releaseHeld (s : State) (q : Nat) : State :=
  match (s.slot q).heldTraps with
  | [] => s
  | t :: l => (s.modSlot q fun x => { x with heldTraps := l }).pushNext (.trapDelivery q t)

/-- ERET (R404, R430): the return, and at T the settlement of faulted commands and the held traps.
(DEDUCED: log entry 43.) -/
def execEret (s : State) : Result :=
  issue .eret s fun q s =>
    let s1 := s.modSlot q Slot.eret
    if (s1.slot q).level = 0 then .next ((s1.settle q).releaseHeld q) else .next s1

/-- IFENCE (R405): once every earlier store of the slot is performed, the words fetched ahead are
discarded. (DEDUCED: log entry 10.) -/
def execIfence (s : State) : Result :=
  issue .ifence s fun q s =>
    let s1 := s.drainThread q
    if s1.storesLeft q then .next s1 else complete q s1 fun x => { x with ahead := none }

/-! ### Translation invalidation (R406) -/

/-- The entries of an ASID that cover an address, or all of them, dropped in the clusters of a context.
(DEDUCED: log entry 42.) -/
def State.dropXlat (s : State) (x : Nat) (va : Option Word) : State :=
  let asid := s.asid x
  let hit (e : XlatEntry) : Bool :=
    e.asid == asid && s.inCalderas x e.cluster &&
      (match va with | some a => canonical a && e.index == vaIndex (low57 a) e.level | none => true)
  { s with
    tlb := s.tlb.filter (fun e => !hit e),
    walkCache := s.walkCache.filter (fun e => !hit e),
    constLines := s.constLines.filter fun l => !(l.ctx == x && s.inCalderas x l.cluster) }

/-- The requests to other packages of a context that are on their way, by their tags: the reads that its commands and
fetches await, and the accesses of the device that its translation serves. -/
def State.sentOut (s : State) (x : Nat) : List Nat :=
  (s.farReqs.filter fun r =>
    r.ctx == some x || (!r.store && r.serial == none && (r.thread.any fun q => (s.slot q).ctx == x))).map (·.tag)

/-- Whether a counter wait of a slot has not yet been seen by its home (R53). -/
def State.waitUnseen (s : State) (q n : Nat) : Bool :=
  s.farReqs.any (fun r => r.thread == some q && r.serial == some n && !r.polled) ||
    s.agenda.any fun e => match e with
      | .counterWaitAtHome w => w.thread == q && w.serial == n
      | _ => false

/-- Whether an access of a context made before a mark is still under way: a write not yet performed, a load not yet
answered, a counter wait that its home has not seen, an add of the device not yet at its home, or one of the requests that
were on their way. (DEDUCED: log entry 42.) -/
def State.underWay (s : State) (x mark : Nat) (sent : List Nat) : Bool :=
  let mine (q : Nat) : Bool := (s.slot q).ctx == x
  s.dirty.any (fun w => mine w.thread && decide (w.id < mark)) ||
    s.outWrites.any (fun w => mine w.thread && decide (w.id < mark)) ||
    s.farReqs.any (fun r => sent.contains r.tag) ||
    s.agenda.any (fun e => match e with
      | .counterAddAtHome r => r.thread.isNone && r.ctx == x && decide (r.id < mark)
      | _ => false) ||
    s.slots.any fun e => e.2.ctx == x && e.2.loads.any fun l =>
      decide (l.before ≤ mark) && l.data.isNone && !l.abort &&
        (match l.kind with | .wait _ => s.waitUnseen e.1 l.serial | _ => true)

/-- XINV and XINVA: a release, the entries dropped, and the wait for accesses translated by them.
(DEDUCED: log entries 36, 42.) -/
def xinvInstr (i : Instr) (s : State) (va : Nat → State → Option Word) : Result :=
  issue i s fun q s =>
    let x := s.slot q
    match x.xmark with
    | some (m, sent) =>
      if s.underWay x.ctx m sent then .next (s.drainThread q)
      else complete q s fun x => { x with xmark := none }
    | none =>
      match s.slotRelease q 3 with
      | (s1, none) => .next s1
      | (s1, some (some n)) => .next (s1.nakTrap q i n)
      | (s1, some none) =>
        let s2 := s1.dropXlat x.ctx (va q s1)
        let sent := s2.sentOut x.ctx
        if s2.underWay x.ctx s2.nextId sent then
          .next (s2.modSlot q fun x => { x with xmark := some (s2.nextId, sent) })
        else complete q s2 id

/-- XINV (R406). -/
def execXinv (a : BitVec 5) (s : State) : Result := xinvInstr (.xinv a) s fun q s => some ((s.slot q).sreg a)

/-- XINVA (R406). -/
def execXinva (s : State) : Result := xinvInstr .xinva s fun _ _ => none

/-! ### Handler bindings (R407) -/

/-- A binding record that breaks R407 (E_ILL). -/
def bindingBad (r : List Word) : Bool :=
  let w1 := r.getD 1 0
  let w2 := r.getD 2 0
  let st := fieldOf w1 1 0
  fieldOf (r.getD 0 0) 63 57 != 0 || fieldOf (r.getD 0 0) 1 0 != 0 || fieldOf w1 63 25 != 0 || fieldOf w1 18 17 != 0 ||
    fieldOf w2 31 17 != 0 || r.getD 3 0 != 0 || st == 3 ||
    (st == 2 && (decide (fieldOf w1 21 19 < 2) || decide (4 < fieldOf w1 21 19) || decide (4 < fieldOf w1 24 22))) ||
    fieldOf w2 16 0 % 64 != 0 || fieldOf w2 63 32 % 64 != 0 || decide (65536 < fieldOf w2 63 32) ||
    decide (0x14000 < fieldOf w2 16 0 + fieldOf w2 63 32)

/-- The queue that a binding record describes. -/
def bindingOf (r : List Word) : HandlerQueue :=
  let w1 := r.getD 1 0
  let w2 := r.getD 2 0
  { entry := low57 (r.getD 0 0), nvreg := fieldOf w1 24 22, nsreg := fieldOf w1 21 19,
    level := BitVec.ofNat 2 (fieldOf w1 16 16), place := BitVec.ofNat 16 (fieldOf w1 15 0), roff := fieldOf w2 16 0,
    rsize := fieldOf w2 63 32, msgs := [], running := false, unbinding := false }

/-- QBIND (R407). (DEDUCED: log entries 37, 105.) -/
def execQbind (a b : BitVec 5) (s : State) : Result :=
  let i : Instr := .qbind a b
  issue i s fun q s =>
    let x := s.slot q
    let n := (x.sreg a).toNat
    let va := x.sreg b
    if !(x.satisfied (x.smask a) && x.satisfied (x.smask b)) then .next s
    else if 256 ≤ n then .next (s.trapOpen q i eIll 0)
    else if va.toNat % 32 ≠ 0 then .next (s.trapAt q i eAlign 0 va)
    else
      match s.slotWords q va 4 with
      | (s1, .wait) => .next s1
      | (s1, .fault f) => .next (s1.accessFault q i f .read va)
      | (s1, .words r _) =>
        let h := bindingOf r
        let tile := placeTile h.place
        if bindingBad r then .next (s1.trapOpen q i eIll 0)
        else
          match placeFault s1 x.ctx tile with
          | some f => .next (s1.trapOpen q i f.cause f.reason)
          | none =>
            if (findAt s1.hqueues (256 * x.ctx + n)).isSome then .next (s1.trapOpen q i eProt 0x05)
            else if !s1.tileFree tile x.ctx then .next s1
            else
              let s2 := s1.takeTile tile x.ctx
              complete q { s2 with hqueues := putAt s2.hqueues (256 * x.ctx + n) h } id

/-- A queue unbound: the messages not yet started are orphaned (R407, R417). -/
def State.unbind (s : State) (x n : Nat) (h : HandlerQueue) : State :=
  let s1 := h.msgs.foldl (fun (s : State) m => s.orphan m 0 0x3) s
  let hq := if h.running then putAt s1.hqueues (256 * x + n) { h with msgs := [], unbinding := true }
    else delAt s1.hqueues (256 * x + n)
  { s1 with hqueues := hq }

/-- QUNB (R407). -/
def execQunb (a : BitVec 5) (s : State) : Result :=
  let i : Instr := .qunb a
  issue i s fun q s =>
    let x := s.slot q
    let n := (x.sreg a).toNat
    if !x.satisfied (x.smask a) then .next s
    else if 256 ≤ n then .next (s.trapOpen q i eIll 0)
    else
      match findAt s.hqueues (256 * x.ctx + n) with
      | none => complete q s id
      | some h =>
        let s1 := s.unbind x.ctx n h
        if h.running then .next (s1.modSlot q fun x => { x with state := .waiting, wait := some (.queue n) })
        else complete q s1 id

/-! ### The state image (R426, R427) -/

/-- Words of one ring record (R427). -/
def ringRecord (e : RingEntry) (wctx : Nat) : List Word :=
  let n := BitVec.ofNat 64
  if e.isDone then [n (3 * 2 ^ 18), 0, 0, 0, 0, 0, 0, 0] ++ List.replicate 8 0
  else
    let w4 := match e.heldPermits with
      | (k, ix) :: _ => ix * 2 ^ 20 + k.handle * 2 ^ 16 + 1
      | [] => 0
    [n (e.word.toNat * 2 ^ 32 + e.seq * 2 ^ 20 + e.phase.toNat * 2 ^ 18), n e.pc.toNat, e.valA, e.valB,
      n (w4 + wctx * 2 ^ 13 + (if e.fault.isSome then 4 else 0) + (if e.eng = 6 ∧ e.suspended ∧ e.phase ≠ 0 then 2 else 0)),
      if e.eng = 7 ∧ e.fn = 0 then n e.progress else 0, 0, 0] ++
      (List.range 8).map fun r => e.reg r

/-- The walk context within its cluster that a command's walk holds, or 0. -/
def State.walkCtxOf (s : State) (q seq : Nat) : Nat :=
  match s.walks.find? fun w => w.2.thread == q && w.2.seq == seq with
  | some w => w.1 % 8
  | none => 0

/-- The ring of the image: the record of each of the 64 entries. -/
def State.ringWords (s : State) (q : Nat) : List Word :=
  (List.range 64).flatMap fun k =>
    match findAt (s.slot q).ring k with
    | some e => ringRecord e (s.walkCtxOf q e.seq)
    | none => [BitVec.ofNat 64 (3 * 2 ^ 18)] ++ List.replicate 15 0

/-- Whether a slot's image is WAITING: a wait for a fault collector is none of R39's, and its instruction runs again. -/
def Slot.imageWaits (x : Slot) : Bool :=
  match x.wait with
  | some (.collected _ _) => false
  | some _ => true
  | none => false

/-- PC of the image: the next instruction (R426), which follows the one in which the slot waits; in a REP body the body
word's own (R165). (DEDUCED: log entry 41.) -/
def Slot.imagePc (x : Slot) : BitVec 57 := if x.imageWaits && !x.repActive then x.pc + 4 else x.pc

/-- STATE, WAITADDR and WAITARG of the image. (DEDUCED: log entry 41.) -/
def waitWords (x : Slot) : List Word :=
  let n := BitVec.ofNat 64
  let st (run kind h : Nat) : Word := n (run + x.level.toNat * 4 + kind * 16 + h * 256)
  match x.wait with
  | some (.counter _ va t trap _) => [st 2 1 0, va, withField t 63 63 (if trap then 1 else 0)]
  | some (.cbProducer h k) => [st 2 2 h, 0, n k]
  | some (.cbConsumer h k) => [st 2 3 h, 0, n k]
  | some (.marker h) => [st 2 4 h, n (2 ^ h), 0]
  | some (.markers m) => [st 2 4 0, n m, 0]
  | some (.pool _ _) => [st 2 5 0, 0, 0]
  | some (.launch _ _ _) => [st 2 7 0, 0, 0]
  | some (.queue k) => [st 2 8 0, 0, n k]
  | some (.collected _ _) => [st 1 0 0, 0, 0]
  | none => [st 1 0 0, 0, 0]

/-- Words of a vector register. -/
def lineWords (v : Line) : List Word := (List.range 16).map fun i => v.extractLsb' (64 * i) 64

/-- Words of an accumulator. -/
def accWords (a : Store (BitVec 32)) : List Word :=
  (List.range 512).map fun i => BitVec.ofNat 64 ((getAt 0 a (2 * i)).toNat + (getAt 0 a (2 * i + 1)).toNat * 2 ^ 32)

/-- The messages spilled for the activation of a slot (R428). -/
def State.spilledFor (s : State) (q : Nat) : List Msg :=
  s.spilled.filter fun m => slotNum (placeTile m.place) (placeStage m.place) m.slot == q && m.gen == (s.slot q).gen

/-- The 4,096 words of a slot's state image (R426). -/
def State.image (s : State) (q : Nat) : List Word :=
  let x := s.slot q
  let n := BitVec.ofNat 64
  let pend : List Word := match x.nak with
    | some (c, r, va) => [n (c.toNat + r.toNat * 256), va]
    | none => [0, 0]
  let spill := s.firstUnit x.ctx
    (((s.spilledFor q).map (·.relNum)) ++
      (s.operands.filter fun o => o.thread == q).filterMap (·.unit))
  [n (0x4C534847 + 2 ^ 32 + (placeOf q).toNat * 2 ^ 48), s.ctxid x.ctx, n (q % 4 * 2 ^ 16 + x.gen.toNat), va57 x.imagePc] ++
    waitWords x ++ pend ++ [x.seqnext.setWidth 64, x.round.setWidth 64, n (spill.getD 0xFFFFFFFF)] ++
    List.replicate 20 0 ++
    ((List.range 32).map fun r => x.sreg (BitVec.ofNat 5 r)) ++
    ((List.range 8).map fun p => x.preg (BitVec.ofNat 3 p)) ++ ((List.range 8).map fun p => x.step (BitVec.ofNat 3 p)) ++
    [x.fflags.setWidth 64, x.fctl, x.srseed, x.repst, x.repcnt.setWidth 64, x.lastspawn, x.cstat.setWidth 64,
      x.strap.epc, x.strap.cause, x.strap.tval, x.strap.word, x.strap.repst, x.strap.repcnt, x.strap.scratch, x.ringst] ++
    List.replicate 33 0 ++
    ((List.range 32).flatMap fun r => lineWords (x.vreg (BitVec.ofNat 5 r))) ++
    ((List.range 8).flatMap fun e => (List.range 4).flatMap fun k => (List.range 8).map fun r => x.ereg e k r) ++
    s.ringWords q ++ List.replicate 128 0 ++
    ((List.range 4).flatMap fun i => if stageOf q = 2 then accWords (getAt [] x.acc i) else List.replicate 512 0)

/-! ### The targets of R408 -/

/-- The slot that SLSAVE, SLREST and SLKILL name, or the trap. (DEDUCED: log entry 40.) -/
def slotTarget (q : Nat) (a : Word) : Except XFault Nat :=
  let p := BitVec.ofNat 16 (fieldOf a 15 0)
  let t := slotNum (placeTile p) (placeStage p) (fieldOf a 17 16)
  if fieldOf a 63 34 ≠ 0 ∨ placeStage p = 3 ∨ t = q then .error (xf eIll 0)
  else if placeTile p ≠ tileOf q then .error (xf eProt 0x05)
  else .ok t

/-- SLRES for a target that is FREE or has another tag, or is of another context (R408). (DEDUCED: log entry 40.) -/
def targetCode (s : State) (q t : Nat) (a : Word) : Option Nat :=
  let y := s.slot t
  if y.state = .free ∨ y.gen.toNat ≠ fieldOf a 33 18 then some 1
  else if y.ctx ≠ (s.slot q).ctx ∨ y.kind = .firmware then some 4
  else none

/-- The instruction ends with a code in SLRES. -/
def slotResult (q : Nat) (c : Nat) (s : State) : Result := complete q s fun x => { x with slres := BitVec.ofNat 3 c }

/-- The homes of the eight 4 KiB pieces of an image. (DEDUCED: log entry 65.) -/
def imageLocs (q : Nat) (b : Word) (a : Access) : Nat → State → State × (Except (XFault × Word) (List Loc))
  | 0, s => (s, .ok [])
  | k + 1, s =>
    let va := b + BitVec.ofNat 64 (4096 * (7 - k))
    match resolve s (s.who q) va 4096 a with
    | (s1, .error f) => (s1, .error (f, va))
    | (s1, .ok l) =>
      match homeOf l.key with
      | .reg _ => (s1, .error (xf eAlign 0, va))
      | .ctrl _ _ => (s1, .error (xf eProt 0x05, va))
      | _ =>
        match imageLocs q b a k s1 with
        | (s2, .ok ls) => (s2, .ok (l :: ls))
        | (s2, .error e) => (s2, .error e)

/-! ### SLSAVE (R425) -/

/-- Steps 1 and 2 of R425: the target's issue stops, its wait's registration is withdrawn with any trap that stands for the
wait (R397), its commands at DISPATCHED and its walks are suspended, and so is a BCOPY whose ranges do not overlap, between
two lines; a merged fetch that it leads goes to the next of the joined commands (R299). (DEDUCED: log entry 41.) -/
def State.stopTarget (s : State) (t : Nat) : State :=
  let s1 := { s with
    waits := s.waits.filter (fun w => w.thread ≠ t),
    poolWaiters := s.poolWaiters.filter (fun w => w.2 ≠ t),
    walks := s.walks.map (fun (w : Nat × Walk) => (w.1, if w.2.thread = t then { w.2 with suspended := true } else w.2)),
    collectors := s.collectors.map (fun (c : Nat × Collector) => (c.1, { c.2 with
      recs := c.2.recs.map fun (r : FaultRec) => { r with waiters := r.waiters.filter fun m => m.thread ≠ t } })),
    farReqs := s.farReqs.map (fun (r : FarReq) =>
      if r.thread = some t ∧ (r.serial.any fun n => (s.slot t).waitsFor n) then { r with serial := none, id := 2 } else r),
    agenda := (s.agenda.filter fun e => !waitEvent t e) ++ s.newLeaders t,
    fetches := (s.fetches.map fun (f : Fetch) => { f with reqs := f.reqs.filter fun r => r.thread ≠ t }).filter fun f =>
      f.reqs ≠ [] }
  s1.modSlot t fun x =>
    let hold (e : RingEntry) : RingEntry :=
      if !e.isDone ∧ (e.phase = 0 ∨ copyByLines t e ∨ (s1.walks.any fun w => w.2.thread == t && w.2.seq == e.seq)) then { e with suspended := true }
      else e
    { x with saving := true, ring := x.ring.map fun (e : Nat × RingEntry) => (e.1, hold e.2) }

/-- Whether a stopped target has nothing under way (R425 steps 2 and 3). (DEDUCED: log entry 40.) -/
def State.quiet (s : State) (t : Nat) : Bool :=
  let x := s.slot t
  (x.loads.all fun l => x.waitsFor l.serial) && x.relNext == x.relDone && !s.storesLeft t &&
    x.ring.all fun e => e.2.isDone || e.2.suspended || (e.2.fault.isSome && e.2.phase == 0)

/-- The slot executes the instruction at its PC again, instead of the wait that it held. -/
def Slot.rerun (x : Slot) : Slot :=
  { x with state := .running, wait := none, loads := x.loads.filter fun l => !x.waitsFor l.serial }

/-- The wait of a stopped target is registered again (R429 step 4): a counter is read again, a SPAWN and a LAUNCH rejoin
their arrival orders, and a CB, marker or QUNB wait is looked at. A collected fault's access is executed again (R397), and
so is a counter wait whose address has another home by now. (DEDUCED: log entry 41.) -/
def State.rewait (s : State) (t : Nat) : State :=
  let x := s.slot t
  match x.state, x.wait with
  | .waiting, some (.counter key va target trap n) =>
    match counterLoc s (s.who t) va .read, x.loads.find? fun l => l.serial == n with
    | (s1, .ok l), some r =>
      if l.key = key then s1.push (.counterWaitAtHome ⟨t, n, key, va, target, trap, r.origin.word, 0⟩)
      else s1.modSlot t Slot.rerun
    | (s1, _), _ => s1.modSlot t Slot.rerun
  | .waiting, some (.pool tile _) => State.push { s with poolWaiters := s.poolWaiters ++ [(tile, t)] } (.spawnPoolRelease tile)
  | .waiting, some (.launch _ _ _) => s.push (.launchAdmission (256 + t))
  | .waiting, some (.queue n) => if (findAt s.hqueues (256 * x.ctx + n)).isSome then s else s.endUnbind x.ctx n
  | .waiting, some (.collected _ _) => s.modSlot t Slot.rerun
  | .waiting, some _ => s.wakeCbs (tileOf t)
  | _, _ => s

/-- A stopped target goes on (R429 steps 3 to 5): its walks, its commands and EGETs at DISPATCHED and its stopped BCOPY are
taken up again, and its wait is registered again. -/
def State.resumeTarget (s : State) (t : Nat) : State :=
  let x := s.slot t
  let evs := (x.ordered.filter fun e => e.suspended && e.fault.isNone && (e.eng != 6 || e.phase == 0)).map fun e =>
    if (egetDest e.word).isSome then Event.engineDone t e.seq
    else if e.phase = 0 then Event.cbPermit t e.seq
    else if e.phase = 1 then Event.engineResultPhase t e.seq
    else Event.engineDone t e.seq
  let s1 := { s with walks := s.walks.map fun (w : Nat × Walk) =>
    (w.1, if w.2.thread = t then { w.2 with suspended := false } else w.2) }
  ((s1.modSlot t fun x => { x with
    saving := false, ring := x.ring.map fun (e : Nat × RingEntry) => (e.1, { e.2 with suspended := false }) }).pushAll
    evs).rewait t

/-! ### Operand slots (R205, R425 step 3, R428) -/

/-- The operand slots of a target's MROTs that are on their way, in the order in which they were sent, each with the step
that brings it to its receiving end. -/
def State.operandsOut (s : State) (t : Nat) : List (OperandSlot × Event) :=
  s.agenda.filterMap fun e => match e with
    | .channelSlotArrival p i =>
      (s.operands.find? fun o =>
        o.thread == t && o.unit == none && o.number == some (chanNumber i) &&
          (match s.cbAt o.key with | some c => (s.cbPeer c).any fun d => d.key == p | none => false)).map fun o =>
        ({ o with item := some i }, e)
    | _ => none

/-- An operand slot not yet wholly sent goes to the spill buffer; which ones those are is a free choice, and one that finds
no room is sent. (DEDUCED: log entry 41.) -/
def State.spillOperand (s : State) (t : Nat) (p : OperandSlot × Event) : State :=
  let s0 := { s with choices := s.choices + 1 }
  match p.1.item with
  | some (.slot n d pts) =>
    if Config.choice s.choices % 2 = 0 then s0
    else
      match s0.spillRecord p.1.ctx t 2 (s.slot t).gen.toNat n p.1.key.handle (byteWords d (d.length / 8)) pts with
      | some (s1, u) =>
        { s1 with
          agenda := s1.agenda.erase p.2,
          operands := (s1.operands.filter fun o => !(o.key == p.1.key && o.number == p.1.number)) ++
            [{ p.1 with unit := some u }] }
      | none => s0
  | _ => s0

/-- The operand slots spilled for a target are on their way again, in CHSEQ order (R429 step 2).
(DEDUCED: log entry 41.) -/
def State.resendOperands (s : State) (t : Nat) : State :=
  (s.operands.filter fun o => o.thread == t && o.unit.isSome).foldl (fun s o =>
    match o.unit, o.item, s.cbAt o.key with
    | some u, some i, some c =>
      let units := 1 + (match i with | .slot _ d _ => d.length / 64 | .marker _ => 0)
      (State.spillDone { s with operands := s.operands.map fun (r : OperandSlot) =>
        if r = o then { o with unit := none, item := none } else r } o.ctx t 2 units u 0).sendItem c i
    | _, _, _ => { s with operands := s.operands.filter (· ≠ o) }) s

/-- The image written by the issuing slot, in writes of 128 bytes. -/
def State.writeImage (s : State) (q : Nat) (b : Word) (ls : List Loc) (img : List Word) : State :=
  (chunks 16 256 img).zipIdx.foldl (fun (s : State) c =>
    let l := ls.getD (c.2 / 32) ⟨0, false, false, false⟩
    let req : WriteReq :=
      ⟨s.nextId, q, clusterOf q, l.key + 128 * (c.2 % 32), b + BitVec.ofNat 64 (128 * c.2), c.1.flatMap wordBytes,
        (s.slot q).pts, [], false, l.ord, [], false, .held⟩
    s.useId.putStore req) s

/-- SLSAVE (R408, R425). (DEDUCED: log entry 40.) -/
def execSlsave (a b : BitVec 5) (s : State) : Result :=
  let i : Instr := .slsave a b
  issue i s fun q s =>
    let x := s.slot q
    let va := x.sreg b
    if !(x.satisfied (x.smask a) && x.satisfied (x.smask b) && x.satisfied x.ctm) then .next s
    else
      match slotTarget q (x.sreg a) with
      | .error f => .next (s.trapOpen q i f.cause f.reason)
      | .ok t =>
        let y := s.slot t
        if va.toNat % 4096 ≠ 0 then .next (s.trapAt q i eAlign 0 va)
        else
          match targetCode s q t (x.sreg a) with
          | some c => slotResult q c s
          | none =>
            if y.dying then .next s
            else if y.state = .saved ∨ x.level.toNat < y.level.toNat ∨
                (y.ring.any fun e => e.2.fault.isSome && decide (2 ≤ e.2.phase.toNat) && !e.2.isDone) then
              slotResult q 2 (if y.saving then s.resumeTarget t else s)
            else
              match imageLocs q va .write 8 s with
              | (s1, .error (f, v)) => .next ((if y.saving then s1.resumeTarget t else s1).accessFault q i f .write v)
              | (s1, .ok ls) =>
                let s2 := (s1.stopTarget t).drainThread t
                if !s2.quiet t then .next s2
                else
                  let s2 := (s2.operandsOut t).foldl (fun (s : State) p => s.spillOperand t p) s2
                  let img := s2.image t
                  let s3 := s2.modSlot t fun y => { y with state := .saved, retiring := false, nak := none, ahead := none }
                  slotResult q 0 ((s3.holdMsgs t true).writeImage q va ls img)

/-! ### SLREST (R429) -/

/-- The vector register that 16 words hold. -/
def wordsLine (ws : List Word) : Line := BitVec.ofNat 1024 (leNat (ws.flatMap wordBytes))

/-- An accumulator from its 512 words. -/
def wordsAcc (ws : List Word) : Store (BitVec 32) :=
  ((List.range 1024).map fun k => (k, BitVec.ofNat 32 ((ws.getD (k / 2) 0).toNat / 2 ^ (32 * (k % 2))))).filter fun e =>
    e.2 ≠ 0

/-- Entries of a store with the zeros left out. -/
def nonZero (l : List (Nat × Word)) : Store Word := l.filter fun e => e.2 ≠ 0

/-- A ring entry from its record; none where the record is DONE. What R427's record has no field for, the rounding mode,
FLUSH, the generator's state and the round of its dispatch, the cause of its fault, the timestamp that its reads have
reached, and what a suspended walk has staged, stays with the slot for the command that was cancelled there; a fault whose
cause is not there is an E_XLAT. (DEDUCED: log entry 91.) -/
def recordEntry (s : State) (t : Nat) (y : Slot) (w : Nat → Word) : Option RingEntry :=
  let w0 := w 0
  if fieldOf w0 19 18 = 3 then none
  else
    let seq := fieldOf w0 31 20
    let walk := (w 4).getLsbD 1
    let permits : List (CbKey × Nat) :=
      if (w 4).getLsbD 0 then
        match s.cbFor t (fieldOf (w 4) 19 16) with
        | some c => [(c.key, fieldOf (w 4) 27 20)]
        | none => []
      else if walk then ((y.entry seq).map fun e => e.permits).getD []
      else []
    let word := BitVec.ofNat 32 (fieldOf w0 63 32)
    let mine := (y.entry seq).filter fun e => e.word == word
    let old := mine.bind fun e => e.fault
    let fresh := y.newEntry word (w 2) (w 3) s.nextId
    let kept := mine.getD fresh
    some { (if walk then kept else fresh) with
      rm := kept.rm, flush := kept.flush, seed := kept.seed, round := kept.round, pts := max fresh.pts kept.pts,
      seq := seq, valA := w 2, valB := w 3, phase := if walk then BitVec.ofNat 2 (fieldOf w0 19 18) else 0, pc := low57 (w 1),
      eset := (List.range 8).map fun r => w (8 + r), permits := permits,
      fault := if (w 4).getLsbD 2 then some (old.getD eXlat) else none, suspended := true,
      progress := (w 5).toNat }

/-- Whether an image belongs to a slot (R408, R429), and gives it a state that R426 lists. (DEDUCED: log entry 41.) -/
def imageMatches (s : State) (t : Nat) (w : Nat → Word) : Bool :=
  let y := s.slot t
  w 0 == BitVec.ofNat 64 (0x4C534847 + 2 ^ 32 + (placeOf t).toNat * 2 ^ 48) && w 1 == s.ctxid y.ctx &&
    w 2 == BitVec.ofNat 64 (t % 4 * 2 ^ 16 + y.gen.toNat) && (fieldOf (w 4) 1 0 == 1 || fieldOf (w 4) 1 0 == 2) &&
    fieldOf (w 4) 3 2 != 3

/-- Where a slot that an image restores stands: at the image's PC, or, where it records a wait, at the word in which the
slot waits (R165, R426). (DEDUCED: log entry 41.) -/
def resumePc (w : Nat → Word) : BitVec 57 :=
  if fieldOf (w 4) 1 0 = 2 ∧ !(w 83).getLsbD 24 then low57 (w 3) - 4 else low57 (w 3)

/-- The engines whose faulted entry had become DONE at the delivery of the trap that an image's handler has in hand (R430,
R470). (DEDUCED: log entry 91.) -/
def restoredFatal (w : Nat → Word) : List Nat :=
  if fieldOf (w 4) 3 2 ≠ 0 ∧ (w 88).getLsbD 19 ∧ fatalCause (BitVec.ofNat 8 (fieldOf (w 88) 7 0)) then
    [wordEng (BitVec.ofNat 32 (w 90).toNat)]
  else []

/-- The slot that an image restores: every field of R426, with every mask zero. A recorded wait that is the one in which
the slot was saved is taken over as it stands; another is built from the image (`recordedWait`).
(DEDUCED: log entry 41.) -/
def restored (s : State) (t : Nat) (w : Nat → Word) : Slot :=
  let y := s.slot t
  let same := y.imageWaits && [w 4, w 5, w 6] == waitWords y && resumePc w == y.pc
  let range (o n : Nat) : List (Nat × Word) := (List.range n).map fun k => (k, w (o + k))
  let x : Slot := { y with
    state := if same then .waiting else .running, level := BitVec.ofNat 2 (fieldOf (w 4) 3 2), pc := resumePc w,
    wait := if same then y.wait else none,
    nak := if w 7 = 0 then none else some (BitVec.ofNat 8 (fieldOf (w 7) 7 0), BitVec.ofNat 8 (fieldOf (w 7) 15 8), w 8),
    seqnext := BitVec.ofNat 12 (fieldOf (w 9) 11 0), round := BitVec.ofNat 32 (fieldOf (w 10) 31 0),
    s := nonZero ((range 32 32).filter fun e => e.1 ≠ 0), sMask := [], p := nonZero (range 64 8), pMask := [],
    pstep := nonZero (range 72 8), fflags := BitVec.ofNat 5 (w 80).toNat, rm := BitVec.ofNat 3 (w 81).toNat,
    flush := (w 81).getLsbD 3, srseed := w 82, repst := w 83 &&& repstMask, repcnt := BitVec.ofNat 32 (w 84).toNat, repBody := [],
    lastspawn := w 85, cstat := BitVec.ofNat 2 (w 86).toNat, poison := [], ctm := Taint.none,
    strap := ⟨w 87, w 88 &&& causeMask, w 89, w 90 &&& 0xFFFFFFFF, w 91 &&& repstMask, w 92 &&& 0xFFFFFFFF, w 93⟩, drop := (w 94).getLsbD 0,
    v := ((List.range 32).map fun r => (r, wordsLine ((List.range 16).map fun k => w (128 + 16 * r + k)))).filter fun e => e.2 ≠ 0,
    vMask := [],
    eset := nonZero ((List.range 256).filterMap fun k =>
      if k % 8 < engRegs (k / 32) then some (esetKey (k / 32) (k / 8 % 4) (k % 8), w (640 + k) &&& engRegMask (k / 32) (k % 8)) else none),
    acc := if stageOf t = 2 then (List.range 4).map fun i =>
        (i, wordsAcc ((List.range 512).map fun k => w (2048 + 512 * i + k))) else [],
    loads := if same then y.loads else [], retiring := false, saving := false, xmark := none, ahead := none,
    fatal := restoredFatal w }
  { x with ring := (List.range 64).filterMap fun k =>
      (recordEntry s t x fun r => w (896 + 16 * k + r)).map fun e => (k, e) }

/-- The instruction word at a PC of a slot's context, where it lies in this package. -/
def State.wordAt (s : State) (t : Nat) (pc : BitVec 57) : State × Option InstrWord :=
  match resolve s (s.who t) (va57 pc) 4 .fetch with
  | (s1, .error _) => (s1, none)
  | (s1, .ok l) => (s1, if isFar l.key then none else some (BitVec.ofNat 32 (leNat (s1.mem.readBytes l.key 4))))

/-- The counter wait that an image records, for the instruction word at the slot's PC: its destination and scope are the
word's, its counter and target the image's. (DEDUCED: log entry 41.) -/
def State.counterWaitOf (s : State) (t : Nat) (i : InstrWord) (va arg : Word) : State :=
  match counterLoc s (s.who t) va .read with
  | (s1, .error _) => s1
  | (s1, .ok l) =>
    let x := s1.slot t
    let form : LoadForm := ⟨va, Taint.none, 8, false, .scalar (i.toNat / 2 ^ 21 % 32), .wait (i.toNat / 2 ^ 8 % 8), none⟩
    s1.setSlot t { x.takeLoad (form.record x i s1.nextId l none 0) with
      state := .waiting, wait := some (.counter l.key va (withField arg 63 63 0) (arg.getLsbD 63) x.nextSerial) }

/-- The slot is set to the wait that its image records (R429 steps 4 and 5), where it has not taken over its own: what
the image holds no field for comes from the instruction word at its PC. A SPAWN's or LAUNCH's wait, whose operands the image
does not hold, and a wait whose word or counter cannot be read, has its instruction executed again.
(DEDUCED: log entry 41.) -/
def State.recordedWait (s : State) (t : Nat) (w : Nat → Word) : State :=
  let x := s.slot t
  let h := fieldOf (w 4) 11 8
  let held (i : WaitInfo) : State := s.modSlot t fun x => { x with state := .waiting, wait := some i }
  if fieldOf (w 4) 1 0 ≠ 2 ∨ x.state = .waiting then s
  else
    match fieldOf (w 4) 7 4 with
    | 1 =>
      match s.wordAt t x.pc with
      | (s1, some i) => s1.counterWaitOf t i (w 5) (w 6)
      | (s1, none) => s1
    | 2 => held (.cbProducer h (w 6).toNat)
    | 3 => held (.cbConsumer h (w 6).toNat)
    | 4 =>
      match s.wordAt t x.pc with
      | (_, some i) => held (if i.toNat / 2 ^ 13 % 16 = 0 then .marker h else .markers (w 5).toNat)
      | (s1, none) => s1
    | 8 => held (.queue (w 6).toNat)
    | _ => s

/-- The bytes of an image as the issuing slot loads them: none while lines must be waited for; a fault
where they cannot be read. (DEDUCED: log entry 41.) -/
def State.readImage (s : State) (q : Nat) (ls : List Loc) : State × (Except (Option (XFault × Nat)) (List Byte)) :=
  let lines := ls.flatMap fun l => (List.range 32).map fun k => l.key + 128 * k
  let far (k : Nat) : Bool := match homeOf k with | .far _ _ => true | _ => false
  match lines.find? fun k => far k && (findAt s.hubLines (hubKey k)).isNone with
  | some k =>
    match homeOf k with
    | .far p o =>
      let lva := BitVec.ofNat 64 (hubKey k)
      if s.hubAsked lva then (s, .error none)
      else
        (s.farSend
          { thread := none, serial := none, id := hubKey k, dst := s.domNode p, ty := tyRead, ord := true, vclass := 0,
            addr := p * 2 ^ 42 + o, payload := [0, 0, 128], pkey := s.pkey (s.slot q).ctx, tc := s.tc (s.slot q).ctx,
            store := false, va := lva }, .error none)
    | _ => (s, .error none)
  | none =>
    let s1 := lines.foldl (fun (s : State) k => s.drainLine (clusterOf q) q k) s
    if lines.any fun k => s1.lineDirty (clusterOf q) q k then (s1, .error none) else
    let keys := (lines.filter far).map hubKey
    let used := { s1 with hubLines := s1.hubLines.filter fun e => !keys.contains e.1 }
    let line (k : Nat) : List Byte := (getAt (0, []) s1.hubLines (hubKey k)).2
    match lines.findIdx? fun k => far k && decide ((line k).length < 128) with
    | some i => (used, .error (some (nakCause ((line (lines.getD i 0)).headD 1).toNat, 128 * i)))
    | none =>
    match lines.findIdx? fun k => !far k && s1.anyBad k 128 with
    | some i => (s1.detect none (lines.getD i 0) 128, .error (some (xf eAbort 0x02, 128 * i)))
    | none =>
      let bytes := lines.flatMap fun k => if far k then line k else s1.mem.readBytes k 128
      (used, .ok bytes)

/-- The messages that were spilled for a slot, on their way again in spill order (R428, R429), and those that were held for
it, which age again (R37). (DEDUCED: log entry 38.) -/
def State.respill (s : State) (t : Nat) : State :=
  let ms := (s.spilledFor t).map fun (m : Msg) => msgHeld m s.cycle false
  (s.holdMsgs t false).pushAll (ms.map .messageDelivery ++ ms.map .messageExpiry)

/-- SLREST (R408, R429). (DEDUCED: log entry 40.) -/
def execSlrest (a b : BitVec 5) (s : State) : Result :=
  let i : Instr := .slrest a b
  issue i s fun q s =>
    let x := s.slot q
    let va := x.sreg b
    if !(x.satisfied (x.smask a) && x.satisfied (x.smask b)) then .next s
    else
      match slotTarget q (x.sreg a) with
      | .error f => .next (s.trapOpen q i f.cause f.reason)
      | .ok t =>
        if va.toNat % 4096 ≠ 0 then .next (s.trapAt q i eAlign 0 va)
        else
          match targetCode s q t (x.sreg a) with
          | some c => slotResult q c s
          | none =>
            if (s.slot t).state ≠ .saved then slotResult q 2 s
            else
              match imageLocs q va .read 8 s with
              | (s1, .error (f, v)) => .next (s1.accessFault q i f .read v)
              | (s1, .ok ls) =>
                if s1.storesLeft q then .next (s1.drainThread q)
                else
                  match s1.readImage q ls with
                  | (s2, .error none) => .next s2
                  | (s2, .error (some (f, o))) => .next (s2.accessFault q i f .read (va + BitVec.ofNat 64 o))
                  | (s2, .ok bs) =>
                    let ws := (byteWords bs 4096).toArray
                    let w (k : Nat) : Word := ws.getD k 0
                    if imageMatches s2 t w then
                      slotResult q 0 (((((s2.setSlot t (restored s2 t w)).recordedWait t w).resendOperands t).resumeTarget t).respill t)
                    else slotResult q 3 s2

/-! ### SLKILL -/

/-- SLKILL (R408): the target issues no more and its engine operations stop; it is discarded, with no release, once the
stores that it had made are performed and 32 cycles after its dispatch at the earliest (R37).
(DEDUCED: log entry 40.) -/
def execSlkill (a : BitVec 5) (s : State) : Result :=
  let i : Instr := .slkill a
  issue i s fun q s =>
    let x := s.slot q
    if !x.satisfied (x.smask a) then .next s
    else
      match slotTarget q (x.sreg a) with
      | .error f => .next (s.trapOpen q i f.cause f.reason)
      | .ok t =>
        match targetCode s q t (x.sreg a) with
        | some c => slotResult q c s
        | none =>
          let s1 := (s.stopTarget t).drainThread t
          if s1.storesLeft t || !s1.stayed t then .next s1 else slotResult q 0 (s1.discardSlot t)

end Sys2Proof.Machine
end

