-- ==== Sys2Proof/Machine/Tephra.lean ====
section
/-! DEFINITION. Tephra: pressure (R336, R337), distances (R338, R339, R346), placement and hops (R340 to R343)
and dispatch (R347, R348). -/

namespace Sys2Proof.Machine

/-! ### Entries -/

/-- The context of an entry. -/
def entryCtx : RunEntry → Nat
  | .task x _ _ _ _ _ _ _ _ => x
  | .group x _ _ _ _ _ => x
  | .launch x _ _ _ _ _ _ => x

/-- Whether an entry, or the group at the head of a launch entry, has been tested here and stays (R340). -/
def entryStayed : RunEntry → Bool
  | .task _ _ _ _ _ _ _ b _ => b
  | .group _ _ _ _ b _ => b
  | .launch _ _ _ _ _ b _ => b

/-- The entry with its mark of having stayed set. -/
def entryStay : RunEntry → RunEntry
  | .task x l h p ws n t _ k => .task x l h p ws n t true k
  | .group x l g n _ k => .group x l g n true k
  | .launch x l g d c _ k => .launch x l g d c true k

/-- The pass count of the head (R348). -/
def entryPasses : RunEntry → Nat
  | .task _ _ _ _ _ _ _ _ k => k
  | .group _ _ _ _ _ k => k
  | .launch _ _ _ _ _ _ k => k

/-- The entry with its head passed over once more (R348). -/
def entryPass : RunEntry → RunEntry
  | .task x l h p ws n t b k => .task x l h p ws n t b (min 16 (k + 1))
  | .group x l g n b k => .group x l g n b (min 16 (k + 1))
  | .launch x l g d c b k => .launch x l g d c b (min 16 (k + 1))

/-- Hops taken so far; one that hops in carries at least one. -/
def entryHops : RunEntry → Nat
  | .task _ _ _ _ _ n _ _ _ => n
  | .group _ _ _ n _ _ => n
  | .launch _ _ _ _ _ _ _ => 0

/-- An entry as it stands after one more hop, not yet tested. -/
def entryHopped : RunEntry → RunEntry
  | .task x l h p ws n t _ _ => .task x l h p ws (min 15 (n + 1)) t false 0
  | .group x l g n _ _ => .group x l g (min 15 (n + 1)) false 0
  | e => e

/-- Whether two entries have the same task or group at their head. -/
def sameHead : RunEntry → RunEntry → Bool
  | .task _ l h p _ _ _ _ _, .task _ l' h' p' _ _ _ _ _ => l == l' && h == h' && p == p'
  | .group _ l g _ _ _, .group _ l' g' _ _ _ => l == l' && g == g'
  | .launch _ l g _ _ _ _, .launch _ l' g' _ _ _ _ => l == l' && g == g'
  | _, _ => false

/-- Whether two entries are one: the same task or group, or what is left of the same launch. -/
def sameEntry : RunEntry → RunEntry → Bool
  | .launch _ l _ _ _ _ _, .launch _ l' _ _ _ _ _ => l == l'
  | e, e' => sameHead e e'

/-- The place of an entry in a list: behind the last of those that stand ahead of it. -/
def backAt (ahead l : List RunEntry) : Nat :=
  l.zipIdx.foldl (fun n p => if ahead.any (sameEntry p.1) then p.2 + 1 else n) 0

/-- A list with an entry back where it was (R343): behind the last of those that stood ahead of it and are still there, and
ahead of every other, which stood behind it or came later. -/
def putBack (ahead : List RunEntry) (e : RunEntry) (l : List RunEntry) : List RunEntry := l.insertIdx (backAt ahead l) e

/-- What becomes of an entry whose head leaves: nothing, or the launch entry with its next group.
(DEDUCED: log entry 35.) -/
def entryRest : RunEntry → Option RunEntry
  | .launch x l g d c _ _ => if c ≤ 1 then none else some (.launch x l (g + d) d (c - 1) false 0)
  | _ => none

/-- The head as an entry of its own. -/
def entryHead : RunEntry → RunEntry
  | .launch x l g _ _ b _ => .group x l g 0 b 0
  | e => e

/-- COST of one task or group of an entry (R336). -/
def State.entryCost (s : State) : RunEntry → Nat
  | .task _ _ _ _ ws _ _ _ _ => taskCost ws
  | e => descCost (s.launchDesc (entryLaunch e))

/-- The pressure an entry contributes (R336). -/
def State.entryPressure (s : State) (e : RunEntry) : Nat :=
  match e with
  | .launch _ _ _ _ c _ _ => s.entryCost e * c
  | _ => s.entryCost e

/-- OPBYTES of an entry (R340). -/
def State.entryOpbytes (s : State) : RunEntry → Nat
  | .task _ _ _ _ ws _ _ _ _ => dField ws 5 31 0
  | e => descOpbytes (s.launchDesc (entryLaunch e))

/-- The class queue an entry stands in. -/
def State.entryClass (s : State) : RunEntry → Nat
  | .task _ _ _ _ ws _ _ _ _ => taskClass ws
  | e => descClass (s.launchDesc (entryLaunch e))

/-- Whether an entry never hops (R341): a group of a pinned launch, or of one with a channel. -/
def State.neverHops (s : State) : RunEntry → Bool
  | .task _ _ _ _ _ _ _ _ _ => false
  | e =>
    match findAt s.launches (entryLaunch e) with
    | some r => descMode r.desc == 2 || r.cbs.any fun c => (declInst c).chan
    | none => true

/-! ### Pressure and distance -/

/-- The entries of a cluster, class by class. -/
def State.entriesAt (s : State) (c : Nat) : List RunEntry := (List.range 4).flatMap (s.runList c)

/-- The sum of what a cluster's entries contribute, with those that hop from it and are not yet accepted. -/
def State.pressureSum (s : State) (c : Nat) : Nat :=
  ((s.entriesAt c).map s.entryPressure).foldl (· + ·) 0 +
    ((s.hopping.filter fun h => h.source == c).map fun h => s.entryPressure h.entry).foldl (· + ·) 0

/-- Live pressure of a cluster (R336). -/
def State.livePressure (s : State) (c : Nat) : Nat := min 0xFFFE (s.pressureSum c)

/-- The publication period that the clock is in has begun: what was published in the one before is what routers and
tests see (R337, R339). -/
def State.newPeriod (s : State) : State :=
  if s.period < s.cycle / 64 then { s with published := s.pubNext, dist := s.distNext, period := s.cycle / 64 } else s

/-- A step that each period of 64 cycles performs once for a cluster (R337, R339): `k` names it among the timers. -/
def onceAPeriod (k c : Nat) (again : Event) (body : State → State) (s : State) : State :=
  let s1 := s.newPeriod
  let t := 65536 * k + c
  if s1.cycle < getAt 0 s1.timers t then s1.push again
  else (body { s1 with timers := putAt s1.timers t (64 * (s1.period + 1)) }).push again

/-- PRESSURE_PUBLISH (R337): once in each period. -/
def execPressurePublish (c : Nat) (s : State) : Result :=
  .next (onceAPeriod 0 c (.pressurePublish c) (fun s =>
    { s with pubNext := putAt s.pubNext c (if s.fencedCluster c then 0xFFFF else s.livePressure c) }) s)

/-- Place of a context's distance at a cluster. -/
def distKey (x c : Nat) : Nat := 1024 * x + c

/-- D of a cluster for a context. -/
def State.distance (s : State) (x c : Nat) : Nat := getAt 0xFFF s.dist (distKey x c)

/-- LOW, STAY and PULLSH of a context (R345). -/
def State.low (s : State) (x : Nat) : Nat := fieldOf (s.reg (grctlOff x)) 15 0
/-- STAY. -/
def State.stay (s : State) (x : Nat) : Nat := fieldOf (s.reg (grctlOff x)) 31 16
/-- PULLSH. -/
def State.pullsh (s : State) (x : Nat) : Nat := fieldOf (s.reg (grctlOff x)) 37 32

/-- D of peer i of a context (R346): 0xFFF where it is not valid or its report is older than 4 µs. -/
def State.peerDistance (s : State) (x i : Nat) : Nat :=
  if (s.reg (grpeerOff x i)).getLsbD 63 then
    match findAt s.peers (4 * x + i) with
    | some (d, _, t) => if s.hubNs - t ≤ 4000 then d else 0xFFF
    | none => 0xFFF
  else 0xFFF

/-- The neighbours of a cluster for a context that are nodes, with their costs, in package order (R338). -/
def State.links (s : State) (x c : Nat) : List (Nat × Nat) :=
  (packageLinks c).filter fun l => s.usable x l.1

/-- The distances by way of a cluster's links and its context's peers that reach a node below LOW (R338, R339). -/
def State.reached (s : State) (x c : Nat) : List Nat :=
  ((s.links x c).filterMap fun l => if s.distance x l.1 = 0xFFF then none else some (s.distance x l.1 + l.2)) ++
    ([0, 1, 2, 3].filterMap fun i => if s.peerDistance x i = 0xFFF then none else some (s.peerDistance x i + 40))

/-- `recompute` of R339; 0xFFF where no neighbour reaches a node below LOW. (DEDUCED: log entry 90.) -/
def State.recompute (s : State) (x c : Nat) : Nat :=
  if !s.usable x c then 0xFFF
  else if getAt 0 s.published c < s.low x then 0
  else
    match (s.reached x c).min? with
    | some d => min d 0xFFE
    | none => 0xFFF

/-- The contexts whose Calderas cover a cluster. -/
def State.contextsAt (s : State) (c : Nat) : List Nat := (List.range 64).filter fun x => s.inCalderas x c

/-- DISTANCE_RECOMPUTE (R339): once in each period, from what the one before published. -/
def execDistanceRecompute (c : Nat) (s : State) : Result :=
  .next (onceAPeriod 1 c (.distanceRecompute c) (fun s =>
    { s with distNext := (s.contextsAt c).foldl (fun d x => putAt d (distKey x c) (s.recompute x c)) s.distNext }) s)

/-- GRCTL_WRITE (R345): ignored whole where it leaves LOW above STAY. -/
def execGrctlWrite (x : Nat) (v : Word) (s : State) : Result :=
  if fieldOf v 31 16 < fieldOf v 15 0 then .next s
  else .next (s.setReg (grctlOff x) (v &&& 0x0000003FFFFFFFFF))

/-- The least D of a context over the package, and the cluster that holds it. -/
def State.leastDistance (s : State) (x : Nat) : Option (Nat × Nat) :=
  (s.usableList x).foldl (fun (b : Option (Nat × Nat)) c =>
    match b with
    | none => some (s.distance x c, c)
    | some (d, _) => if s.distance x c < d then some (s.distance x c, c) else b) none

/-- The report of a context to each of its valid peers (R346). -/
def State.sendReports (s : State) (x : Nat) : State :=
  match s.leastDistance x with
  | none => s
  | some (d, c) =>
    [0, 1, 2, 3].foldl (fun (s : State) i =>
      let g := s.reg (grpeerOff x i)
      if g.getLsbD 63 then
        let f : Flit :=
          { dst := BitVec.ofNat 14 (s.domNode (fieldOf g 41 32)), src := BitVec.ofNat 14 s.nodeId,
            pkey := BitVec.ofNat 16 (s.pkey x), type := tyMessage, path := 0, ord := false, tc := BitVec.ofNat 2 (s.tc x),
            hops := 0, vclass := 2, len := 4, addr := 2,
            payload := [fieldOf g 5 0, d, c, x].map (BitVec.ofNat 64), tag := 0, crc := 0 }
        s.sendPlain f
      else s) s

/-- PEER_REPORT (R346): peer i of context x reports its least D and the cluster that holds it; with i = 4
the hub sends this package's reports, every 1 µs. -/
def execPeerReport (x i d c : Nat) (s : State) : Result :=
  let t := 65536 * 2
  if i < 4 then .next { s with peers := putAt s.peers (4 * x + i) (min d 0xFFF, c, s.hubNs) }
  else if s.hubNs < getAt 0 s.timers t then .next (s.push (.peerReport x i d c))
  else
    .next (((List.range 64).foldl (fun (s : State) x => s.sendReports x)
      { s with timers := putAt s.timers t (1000 * (s.hubNs / 1000 + 1)) }).push (.peerReport x i d c))

/-! ### Placement (R340 to R343) -/

/-- Where the placement test sends an entry. -/
inductive Place where
  | stay
  | hop (c : Nat)
  | peer (i : Nat)
  deriving DecidableEq, Repr

/-- The neighbour with the least D: the lowest cluster among equals, and peers last (R340). -/
def State.leastNeighbour (s : State) (x c : Nat) : Place × Nat :=
  let near := (s.links x c).foldl (fun (b : Place × Nat) l =>
    let d := s.distance x l.1
    match b.1 with
    | .hop y => if d < b.2 ∨ (d = b.2 ∧ l.1 < y) then (.hop l.1, d) else b
    | _ => (.hop l.1, d)) (.stay, 0xFFF)
  [0, 1, 2, 3].foldl (fun (b : Place × Nat) i =>
    let d := s.peerDistance x i
    if d < b.2 then (.peer i, d) else b) near

/-- `place` of R340 for the head of an entry at a cluster; where LOW is 0 no entry hops (R345).
(DEDUCED: log entry 35.) -/
def State.placement (s : State) (c : Nat) (e : RunEntry) : Place :=
  let x := entryCtx e
  let p := min 0xFFFE (s.pressureSum c - s.entryCost e)
  let h := entryHops e
  if p ≤ s.stay x ∨ s.neverHops e ∨ 15 ≤ h ∨ s.low x = 0 then .stay
  else
    match s.leastNeighbour x c with
    | (y, d) =>
      if d = 0xFFF then .stay
      else if s.stay x + s.entryOpbytes e / 2 ^ s.pullsh x * h < p then y
      else .stay

/-- A run list with the entry at an index replaced, or removed. -/
def setEntryAt (l : List RunEntry) (i : Nat) (e : Option RunEntry) : List RunEntry :=
  match e with
  | some e => l.set i e
  | none => l.eraseIdx i

/-- A hop over Llynsy (R346): the descriptor, the entry's launch of record and where it came from.
(DEDUCED: log entry 35.) -/
def State.sendHop (s : State) (c i : Nat) (e : RunEntry) (ahead : List RunEntry) : State :=
  let x := entryCtx e
  let g := s.reg (grpeerOff x i)
  let tgt := match findAt s.peers (4 * x + i) with | some (_, y, _) => y | none => 0
  let n := BitVec.ofNat 64
  let head : List Word := match e with
    | .task _ l h p ws k t _ _ => [n (fieldOf g 5 0), n tgt, n (k + 1), n t, n x, n l, n (2 ^ 32 + h * 256 + p % 256)] ++ ws
    | .group _ l j k _ _ => [n (fieldOf g 5 0), n tgt, n (k + 1), 0, n x, n l, n j, 0, 0, 0, 0, 0, 0]
    | .launch _ _ _ _ _ _ _ => []
  let s1 := { s with hopping := s.hopping ++ [(⟨e, c, clusterCount + s.nextTag, ahead⟩ : Hop)] }
  s1.farSend
    { thread := none, serial := none, id := 0, dst := s.domNode (fieldOf g 41 32), ty := tyMessage, ord := false,
      vclass := 0, addr := 0, payload := head ++ s.launchDesc (entryLaunch e), pkey := s.pkey x, tc := s.tc x,
      store := true, va := 0 }

/-- The test of one entry, or of the group at its head (R340): it stays, or its head hops. (DEDUCED: log entry 35.) -/
def State.testEntry (s : State) (c cls i : Nat) (e : RunEntry) : State :=
  let l := s.runList c cls
  let rest := setEntryAt l i (entryRest e)
  let ahead := l.take i ++
    (s.hopping.filter fun h => h.source == c && s.entryClass h.entry == cls && decide (backAt h.ahead l ≤ i)).map (·.entry)
  match s.placement c e with
  | .stay => s.setRun c cls (l.set i (entryStay e))
  | .hop y =>
    let h : Hop := ⟨entryHead e, c, y, ahead⟩
    State.push { s.setRun c cls rest with hopping := s.hopping ++ [h] } (.hopAccept h)
  | .peer j => (s.setRun c cls rest).sendHop c j (entryHead e) ahead

/-- The first entry that has not been tested at the cluster where it stands: the cluster, the class and the index. -/
def State.untested (s : State) : Option (Nat × Nat × Nat × RunEntry) :=
  s.runs.findSome? fun r => (r.2.zipIdx.find? fun p => !entryStayed p.1).map fun p => (r.1 / 4, r.1 % 4, p.2, p.1)

/-- The steps that bring a cluster's tiles to decide. -/
def decideAll (c : Nat) : List Event := (List.range 16).map fun t => .dispatchDecision (16 * c + t)

/-- Entries in a cluster's arrival pool (R342), with those that hop on from it and are not yet accepted elsewhere. -/
def State.arrivals (s : State) (c : Nat) : Nat :=
  ((s.entriesAt c ++ (s.hopping.filter fun h => h.source == c).map (·.entry)).filter fun e => decide (0 < entryHops e)).length

/-- HOP_ACCEPT (R342, R343): the target takes the entry, or it stays where it was at the sender.
(DEDUCED: log entry 35.) -/
def execHopAccept (h : Hop) (s : State) : Result :=
  if !s.hopping.contains h then .next s
  else
    let s1 := { s with hopping := s.hopping.erase h }
    let x := entryCtx h.entry
    let cls := s.entryClass h.entry
    if s.usable x h.target ∧ s.arrivals h.target < 512 then
      .next ((s1.setRun h.target cls (s1.runList h.target cls ++ [entryHopped h.entry])).arrived h.target)
    else
      .next ((s1.setRun h.source cls (putBack h.ahead (entryStay h.entry) (s1.runList h.source cls))).pushAll
        (decideAll h.source))

/-! ### Dispatch (R347, R348) -/

/-- The class favoured on decision n. (DESIGN CHOICE: log entry 15.) -/
def favoured (n : Nat) : Nat := if n % 8 = 7 then 1 else if n % 16 = 3 then 2 else if n % 32 = 13 then 3 else 0

/-- The classes in the order in which decision n serves them. -/
def classOrder (n : Nat) : List Nat := favoured n :: [0, 1, 2, 3].filter (· ≠ favoured n)

/-- Whether the head of an entry could ever run on a tile (R45, R347). -/
def State.runsOn (s : State) (tile : Nat) (e : RunEntry) : Bool :=
  let own (l g : Nat) : Bool := descMode (s.launchDesc l) != 2 || g % 16 == tile % 16
  match e with
  | .task _ _ _ _ _ _ _ _ _ => true
  | .group _ l g _ _ _ => own l g
  | .launch _ l g _ _ _ _ => own l g

/-- The head of an entry started on a tile, where it is eligible and fits. (DEDUCED: log entry 35.) -/
def State.startEntry (s : State) (tile : Nat) (e : RunEntry) : Option State :=
  if !s.runsOn tile e ∨ !s.usable (entryCtx e) (tile / 16) then none
  else
    match e with
    | .task _ l h p ws _ t _ _ => s.startTask tile l h p ws t
    | .group _ l g _ _ _ => s.startGroup tile l g
    | .launch _ l g _ _ _ _ => s.startGroup tile l g

/-- A class queue as a decision sees it, with each entry's index: the entries of the context whose turn it
is, then the others in arrival order. (DESIGN CHOICE: log entry 15.) -/
def State.classView (s : State) (c cls : Nat) : List (RunEntry × Nat) :=
  let l := (s.runList c cls).zipIdx
  let last := getAt 0 s.rrCtx (runKey c cls)
  let after := (l.map fun p => entryCtx p.1).filter fun x => decide (last ≤ x)
  let all := l.map fun p => entryCtx p.1
  let pick := (if after = [] then all else after).foldl (fun (b : Option Nat) x =>
    match b with | none => some x | some y => some (min x y)) none
  match pick with
  | some x => (l.filter fun p => entryCtx p.1 == x) ++ l.filter fun p => entryCtx p.1 != x
  | none => []

/-- Whether an entry is bound to another tile of its cluster (R348). -/
def State.boundElsewhere (s : State) (tile : Nat) (e : RunEntry) : Bool :=
  (List.range 16).any fun t =>
    let k := 16 * (tile / 16) + t
    k != tile && (match (s.tile k).drain with | some d => sameHead d e | none => false)

/-- The first of a class's head and next eight entries that fits. -/
def State.firstFit (s : State) (tile : Nat) (v : List (RunEntry × Nat)) : Option (RunEntry × Nat × State) :=
  (v.take 9).findSome? fun p =>
    if s.boundElsewhere tile p.1 then none else (s.startEntry tile p.1).map fun s1 => (p.1, p.2, s1)

/-- What a decision chooses: the class, the entry and its index, the state in which it has started, and
the heads that were passed over with their classes. -/
structure Chosen where
  cls : Nat
  entry : RunEntry
  ix : Nat
  state : State
  passed : List (Nat × RunEntry)

/-- The classes tried in order. (DESIGN CHOICE: log entry 15.) -/
def State.choose (s : State) (tile : Nat) : List Nat → List (Nat × RunEntry) → Option Chosen
  | [], _ => none
  | cls :: t, passed =>
    let v := s.classView (tile / 16) cls
    match s.firstFit tile v with
    | some (e, i, s1) =>
      let p := match v with
        | h :: _ => if sameHead h.1 e || !s.runsOn tile h.1 then passed else passed ++ [(cls, h.1)]
        | [] => passed
      some ⟨cls, e, i, s1, p⟩
    | none =>
      let p := match v with
        | h :: _ => if s.runsOn tile h.1 then passed ++ [(cls, h.1)] else passed
        | [] => passed
      s.choose tile t p

/-- A head passed over: its count rises, and at 16 it is bound to the tile, which drains; where the tile already drains the
head is kept for the first decision after (R348). -/
def State.passHeadOver (s : State) (tile : Nat) (p : Nat × RunEntry) : State :=
  let c := tile / 16
  let e := entryPass p.2
  let s1 := s.setRun c p.1 ((s.runList c p.1).map fun f => if sameHead f p.2 then entryPass f else f)
  if 16 ≤ entryPasses e ∧ !s1.boundElsewhere tile e then
    let t := s1.tile tile
    s1.setTile tile (if t.drain.isSome then { t with kept := t.kept ++ [e] } else { t with drain := some e })
  else s1

/-- The run list after the head of an entry has been dispatched, with the class's round robin moved on. -/
def State.served (s : State) (c cls i : Nat) (e : RunEntry) : State :=
  { s.setRun c cls (setEntryAt (s.runList c cls) i (entryRest e)) with
    rrCtx := putAt s.rrCtx (runKey c cls) (entryCtx e + 1) }

/-- The first head that a tile has kept for the decision after its drain, where it still waits and no other tile has bound
it (R348). -/
def State.keptHead (s : State) (tile : Nat) : Option RunEntry :=
  (s.tile tile).kept.find? fun e => (s.entriesAt (tile / 16)).any (sameHead e) && !s.boundElsewhere tile e

/-- A decision of a tile that does not drain: a head kept from a drain binds, else the next dispatch; none where nothing
fits. -/
def State.decideTile (s : State) (tile : Nat) : Option State :=
  let c := tile / 16
  let n := (s.tile tile).decisions
  match s.keptHead tile with
  | some e => some (s.setTile tile { s.tile tile with drain := some e, kept := (s.tile tile).kept.erase e })
  | none =>
  (s.choose tile (classOrder n) []).map fun k =>
    let s1 := k.state.served c k.cls k.ix k.entry
    let s2 := s1.setTile tile { s1.tile tile with decisions := n + 1 }
    k.passed.foldl (fun s p => s.passHeadOver tile p) s2

/-- A draining tile: its bound head is dispatched once it fits, and a head that is gone binds no more. -/
def State.drainStep (s : State) (tile : Nat) (d : RunEntry) : Option State :=
  let c := tile / 16
  let free (s : State) : State :=
    s.setTile tile { s.tile tile with drain := none, decisions := (s.tile tile).decisions + 1 }
  match (List.range 4).findSome? fun cls =>
    ((s.runList c cls).zipIdx.find? fun p => sameHead p.1 d).map fun p => (cls, p.2, p.1) with
  | none => some (s.setTile tile { s.tile tile with drain := none })
  | some (cls, i, e) => (s.startEntry tile e).map fun s1 => free (s1.served c cls i e)

/-- A message that waits for a handler on the tile, started ahead of every class (R40). -/
def State.tileHandler (s : State) (tile : Nat) : Option State :=
  s.hqueues.findSome? fun e =>
    if placeTile e.2.place = tile ∧ e.2.msgs ≠ [] then s.tryHandler (e.1 / 256) (e.1 % 256) else none

/-- DISPATCH_DECISION (R340, R347, R348): an entry that has come to a cluster, or to the head there, is tested before
anything else happens; then handlers come first, and the tile's next dispatch. (DEDUCED: log entry 102.) -/
def execDispatchDecision (tile : Nat) (s : State) : Result :=
  let again (s : State) : State :=
    if s.untested.isSome then s.pushNext (.dispatchDecision tile) else s.push (.dispatchDecision tile)
  match s.untested with
  | some (c, cls, i, e) => .next (again (s.testEntry c cls i e))
  | none =>
    match s.tileHandler tile with
    | some s1 => .next (again s1)
    | none =>
      match (match (s.tile tile).drain with
        | some d => s.drainStep tile d
        | none => s.decideTile tile) with
      | some s1 => .next (again s1)
      | none => .next (if s.entriesAt (tile / 16) = [] then s else again s)

end Sys2Proof.Machine
end

