-- ==== Sys2Proof/Machine/Recovery.lean ====
section
/-! DEFINITION. The steps of recovery: errors (R409 to R412), the containment of Calderas and clusters (R416 to
R420), lockstep pairs (R422) and the commit of shadow copies (R424). -/

namespace Sys2Proof.Machine

/-! ### Lifetime counters (R436) -/

/-- A 64-bit lifetime counter raised by one, saturating. -/
def State.lifeCount (s : State) (off : Nat) : State :=
  let life := putAt s.mram.life (off / 8) (satInc (getAt 0 s.mram.life (off / 8)))
  { s with mram := { s.mram with life := life } }

/-- The count of Flint's corrected mismatches of a cluster raised by one, saturating (R145). -/
def State.flintCount (s : State) (c : Nat) : State :=
  let k := (0x1000 + 4 * c) / 8
  let l := 32 * (c % 2)
  let life := putAt s.mram.life k (bump32 (getAt 0 s.mram.life k) (l + 31) l 1)
  { s with mram := { s.mram with life := life } }

/-! ### Errors -/

/-- Whether an error lies in a clean copy (R409): a line of a cluster's cache that holds no dirty bytes, or one of the
cluster's other caches. -/
def State.inCleanCopy (s : State) (e : ErrorSite) : Bool :=
  match e.cluster, e.key with
  | some c, some k =>
    (e.unit == 0x05 && !(s.dirty.any fun w =>
      w.cluster == c && w.key / 128 == k / 128 && w.place == .line)) ||
      (e.unit == 0x0E && decide (e.index < 4))
  | _, _ => false

/-- A clean copy is dropped, to be fetched afresh from its home: of the cluster cache, the constant cache, the TID cache,
the translation cache or the walk cache of a cluster (R409). (DESIGN CHOICE: log entry 55.) -/
def State.dropClean (s : State) (unit index c k : Nat) : State :=
  if unit = 0x05 then s.dropCopy c k
  else if index = 0 then { s with constLines := s.constLines.filter fun l => !(l.cluster == c && l.pa / 128 == k / 128) }
  else if index = 1 then { s with tids := s.tids.filter fun t => !(t.cluster == c && t.tid == k) }
  else if index = 2 then { s with tlb := s.tlb.filter fun x => !(x.cluster == c && x.index == k) }
  else { s with walkCache := s.walkCache.filter fun x => !(x.cluster == c && x.index == k) }

/-- CORRECTABLE_ERROR (R409): corrected in place and counted; a mismatch that a checker's retry corrected counts
for its cluster (R145), and a clean copy is read afresh. (DESIGN CHOICE: log entry 55.) -/
def execCorrectableError (e : ErrorSite) (s : State) : Result :=
  let s1 := s.lifeCount (0x0500 + 0x80 * e.die + 8 * (e.unit % 16))
  match e.cluster, e.key with
  | none, _ => .next s1
  | some c, k =>
    let s2 := if 0x07 ≤ e.unit ∧ e.unit ≤ 0x0A then s1.flintCount c else s1
    .next (if s.inCleanCopy e then s2.dropClean e.unit e.index c (k.getD 0) else s2)

/-- The physical line address of a home in device memory; other homes have none. (DESIGN CHOICE: log entry 55.) -/
def lineAddress (key : Option Nat) : Word :=
  match key with
  | some k => if k < 2 ^ 42 then BitVec.ofNat 64 (k / 128 * 128) else 0
  | none => 0

/-- The KIND 0x01 record of uncorrectable data, counted, with the error event (R410, R441).
(DESIGN CHOICE: log entry 55.) -/
def State.reportError (s : State) (e : ErrorSite) : State :=
  let r : ErrRec :=
    { ErrRec.ofKind 0x01 with
      ctx := e.consumer.map fun q => (s.slot q).ctx, place := (e.consumer.map fun q => (placeOf q).toNat).getD 0,
      addr := lineAddress e.key, unit := e.unit, uidx := e.index }
  ((s.record r).lifeCount (0x0900 + 0x80 * e.die + 8 * (e.unit % 16))).hostEvent 0

/-- The time in which ten uncorrectable errors fence a cluster: one hour, in nanoseconds (R419). -/
def errorSpan : Nat := 3600000000000

/-- An uncorrectable error in a cluster's SRAMs counted (R419). -/
def State.countSram (s : State) (c : Nat) : State :=
  let l := (s.sramErrors.filter fun p => decide (s.hubNs < p.2 + errorSpan)) ++ [(c, s.hubNs)]
  let s1 := { s with sramErrors := l }
  if 10 ≤ (l.filter fun p => p.1 == c).length then s1.push (.clusterFence c) else s1

/-- Uncorrectable dirty bytes of a line in a cluster cache are lost: their threads are the consumers at their next
release or drain (R410). -/
def State.loseDirty (s : State) (c key : Nat) : State :=
  { s with dirty := s.dirty.map fun (w : WriteReq) =>
      if w.cluster = c ∧ w.key / 128 = key / 128 ∧ w.place = .line then { w with lost := true } else w }

/-- E_CHECK of a core or of one of its units (R145, R419): nothing of the instruction commits, as its slot halts and a
command stays where it is; a KIND 0x02 record is written, and the cluster is fenced. For a command, `key` is its sequence
number. (DESIGN CHOICE: log entry 55.) -/
def State.checkFailed (s : State) (e : ErrorSite) : State :=
  match e.consumer with
  | none =>
    match e.cluster with
    | some c => s.push (.clusterFence c)
    | none => s
  | some q =>
    let x := s.slot q
    let ent := if 0x09 ≤ e.unit then e.key.bind x.entry else none
    let r : ErrRec :=
      { ErrRec.ofKind 0x02 with
        cause := 0x0C, ctx := some x.ctx, place := (placeOf q).toNat, unit := e.unit, uidx := e.index,
        data0 := va57 ((ent.map (·.pc)).getD x.pc), seq := ent.map (·.seq) }
    let s1 := s.modSlot q fun x =>
      { (ent.elim x fun d => x.setEntry { d with suspended := true }) with halted := true }
    (s1.record r).push (.clusterFence (clusterOf q))

/-- The other cluster that a cluster's router serves (R15). (DEDUCED: log entry 56.) -/
def routerPair (c : Nat) : Nat := if rowOf c % 2 = 0 then c + 16 else c - 16

/-- UNCORRECTABLE_ERROR (R410, R412, R419, R422): what an error of each unit class does. Data at a home is
withheld from then on; an access that detects it, or the scrub, finds it where it already stands. A clean copy is a
miss and counts as corrected (R409). (DEDUCED, DESIGN CHOICE: log entries 55, 56.) -/
def execUncorrectableError (e : ErrorSite) (s : State) : Result :=
  let counted (s : State) : State :=
    match e.cluster with
    | some c => if 0x03 ≤ e.unit ∧ e.unit ≤ 0x06 then s.countSram c else s
    | none => s
  if s.inCleanCopy e then execCorrectableError e s
  else
  match e.unit with
  | 0x05 =>
    match e.cluster, e.key with
    | some c, some k => .next (counted ((s.reportError e).loseDirty c k))
    | _, _ => .next (counted (s.reportError e))
  | 0x06 =>
    match e.consumer with
    | some q => .next (counted ((s.modSlot q fun x => { x with poison := putAt x.poison e.index true }).reportError e))
    | none => .next (counted (s.reportError e))
  | 0x07 => .next (s.checkFailed e)
  | 0x08 => .next (s.checkFailed e)
  | 0x09 => .next (s.checkFailed e)
  | 0x0A => .next (s.checkFailed e)
  | 0x0B =>
    match e.cluster with
    | some c => .next (s.pushAll [.clusterFence c, .clusterFence (routerPair c)])
    | none => .next s
  | 0x0C => .next (s.push (.portFailure e.index 2))
  | 0x0D =>
    match e.consumer with
    | some q =>
      let p := getAt ⟨[], []⟩ s.lock q
      let pc := (s.slot q).pc
      .next (State.push { s with lock := putAt s.lock q ⟨⟨0, pc, [0]⟩ :: p.leader, ⟨0, pc, [1]⟩ :: p.follower⟩ }
        (.lockstepCompare q))
    | none => .next s
  | _ =>
    match e.key with
    | some k =>
      let s1 := if e.scrub ∨ e.consumer.isSome then s else { s with bad := putAt s.bad (k / 8) true }
      .next (counted (s1.reportError e))
    | none => .next (counted (s.reportError e))

/-- SCRUB_PASS (R412): a line is read and checked; one that is uncorrectable is reported and left as it is. The next line
of the device memory follows. (DESIGN CHOICE: log entry 95.) -/
def execScrubPass (key : Nat) (s : State) : Result :=
  let line := key / 128 * 128
  .next ((if line < 2 ^ 42 ∧ s.anyBad line 128 then s.detect none line 128 else s).push
    (.scrubPass ((line + 128) % 2 ^ 42)))

/-- ERRHEAL (R412): the line is overwritten with zeros and a fresh code, as one write at its home. -/
def execErrheal (v : Word) (s : State) : Result :=
  let o := fieldOf v 55 7 * 128
  if 2 ^ 42 ≤ o then .next s
  else
    let s1 := (s.homeApply (dramKey o) 0 (List.replicate 128 0)).1
    .next { s1 with bad := s1.bad.filter fun e => e.1 / 16 ≠ o / 128 }

/-! ### Calderas (R416 to R418) -/

/-- FSTAT of a Caldera set. -/
def State.setFstat (s : State) (x i v : Nat) : State :=
  s.setReg (fstatOff x) (withField (s.reg (fstatOff x)) (2 * i + 1) (2 * i) v)

/-- Whether a home lies in a rectangle. -/
def homeIn (rect : Nat → Bool) (key : Nat) : Bool :=
  match homeCluster key with
  | some c => rect c
  | none => false

/-- The waits of threads outside that are registered at homes inside are answered with ABANDONED (R417 step
4). -/
def State.answerWaits (s : State) (x : Nat) (rect : Nat → Bool) : State :=
  let out (w : WaitReq) : Bool := homeIn rect w.key && !rect (clusterOf w.thread) && (s.slot w.thread).ctx == x
  (s.waits.filter out).foldl
    (fun (s : State) w => s.wakeWith w (s.counter w.key) (s.status w.key ||| 1) (getAt 0 s.counterTs w.key))
    { s with waits := s.waits.filter fun w => !out w }

/-- An entry of a fenced run list is removed (R417 steps 3 and 4). -/
def State.dropEntry (s : State) (e : RunEntry) : State :=
  match e with
  | .task x l home pool ws _ _ _ _ =>
    let va := taskNotify ws
    let s1 := if va = 0 then s else s.abandon (s.hubWho x) va
    if farPool ≤ pool then ((s1.abandonLaunch l).modLaunch l fun r => { r with running := r.running - 1 }).reapLaunch l
    else ((s1.modLaunch l fun r => { r with tasks := r.tasks - 1 }).freePool home pool).reapLaunch l
  | .group _ l _ _ _ _ =>
    ((s.abandonLaunch l).modLaunch l fun r => { r with remaining := r.remaining - 1 }).reapLaunch l
  | .launch _ l _ _ n _ _ =>
    ((s.abandonLaunch l).modLaunch l fun r => { r with remaining := r.remaining - n }).reapLaunch l

/-- Whether an entry's task has a NOTIFY. -/
def entryNotifies : RunEntry → Bool
  | .task _ _ _ _ ws _ _ _ _ => taskNotify ws != 0
  | _ => false

/-- The handler queues of a context bound in a rectangle are unbound (R417 step 4). -/
def State.unbindIn (s : State) (x : Nat) (rect : Nat → Bool) : State :=
  (s.hqueues.filter fun e => e.1 / 256 == x && rect (placeTile e.2.place / 16)).foldl
    (fun (s : State) e => s.unbind x (e.1 % 256) e.2) s

/-- Not the number of any tile: the home of a task whose pool entry a fence has dropped. -/
def noTile : Nat := 2 ^ 20

/-- A run-list entry whose task was homed in a rectangle. (DEDUCED: log entry 57.) -/
def entryUnhomed (x : Nat) (rect : Nat → Bool) : RunEntry → RunEntry
  | .task y l home pool ws h t b k => .task y l (if y = x ∧ pool < farPool ∧ rect (home / 16) then noTile else home) pool ws h t b k
  | e => e

/-- A hop whose entries were homed in a rectangle. -/
def hopUnhomed (x : Nat) (rect : Nat → Bool) (h : Hop) : Hop :=
  { h with entry := entryUnhomed x rect h.entry, ahead := h.ahead.map (entryUnhomed x rect) }

/-- A step that is to happen, with the hop that it brings. -/
def eventUnhomed (x : Nat) (rect : Nat → Bool) : Event → Event
  | .hopAccept h => .hopAccept (hopUnhomed x rect h)
  | e => e

/-- Whether a pending step is a load, an atomic or a counter add of an outside thread of a context at a home in a
rectangle. -/
def State.entersRect (s : State) (x : Nat) (rect : Nat → Bool) (e : Event) : Bool :=
  let outside (q key : Nat) : Bool := (s.slot q).ctx == x && !rect (clusterOf q) && homeIn rect key
  match e with
  | .sliceRead q n => ((s.slot q).loads.find? fun l => l.serial == n).any fun l => outside q l.key
  | .homeAtomic r => outside r.thread r.key
  | .counterAddAtHome r => r.thread.any fun q => outside q r.key
  | _ => false

/-- A pending access taken from the agenda and performed, where it may go. -/
def State.performAccess (s : State) (e : Event) : State :=
  let s1 := { s with agenda := s.agenda.erase e }
  let r := match e with
    | .sliceRead q n => execSliceRead q n s1
    | .homeAtomic r => execHomeAtomic r s1
    | .counterAddAtHome r => execCounterAddAtHome r s1
    | _ => .next s
  match r with
  | .next t => t
  | _ => s

/-- The accesses of outside threads that were on their way into a rectangle when its fence lands are performed, so that only
later ones trap, each precisely at itself (R418). (DEDUCED: log entry 57.) -/
def State.finishInside (s : State) (x : Nat) (rect : Nat → Bool) : State :=
  (s.agenda.filter (s.entersRect x rect)).foldl
    (fun (s : State) e => if s.agenda.contains e then s.performAccess e else s) s

/-- The pool entries, instances and banks of a context in a rectangle dropped and its tiles reset (R417 step
3). (DEDUCED: log entry 57.) -/
def State.resetIn (s : State) (x : Nat) (rect : Nat → Bool) : State :=
  let mine := (s.tiles.filter fun e => e.2.holder == some x && rect (e.1 / 16)).map (·.1)
  let s1 := { s with
    pools := s.pools.filter (fun e => !(e.2.ctx == x && rect (e.1 / 256 / 16))),
    poolWaiters := s.poolWaiters.filter (fun w => !(rect (w.1 / 16) && (s.slot w.2).ctx == x)),
    cbs := s.cbs.filter (fun c => !(c.ctx == x && rect (c.key.tile / 16))),
    runs := s.runs.map (fun (e : Nat × List RunEntry) => (e.1, e.2.map (entryUnhomed x rect))),
    hopping := s.hopping.map (hopUnhomed x rect),
    agenda := s.agenda.map (eventUnhomed x rect),
    slots := s.slots.map fun (e : Nat × Slot) =>
      (e.1, if e.2.kind = .task ∧ e.2.ctx = x ∧ e.2.poolIx < farPool ∧ rect (e.2.home / 16) then
          { e.2 with home := noTile }
        else e.2) }
  let s2 := mine.foldl (fun (s : State) t =>
    let s' := s.zeroTile t
    s'.setTile t { s'.tile t with holder := none, drain := none, kept := [] }) s1
  let owned := s2.banks.filter fun e => rect (e.1 / 16) && e.2.mode != .cache && e.2.owner.toNat == x
  let s3 := s2.pushAll (s2.poolWaiters.filterMap fun w => if rect (w.1 / 16) then some (.spawnPoolRelease w.1) else none)
  { s3 with mem := owned.foldl (fun m e => m.zeroRange (bankKey (e.1 / 16) (e.1 % 16) 0) (2 ^ 17)) s3.mem }

/-- The slots outside that wait on a channel end whose peer is fenced, or in SPAWN on a pool inside, leave the wait: the
instruction is executed again and traps (R418). (DEDUCED: log entry 57.) -/
def State.leaveWaits (s : State) (x : Nat) (rect : Nat → Bool) : State :=
  let gone (q h : Nat) : Bool :=
    match s.cbFor q h with
    | some c => s.peerFenced c
    | none => false
  let leaves (q : Nat) (y : Slot) : Bool :=
    y.state == .waiting && y.ctx == x &&
      (match y.wait with
        | some (.cbProducer h _) => gone q h
        | some (.cbConsumer h _) => gone q h
        | some (.marker h) => gone q h
        | some (.markers m) => (List.range 16).any fun h => m.testBit h && gone q h
        | some (.pool tile _) => rect (tile / 16)
        | _ => false)
  { s with slots := s.slots.map fun e =>
      if leaves e.1 e.2 then (e.1, { e.2 with state := .running, wait := none }) else e }

/-- The slots of a context in a rectangle. -/
def State.slotsIn (s : State) (x : Nat) (rect : Nat → Bool) : List Nat :=
  (s.slots.filter fun e => e.2.state != .free && e.2.ctx == x && e.2.kind != .firmware && rect (clusterOf e.1)).map (·.1)

/-- The least round of the stopped activations that had passed an MWAIT (R420). -/
def State.roundMin (s : State) (qs : List Nat) : Nat :=
  (qs.filter fun q => (s.slot q).passedMwait).foldl (fun n q => min n (s.slot q).round.toNat) 0xFFFFFFFF

/-- Steps 2 to 5 of R417 for a Caldera in FENCING; `kind` is the KIND that triggered it, or 0.
(DEDUCED: log entry 57.) -/
def State.fenceSteps (s : State) (x i kind : Nat) : State :=
  let rect := caldCovers (s.reg (caldOff x i))
  let qs := s.slotsIn x rect
  let here (e : Nat × List RunEntry) : List RunEntry := if rect (e.1 / 4) then e.2.filter fun r => entryCtx r == x else []
  let hops := s.hopping.filter fun h => rect h.source && entryCtx h.entry == x
  let es := s.runs.flatMap here ++ hops.map (·.entry)
  let waiting := s.pools.filter fun e => e.2.ctx == x && rect (e.1 / 256 / 16) && !e.2.enqueued
  let s1 := (s.answerWaits x rect).unbindIn x rect
  let s2 := { s1 with
    runs := s1.runs.map (fun (e : Nat × List RunEntry) =>
      (e.1, if rect (e.1 / 4) then e.2.filter (fun r => entryCtx r != x) else e.2)),
    hopping := s1.hopping.filter fun h => !(rect h.source && entryCtx h.entry == x) }
  let s3 := es.foldl (fun (s : State) e => s.dropEntry e) s2
  let s4 := waiting.foldl (fun (s : State) e => s.discardTask e.1 e.2) s3
  let s5 := qs.foldl (fun (s : State) q => s.discardSlot q) s4
  let s6 := (s5.resetIn x rect).leaveWaits x rect
  let lost := (s.launches.filter fun e => !e.2.abandoned &&
    (match findAt s6.launches e.1 with
      | some r => r.abandoned
      | none => !e.2.complete && e.2.ctx == x)).length
  let notified := (es.filter entryNotifies).length +
    (waiting.filter fun e => taskNotify (s.poolWords (e.1 / 256) (e.1 % 256)) != 0).length +
    (qs.filter fun q => (s.slot q).notify != 0).length
  let s7 := (s6.setFstat x i 2).record
    { ErrRec.ofKind 0x04 with
      ctx := some x, cald := some i, roundMin := s.roundMin qs, killed := qs.length, abandoned := lost + notified,
      data0 := BitVec.ofNat 64 kind }
  s7.notice 3 (x + i * 2 ^ 8)

/-- The continuation of a fence: its KIND above any KIND of R413. -/
def fenceGoOn : Nat := 256

/-- CALDERA_FENCE (R416, R417): from LIVE the Caldera enters FENCING, in which step 1 holds; the steps that
follow bring it to HELD. A request for a Caldera in FENCING or HELD, or for no valid Caldera, changes
nothing. (DEDUCED: log entries 52, 57.) -/
def execCalderaFence (x i kind : Nat) (s : State) : Result :=
  if fenceGoOn ≤ kind then .next (if s.fstat x i = 1 then s.fenceSteps x i (kind - fenceGoOn) else s)
  else if s.fstat x i ≠ 0 ∨ !(s.reg (caldOff x i)).getLsbD 63 then .next s
  else
    .next (((s.finishInside x (caldCovers (s.reg (caldOff x i)))).setFstat x i 1).push (.calderaFence x i (fenceGoOn + kind)))

/-- FCMD_FENCE (R416): a request by the supervisor. -/
def execFcmdFence (x i : Nat) (s : State) : Result := execCalderaFence x i 0 s

/-- FCMD_RESTART (R420): a Caldera in HELD is LIVE again. -/
def execFcmdRestart (x i : Nat) (s : State) : Result :=
  if s.fstat x i ≠ 2 then .next s
  else .next ((s.setFstat x i 0).record { ErrRec.ofKind 0x05 with ctx := some x, cald := some i })

/-! ### Clusters (R332, R419) -/

/-- The slot of a proxy: slot 3 of the feed core of tile 0 of a cluster. (DESIGN CHOICE: log entry 58.) -/
def proxySlot (c : Nat) : Nat := slotNum (16 * c) 0 3

/-- The proxy of a die placed (R35, R332): on the good, unfenced cluster of lowest index, in a slot reserved for a
resident firmware activation; where there is none the die has no proxy. (DESIGN CHOICE: log entry 58.) -/
def State.placeProxy (s : State) (d : Nat) : State :=
  match ((List.range 128).map (128 * d + ·)).find? fun c => !s.fencedCluster c with
  | none => s.setReg (proxyplOff d) 0xFFFF
  | some c =>
    let x := s.slot (proxySlot c)
    (s.setSlot (proxySlot c)
      { Slot.empty with
        state := .waiting, gen := x.gen + 1, reserved := true, kind := .firmware, level := 2 }).setReg
      (proxyplOff d) ((placeOfTile (16 * c) 0).setWidth 64)

/-- The proxy of a die whose cluster is fenced: its queued atomics complete with E_FENCED, and it moves.
(DESIGN CHOICE: log entry 58.) -/
def State.moveProxy (s : State) (c : Nat) : State :=
  let d := dieOf c
  if fieldOf (s.reg (proxyplOff d)) 15 0 ≠ (placeOfTile (16 * c) 0).toNat then s
  else
    let rs := (List.range 16).flatMap fun k => getAt [] s.proxies (16 * d + k)
    let s1 := { s with proxies := s.proxies.filter fun e => e.1 / 16 ≠ d }
    let s2 := rs.foldl (fun (s : State) r => if s.isOut r.thread r.id then s.proxyRefused r else s) s1
    (s2.setSlot (proxySlot c) { Slot.empty with gen := (s2.slot (proxySlot c)).gen }).placeProxy d

/-- Whether a context holds a tile, a run-list entry or a bank of a cluster (R416); a follower's tile in lockstep with its
leader's (R421). -/
def State.holdsIn (s : State) (x c : Nat) : Bool :=
  (List.range 16).any (fun t =>
    let k := 16 * c + t
    (s.tile k).holder == some x && (s.tileHolds k x || (s.lockstep x && c % 2 == 1 && s.tileHolds (k - 16) x))) ||
    (s.entriesAt c).any (fun e => entryCtx e == x) ||
    (List.range 16).any fun b => (s.bank c b).mode != .cache && (s.bank c b).owner.toNat == x

/-- CLUSTER_FENCE (R419): the cluster is fenced for every context, and every context that holds anything there
has its Caldera fenced. -/
def execClusterFence (c : Nat) (s : State) : Result :=
  if s.recFenced c then .next s
  else
    let o := clfenceOff (dieOf c) (c % 128 / 64)
    let s1 := s.setReg o (s.reg o ||| BitVec.twoPow 64 (c % 64))
    let s2 := s1.record
      { ErrRec.ofKind 0x03 with place := (placeOfTile (16 * c) 0).toNat, data0 := BitVec.ofNat 64 c }
    let xs := (List.range 64).filter fun x => s.holdsIn x c
    let s3 := s2.pushAll (xs.filterMap fun x => (s.calderaOf x c).map fun i => .calderaFence x i 0x03)
    .next ((s3.moveProxy c).notice 4 c)

/-! ### Lockstep (R422) -/

/-- What an instruction has changed in a register file: the new value of each register that has another one.
(DEDUCED: log entry 59.) -/
def changed (x y : Store Word) : List Word :=
  (((x ++ y).map (·.1)).eraseDups.filter fun r => getAt 0 x r != getAt 0 y r).map fun r => getAt 0 y r

/-- The items of a word that an activation in lockstep has executed (R422): its retirement with its result and flags, and,
of a coprocessor word, the word with VALA and VALB. A word that changed nothing of its slot has still to retire.
(DEDUCED: log entry 59.) -/
def State.mirror (s : State) (q : Nat) (w : InstrWord) (x : Slot) : State :=
  let y := s.slot q
  if !s.lockstep y.ctx || y == x then s
  else
    let lines := ((y.v.filter fun e => getAt 0 x.v e.1 ≠ e.2).map (·.2)).flatMap lineWords
    let s1 := s.pairItem q
      ⟨0, x.pc, w.setWidth 64 :: (changed x.s y.s ++ changed x.p y.p ++ changed x.pstep y.pstep ++ lines ++ [y.fflags.setWidth 64])⟩
    match y.entry x.seqnext.toNat with
    | some e => if y.seqnext = x.seqnext then s1 else s1.pairItem q ⟨2, x.pc, [w.setWidth 64, e.valA, e.valB]⟩
    | none => s1

/-- LOCKSTEP_COMPARE (R422): equal items leave the pair; on the first mismatch nothing more of the thread leaves its tile, a
record is written and the Caldera is fenced. (DEDUCED: log entry 59.) -/
def execLockstepCompare (q : Nat) (s : State) : Result :=
  match getAt ⟨[], []⟩ s.lock q with
  | ⟨a :: l, b :: f⟩ =>
    if a = b then
      .next { s with lock := if l = [] ∧ f = [] then delAt s.lock q else putAt s.lock q ⟨l, f⟩ }
    else
      let x := (s.slot q).ctx
      let r : ErrRec :=
        { ErrRec.ofKind 0x06 with
          ctx := some x, place := (placeOf q).toNat, cald := s.calderaOf x (clusterOf q), unit := 0x0D,
          data0 := va57 a.pc, data1 := va57 b.pc }
      .next ((State.record (State.modSlot { s with lock := putAt s.lock q ⟨a :: l, []⟩ } q fun x => { x with halted := true })
        r).fenceFor q 0x06)
  | _ => .next s

/-! ### Shadow copies (R424) -/

/-- One bit of the CRC-64 of R424. -/
def crcBit (c : BitVec 64) : BitVec 64 := if c.getLsbD 63 then (c <<< 1) ^^^ 0x42F0E1EBA9EA3693 else c <<< 1

/-- CRC-64/ECMA-182 carried on over bytes. -/
def crc64 (c : BitVec 64) (bs : List Byte) : BitVec 64 :=
  bs.foldl (fun c b => (List.range 8).foldl (fun c _ => crcBit c) (c ^^^ BitVec.shiftLeft (b.setWidth 64) 56)) c

/-- A number put into a rising list. -/
def insertRising (n : Nat) : List Nat → List Nat
  | [] => [n]
  | a :: t => if n ≤ a then n :: a :: t else a :: insertRising n t

/-- A list of numbers in rising order. -/
def rising (l : List Nat) : List Nat := l.foldr insertRising []

/-- The frame of granule g of a copy (R423). -/
def State.frameOf (s : State) (x c g : Nat) : Nat :=
  let set := getAt ⟨[], false⟩ s.shadow (shadowKey x c)
  fieldOf (s.reg (shoffOff x c)) 41 16 * 65536 + 65536 * (set.granules.findIdx (· == g))

/-- The signature of a copy (R424). -/
def State.signature (s : State) (x c : Nat) : BitVec 64 :=
  let set := getAt ⟨[], false⟩ s.shadow (shadowKey x c)
  (rising set.granules).foldl (fun k g =>
    crc64 (crc64 k (natBytes (65536 * g) 8)) (s.mem.readBytes (dramKey (s.frameOf x c g)) 65536)) 0

/-- A granule of copy A's set copied into its primary frame, and the greatest timestamp of its lines (R468).
(DEDUCED: log entry 60.) -/
def State.commitGranule (s : State) (x g : Nat) : State × Nat :=
  let frame := s.frameOf x 0 g
  let old := s.mem.filter fun e => decide (frame ≤ e.1) && decide (e.1 < frame + 65536)
  let m := old.foldl (fun m e => m.write (dramKey (65536 * g) + (e.1 - frame)) e.2)
    (s.mem.zeroRange (dramKey (65536 * g)) 65536)
  let (s1, w) := State.stampRun { s with mem := m } (dramKey (65536 * g)) 65536 0
  (s1.recheck (dramKey (65536 * g)) 65536, w)

/-- Whether a copy's launch has ended. -/
def copyEnded (r : Launch) : Bool := r.remaining == 0 && r.running == 0 && r.tasks == 0

/-- SHADOW_COMMIT (R423, R424): both copies have ended. Equal sets and signatures commit copy A's frames and
complete the launch; anything else abandons it. The sets are then empty. (DEDUCED: log entry 60.) -/
def execShadowCommit (x : Nat) (s : State) : Result :=
  let copy (b : Bool) : Option (Nat × Launch) :=
    s.launches.find? fun e => e.2.ctx == x && e.2.pair.isSome && e.2.copyB == b && !e.2.complete
  let both := (copy false).toList ++ (copy true).toList
  if both = [] ∨ both.any (fun e => !copyEnded e.2) then .next s
  else
    let setA := getAt ⟨[], false⟩ s.shadow (shadowKey x 0)
    let setB := getAt ⟨[], false⟩ s.shadow (shadowKey x 1)
    let a := s.signature x 0
    let b := s.signature x 1
    let s1 := (s.setReg (shsigOff x 0) a).setReg (shsigOff x 1) b
    let good := both.length == 2 && both.all (fun e => !e.2.abandoned) && !setA.full && !setB.full &&
      rising setA.granules == rising setB.granules && a == b
    let s2 :=
      if good then
        let (s2, w) := setA.granules.foldl (fun (p : State × Nat) g =>
          let (s2, w) := p.1.commitGranule x g
          (s2, max p.2 w)) (s1, 0)
        both.head?.elim s2 fun e => s2.addDone { e.2 with pts := max e.2.pts w }
      else
        (both.foldl (fun (s : State) e => s.abandonLaunch e.1) s1).record
          { ErrRec.ofKind 0x07 with ctx := some x, data0 := a, data1 := b }
    let s3 := both.foldl (fun (s : State) e => (s.modLaunch e.1 fun r => { r with complete := true }).reapLaunch e.1) s2
    .next { s3 with shadow := delAt (delAt s3.shadow (shadowKey x 0)) (shadowKey x 1) }

end Sys2Proof.Machine
end

