-- ==== Sys2Proof/Machine/Boot.lean ====
section
/-! DEFINITION. Power-on, package reset and the stages of boot (R443, R444), and the training of the host's
modules (R439). -/

namespace Sys2Proof.Machine

/-! ### Images (R400) -/

/-- A field of an image: n bytes from an offset, little-endian. -/
def imageField (im : List Byte) (off n : Nat) : Nat := leNat ((im.drop off).take n)

/-- The body of an image. -/
def imageBody (im : List Byte) : List Byte := (im.drop 0x100).take (imageField im 8 8)

/-- Why an image is refused: 1 its signature, its digest or its form, 2 its version; 0 where it is not.
(DEDUCED: log entry 63.) -/
def imageRefused (im : List Byte) (magic : Nat) (key : BitVec 384) (least : Nat) : Nat :=
  let digest := BitVec.ofNat 384 (imageField im 0x10 48)
  if imageField im 0 4 ≠ magic ∨
      !Config.ecdsaVerify key (Config.sha384 (im.take 0x40)) (BitVec.ofNat 384 (imageField im 0x40 48))
        (BitVec.ofNat 384 (imageField im 0x70 48)) ∨
      Config.sha384 (imageBody im) ≠ digest then 1
  else if imageField im 4 4 < least then 2
  else 0

/-! ### Stages (R443) -/

/-- STAGE and FAIL of BOOTSTAT set, with READY. -/
def State.setBoot (s : State) (stage fail : Nat) (ready : Bool) : State :=
  s.setReg bootstatOff (BitVec.ofNat 64 (stage * 2 ^ 56 + fail * 2 ^ 48 + (if ready then 1 else 0)))

/-- The boot stops at a stage. -/
def State.bootFail (s : State) (stage fail : Nat) : State := (s.setBoot stage fail false).hostEvent 4

/-- The next stage is due. -/
def State.bootNext (s : State) (stage : Nat) : State := (s.setBoot stage 0 false).push (.bootStage (stage + 1))

/-- The minimum versions in hub MRAM after the command that a verified firmware image carries: they only rise
(R400). (DESIGN CHOICE: log entry 19.) -/
def Mram.raised (m : Mram) (im : List Byte) : Mram :=
  let least := Config.raisedMinima (imageBody im)
  { m with minFirmware := max m.minFirmware least.1, minConfig := max m.minConfig least.2 }

/-- Stage 0x03: the firmware image and its trap vector. -/
def State.loadFirmware (s : State) : State :=
  match s.boot.firmware with
  | none => s.bootFail 3 0x06
  | some im =>
    let vec := imageField (imageBody im) 0 8
    match imageRefused im 0x57464847 Config.firmwareKey s.mram.minFirmware with
    | 0 =>
      if vec = 0 ∨ vec % 4 ≠ 0 then s.bootFail 3 0x07
      else
        State.bootNext { s with
          mram := s.mram.raised im,
          fwVector := BitVec.ofNat 57 vec, fwMeasure := BitVec.ofNat 384 (imageField im 0x10 48) } 3
    | k => s.bootFail 3 k

/-- PKGID of the part (R32). (DESIGN CHOICE: log entry 6.) -/
def pkgidValue : Word := BitVec.ofNat 64 (6 * 2 ^ 48 + Config.partRevision.toNat * 2 ^ 24)

/-- GRADE of the part, one of its four values (R32, R33). -/
def gradeValue : Nat := [0x400, 0x3F0, 0x3E0, 0x3C0].getD Config.partGrade.val 0x400

/-- The bits of a register that the configuration image loads: NODEID and FMKEY (R333), TTBASE and PKTAB (R378), whose
reset code is cfg (R5). (DESIGN CHOICE: log entry 6.) -/
def cfgBits (o : Nat) : Word :=
  if o = nodeidOff then 0x3FFF
  else if o = fmkeyOff then 0xFFFF
  else if (List.range 64).any fun x => o == ttbaseOff x then 0x01FFFFFFFFFFF000
  else if (List.range 64).any fun i => o == pktabOff i then 0x800000000000FFFF
  else 0

/-- Whether the configuration image may also set a register whose reset code is not cfg: settings of the management and the
fabric block that start nothing, such as the limits of power and FMNODE (R442, R443). (DESIGN CHOICE: log entry 6.) -/
def cfgSets (o : Nat) : Bool :=
  o == hostevenOff || o == pkglimOff || ((List.range 8).any fun d => o == dplimOff d) || o == fmnodeOff || o == tcshareOff ||
    ((List.range 48).any fun p => o == portctlOff p) || ((List.range 1024).any fun i => o == dommapOff i)

/-- Stage 0x04: the configuration image, whose registers are loaded. (DESIGN CHOICE: log entry 6.) -/
def State.loadConfig (s : State) : State :=
  match s.boot.config with
  | none => s.bootFail 4 0x06
  | some im =>
    match imageRefused im 0x46434847 (s.mram.ownerKey.getD Config.firmwareKey) s.mram.minConfig with
    | 0 =>
      let s1 := s.boot.cfgRegs.foldl (fun (s : State) e =>
        let o := 8 * e.1
        if cfgSets o then
          s.regWrite { id := 0, agent := .host 0, level := 2, ctx := 0, offset := o, half := .both, value := e.2, pts := 0 }
        else s.setReg o ((s.reg o &&& ~~~cfgBits o) ||| (e.2 &&& cfgBits o))) (s.setReg 0 pkgidValue)
      State.bootNext { s1 with cfgMeasure := BitVec.ofNat 384 (imageField im 0x10 48) } 4
    | k => s.bootFail 4 (k + 2)

/-- Good clusters of a die by the self-test. -/
def State.goodOf (s : State) (d : Nat) : Nat :=
  128 - ((List.range 128).filter fun i => s.boot.badClusters.contains (128 * d + i)).length

/-- A word of the cluster map (R31). -/
def State.mapWord (s : State) (d h : Nat) : Word :=
  BitVec.ofNat 64 (((List.range 64).filter fun i => !s.boot.badClusters.contains (128 * d + 64 * h + i)).foldl
    (fun n i => n + 2 ^ i) 0)

/-- Stage 0x05: the self-test publishes the package-information block (R31 to R34); a part below its grade gets a
grade event. (DESIGN CHOICE: log entry 6.) -/
def State.selfTest (s : State) : State :=
  let goods := (List.range 8).map s.goodOf
  let good := goods.foldl (· + ·) 0
  let grade := gradeValue
  let total := BitVec.ofNat 64 (grade * 2 ^ 16 + good + (if good < grade then 2 ^ 32 else 0))
  let s1 := ((List.range 16).foldl (fun (s : State) i => s.setReg (clmapOff (i / 2) (i % 2)) (s.mapWord (i / 2) (i % 2))) s).setReg
    0x08 (BitVec.ofNat 64 (goods.foldr (fun g n => g + 256 * n) 0))
  let s2 := s1.setReg 0x10 total
  s2.bootNext 5 |> fun s => if good < grade then s.record { ErrRec.ofKind 0x0B with data0 := total } else s

/-- What the package does by itself once it is ready: the publications, the clocks and the monitors.
(DESIGN CHOICE: log entries 73, 95.) -/
def readyEvents : List Event :=
  [.ptsTick, .scrubPass 0, .ttSlotStart 1, .peerReport 0 4 0 0, .powerLimitWindow 0 [], .lifeUpdate [] []] ++
    (List.range 8).map (fun d => .thermalStep d 0) ++
    (List.range clusterCount).flatMap fun c => [.pressurePublish c, .distanceRecompute c]

/-- Stage 0x08: the package is ready, and firmware places the proxies (R332). -/
def State.bootReady (s : State) : State :=
  let s1 := (List.range 8).foldl (fun (s : State) d => s.placeProxy d) { s with ticks := s.cycle / 64 }
  ((s1.setBoot 8 0 true).hostEvent 3).pushAll readyEvents

/-- The Llynsy ports that train at boot come up (R443). -/
def State.trainPorts (s : State) : State :=
  s.boot.trainedPorts.foldl (fun (s : State) p => match execPortUp p.1 p.2.1 p.2.2 s with | .next t => t | _ => s) s

/-- BOOT_STAGE (R443): a stage is carried out once the one before it has completed. (DESIGN CHOICE: log entry 19.) -/
def execBootStage (n : Nat) (s : State) : Result :=
  let b := s.reg bootstatOff
  if fieldOf b 63 56 + 1 ≠ n ∨ fieldOf b 55 48 ≠ 0 then .next s
  else
    match n with
    | 1 => .next (if s.boot.calibrationOk then s.bootNext 1 else s.bootFail 1 0x05)
    | 2 => .next (s.bootNext 2)
    | 3 => .next s.loadFirmware
    | 4 => .next s.loadConfig
    | 5 => .next s.selfTest
    | 6 => .next (State.bootNext { s with mem := s.mem.filter (fun e => 2 ^ 42 ≤ e.1), bad := [] } 6)
    | 7 => .next ((s.trainPorts.bootNext 7).notice 6 0)
    | 8 => .next s.bootReady
    | _ => .next s

/-! ### Reset (R443, R444) -/

/-- The package with nothing left but hub MRAM, CYCLE (R80, R155), what the next boot will find, what has already left it,
and the numbers of the choices and free values used. (DEDUCED: log entry 63.) -/
def State.restarted (s : State) : State :=
  { State.reset with
    cycle := s.cycle, mram := s.mram, boot := s.boot, flitsOut := s.flitsOut, hostOut := s.hostOut, choices := s.choices,
    draws := s.draws }

/-- POWER_ON (R80, R436, R443): power is applied, CYCLE starts at 0, the power-on is counted and boot begins.
(DEDUCED: log entry 63.) -/
def execPowerOn (s : State) : Result := .next ({ s.restarted with cycle := 0 }.lifeCount 0)

/-- PACKAGE_RESET (R36, R444): a notice, and then everything stops, without releases, and boot begins again.
(DEDUCED: log entry 63.) -/
def execPackageReset (s : State) : Result := .next (s.notice 5 0).restarted

/-! ### The host's modules (R439) -/

/-- UCIE_LINK_DOWN (R439): UP clears, and requests not yet accepted are dropped. -/
def execUcieLinkDown (m : Nat) (s : State) : Result :=
  .next (State.setReg { s with
    agenda := s.agenda.filter fun e => match e with
      | .hostRequest r => decide (r.module ≠ m)
      | _ => true } (ucstatOff m) (s.reg (ucstatOff m) &&& ~~~1))

/-- UCIE_LINK_UP (R439). -/
def execUcieLinkUp (m : Nat) (s : State) : Result := .next (s.setReg (ucstatOff m) (s.reg (ucstatOff m) ||| 1))

end Sys2Proof.Machine
end

