-- ==== Sys2Proof/Machine/Cb.lean ====
section
/-! DEFINITION. The circular-buffer and marker instructions (R372 to R375) and the arrivals at channel
ends (R64, R65, R310). -/

namespace Sys2Proof.Machine

/-- The count of a CB instruction (R372): the register's value, or CNT where it names s0. -/
def cbCount (x : Slot) (a : BitVec 5) (n : BitVec 9) : Nat := if a = 0 then n.toNat else (x.sreg a).toNat

/-- Whether a slot may act on the producer end of an instance, or its consumer end (R63). -/
def endOk (q : Nat) (c : CbInst) (producer : Bool) : Bool :=
  if producer then c.hasProducer && c.pstage == stageOf q else c.hasConsumer && c.cstage == stageOf q

/-- A CB instruction with a count (R372): it waits for the mask of its register (R267), and traps where
its end, its count or the fence of its peer (R418) forbid it. -/
def cbInstr (i : Instr) (a : BitVec 5) (h : BitVec 4) (n : BitVec 9) (producer : Bool)
    (limit : CbInst → Nat) (body : Nat → CbInst → Nat → State → Result) (s : State) : Result :=
  issue i s fun q s =>
    let x := s.slot q
    if !x.satisfied (x.smask a) then .next s
    else
      match s.cbFor q h.toNat with
      | none => .next (s.trapOpen q i eCb 0)
      | some c =>
        let k := cbCount x a n
        if !endOk q c producer ∨ k = 0 ∨ limit c < k then .next (s.trapOpen q i eCb 0)
        else if s.peerFenced c then .next (s.trapOpen q i eFenced 0)
        else body q c k s

/-- A CB wait (R64, R372): past it at once where it is met. -/
def cbWait (q : Nat) (w : WaitInfo) (pts : Nat) (s : State) : Result :=
  if s.cbMet q w then .next (s.modSlot q fun x => x.pastWait pts)
  else .next (s.modSlot q fun x => { x with state := .waiting, wait := some w })

/-- A CB advance (R372): behind the commands of R191 and a release at CB scope (R271), then the advance, or E_CB where the
count is above FREE or FILLED. -/
def cbAdvance (i : Instr) (q : Nat) (c : CbInst) (producer : Bool) (k : Nat) (s : State) : Result :=
  let limit := if producer then c.free else c.filled
  let s1 := s.drainThread q
  let x := s1.slot q
  if x.cbHeld c.key.handle producer ∨ !s1.relReady q c.scope x.relNext s1.nextId then .next s1
  else
    match x.nak with
    | some n => .next (s1.nakTrap q i n)
    | none =>
      if limit < k then .next ((s1.modSlot q Slot.clearTouched).trapOpen q i eCb 0)
      else
      let s2 := s1.modSlot q fun x => x.clearTouched.advance
      .next (if producer then s2.cbProduce c k x.pts else s2.cbConsume c k x.pts)

/-- CBWP (R372). -/
def execCbwp (a : BitVec 5) (h : BitVec 4) (n : BitVec 9) (s : State) : Result :=
  cbInstr (.cbwp a h n) a h n true CbInst.nslots (fun q c k s => cbWait q (.cbProducer h.toNat k) c.pts s) s

/-- CBWC (R372). -/
def execCbwc (a : BitVec 5) (h : BitVec 4) (n : BitVec 9) (s : State) : Result :=
  cbInstr (.cbwc a h n) a h n false CbInst.nslots (fun q c k s => cbWait q (.cbConsumer h.toNat k) c.pts s) s

/-- The count that an advance tests as it issues: any, since it is tested at the advance (R191). -/
def anyCount (_ : CbInst) : Nat := 2 ^ 64

/-- CBAP (R372). -/
def execCbap (a : BitVec 5) (h : BitVec 4) (n : BitVec 9) (s : State) : Result :=
  cbInstr (.cbap a h n) a h n true anyCount (fun q c k s => cbAdvance (.cbap a h n) q c true k s) s

/-- CBAC (R372). -/
def execCbac (a : BitVec 5) (h : BitVec 4) (n : BitVec 9) (s : State) : Result :=
  cbInstr (.cbac a h n) a h n false anyCount (fun q c k s => cbAdvance (.cbac a h n) q c false k s) s

/-- The word that CBSTAT gives (R373). -/
def CbInst.stat (c : CbInst) : Word :=
  BitVec.ofNat 64 (c.pend * 2 ^ 54 + (if c.receiving then 2 ^ 53 else 0) + (if c.chan then 2 ^ 52 else 0) +
    c.marks * 2 ^ 48 + c.wptr * 2 ^ 40 + c.rptr * 2 ^ 32 + c.free * 2 ^ 16 + c.filled)

/-- CBSTAT (R373). -/
def execCbstat (d : BitVec 5) (h : BitVec 4) (s : State) : Result :=
  issue (.cbstat d h) s fun q s =>
    match s.cbFor q h.toNat with
    | none => .next (s.trapOpen q (.cbstat d h) eCb 0)
    | some c =>
      if s.peerFenced c then .next (s.trapOpen q (.cbstat d h) eFenced 0)
      else complete q s fun x => x.setS d c.stat Taint.none

/-- MARK (R375). -/
def execMark (h : BitVec 4) (s : State) : Result :=
  issue (.mark h) s fun q s =>
    match s.cbFor q h.toNat with
    | none => .next (s.trapOpen q (.mark h) eCb 0)
    | some c =>
      if !endOk q c true then .next (s.trapOpen q (.mark h) eCb 0)
      else if s.peerFenced c then .next (s.trapOpen q (.mark h) eFenced 0)
      else if c.marksOut < 15 then .next (((s.markCb c).modSlot q Slot.advance).wakeCbs c.key.tile)
      else .next (s.modSlot q fun x => { x with state := .waiting, wait := some (.marker h.toNat) })

/-- Whether MWAIT may name a handle: a consumer or receiving end of the slot's stage (R375). -/
def State.mwaitEnd (s : State) (q h : Nat) : Bool :=
  match s.cbFor q h with
  | some c => endOk q c false
  | none => false

/-- MWAIT (R375). -/
def execMwait (a : BitVec 5) (s : State) : Result :=
  issue (.mwait a) s fun q s =>
    let x := s.slot q
    if !x.satisfied (x.smask a) then .next s
    else
      let mask := (x.sreg a).toNat
      let hs := (List.range 16).filter fun h => mask.testBit h
      if 2 ^ 16 ≤ mask ∨ !(hs.all (s.mwaitEnd q)) then .next (s.trapOpen q (.mwait a) eCb 0)
      else if hs.any fun h => match s.cbFor q h with | some c => s.peerFenced c | none => false then
        .next (s.trapOpen q (.mwait a) eFenced 0)
      else if s.cbMet q (.markers mask) then .next ((s.consumeMarkers q mask).wakeCbs (tileOf q))
      else .next (s.modSlot q fun x => { x with state := .waiting, wait := some (.markers mask) })

/-- MROUND (R375). -/
def execMround (d : BitVec 5) (s : State) : Result :=
  issue (.mround d) s fun q s => complete q s fun x => x.setS d (x.round.setWidth 64) Taint.none

/-! ### Fills and arrivals -/

/-- CB_FILL_COMPLETE (R64): slot n of an instance is marked written, and counted in permit order. -/
def execCbFillComplete (k : CbKey) (n : Nat) (s : State) : Result := .next (s.cbFill k n 0)

/-- CHANNEL_SLOT_ARRIVAL (R65, R310): a slot or a marker arrives at the receiving end; it counts once it
and every earlier item have arrived. -/
def execChannelSlotArrival (k : CbKey) (x : ChanItem) (s : State) : Result :=
  match s.cbAt k with
  | none => .next s
  | some c =>
    if s.homeFenced c.ctx (padKey k.tile 0) then .next s
    else
      let s1 := match s.cbPeer c with
        | some d => { s with operands := s.operands.filter fun o => !(o.key == d.key && o.number == some (chanNumber x)) }
        | none => s
      .next ((landItems k (c.early.length + 2) (s1.setCb { c with early := c.early ++ [x] })).wakeCbs k.tile)

/-- CHANNEL_CREDIT_ARRIVAL (R63, R65): credits of n slots raise FREE at the sending end, by no more than
its own NSLOTS; n = 0 is the consumption of a marker. A start credit waits for the group of the sending
end to start, while its launch lives. -/
def execChannelCreditArrival (k : CbKey) (n : Nat) (s : State) : Result :=
  let found := match s.cbAt k with
    | some c => some c
    | none => s.cbLowest k.tile k.lrec k.handle
  match found with
  | some c =>
    let d := if n = 0 then { c with marksOut := c.marksOut - 1 } else { c with free := c.free + min n c.nslots }
    .next ((s.setCb d).wakeCbs k.tile)
  | none =>
    match findAt s.launches k.lrec with
    | some l =>
      if l.complete ∨ l.abandoned then .next s else .next (s.push (.channelCreditArrival k n))
    | none => .next s

end Sys2Proof.Machine
end

