-- ==== Sys2Proof/Machine/Control.lean ====
section
/-! DEFINITION. Branches, jumps and REP: majors 0x10 to 0x17 (R158 to R165), with HINT (R76). -/

namespace Sys2Proof.Machine

/-- A conditional branch (R158): the masks of both registers join ctm whichever way it goes. -/
def branchOp (i : Instr) (a b : BitVec 5) (o : BitVec 16) (cond : Word → Word → Bool) (s : State) : Result :=
  issue i s fun q s =>
    .next (s.modSlot q fun x =>
      { x.addCtm (x.masks [a, b]) with
        pc := if cond (x.sreg a) (x.sreg b) then x.pc + 4 * o.signExtend 57 else x.pc + 4 })

/-- BEQ (R158). -/
def execBeq (a b : BitVec 5) (o : BitVec 16) (s : State) : Result :=
  branchOp (.beq a b o) a b o (fun u v => u == v) s

/-- BNE (R158). -/
def execBne (a b : BitVec 5) (o : BitVec 16) (s : State) : Result :=
  branchOp (.bne a b o) a b o (fun u v => u != v) s

/-- BLT.s64 (R158). -/
def execBltS64 (a b : BitVec 5) (o : BitVec 16) (s : State) : Result :=
  branchOp (.bltS64 a b o) a b o (fun u v => u.slt v) s

/-- BGE.s64 (R158). -/
def execBgeS64 (a b : BitVec 5) (o : BitVec 16) (s : State) : Result :=
  branchOp (.bgeS64 a b o) a b o (fun u v => !u.slt v) s

/-- BLT.z64 (R158). -/
def execBltZ64 (a b : BitVec 5) (o : BitVec 16) (s : State) : Result :=
  branchOp (.bltZ64 a b o) a b o (fun u v => u.ult v) s

/-- BGE.z64 (R158). -/
def execBgeZ64 (a b : BitVec 5) (o : BitVec 16) (s : State) : Result :=
  branchOp (.bgeZ64 a b o) a b o (fun u v => !u.ult v) s

/-- JAL (R159). -/
def execJal (o : BitVec 26) (s : State) : Result :=
  issue (.jal o) s fun q s =>
    .next (s.modSlot q fun x =>
      { x.setS 31 (va57 (x.pc + 4)) Taint.none with pc := x.pc + 4 * o.signExtend 57 })

/-- A jump through a register (R159): a misaligned or non-canonical target traps at the jump, and
`link` is the register that takes the return address. (DESIGN CHOICE: log entry 98.) -/
def jumpOp (i : Instr) (link a : BitVec 5) (s : State) : Result :=
  issue i s fun q s =>
    let x := s.slot q
    let t := x.sreg a
    if t.toNat % 4 ≠ 0 then .next (s.trapAt q i eAlign 0 t)
    else if !canonical t then .next (s.trapAt q i eXlat 0x01 t)
    else
      .next (s.setSlot q
        { (x.addCtm (x.smask a)).setS link (va57 (x.pc + 4)) Taint.none with pc := low57 t })

/-- JR (R159). -/
def execJr (a : BitVec 5) (s : State) : Result := jumpOp (.jr a) 0 a s

/-- JALR (R159). -/
def execJalr (d a : BitVec 5) (s : State) : Result := jumpOp (.jalr d a) d a s

/-- REPST at the start of a REP (R164). -/
def repStart (n : BitVec 4) (stride : BitVec 5) : Word :=
  withField (withField (withField 0 24 24 1) 19 16 n.toNat) 12 8 stride.toNat

/-- REP (R161, R162): the body starts at the next word with pass 0, or is skipped where the count is
zero. -/
def execRep (st c : BitVec 5) (n : BitVec 4) (k : BitVec 8) (s : State) : Result :=
  issue (.rep st c n k) s fun q s =>
    .next (s.modSlot q fun x =>
      let count : BitVec 32 := if c = 0 then k.setWidth 32 else (x.sreg c).truncate 32
      let y := if c = 0 then x else x.addCtm (x.smask c)
      if count = 0 then { y with pc := x.pc + 4 + 4 * (n.setWidth 57 + 1) }
      else { y with pc := x.pc + 4, repcnt := count, repst := repStart n st, repBody := [] })

/-- HINT (R76): only the PC changes. -/
def execHint (h : BitVec 26) (s : State) : Result :=
  issue (.hint h) s fun q s => complete q s id

end Sys2Proof.Machine
end

