-- ==== Sys2Proof/Machine/EngineArgs.lean ====
section
/-! DEFINITION. The operands that commands of the conversion, matrix, key, TWE and SGU engines name: the
tests at acceptance (R185, R194, R200, R209), capture with last-read marks (R190), and the bytes of a
result tile (R180, R181, R205). -/

namespace Sys2Proof.Machine

/-- What the tests at acceptance give: the instances that the command takes permits on, in order (R66),
and the counter it adds to at DONE (R295). -/
structure Accepted where
  need : List CbKey
  count : Option (Nat × Word)
  deriving DecidableEq, Repr

/-- What a command has staged at its capture: writes, an accumulator, engine registers and flags. -/
structure EngOut where
  writes : List StagedWrite
  acc : Option (Store (BitVec 32))
  regs : List (Nat × Word)
  flags : BitVec 5
  deriving DecidableEq, Repr

/-- A command that stages nothing. -/
def EngOut.empty : EngOut := ⟨[], none, [], 0⟩

/-- An operand of a command: a slot of an instance, or a tile of a tensor. -/
inductive EngArg where
  | slot (c : CbInst) (k : Nat) (t : TileForm)
  | tensor (e : List Word) (t0 t1 t2 t3 : Nat) (t : TileForm)
  deriving DecidableEq, Repr

/-- The form of an operand. -/
def EngArg.form : EngArg → TileForm
  | .slot _ _ t => t
  | .tensor _ _ _ _ _ t => t

/-- Whether an operand is a tensor tile. -/
def EngArg.isTensor : EngArg → Bool
  | .slot _ _ _ => false
  | .tensor _ _ _ _ _ _ => true

/-- The permit that a destination operand needs. -/
def EngArg.need : EngArg → List CbKey
  | .slot c _ _ => [c.key]
  | .tensor _ _ _ _ _ _ => []

/-- E_ILL at acceptance. -/
def engIll {α : Type} (s : State) : Eng α := engOpen s eIll 0

/-- Go on where a condition holds, else E_ILL. -/
def engMust {α : Type} (c : Bool) (s : State) (k : State → Eng α) : Eng α := if c then k s else engIll s

/-- Go on where the peer of an end is not fenced, else E_FENCED (R418). -/
def engPeer {α : Type} (c : CbInst) (s : State) (k : State → Eng α) : Eng α :=
  if s.peerFenced c then engOpen s eFenced 0 else k s

/-- Go on where a condition holds, else E_CB. -/
def engCb {α : Type} (c : Bool) (s : State) (k : State → Eng α) : Eng α := if c then k s else engOpen s eCb 0

/-! ### Tensor entries -/

/-- The fault of a use of a TID, with STVAL: the address of the entry where it could not be read. -/
def tidFault {α : Type} (s : State) (q tid : Nat) (f : XFault) : Eng α :=
  if f = xf eProt 0x05 ∨ f = xf eXlat 0x06 ∨ f = xf eIll 0 then engOpen s f.cause f.reason
  else (s, .error (.fault f .read (s.reg (ttbaseOff (s.slot q).ctx) + BitVec.ofNat 64 (32 * tid))))

/-- What a use of a TID gives to a command that captures its entry (R68, R228). -/
def engTid (q tid : Nat) (r : State × (Except XFault (List Word))) : Eng (Nat × List Word) :=
  match r with
  | (s1, .ok ws) => (s1, .ok (tid, ws))
  | (s1, .error f) => tidFault s1 q tid f

/-- The TID of a reference. (DEDUCED: log entry 21.) -/
def refTid (v : Word) : List Nat :=
  match parseRef v with
  | some (.tensor t _ _ _ _) => [t]
  | _ => []

/-- The form of a tile of a tensor (R183). -/
def tileForm (e : List Word) : TileForm :=
  ⟨tFmt e, tScaled e && scalable (tFmt e), tSpar e == 1, tRows e, tCols e⟩

/-- Whether no index beyond the rank is nonzero (R180). -/
def indexFits (e : List Word) (t1 t2 t3 : Nat) : Bool :=
  (decide (2 ≤ tRank e) || t1 == 0) && (decide (3 ≤ tRank e) || t2 == 0) && (decide (4 ≤ tRank e) || t3 == 0)

/-! ### Slots and tensor tiles as operands -/

/-- A slot as a source of a command (R63, R190, R194): a consumer end of the issuing core's stage whose
slots hold the tile; a mark needs k = 0. -/
def slotSource (q h k : Nat) (mark : Bool) (t : TileForm) (s : State) : Eng EngArg :=
  match s.cbFor q h with
  | none => engOpen s eCb 0
  | some c =>
    engCb (c.hasConsumer && c.cstage == stageOf q && !(mark && k != 0) && decide (t.slotNeed ≤ c.slotBytes)) s
      fun s => engPeer c s fun s => (s, .ok (.slot c k t))

/-- A slot as a destination (R63, R181): a producer end of the stage, k = 0. -/
def slotDest (q h k need : Nat) (t : TileForm) (s : State) : Eng EngArg :=
  match s.cbFor q h with
  | none => engOpen s eCb 0
  | some c =>
    engCb (c.hasProducer && c.pstage == stageOf q && k == 0 && decide (need ≤ c.slotBytes)) s
      fun s => engPeer c s fun s => (s, .ok (.slot c k t))

/-- An operand of a reference: a slot in the form given for CB operands, or the tile of a tensor in the
form of its entry (R183, R200). -/
def sourceArg (q : Nat) (re : RingEntry) (ref : Word) (mark : Bool) (t : TileForm) (s : State) : Eng EngArg :=
  match parseRef ref with
  | none => engIll s
  | some (.slot h k) => slotSource q h k mark t s
  | some (.tensor tid t0 t1 t2 t3) =>
    let e := re.ent tid
    engMust (indexFits e t1 t2 t3 && !mark) s fun s => (s, .ok (.tensor e t0 t1 t2 t3 (tileForm e)))

/-- A destination of a reference: a tensor with CONSTANT set is none (R180). -/
def destArg (q : Nat) (re : RingEntry) (ref : Word) (t : TileForm) (s : State) : Eng EngArg :=
  match parseRef ref with
  | none => engIll s
  | some (.slot h k) => slotDest q h k t.slotNeed t s
  | some (.tensor tid t0 t1 t2 t3) =>
    let e := re.ent tid
    engMust (indexFits e t1 t2 t3) s fun s =>
      if tConstant e then engOpen s eProt 0x05 else (s, .ok (.tensor e t0 t1 t2 t3 (tileForm e)))

/-- The form that an operand of a reference has: that of the tensor's entry, or the one given for CB
operands (R183, R200). -/
def RingEntry.refForm (re : RingEntry) (ref : Word) (t : TileForm) : TileForm :=
  match parseRef ref with
  | some (.tensor tid _ _ _ _) => tileForm (re.ent tid)
  | _ => t

/-- Columns at least 2 for formats of 4 bits and 4 for those of 6, a multiple of the block for a scaled
operand, and the extent of a tensor such a multiple too (R185). -/
def EngArg.colsOk (a : EngArg) : Bool :=
  let t := a.form
  let block (n : Nat) : Bool :=
    if t.fmt = 7 then n % 64 == 0 else if t.scaled then n % 32 == 0 else true
  let w := fmtBits t.fmt
  let least : Nat := if w = 4 then 2 else if w = 6 then 4 else 1
  decide (least ≤ t.cols) && block t.cols &&
    (match a with
      | .slot _ _ _ => true
      | .tensor e _ _ _ _ _ => block (tExt e 0))

/-! ### Capture -/

/-- The slot that offset k of a source names at capture: k below FILLED, else E_CB (R181, R190). -/
def sourceIx {α : Type} (k : CbKey) (off : Nat) (s : State) (f : State → CbInst → Nat → Eng α) : Eng α :=
  match s.cbAt k with
  | none => engOpen s eCb 0
  | some c => engCb (decide (off < c.filled)) s fun s => f s c ((c.rptr + off) % c.nslots)

/-- An operand captured (R180, R181). -/
def EngArg.capture (q : Nat) (re : RingEntry) (a : EngArg) (s : State) : Eng Captured :=
  match a with
  | .slot c k t => sourceIx c.key k s fun s c ix => captureSlot q re s c ix t
  | .tensor e t0 t1 t2 t3 t =>
    captureTensor q re e t t0 t2 t3 ((List.range t.rows).map fun r => t1 * t.rows + r) s

/-- Whether the slots that an instance must free for two operands with last-read marks are there (R64). -/
def marksOk (a b : EngArg) (s : State) : Bool :=
  match a, b with
  | .slot c _ _, .slot d _ _ => c.key != d.key || (match s.cbAt c.key with | some c => decide (2 ≤ c.filled) | none => false)
  | _, _ => true

/-- A last-read mark frees the slot of its operand (R64, R190). -/
def EngArg.free (a : EngArg) (mark : Bool) (pts : Nat) (s : State) : State :=
  match a with
  | .slot c _ _ =>
    if mark then
      match s.cbAt c.key with
      | some d => s.cbConsume d 1 pts
      | none => s
    else s
  | .tensor _ _ _ _ _ _ => s

/-- E_SCALE of a block: STVAL holds its index (R127, R388). -/
def engScale {α : Type} (s : State) (block : Nat) : Eng α := engBad s eScale 0 (BitVec.ofNat 64 block)

/-! ### Result tiles -/

/-- Elements packed from bit 0 (R120). -/
def packElems (f : Nat) (es : List Nat) : List Byte :=
  natBytes (es.foldr (fun e n => e + n * 2 ^ fmtBits f) 0) (packedBytes f es.length)

/-- Staged writes whose bytes follow on each other, with one tag, joined. -/
def joinWrites : List StagedWrite → List StagedWrite
  | [] => []
  | w :: t =>
    match joinWrites t with
    | [] => [w]
    | v :: r =>
      if w.key = 0 ∧ v.key = 0 ∧ w.tag = v.tag ∧ w.keepHi = 0 ∧ v.keepLo = 0 ∧
          windowEnd w.va.toNat = windowEnd v.va.toNat ∧ v.va = w.va + BitVec.ofNat 64 w.data.length then
        { w with data := w.data ++ v.data, keepHi := v.keepHi } :: r
      else w :: v :: r

/-- Elements of w bits staged for a bit offset of an address: what another element holds of the first and
the last byte is kept. -/
def bitsWrite (va : Word) (bit w tag : Nat) (es : List Nat) : List StagedWrite :=
  let sh := bit % 8
  let fin := sh + es.length * w
  let n := (fin + 7) / 8
  if es = [] then []
  else
    [{ stagedAt 0 (va + BitVec.ofNat 64 (bit / 8)) (natBytes (es.foldr (fun e n => e + n * 2 ^ w) 0 * 2 ^ sh) n) tag with
      keepLo := sh, keepHi := 8 * n - fin }]

/-- One row of a result tile in a tensor: the elements inside the extents (R180). -/
def rowWrite (e : List Word) (t : TileForm) (i0 i2 i3 i1 : Nat) (es : List Nat) : List StagedWrite :=
  if tExt e 1 ≤ i1 ∨ tExt e 2 ≤ i2 ∨ tExt e 3 ≤ i3 ∨ tExt e 0 ≤ i0 then []
  else
    bitsWrite (tensorVa e (rowOffset e i1 i2 i3)) (i0 * fmtBits t.fmt) (fmtBits t.fmt) t.fmt (es.take (tExt e 0 - i0))

/-- The writes of a tile of elements to a destination operand. -/
def EngArg.writes (re : RingEntry) (a : EngArg) (es : List Nat) : List StagedWrite :=
  match a with
  | .slot c _ t =>
    let ix := ((re.permits.find? fun p => p.1 == c.key).map (·.2)).getD 0
    [stagedAt (c.slotKey ix) 0 (packElems t.fmt es) t.fmt]
  | .tensor e t0 t1 t2 t3 t =>
    joinWrites ((chunks t.cols t.rows es).mapIdx fun r l =>
      rowWrite e t (t0 * t.cols) t2 t3 (t1 * t.rows + r) l).flatten

/-- The parts of a captured tile as a slot holds it (R181, R204): offset and bytes. -/
def Captured.layout (c : Captured) (super : Nat) : List (Nat × List Byte) :=
  let t := c.form
  [(0, packElems t.fmt c.elems)] ++
    (if t.sparse then [(t.indexOff, packElems 9 c.index)] else []) ++
    (if t.hasScales then [(t.scaleOff, c.scales.map (BitVec.ofNat 8))] else []) ++
    (if t.fmt = 7 then [(t.superOff, natBytes super 4)] else [])

end Sys2Proof.Machine
end

