-- ==== Sys2Proof/Machine/Matrix.lean ====
section
/-! DEFINITION. The matrix unit (R195 to R209): acceptance, capture, the grouped sums of R139 and the
accumulator commands. Elision (R214, R215) changes no result and has no part here. -/

namespace Sys2Proof.Machine

/-! ### Grouped sums (R139) -/

/-- The exact sum of a group of products under way: the finite part, whether every product so far was
−0, and what was met of NaN, +∞ and −∞. -/
structure GroupSum where
  sum : Int
  allNeg : Bool
  nan : Bool
  pinf : Bool
  ninf : Bool
  flags : BitVec 5
  deriving DecidableEq, Repr

/-- A product joins the group; an absent one counts as +0 (R204). -/
def GroupSum.add (g : GroupSum) (a b : Option Val) : GroupSum :=
  match a, b with
  | some x, some y =>
    match Val.mul x y with
    | (.nan, f) => { g with nan := true, allNeg := false, flags := g.flags ||| f }
    | (.inf neg, _) => { g with pinf := g.pinf || !neg, ninf := g.ninf || neg, allNeg := false }
    | (.fin neg m, _) => { g with sum := g.sum + signedMag neg m, allNeg := g.allNeg && neg && m == 0 }
  | _, _ => { g with allNeg := false }

/-- A group added to the accumulator and rounded once, to nearest (R139). -/
def GroupSum.into (g : GroupSum) (acc : Nat) : Nat × BitVec 5 :=
  let qnan := 0x7FC00000
  if g.pinf ∧ g.ninf then (qnan, g.flags ||| flagNV)
  else if g.nan then (qnan, g.flags)
  else
    let s : Val :=
      if g.pinf then .inf false else if g.ninf then .inf true
      else if g.sum = 0 then .fin g.allNeg 0 else .fin (decide (g.sum < 0)) g.sum.natAbs
    let (v, f1) := Val.add rne (FpFmt.f32.decode acc) s
    let (w, f2) := FpFmt.f32.round rne v
    (w, g.flags ||| f1 ||| f2)

/-- `mma_element` of R139 over groups of eight. -/
def mmaElement (c : Nat) (a b : List (Option Val)) : Nat × BitVec 5 :=
  let gs := (chunks 8 64 a).zip (chunks 8 64 b)
  gs.foldl (fun p g =>
    let start : GroupSum := ⟨0, true, false, false, false, 0⟩
    let sum := (g.1.zip g.2).foldl (fun (g : GroupSum) p => g.add p.1 p.2) start
    let (w, f) := sum.into p.1
    (w, p.2 ||| f)) (c, 0)

/-- A product into an accumulator (R196, R202). -/
def mmaProduct (acc : Store (BitVec 32)) (a b : List (List (Option Val))) : Store (BitVec 32) × BitVec 5 :=
  let cells := (a.mapIdx fun r ar => b.mapIdx fun n br =>
    let i := 32 * r + n
    (i, mmaElement (getAt 0 acc i).toNat ar br)).flatten
  ((cells.map fun c => (c.1, BitVec.ofNat 32 c.2.1)).filter (·.2 ≠ 0), cells.foldl (fun f c => f ||| c.2.2) 0)

/-! ### Registers of a command (R198, R199) -/

/-- K of a command. -/
def mmK (e : RingEntry) : Nat := 8 * (fieldOf (e.reg 0) 5 0 + 1)

/-- Whether no reserved bit of MSHAPE, MFMT and MCTL is set. -/
def mmRegsOk (e : RingEntry) : Bool :=
  e.reg 0 &&& ~~~0x3F == 0 && e.reg 1 &&& ~~~0x3F3F == 0 && e.reg 2 &&& ~~~0xFFFF3 == 0

/-- The class of a format in R197. -/
def mmClass (f : Nat) : Option Nat :=
  if f = 0 then some 0 else if f = 1 ∨ f = 2 then some 1 else if 3 ≤ f ∧ f ≤ 9 then some 2 else none

/-- The form of a CB operand A (`b` false) or B of a product. -/
def mmForm (e : RingEntry) (b : Bool) : TileForm :=
  let m := e.reg 1
  let f := if b then fieldOf m 12 8 else fieldOf m 4 0
  ⟨f, (if b then m.getLsbD 13 else m.getLsbD 5) && f != 7, (e.reg 2).getLsbD (if b then 1 else 0), 32, mmK e⟩

/-- The form of the CB operand of MLD and MST. -/
def mmAccForm (e : RingEntry) : TileForm :=
  ⟨fieldOf (e.reg 1) 4 0, (e.reg 1).getLsbD 5, false, 32, 32⟩

/-- The accumulator of a command. -/
def mmAcc (e : RingEntry) : Nat := e.sel % 4
/-- The last-read mark of the operand of RA. -/
def mmMarkA (e : RingEntry) : Bool := e.sel / 4 % 2 == 1
/-- The last-read mark of the operand of RB. -/
def mmMarkB (e : RingEntry) : Bool := e.sel / 8 % 2 == 1

/-- An operand of a product other than a gathered A (R196, R197, R200, R204): 32 rows of K columns in a
format of the unit, scaled only where the format takes scales, never QN4 in compressed form. -/
def mmOperandOk (e : RingEntry) (a : EngArg) : Bool :=
  let t := a.form
  t.rows == 32 && t.cols == mmK e && a.colsOk && (!t.scaled || scalable t.fmt) && !(t.sparse && t.fmt == 7)

/-- The operands of a product command, tested (R209). -/
def mmArgs (q : Nat) (e : RingEntry) (s : State) : Eng (EngArg × EngArg) :=
  let markA := mmMarkA e && e.fn != 1
  let ta := e.refForm e.valA (mmForm e false)
  let tb := e.refForm e.valB (mmForm e true)
  let pairOk := (mmClass ta.fmt).isSome && mmClass ta.fmt == mmClass tb.fmt
  let packOk := if e.fn = 2 then ta.sparse || tb.sparse else !ta.sparse && !tb.sparse
  engMust (pairOk && packOk) s fun s =>
  engThen (sourceArg q e e.valA markA (mmForm e false) s) fun s a =>
  engThen (sourceArg q e e.valB (mmMarkB e) (mmForm e true) s) fun s b =>
    let aOk := if e.fn = 1 then
        (match a with
          | .tensor w _ t1 t2 t3 t =>
            tRank w == 2 && t1 == 0 && t2 == 0 && t3 == 0 && mmOperandOk e (.tensor w 0 0 0 0 { t with rows := 32 })
          | .slot _ _ _ => false)
      else mmOperandOk e a
    engMust (aOk && mmOperandOk e b) s fun s =>
      (s, .ok (match a with
        | .tensor w t0 t1 t2 t3 t => .tensor w t0 t1 t2 t3 { t with rows := 32 }
        | .slot c k t => .slot c k t, b))

/-- The row-index slot of MMAG (R203). (DESIGN CHOICE: log entry 24.) -/
def mmGather (q : Nat) (e : RingEntry) (s : State) : Eng EngArg :=
  slotSource q (fieldOf (e.reg 2) 11 8) (fieldOf (e.reg 2) 19 12) false ⟨10, false, false, 1, 128⟩ s

/-- The sending end that MROT writes (R205). (DESIGN CHOICE: log entry 24.) -/
def mmRoute (q : Nat) (e : RingEntry) (need : Nat) (s : State) : Eng CbInst :=
  match s.cbFor q (fieldOf (e.reg 2) 7 4) with
  | none => engOpen s eCb 0
  | some c => engCb (c.sending && c.pstage == 2 && decide (need ≤ c.slotBytes)) s fun s => engPeer c s fun s => (s, .ok c)

/-- Whether an operand may be the source of MLD or the destination of MST (R206). -/
def mmAccOk (a : EngArg) : Bool :=
  let t := a.form
  t.rows == 32 && t.cols == 32 && decide (t.fmt ≤ 2) && !t.scaled && !t.sparse

/-- Acceptance of a matrix command (R209), its tensor entries being captured. (DEDUCED: log entry 21.) -/
def mmAccept (q : Nat) (e : RingEntry) (s : State) : Eng (List CbKey) :=
  engMust (mmRegsOk e) s fun s =>
    match e.fn with
    | 4 => (s, .ok [])
    | 5 =>
      engMust (decide ((e.refForm e.valA (mmAccForm e)).fmt ≤ 2)) s fun s =>
      engThen (sourceArg q e e.valA (mmMarkA e) (mmAccForm e) s) fun s a =>
        engMust (mmAccOk a) s fun s => (s, .ok [])
    | 6 =>
      engMust (decide ((e.refForm e.valA (mmAccForm e)).fmt ≤ 2)) s fun s =>
      engThen (destArg q e e.valA (mmAccForm e) s) fun s a =>
        engMust (mmAccOk a) s fun s => (s, .ok a.need)
    | 1 => engThen (mmArgs q e s) fun s _ => engThen (mmGather q e s) fun s _ => (s, .ok [])
    | 3 =>
      engThen (mmArgs q e s) fun s p =>
        engThen (mmRoute q e p.2.form.slotNeed s) fun s c => (s, .ok [c.key])
    | _ => engThen (mmArgs q e s) fun s _ => (s, .ok [])

/-! ### Capture -/

/-- A gathered A captured (R203): row r is the tensor row that index r names. -/
def mmGathered (q : Nat) (e : RingEntry) (a : EngArg) (s : State) : Eng Captured :=
  match a with
  | .tensor w t0 _ _ _ t =>
    engThen (mmGather q e s) fun s g =>
    engThen (g.capture q e s) fun s l =>
      let idx := (chunks 4 32 l.elems).map fun bs => bs.foldr (fun b n => b + 256 * n) 0
      captureTensor q e w t t0 0 0 idx s
  | .slot _ _ _ => engIll s

/-- The forwarding of B by MROT (R205): its bytes go to the sending slot, which is then full.
(DESIGN CHOICE: log entry 24.) -/
def mmForward (q : Nat) (e : RingEntry) (b : Captured) (s : State) : State :=
  match e.permits with
  | (k, ix) :: _ =>
    match s.cbAt k with
    | some c =>
      let same := b.supers.all (· == b.supers.headD 0)
      let sup := if same then b.supers.headD 0 else (Config.mixedSuper b.supers).toNat
      let s2 := (b.layout sup).foldl (fun s p => (s.bulkWrite (c.slotKey ix + p.1) p.2 15 (s.entryPts q e)).1) s
      let s3 : State := { s2 with operands := s2.operands ++ [⟨q, (s.slot q).ctx, k, ix, none, none, none⟩] }
      s3.cbFill k ix (s.entryPts q e)
    | none => s
  | [] => s

/-- The accumulator that a command takes up (R208): as the captured earlier commands on it leave it.
(DEDUCED: log entry 71.) -/
def State.accFor (s : State) (q : Nat) (e : RingEntry) : Store (BitVec 32) :=
  (((s.slot q).olderThan e).filter fun f => wordIsCmd f.word && f.eng == 0 && f.sel % 4 == e.sel % 4).foldl
    (fun a f => f.stagedAcc.getD a) (getAt [] (s.slot q).acc (mmAcc e))

/-- The rows of values of a captured operand, with the flags of decoding; E_SCALE where a scale is bad. -/
def mmRows (c : Captured) (s : State) : Eng (List (List (Option Val)) × BitVec 5) :=
  match c.values with
  | .error b => engScale s b
  | .ok (vs, f) => (s, .ok (chunks c.form.cols 32 vs, f))

/-- The capture and computation of a product command (R202 to R205). (DEDUCED: log entry 71.) -/
def mmCapture (q : Nat) (e : RingEntry) (s : State) : Eng EngOut :=
  engThen (mmArgs q e s) fun s p =>
  engThen (if e.fn = 1 then mmGathered q e p.1 s else p.1.capture q e s) fun s a =>
  engThen (p.2.capture q e s) fun s b =>
  engMust (a.indexOk && b.indexOk) s fun s =>
    let good := match a.values, b.values with
      | .ok _, .ok _ => true
      | _, _ => false
    let pts := s.entryPts q e
    engCb (!(mmMarkA e && e.fn != 1 && mmMarkB e) || marksOk p.1 p.2 s) s fun s =>
    let s1 := if e.fn == 3 && good then mmForward q e b s else s
    let s2 := p.2.free (mmMarkB e) pts (p.1.free (mmMarkA e && e.fn != 1) pts s1)
    engThen (mmRows a s2) fun s ar =>
    engThen (mmRows b s) fun s br =>
      let (acc, f) := mmaProduct (s.accFor q e) ar.1 br.1
      (s, .ok { EngOut.empty with acc := some acc, flags := ar.2 ||| br.2 ||| f })

/-- MLD (R206): FP32 words unchanged, the narrower formats widened. -/
def mldCapture (q : Nat) (e : RingEntry) (s : State) : Eng EngOut :=
  engThen (sourceArg q e e.valA (mmMarkA e) (mmAccForm e) s) fun s a =>
  engThen (a.capture q e s) fun s c =>
    let f := c.form.fmt
    let word (n : Nat) : Nat := if f = 0 then n else (FpFmt.f32.round rne (plainVal f n)).1
    let acc := (c.elems.mapIdx fun i n => (i, BitVec.ofNat 32 (word n))).filter (·.2 ≠ 0)
    (a.free (mmMarkA e) (s.entryPts q e) s, .ok { EngOut.empty with acc := some acc })

/-- The mode and draws of the elements of a command (R135, R188): stochastic ones come from the seed at
its dispatch. -/
def engRoundings (e : RingEntry) (mode : BitVec 3) (n : Nat) : List Rounding :=
  if mode = 4 then (drawList n e.seed).map fun d => ⟨4, d⟩ else List.replicate n ⟨mode, 0⟩

/-- MST (R206): FP32 words unchanged, the narrower formats rounded. -/
def mstCapture (q : Nat) (e : RingEntry) (s : State) : Eng EngOut :=
  engThen (destArg q e e.valA (mmAccForm e) s) fun s a =>
    let f := a.form.fmt
    let acc := s.accFor q e
    let one (i : Nat) (md : Rounding) : Nat × BitVec 5 :=
      let w := (getAt 0 acc i).toNat
      if f = 0 then (w, 0)
      else
        let g := fmtOfTy (BitVec.ofNat 4 f)
        g.flush e.flush (g.round md (FpFmt.f32.decode w))
    let rs := (engRoundings e e.rm 1024).mapIdx one
    (s, .ok { EngOut.empty with writes := a.writes e (rs.map (·.1)), flags := rs.foldl (fun f r => f ||| r.2) 0 })

/-- Whether a command reads an accumulator in which uncorrectable data was found (R410). -/
def State.accBad (s : State) (q : Nat) (e : RingEntry) : Bool :=
  e.fn != 4 && e.fn != 5 && getAt false (s.slot q).poison (80 + mmAcc e) &&
    ((s.slot q).olderThan e).all fun f => !(wordIsCmd f.word && f.eng == 0 && f.sel % 4 == e.sel % 4) || f.stagedAcc.isNone

/-- The capture of a matrix command. -/
def matrixCapture (q : Nat) (e : RingEntry) (s : State) : Eng EngOut :=
  if s.accBad q e then engOpen s eAbort 0x02
  else
  match e.fn with
  | 4 => (s, .ok { EngOut.empty with acc := some [] })
  | 5 => mldCapture q e s
  | 6 => mstCapture q e s
  | _ => mmCapture q e s

end Sys2Proof.Machine
end

