-- ==== Sys2Proof/Machine/Convert.lean ====
section
/-! DEFINITION. The conversion unit (R182 to R188): acceptance, the element results of R184, and the
scales of R186 and R187. -/

namespace Sys2Proof.Machine

/-! ### Registers and shape -/

/-- Whether no reserved bit of CSHAPE, CFMT, CCTL and CSCALE is set (R183). -/
def cvRegsOk (e : RingEntry) : Bool :=
  e.reg 0 &&& ~~~0x7F7F == 0 && e.reg 1 &&& ~~~0x3F3F == 0 && e.reg 2 &&& ~~~0x3 == 0 &&
    e.reg 3 &&& ~~~0xFFFFFFFF == 0

/-- Rows and columns of the command (R185): those of its first tensor operand, else CSHAPE's. -/
def cvShape (e : RingEntry) : Nat × Nat :=
  let t : TileForm := ⟨0, false, false, fieldOf (e.reg 0) 6 0 + 1, fieldOf (e.reg 0) 14 8 + 1⟩
  let a := e.refForm e.valA (e.refForm e.valB t)
  (a.rows, a.cols)

/-- CVTR transposes (R184). -/
def cvTurns (e : RingEntry) : Bool := e.fn == 5

/-- The form of a CB source. -/
def cvSourceForm (e : RingEntry) : TileForm :=
  let f := fieldOf (e.reg 1) 4 0
  ⟨f, (e.reg 1).getLsbD 5 && f != 7, false, (cvShape e).1, (cvShape e).2⟩

/-- The form of a CB destination. -/
def cvDestForm (e : RingEntry) : TileForm :=
  let f := fieldOf (e.reg 1) 12 8
  let (r, c) := cvShape e
  ⟨f, (e.reg 1).getLsbD 13 && f != 7, false, if cvTurns e then c else r, if cvTurns e then r else c⟩

/-- Whether the unit accepts a pair of forms for a function code (R184). -/
def cvFormats (fn : Nat) (a b : TileForm) : Bool :=
  let plain (t : TileForm) (lim : Nat) : Bool := !t.scaled && decide (t.fmt ≤ lim)
  let any (t : TileForm) : Bool := plain t 0x0B && t.fmt != 7
  let block (t : TileForm) : Bool := t.scaled && scalable t.fmt
  !a.sparse && !b.sparse &&
    (match fn with
      | 1 => block a && plain b 6
      | 2 => plain a 4 && block b
      | 3 => a.fmt == 7 && plain b 4
      | 4 => plain a 2 && b.fmt == 7
      | _ => any a && any b)

/-- The rounding mode of a command (R87): SEL, or FCTL.RM at dispatch. -/
def cvMode (e : RingEntry) : BitVec 3 :=
  if e.sel % 8 = 0 then e.rm else BitVec.ofNat 3 (e.sel % 8 - 1)

/-- The last-read mark. -/
def cvMark (e : RingEntry) : Bool := e.sel / 8 == 1

/-- CCTL.MUL. -/
def cvMul (e : RingEntry) : Bool := (e.reg 2).getLsbD 0
/-- CCTL.QAUTO. -/
def cvAuto (e : RingEntry) : Bool := (e.reg 2).getLsbD 1

/-- The operands of a command, tested (R185, R194). (DEDUCED: log entry 21.) -/
def cvArgs (q : Nat) (e : RingEntry) (s : State) : Eng (EngArg × EngArg) :=
  let ta := e.refForm e.valA (cvSourceForm e)
  let tb := e.refForm e.valB (cvDestForm e)
  let want := cvDestForm e
  engMust (cvRegsOk e && cvFormats e.fn ta tb && decide (ta.rows * ta.cols ≤ 16384) &&
      tb.rows == want.rows && tb.cols == want.cols) s fun s =>
  engThen (sourceArg q e e.valA (cvMark e) (cvSourceForm e) s) fun s a =>
  engThen (destArg q e e.valB want s) fun s b =>
    engMust (a.colsOk && b.colsOk && !(e.fn == 2 && !cvAuto e && !b.isTensor)) s fun s => (s, .ok (a, b))

/-- Acceptance of a conversion command, its tensor entries being captured. (DEDUCED: log entry 21.) -/
def cvAccept (q : Nat) (e : RingEntry) (s : State) : Eng (List CbKey) :=
  engThen (cvArgs q e s) fun s p => (s, .ok p.2.need)

/-! ### Elements -/

/-- Whether a format holds every value of another (R128). -/
def exactFmt (st dt : Nat) : Bool :=
  st == dt || (dt == 0 && decide (st ≤ 6)) || ((dt == 1 || dt == 2) && decide (3 ≤ st) && decide (st ≤ 6)) ||
    (st == 6 && decide (3 ≤ dt) && decide (dt ≤ 5)) || (st == 5 && (dt == 3 || dt == 4))

/-- The signed range of an integer format: its width, and whether it is signed (R70). -/
def intFmt (f : Nat) : Nat × Bool :=
  match f with
  | 8 => (8, true) | 9 => (4, true) | 10 => (8, false) | _ => (32, true)

/-- A value rounded to an unscaled format (R129, R130); `keep` holds a flush off (R128, R132). -/
def cvRound (dt : Nat) (md : Rounding) (flush keep : Bool) (v : Val) : Nat × BitVec 5 :=
  if dt ≤ 6 then
    let g := fmtOfTy (BitVec.ofNat 4 dt)
    g.flush (flush && !keep) (g.round md v)
  else
    let (w, sg) := intFmt dt
    let (z, f) := v.toInt md (intMin w sg) (intMax w sg)
    (wrapTo w z, f)

/-- One element of CVT and CVTR (R184): the exact product first where MUL is 1; integers to integers
clamp (R177). -/
def cvtElement (e : RingEntry) (st dt : Nat) (md : Rounding) (n : Nat) : Nat × BitVec 5 :=
  let x := plainVal st n
  if cvMul e then
    let (p, f) := Val.mul x (FpFmt.f32.decode (e.reg 3).toNat)
    let (w, g) := cvRound dt md e.flush false p
    (w, f ||| g)
  else if 8 ≤ st ∧ 8 ≤ dt then
    let (w, sg) := intFmt st
    let (v, tg) := intFmt dt
    (wrapTo v (clampInt v tg (intOf w sg n)), 0)
  else cvRound dt md e.flush (exactFmt st dt) x

/-- The greatest magnitude of the finite values of a block, in units of 2^-640. -/
def blockMax (vs : List Val) : Nat :=
  vs.foldl (fun m v => match v with | .fin _ x => max m x | _ => m) 0

/-- `cvq_scale` with QAUTO = 1 (R186). -/
def autoScale (f : Nat) (vs : List Val) : Nat :=
  let m := blockMax vs
  let g := fmtOfTy (BitVec.ofNat 4 f)
  let top := match g.decode g.maxFin with | .fin _ x => x | _ => 0
  let fits (sc : Nat) : Bool :=
    match FpFmt.xs8.decode sc with | .fin _ x => decide (m * unitOne ≤ top * x) | _ => false
  if m = 0 then 0x78 else (((List.range 255).drop 1).find? fits).getD 0xFE

/-- The QN4 code nearest to x / e, ties to the smaller magnitude (R187). -/
def nearestCode (x : Int) (e : Val) : Nat :=
  let off (c : Nat) : Nat × Nat :=
    match (Val.mul (qn4Val c) e).1 with
    | .fin n m => ((signedMag n m - x).natAbs, m)
    | _ => (0, 0)
  (List.range 16).foldl (fun b c =>
    if (off c).1 < (off b).1 ∨ ((off c).1 = (off b).1 ∧ (off c).2 < (off b).2) then c else b) 8

/-- One element of CVQNQ (R187) under a block's effective scale. -/
def cvqnqElement (beta : Nat) (e x : Val) : Nat × BitVec 5 :=
  match x, e with
  | .nan, _ => (8, flagNV)
  | .inf neg, _ => (if neg then 0 else 15, flagNV)
  | .fin n m, .fin _ em =>
    if em = 0 then (8, 0)
    else
      let c := nearestCode (signedMag n m) e
      let beyond : BitVec 5 := if beta = 255 ∧ em < m then flagOF else 0
      let exact : Bool := match (Val.mul (qn4Val c) e).1 with
        | .fin cn cm => decide (signedMag cn cm = signedMag n m)
        | _ => false
      (c, beyond ||| (if exact then 0 else flagNX))
  | _, _ => (8, 0)

/-- The byte scale of a block in CVQNQ (R187): min(255, ⌈m / sig⌉). -/
def betaOf (sig : Nat) (vs : List Val) : Nat :=
  match FpFmt.f32.decode sig with
  | .fin _ s => if s = 0 then 0 else min 255 ((blockMax vs + s - 1) / s)
  | _ => 0

/-- Whether an FP32 scale operand is one: finite and above zero (R127). (DEDUCED: log entry 21.) -/
def scaleOperandOk (w : Nat) : Bool :=
  match FpFmt.f32.decode w with
  | .fin false m => m != 0
  | _ => false

/-! ### Destinations of scales -/

/-- The blocks of a destination: the number that names each in a trap, and whether it holds an element
inside the extents (R180). -/
def EngArg.blockNames (a : EngArg) : List (Nat × Bool) :=
  let t := a.form
  match a with
  | .slot _ _ _ => (List.range t.blocks).map fun b => (b, true)
  | .tensor e t0 t1 t2 t3 _ =>
    let l := blockLen t.fmt
    (List.range t.rows).flatMap fun r => (List.range (t.cols / l)).map fun j =>
      let i1 := t1 * t.rows + r
      let i0 := t0 * t.cols + j * l
      (linearElem e i0 i1 t2 t3 / l,
        decide (i1 < tExt e 1) && decide (t2 < tExt e 2) && decide (t3 < tExt e 3) && decide (i0 < tExt e 0))

/-- The writes of the scale bytes of a destination, and of its superscale (R71, R181, R187). -/
def EngArg.scaleWrites (re : RingEntry) (a : EngArg) (scales : List Nat) (super : Option Nat) : List StagedWrite :=
  let t := a.form
  match a with
  | .slot c _ _ =>
    let ix := ((re.permits.find? fun p => p.1 == c.key).map (·.2)).getD 0
    stagedAt (c.slotKey ix + t.scaleOff) 0 (scales.map (BitVec.ofNat 8)) 15 ::
      (match super with
        | some w => [stagedAt (c.slotKey ix + t.superOff) 0 (natBytes w 4) 15]
        | none => [])
  | .tensor e _ _ _ _ _ =>
    let held := (a.blockNames.zip scales).filter (·.1.2)
    joinWrites (held.map fun p => stagedAt 0 (scaleVa e p.1.1) [BitVec.ofNat 8 p.2] 15) ++
      (match super with
        | some w => ((held.map fun p => p.1.1 / 256).eraseDups).map fun g => stagedAt 0 (superVa e (256 * g)) (natBytes w 4) 15
        | none => [])

/-- The scales that a tensor destination already holds (R186). -/
def heldScales (q : Nat) (re : RingEntry) (a : EngArg) (s : State) : Eng (List Nat) :=
  match a with
  | .slot _ _ _ => (s, .ok [])
  | .tensor e t0 t1 t2 t3 t =>
    let places := (List.range t.rows).flatMap fun r =>
      (List.range (t.cols / 32)).map fun j => (t1 * t.rows + r, t0 * t.cols + j * 32)
    engThen (engEach (captureScale q re e t.fmt t2 t3) places s) fun s ss => (s, .ok (ss.map (·.1)))

/-- The first block whose scale fails a test. -/
def firstBad (a : EngArg) (ok : Nat → Bool) (scales : List Nat) : Option Nat :=
  ((a.blockNames.zip scales).find? fun p => !ok p.2).map (·.1.1)

/-! ### Capture -/

/-- Elements in the order of the transposed tile (R184). -/
def turned (r c : Nat) (es : List Nat) : List Nat :=
  (List.range c).flatMap fun j => (List.range r).map fun i => es.getD (i * c + j) 0

/-- CVT, CVTR, CVB and CVQN: the elements, each rounded once. -/
def cvElements (e : RingEntry) (a b : EngArg) (c : Captured) (s : State) : Eng (List (Nat × BitVec 5)) :=
  let t := a.form
  let rs := engRoundings e (cvMode e) (t.rows * t.cols)
  if e.fn = 1 ∨ e.fn = 3 then
    match c.values with
    | .error n => engScale s n
    | .ok (vs, f) =>
      (s, .ok (List.zipWith (fun md v =>
        let (w, g) := cvRound b.form.fmt md e.flush false (v.getD (.fin false 0))
        (w, f ||| g)) rs vs))
  else if cvMul e && !scaleOperandOk (e.reg 3).toNat then engOpen s eScale 0
  else (s, .ok (List.zipWith (fun md n => cvtElement e t.fmt b.form.fmt md n) rs c.elems))

/-- CVQ (R186): each element over its block's scale, from the exact quotient. -/
def cvqElements (e : RingEntry) (b : EngArg) (vs : List Val) (scales : List Nat) : List (Nat × BitVec 5) :=
  let g := fmtOfTy (BitVec.ofNat 4 b.form.fmt)
  let one (i : Nat) (p : Rounding × Val) : Nat × BitVec 5 :=
    g.flush e.flush (g.div p.1 p.2 (FpFmt.xs8.decode (scales.getD (i / 32) 0x78)))
  ((engRoundings e (cvMode e) vs.length).zip vs).mapIdx one

/-- The capture and computation of a conversion command (R188, R190). -/
def convertCapture (q : Nat) (e : RingEntry) (s : State) : Eng EngOut :=
  engThen (cvArgs q e s) fun s p =>
  engThen (p.1.capture q e s) fun s c =>
  engThen (if e.fn = 2 && !cvAuto e then heldScales q e p.2 s else (s, .ok [])) fun s held =>
    let s1 := p.1.free (cvMark e) (s.entryPts q e) s
    let vs := c.elems.map (plainVal c.form.fmt)
    let out (es : List (Nat × BitVec 5)) (scales : List StagedWrite) (s : State) : Eng EngOut :=
      let ns := es.map (·.1)
      let ns := if cvTurns e then turned c.form.rows c.form.cols ns else ns
      (s, .ok { EngOut.empty with writes := p.2.writes e ns ++ scales, flags := es.foldl (fun f x => f ||| x.2) 0 })
    if e.fn = 2 then
      let scales := if cvAuto e then (chunks 32 512 vs).map (autoScale p.2.form.fmt) else held
      match (if cvAuto e then none else firstBad p.2 (fun n => n != 0 && n != 0xFF) scales) with
      | some b => engScale s1 b
      | none => out (cvqElements e p.2 vs scales) (if cvAuto e then p.2.scaleWrites e scales none else []) s1
    else if e.fn = 4 then
      let sig := (e.reg 3).toNat % 2 ^ 32
      let blocks := chunks 64 256 vs
      let betas := blocks.map (betaOf sig)
      match firstBad p.2 (fun n => (qn4Scale sig n).isSome) betas with
      | some b => engScale s1 b
      | none =>
        out ((blocks.zip betas).flatMap fun x =>
            x.1.map (cvqnqElement x.2 ((qn4Scale sig x.2).getD (.fin false 0))))
          (p.2.scaleWrites e betas (some sig)) s1
    else engThen (cvElements e p.1 p.2 c s1) fun s es => out es [] s

end Sys2Proof.Machine
end

