-- ==== Sys2Proof/Machine/Key.lean ====
section
/-! DEFINITION. The key unit (R216 to R225): key tensors, KBND, KSEL and KRST. -/

namespace Sys2Proof.Machine

/-! ### Registers and the key tensor -/

/-- KFIRST. -/
def kFirst (e : RingEntry) : Nat := (e.reg 1).toNat
/-- KCOUNT. -/
def kCount (e : RingEntry) : Nat := (e.reg 2).toNat
/-- KSELN.MODE. -/
def kThreshold (e : RingEntry) : Bool := (e.reg 3).getLsbD 16
/-- KSELN.N. -/
def kN (e : RingEntry) : Nat := fieldOf (e.reg 3) 11 0

/-- Whether no reserved bit of the registers is set and the numbers lie in their ranges (R219). -/
def kRegsOk (e : RingEntry) : Bool :=
  e.reg 0 &&& ~~~0xFFF == 0 && e.reg 1 &&& ~~~0xFFFFFFFF == 0 && e.reg 2 &&& ~~~0x1FFF == 0 &&
    e.reg 3 &&& ~~~0x10FFF == 0 && e.reg 4 &&& ~~~0xFFFFFFFF == 0 && e.reg 5 &&& ~~~0x1F == 0 &&
    decide (1 ≤ kCount e) && decide (kCount e ≤ 4096) &&
    (e.fn != 1 || kThreshold e || decide (1 ≤ kN e))

/-- The entry of the key tensor of a command. -/
def kEntry (e : RingEntry) : List Word := e.ent (fieldOf (e.reg 0) 11 0)

/-- The conditions of R216 on a key tensor, KEYPAGE = 1 among them: a key command that names any other tensor traps E_ILL.
(DEDUCED: log entry 89.) -/
def keyTensorOk (w : List Word) : Bool :=
  let f := tFmt w
  tKeypage w && (f == 1 || f == 2 || f == 3) && !tScaled w && tSpar w == 0 &&
    (tRank w == 2 || tRank w == 3) && tExt w 0 == 128 && tExt w 1 % 64 == 0 &&
    tStr1 w == (if f = 3 then 2 else 4) && (tRank w == 2 || tStr2 w == tExt w 1 * tStr1 w) &&
    tBsoff w != 0 && decide (keyPageBytes w * keyPages w ≤ 4096 * tBsoff w)

/-- The address of the summary of a page (R216). -/
def summaryVa (w : List Word) (pg : Nat) : Word := tensorVa w (4096 * tBsoff w + 512 * pg)

/-- The form of a CB query (R219, R220). -/
def queryForm (e : RingEntry) : TileForm := ⟨fieldOf (e.reg 5) 4 0, false, false, 1, 128⟩

/-- The form of a slot of n bytes. -/
def bytesForm (n : Nat) : TileForm := ⟨10, false, false, 1, n⟩

/-- A reference to a CB slot as a source. -/
def slotRefSource (q : Nat) (ref : Word) (t : TileForm) (s : State) : Eng EngArg :=
  match parseRef ref with
  | some (.slot h k) => slotSource q h k false t s
  | _ => engIll s

/-- A reference to a CB slot as a destination that must hold n bytes. -/
def slotRefDest (q : Nat) (ref : Word) (n : Nat) (s : State) : Eng EngArg :=
  match parseRef ref with
  | some (.slot h k) => slotDest q h k n (bytesForm n) s
  | _ => engIll s

/-- The clusters whose key range tables a registration of a context reaches (R217). -/
def State.keyClusters (s : State) (x : Nat) : List Nat := (List.range clusterCount).filter (s.inCalderas x)

/-- Whether a key tensor is registered for a context. -/
def State.keyRegistered (s : State) (x tid : Nat) : Bool := s.keyRanges.any fun r => r.ctx == x && r.tid == tid

/-- Whether some cluster's table has no room for a registration (R217). -/
def State.keyTablesFull (s : State) (x : Nat) : Bool :=
  (s.keyClusters x).any fun c => decide (64 ≤ (s.keyRanges.filter fun r => r.cluster == c).length)

/-- A key tensor registered in every cluster of the context, or E_PROT where a table is full by then (R217). -/
def keyRegister (x tid : Nat) (w : List Word) (s : State) : Eng Unit :=
  if s.keyRegistered x tid then (s, .ok ())
  else if s.keyTablesFull x then engOpen s eProt 0x05
  else ({ s with keyRanges := s.keyRanges ++ (s.keyClusters x).map fun c => ⟨c, x, tid, w⟩ }, .ok ())

/-! ### Acceptance -/

/-- The query of KBND, tested (R220). -/
def kQuery (q : Nat) (e : RingEntry) (s : State) : Eng EngArg :=
  let t := e.refForm e.valA (queryForm e)
  engMust ((t.fmt == 0 || t.fmt == 2) && !t.sparse && t.rows == 1 && t.cols == 128) s fun s =>
    sourceArg q e e.valA false (queryForm e) s

/-- Acceptance of a key command (R216, R219, R225), its tensor entries being captured. -/
def keyAccept (q : Nat) (e : RingEntry) (s : State) : Eng (List CbKey) :=
  let w := kEntry e
  engMust (kRegsOk e && keyTensorOk w && decide (kFirst e + kCount e ≤ keyPages w)) s fun s =>
    match e.fn with
    | 0 =>
      engThen (kQuery q e s) fun s _ =>
        engThen (slotRefDest q e.valB (4 * kCount e) s) fun s d => (s, .ok d.need)
    | 1 =>
      engThen (slotRefSource q e.valA (bytesForm (4 * kCount e)) s) fun s _ =>
        engThen (slotRefDest q e.valB 4 s) fun s d => (s, .ok d.need)
    | _ =>
      let x := (s.slot q).ctx
      if tConstant w then engOpen s eProt 0x05
      else if !s.keyRegistered x (fieldOf (e.reg 0) 11 0) && s.keyTablesFull x then engOpen s eProt 0x05
      else (s, .ok [])

/-! ### KBND (R221) -/

/-- The term of a channel under way (R221), its products and their greater being those of R137: a NaN where an infinite
query element meets two zero bounds. (DESIGN CHOICE: log entry 25.) -/
def kbndTerm (q lo hi : Val) : Val :=
  if q.eq (.fin false 0) then .fin false 0
  else
    match (Val.mul q lo).1, (Val.mul q hi).1 with
    | .nan, b => b
    | a, .nan => a
    | a, b => if a.lt b then b else a

/-- The sum of a page's terms under way: `t` of R221, which a NaN term turns into NaN, and its two flags. -/
structure Bound where
  sum : Int
  pinf : Bool
  ninf : Bool
  nan : Bool
  deriving DecidableEq, Repr

/-- A term joins the sum. -/
def Bound.add (b : Bound) : Val → Bound
  | .nan => { b with nan := true }
  | .inf neg => { b with pinf := b.pinf || !neg, ninf := b.ninf || neg }
  | .fin neg m => { b with sum := b.sum + signedMag neg m }

/-- `kbnd_page` of R221 on the values of the query and of the summary; the sum with a NaN term is NaN (R137).
(DESIGN CHOICE: log entry 25.) -/
def kbndPage (q lo hi : List Val) : Nat :=
  let cs := q.zip (lo.zip hi)
  if cs.any fun c => c.1 == .nan || c.2.1 == .nan || c.2.2 == .nan then 0x7F800000
  else
    let start : Bound := ⟨0, false, false, false⟩
    let b := cs.foldl (fun (b : Bound) c => b.add (kbndTerm c.1 c.2.1 c.2.2)) start
    if b.pinf then 0x7F800000
    else if b.ninf then 0xFF800000
    else (FpFmt.f32.round ⟨3, 0⟩ (if b.nan then .nan else .fin (decide (b.sum < 0)) b.sum.natAbs)).1

/-- The bound of one page. -/
def kbndOne (q : Nat) (e : RingEntry) (qs : List Val) (s : State) (pg : Nat) : Eng Nat :=
  engThen (engReadWhole q e s (summaryVa (kEntry e) pg) 512) fun s bs =>
    let vs := (unpack 2 256 bs).map FpFmt.bf16.decode
    (s, .ok (kbndPage qs (vs.take 128) (vs.drop 128)))

/-- The pages of a command. -/
def kPages (e : RingEntry) : List Nat := (List.range (kCount e)).map (kFirst e + ·)

/-- Bytes staged for the slot a command holds a permit for. -/
def permitWrite (s : State) (e : RingEntry) (bs : List Byte) : List StagedWrite :=
  match e.permits with
  | (k, ix) :: _ =>
    match s.cbAt k with
    | some c => [stagedAt (c.slotKey ix) 0 bs 15]
    | none => []
  | [] => []

/-- KBND. -/
def kbndCapture (q : Nat) (e : RingEntry) (s : State) : Eng EngOut :=
  engThen (kQuery q e s) fun s a =>
  engThen (a.capture q e s) fun s c =>
  engThen (engEach (kbndOne q e (c.elems.map (plainVal c.form.fmt))) (kPages e) s) fun s ws =>
    (s, .ok { EngOut.empty with writes := permitWrite s e (ws.flatMap fun w => natBytes w 4) })

/-! ### KSEL (R223) -/

/-- Whether index i is among the n largest, ties to the lower index. -/
def topN (n : Nat) (ks : List Int) (i : Nat) : Bool :=
  let k := ks.getD i 0
  decide (((ks.mapIdx fun j x => decide (k < x) || (x == k && decide (j < i))).filter (· == true)).length < n)

/-- The place of a bound in the order of sizes; that of a NaN, which R223 does not give, is a free value of the part, the
same in every run (R141). (DESIGN CHOICE: log entry 25.) -/
def kselKey (n : Nat) : Int :=
  match FpFmt.f32.decode n with
  | .nan => Config.nanPlace n
  | v => v.key

/-- KSEL. -/
def kselCapture (q : Nat) (e : RingEntry) (s : State) : Eng EngOut :=
  engThen (slotRefSource q e.valA (bytesForm (4 * kCount e)) s) fun s a =>
  engThen (slotRefDest q e.valB 4 s) fun s d =>
  engThen (a.capture q e s) fun s c =>
    let words := (chunks 4 4096 c.elems).map fun bs => bs.foldr (fun b n => b + 256 * n) 0
    let thr := FpFmt.f32.decode (e.reg 4).toNat
    let ks := words.map kselKey
    let chosen := (List.range (kCount e)).filter fun i =>
      if kThreshold e then
        let v := FpFmt.f32.decode (words.getD i 0)
        thr.lt v || thr.eq v
      else topN (kN e) ks i
    let cap := match d with
      | .slot b _ _ => b.slotBytes / 4 - 1
      | .tensor _ _ _ _ _ _ => 0
    let l := chosen.take cap
    let count := l.length + (if cap < chosen.length then 2 ^ 31 else 0)
    (s, .ok { EngOut.empty with
      writes := permitWrite s e (natBytes count 4 ++ l.flatMap fun i => natBytes (kFirst e + i) 4)
      regs := [(6, BitVec.ofNat 64 count)] })

/-! ### KRST (R224) -/

/-- The summary of a page from its keys: 128 minima and 128 maxima in BF16. -/
def summaryOf (f : Nat) (rows : List (List Nat)) : List Byte :=
  let col (c : Nat) : List (Nat × Nat) := rows.map fun r => summaryBounds f (r.getD c 0)
  let fold (maxi : Bool) (l : List Nat) : Nat := (l.drop 1).foldl (FpFmt.bf16.minmax maxi) (l.headD 0)
  ((List.range 128).flatMap fun c => natBytes (fold false ((col c).map (·.1))) 2) ++
    (List.range 128).flatMap fun c => natBytes (fold true ((col c).map (·.2))) 2

/-- The rows of a page (R216): 64 keys of head ⌊pg / P⌋. -/
def pageRows (q : Nat) (e : RingEntry) (pg : Nat) (s : State) : Eng (List (List Nat)) :=
  let w := kEntry e
  let p := tExt w 1 / 64
  engEach (fun s r =>
    engThen (engRead q e (tConstant w) s (tensorVa w (rowOffset w (64 * (pg % p) + r) (pg / p) 0)) (packedBytes (tFmt w) 128))
      fun s bs => (s, .ok (unpack (tFmt w) 128 bs))) (List.range 64) s

/-- KRST. -/
def krstCapture (q : Nat) (e : RingEntry) (s : State) : Eng EngOut :=
  let w := kEntry e
  engThen (engEach (fun s pg =>
    engThen (pageRows q e pg s) fun s rows =>
      (s, .ok (stagedAt 0 (summaryVa w pg) (summaryOf (tFmt w) rows) 15))) (kPages e) s) fun s ws =>
    engThen (keyRegister (s.slot q).ctx (fieldOf (e.reg 0) 11 0) w s) fun s _ =>
      (s, .ok { EngOut.empty with writes := joinWrites ws })

/-- The capture of a key command. -/
def keyCapture (q : Nat) (e : RingEntry) (s : State) : Eng EngOut :=
  match e.fn with
  | 0 => kbndCapture q e s
  | 1 => kselCapture q e s
  | _ => krstCapture q e s

end Sys2Proof.Machine
end

