-- ==== Sys2Proof/Machine/Twe.lean ====
section
/-! DEFINITION. The tile-walk engine (R296, R297), the stack gather unit (R300, R301) and the copy engine
(R302 to R304): acceptance and capture. -/

namespace Sys2Proof.Machine

/-! ### Counters at DONE (R295) -/

/-- The counter of a command, tested at acceptance (R51, R295). -/
def engCounter (q : Nat) (re : RingEntry) (v : Word) (s : State) : Eng (Option (Nat × Word)) :=
  let va := va57 (low57 v &&& ~~~0xF)
  if va = 0 then (s, .ok none)
  else
    match counterLoc s (s.engWho q re) va .write with
    | (s1, .ok l) => (s1, .ok (some (l.key, va)))
    | (s1, .error f) => (s1, .error (.fault f .write va))

/-- The bits that a counter register may have set. -/
def counterBits : Word := 0x01FFFFFFFFFFFFF0

/-! ### The tile-walk engine -/

/-- Whether no reserved bit of TWMASK, TWCTL and TWCNT is set (R296). -/
def twRegsOk (e : RingEntry) : Bool :=
  e.reg 0 &&& ~~~0xFFFF == 0 && e.reg 1 &&& ~~~0x3 == 0 && e.reg 2 &&& ~~~counterBits == 0

/-- The tensor tile of a command. -/
def twTile (e : RingEntry) (s : State) : Eng EngArg :=
  match parseRef e.valA, parseRef e.valB with
  | some (.tensor tid t0 t1 t2 t3), some (.slot _ _) =>
    let w := e.ent tid
    engMust (indexFits w t1 t2 t3) s fun s => (s, .ok (.tensor w t0 t1 t2 t3 (tileForm w)))
  | _, _ => engIll s

/-- Whether the blocks of a tile inside the extents fall in one superscale group (R297). -/
def oneGroup (a : EngArg) : Bool :=
  let gs := (a.blockNames.filter (·.2)).map fun p => p.1 / 256
  gs.all (· == gs.headD 0)

/-- Whether the engine takes the shape of a tile (R72): whole groups of four where it is compressed, whole
blocks where it is scaled. (DEDUCED: log entry 22.) -/
def twShapeOk (a : EngArg) : Bool :=
  let t := a.form
  match a with
  | .tensor e _ _ _ _ _ =>
    let unit := if t.hasScales then blockLen t.fmt else if t.sparse then 4 else 1
    t.cols % unit == 0 && tExt e 0 % unit == 0 && !(t.sparse && t.fmt == 7) && (t.fmt != 7 || oneGroup a)
  | .slot _ _ _ => false

/-- The instance of TWMC's handle on a tile of the cluster. -/
def twPeer (q h need : Nat) (s : State) (tile : Nat) : Eng CbKey :=
  match (s.slot q).lrec.bind fun l => s.cbLowest tile l h with
  | none => engOpen s eCb 0
  | some c => engCb (c.hasProducer && c.pstage == 0 && decide (need ≤ c.slotBytes)) s fun s => engPeer c s fun s => (s, .ok c.key)

/-- Acceptance of a TWE command (R297, R305), its tensor entry being captured. (DEDUCED: log entry 22.) -/
def twAccept (q : Nat) (e : RingEntry) (s : State) : Eng Accepted :=
  engMust (twRegsOk e && !(e.fn == 1 && e.reg 0 == 0)) s fun s =>
  engThen (twTile e s) fun s a =>
  engMust (twShapeOk a) s fun s =>
    let h := fieldOf e.valB 3 0
    let k := fieldOf e.valB 11 4
    let need := a.form.slotNeed
    let done (need : List CbKey) (s : State) : Eng Accepted :=
      engThen (engCounter q e (e.reg 2) s) fun s c => (s, .ok ⟨need, c⟩)
    match e.fn with
    | 0 => engThen (slotDest q h k need a.form s) fun s d => done d.need s
    | 1 =>
      engCb (k == 0) s fun s =>
        let tiles := ((List.range 16).filter fun i => (e.reg 0).getLsbD i).map fun i => 16 * clusterOf q + i
        engThen (engEach (twPeer q h need) tiles s) fun s ks => done ks s
    | _ =>
      let constant := match a with | .tensor w _ _ _ _ _ => tConstant w | .slot _ _ _ => false
      if constant then engOpen s eProt 0x05
      else engThen (slotSource q h k ((e.reg 1).getLsbD 0) a.form s) fun s _ => done [] s

/-- The writes of a captured tile to the slots for which a command holds permits (R181, R204, R297). -/
def slotWrites (s : State) (re : RingEntry) (c : Captured) : List StagedWrite :=
  re.permits.flatMap fun p =>
    match s.cbAt p.1 with
    | some d =>
      (c.layout (c.supers.headD 0)).mapIdx fun i w => stagedAt (d.slotKey p.2 + w.1) 0 w.2 (if i = 0 then c.form.fmt else 15)
    | none => []

/-- The writes of a slot's tile to a tensor (R180, R204, R297). -/
def tensorWrites (re : RingEntry) (a : EngArg) (c : Captured) : List StagedWrite :=
  match a with
  | .slot _ _ _ => []
  | .tensor e t0 t1 t2 t3 t =>
    let half (n : Nat) : Nat := if t.sparse then n / 2 else n
    let i0 := t0 * t.cols
    let n := min t.cols (tExt e 0 - i0)
    let inside (i1 : Nat) : Bool :=
      decide (i1 < tExt e 1) && decide (t2 < tExt e 2) && decide (t3 < tExt e 3) && decide (i0 < tExt e 0)
    let row (i1 : Nat) (es xs : List Nat) : List StagedWrite :=
      let va := tensorVa e (rowOffset e i1 t2 t3)
      if !inside i1 then []
      else
        bitsWrite va (half i0 * fmtBits t.fmt) (fmtBits t.fmt) t.fmt (es.take (half n)) ++
          (if t.sparse then
            bitsWrite (va + BitVec.ofNat 64 (up64 (packedBytes t.fmt (tExt e 0 / 2)))) i0 4 15 (xs.take (n / 4))
          else [])
    let xs := chunks (t.cols / 4) t.rows c.index
    joinWrites ((chunks (half t.cols) t.rows c.elems).mapIdx fun r l =>
        row (t1 * t.rows + r) l (xs.getD r [])).flatten ++
      (if t.hasScales then
        a.scaleWrites re c.scales (if t.fmt = 7 then some (c.supers.headD 0) else none)
      else [])

/-- The capture of a TWE command (R297). -/
def tweCapture (q : Nat) (e : RingEntry) (s : State) : Eng EngOut :=
  engThen (twTile e s) fun s a =>
    if e.fn = 2 then
      engThen (slotSource q (fieldOf e.valB 3 0) (fieldOf e.valB 11 4) false a.form s) fun s b =>
      engThen (b.capture q e s) fun s c =>
        (b.free ((e.reg 1).getLsbD 0) (s.entryPts q e) s, .ok { EngOut.empty with writes := tensorWrites e a c })
    else
      engThen (a.capture q e s) fun s c => (s, .ok { EngOut.empty with writes := slotWrites s e c })

/-- Whether a TWLD is offered to the combining node (R297). -/
def twOffered (e : RingEntry) : Bool := e.eng == 2 && e.fn == 0 && !(e.reg 1).getLsbD 1

/-- The request of a TWLD at the combining node (R298). -/
def twRequest (s : State) (q : Nat) (e : RingEntry) : CombineReq :=
  ⟨q, e.seq, fieldOf e.valA 61 50, fieldOf e.valA 47 0, (s.slot q).ctx, fieldOf e.valB 3 0, tileOf q % 16, e.round⟩

/-! ### The stack gather unit -/

/-- Whether no reserved bit of SGTID, SGCTL and SGCNT is set (R300). -/
def sgRegsOk (e : RingEntry) : Bool :=
  e.reg 0 &&& ~~~0xFFF == 0 && e.reg 1 &&& ~~~0x1 == 0 && e.reg 2 &&& ~~~counterBits == 0

/-- The entry of the tensor gathered from. -/
def sgEntry (e : RingEntry) : List Word := e.ent (fieldOf (e.reg 0) 11 0)

/-- Where page pg of a tensor begins (R301). -/
def sgPage (w : List Word) (pg : Nat) : Word :=
  let p := tExt w 1 / 64
  tensorVa w (64 * (64 * (pg % p) * tStr1 w + pg / p * tStr2 w))

/-- Whether a tensor may be gathered from (R301), but for where it lies. -/
def sgTensorOk (w : List Word) : Bool :=
  !(tScaled w && (scalable (tFmt w) || tFmt w == 7)) && tSpar w == 0 && (tRank w == 2 || tRank w == 3) &&
    tExt w 1 % 64 == 0

/-- The list and the destination of an SGG. -/
def sgArgs (q : Nat) (e : RingEntry) (s : State) : Eng (EngArg × EngArg) :=
  match parseRef e.valA, parseRef e.valB with
  | some (.slot h k), some (.slot g j) =>
    let list : TileForm := ⟨8, false, false, 1, 4⟩
    engThen (slotSource q h k ((e.reg 1).getLsbD 0) list s) fun s a =>
    engThen (slotDest q g j (4096 * tStr1 (sgEntry e)) list s) fun s b => (s, .ok (a, b))
  | _, _ => engIll s

/-- Acceptance of SGG (R301, R305), its tensor entry being captured. (DEDUCED, DESIGN CHOICE: log entries 23, 100.) -/
def sgAccept (q : Nat) (e : RingEntry) (s : State) : Eng Accepted :=
  let w := sgEntry e
  engMust (sgRegsOk e && sgTensorOk w) s fun s =>
  engThen (sgArgs q e s) fun s _ =>
    match resolve s (s.engWho q e) (tensorVa w 0) 64 .read with
    | (s1, .error f) => (s1, .error (.fault f .read (tensorVa w 0)))
    | (s1, .ok l) =>
      engMust (match homeOf l.key with | .dram _ => true | _ => false) s1 fun s =>
        engThen (engCounter q e (e.reg 2) s) fun s c => (s, .ok ⟨[], c⟩)

/-- Whether the bytes of a page may be read (R305), before any is. (DEDUCED: log entry 23.) -/
def sgCheck (q : Nat) (e : RingEntry) (s : State) (pg : Nat) : Eng Unit :=
  let w := sgEntry e
  engThen (engEach (fun s (p : Word × Nat × Nat) =>
    match resolve s (s.engWho q e) p.1 p.2.2 .read with
    | (s1, .error f) => (s1, .error (.fault f .read p.1))
    | (s1, .ok l) =>
      if s1.homeFenced (s1.slot q).ctx l.key then engBad s1 eFenced 0 p.1 else (s1, .ok ()))
    (pagePieces (sgPage w pg) (4096 * tStr1 w)) s) fun s _ => (s, .ok ())

/-- The capture of SGG: the list, whose pages are then gathered one by one (R301). (DEDUCED: log entry 23.) -/
def sguCapture (q : Nat) (e : RingEntry) (s : State) : Eng EngOut :=
  let w := sgEntry e
  engThen (sgArgs q e s) fun s p =>
    match p.1 with
    | .slot c k _ =>
      sourceIx c.key k s fun s c ix =>
        engThen (slotRead q e s c ix 0 c.slotBytes) fun s bs =>
          let n := leNat (bs.take 4) % 2 ^ 31
          engCb (decide (n ≤ c.slotBytes / 4 - 1)) s fun s =>
            let pages := (List.range n).map fun i => leNat ((bs.drop (4 + 4 * i)).take 4)
            let good := pages.takeWhile fun pg => decide (pg < keyPages w)
            engThen (engEach (sgCheck q e) good s) fun s _ =>
              (s, .ok { EngOut.empty with regs := pages.map fun pg => (16, BitVec.ofNat 64 pg) })
    | .tensor _ _ _ _ _ _ => engIll s

/-- The next page of an SGG at its result (R301): E_ILL beyond the page count; else its permit, once a slot is
free; then its bytes and its fill. The answer is the entry as it then stands. (DEDUCED: log entry 93.) -/
def sguPage (q : Nat) (e : RingEntry) (pg : Nat) (s : State) : Eng RingEntry :=
  let w := sgEntry e
  match e.permits with
  | [] =>
    engMust (decide (pg < keyPages w)) s fun s =>
    engThen (sgArgs q e s) fun s p =>
      match p.2 with
      | .slot d _ _ =>
        if d.free = 0 then (s, .ok e)
        else
          let (s1, ix) := s.cbPermitTake d
          (s1, .ok { e with permits := [(d.key, ix)] })
      | .tensor _ _ _ _ _ _ => engIll s
  | (k, ix) :: _ =>
    engThen (engRead q e (tConstant w) s (sgPage w pg) (4096 * tStr1 w)) fun s bs =>
      match s.cbAt k with
      | none => engOpen s eCb 0
      | some d =>
        if s.anyBad (d.slotKey ix) bs.length then engOpen (s.detect (some q) (d.slotKey ix) bs.length) eAbort 0x02
        else
          let (s1, ts) := s.bulkWrite (d.slotKey ix) bs (tFmt w) e.pts
          (s1.cbFill k ix ts, .ok { e with permits := [], lines := [], stagedRegs := e.stagedRegs.drop 1 })

/-- The list slot freed at the end of an SGG with LR = 1 (R64, R301). -/
def sguEnd (q : Nat) (e : RingEntry) (s : State) : Eng Unit :=
  if (e.reg 1).getLsbD 0 then
    match s.cbFor q (fieldOf e.valA 3 0) with
    | some c => engCb (decide (1 ≤ c.filled)) s fun s => (s.cbConsume c 1 e.pts, .ok ())
    | none => engOpen s eCb 0
  else (s, .ok ())

/-! ### The copy engine -/

/-- The window rule for a range of a copy (R303). (DEDUCED: log entry 94.) -/
def rangeRule (va : Word) (n : Nat) : Option XFault :=
  let v := va.toNat
  let fin := v + n
  let ctrl := 0xFFFFFFFFFFE00000
  if v < ctrl + 0x1000 ∧ ctrl < fin then some (xf eProt 0x05)
  else if windowFloor ≤ v then
    match windowOf v with
    | some w => if w.1 + w.2 < fin then some (xf eXlat 0x04) else none
    | none => some (xf eXlat 0x04)
  else if windowFloor < fin then some (xf eProt 0x05)
  else none

/-- A range of a copy, translated and checked whole at acceptance (R303). -/
def rangeCheck (q : Nat) (e : RingEntry) (va : Word) (n : Nat) (a : Access) (s : State) : Eng Unit :=
  if n = 0 then (s, .ok ())
  else
    match rangeRule va n with
    | some f => (s, .error (.fault f a va))
    | none =>
      engThen (engEach (fun s (p : Word × Nat × Nat) =>
        match resolve s (s.engWho q e) p.1 p.2.2 a with
        | (s1, .error f) => (s1, .error (.fault f a p.1))
        | (s1, .ok l) =>
          if s1.homeFenced (s1.slot q).ctx l.key then (s1, .error (.fault (xf eFenced 0) a p.1))
          else
            match homeOf l.key with
            | .reg _ => (s1, .error (.fault (xf eAlign 0) a p.1))
            | _ => (s1, .ok ())) (pagePieces va n) s) fun s _ => (s, .ok ())

/-- Acceptance of a copy command (R303, R305). (DEDUCED: log entry 65.) -/
def copyAccept (q : Nat) (e : RingEntry) (s : State) : Eng Accepted :=
  let n := (e.reg 0).toNat
  engMust (e.reg 0 &&& ~~~0xFFFFFFFF == 0 && e.reg 1 &&& ~~~counterBits == 0) s fun s =>
  engThen (rangeCheck q e e.valA n .write s) fun s _ =>
  engThen (if e.fn = 0 then rangeCheck q e e.valB n .read s else (s, .ok ())) fun s _ =>
  engThen (engCounter q e (e.reg 1) s) fun s c => (s, .ok ⟨[], c⟩)

/-- The next line of a BCOPY whose ranges do not overlap, read and then written (R304): the bytes copied. -/
def copyStep (q n : Nat) (e : RingEntry) (s : State) : Eng Nat :=
  let off := BitVec.ofNat 64 e.progress
  let w := stagedAt 0 (e.valA + off) [] 15
  let u := unitAt w
  let k := min ((e.reg 0).toNat - e.progress) (u - w.va.toNat % u)
  engThen (engRead q e false s (e.valB + off) k) fun s bs =>
    engThen (engWrite q n e s { w with data := bs }) fun s _ => (s, .ok k)

/-- The capture of a copy command: where the ranges of a BCOPY overlap the whole source is read before any byte
is written (R304); where they do not, nothing is read yet. (DEDUCED: log entry 27.) -/
def copyCapture (q : Nat) (e : RingEntry) (s : State) : Eng EngOut :=
  let n := if copyByLines q e then 0 else (e.reg 0).toNat
  let out (s : State) (bs : List Byte) : Eng EngOut :=
    (s, .ok { EngOut.empty with writes := if n = 0 then [] else [stagedAt 0 e.valA bs 15] })
  if e.fn = 0 then engThen (if n = 0 then (s, .ok []) else engRead q e false s e.valB n) out
  else
    out s ((List.range n).map fun i => (wordBytes e.valB).getD ((e.valA.toNat + i) % 8) 0)

end Sys2Proof.Machine
end

