-- ==== Sys2Proof/Machine/Engine.lean ====
section
/-! DEFINITION. The coprocessor instructions (R87 to R90, R226 to R229) and the life of a command: its
acceptance with its permits, its capture, its result phase, DONE, its fault and the trap (R190, R299,
R389, R430, R470). -/

namespace Sys2Proof.Machine

/-! ### Dispatch -/

/-- A tensor entry as it can be had at dispatch: from the cluster's cache, or from the table, of another package through a
line that the slot has asked for. The error names such a line that has still to be asked for, and none where the entry
cannot be read. -/
def State.peekEnt (s : State) (q t : Nat) : Except (Option Nat) (List Word) :=
  let x := (s.slot q).ctx
  match s.tidCached (clusterOf q) x t with
  | some ws => .ok ws
  | none =>
    match resolve s { s.who q with level := 1 } (s.reg (ttbaseOff x) + BitVec.ofNat 64 (32 * t)) 32 .read with
    | (s1, .ok l) =>
      if isFar l.key then
        match findAt s1.hubLines (ownKey q (l.key / 128 * 128)) with
        | some (_, bs) =>
          if bs.length = 128 then .ok ((chunks 8 4 ((bs.drop (l.key % 128)).take 32)).map fun b => BitVec.ofNat 64 (leNat b))
          else .error none
        | none => .error (some (l.key / 128 * 128))
      else if s1.anyBad l.key 32 then .error none
      else .ok (s1.mem.words l.key 4)
    | _ => .error none

/-- Whether a command rounds stochastically, so that it reserves generator steps at its dispatch (R135, R188, R206). -/
def RingEntry.draws (e : RingEntry) : Bool :=
  (e.eng == 1 && e.fn != 4 && cvMode e == 4) || (e.eng == 0 && e.fn == 6 && e.rm == 4)

/-- The lines of another package that the dispatch of a command needs, for the tile shapes of its tensors.
(DESIGN CHOICE: log entry 87.) -/
def State.shapeLines (s : State) (q : Nat) (e : RingEntry) : List Nat :=
  if e.draws then
    (refTid e.valA ++ refTid e.valB).filterMap fun t => match s.peekEnt q t with | .error (some k) => some k | _ => none
  else []

/-- The entry with the tensor entries its references name. (DESIGN CHOICE: log entry 87.) -/
def State.peekEnts (s : State) (q : Nat) (e : RingEntry) : RingEntry :=
  { e with ents := (refTid e.valA ++ refTid e.valB).filterMap fun t =>
      match s.peekEnt q t with | .ok ws => some (t, ws) | .error _ => none }

/-- The elements whose generator steps a command reserves at its dispatch (R135, R188, R206): those of a conversion of
integers to integers too, and none for an MST known to write FP32 words. A conversion whose tensor entry cannot be read
reserves for CSHAPE. (DESIGN CHOICE: log entry 87.) -/
def State.cmdElements (s : State) (q : Nat) (e : RingEntry) : Nat :=
  let p := s.peekEnts q e
  let known (v : Word) : Bool := (refTid v).all fun t => !(p.ent t).isEmpty
  if !e.draws then 0
  else if e.eng = 1 then
    let z := cvShape { p with valA := if known e.valA then e.valA else 0, valB := if known e.valB then e.valB else 0 }
    z.1 * z.2
  else if known e.valA ∧ (p.refForm e.valA (mmAccForm e)).fmt = 0 then 0
  else 1024

/-- A command of an engine is dispatched (R88, R89, R96): it waits for its ring entry (R90), for the masks of RA and RB
(R267) and, where it reserves generator steps, for the shapes of its tensors (R135); then it goes on by itself.
(DESIGN CHOICE: log entry 87.) -/
def dispatchThen (i : Instr) (a b : BitVec 5) (next : Nat → Nat → State → State) (s : State) : Result :=
  issue i s fun q s =>
    let x := s.slot q
    if x.ringFull ∨ !(x.satisfied (x.smask a) && x.satisfied (x.smask b)) then .next s
    else
      let e := x.newEntry ((encode i).getD 0) (x.sreg a) (x.sreg b) s.nextId
      match s.shapeLines q e with
      | k :: _ => if s.ownAsked q then .next s else .next (s.askLine q ownRead x.pts k)
      | [] =>
        let n := s.cmdElements q e
        let s1 := { s with hubLines := s.hubLines.filter fun (l : Nat × Nat × List Byte) => l.1 / 2 ^ 50 ≠ q + 1 }
        .next (next q e.seq (s1.useId.modSlot q fun x =>
          { x.addEntry e with srseed := if n = 0 then x.srseed else seedAfter n x.srseed }.advance))

/-- A command dispatched, whose next step is due. (DEDUCED: log entry 26.) -/
def dispatchCmd (i : Instr) (a b : BitVec 5) (next : Nat → Nat → Event) (s : State) : Result :=
  dispatchThen i a b (fun q n s => s.push (next q n)) s

/-- MMA (R202). -/
def execMma (a b : BitVec 5) (k : BitVec 4) (s : State) : Result := dispatchCmd (.mma a b k) a b .cbPermit s

/-- MMAG (R203). -/
def execMmag (a b : BitVec 5) (m : BitVec 1) (c : BitVec 2) (s : State) : Result :=
  dispatchCmd (.mmag a b m c) a b .cbPermit s

/-- MMAS (R204). -/
def execMmas (a b : BitVec 5) (k : BitVec 4) (s : State) : Result := dispatchCmd (.mmas a b k) a b .cbPermit s

/-- MROT (R205). -/
def execMrot (a b : BitVec 5) (k : BitVec 4) (s : State) : Result := dispatchCmd (.mrot a b k) a b .cbPermit s

/-- MZERO (R206). -/
def execMzero (c : BitVec 2) (s : State) : Result := dispatchCmd (.mzero c) 0 0 .cbPermit s

/-- MLD (R206). -/
def execMld (a : BitVec 5) (m : BitVec 1) (c : BitVec 2) (s : State) : Result :=
  dispatchCmd (.mld a m c) a 0 .cbPermit s

/-- MST (R206). -/
def execMst (a : BitVec 5) (c : BitVec 2) (s : State) : Result := dispatchCmd (.mst a c) a 0 .cbPermit s

/-- CVT (R184). -/
def execCvt (a b : BitVec 5) (m : BitVec 1) (r : BitVec 3) (s : State) : Result :=
  dispatchCmd (.cvt a b m r) a b .cbPermit s

/-- CVB (R184). -/
def execCvb (a b : BitVec 5) (m : BitVec 1) (r : BitVec 3) (s : State) : Result :=
  dispatchCmd (.cvb a b m r) a b .cbPermit s

/-- CVQ (R184, R186). -/
def execCvq (a b : BitVec 5) (m : BitVec 1) (r : BitVec 3) (s : State) : Result :=
  dispatchCmd (.cvq a b m r) a b .cbPermit s

/-- CVQN (R184). -/
def execCvqn (a b : BitVec 5) (m : BitVec 1) (r : BitVec 3) (s : State) : Result :=
  dispatchCmd (.cvqn a b m r) a b .cbPermit s

/-- CVQNQ (R184, R187). -/
def execCvqnq (a b : BitVec 5) (m : BitVec 1) (r : BitVec 3) (s : State) : Result :=
  dispatchCmd (.cvqnq a b m r) a b .cbPermit s

/-- CVTR (R184). -/
def execCvtr (a b : BitVec 5) (m : BitVec 1) (r : BitVec 3) (s : State) : Result :=
  dispatchCmd (.cvtr a b m r) a b .cbPermit s

/-- TWLD (R297). -/
def execTwld (a b : BitVec 5) (k : BitVec 2) (s : State) : Result := dispatchCmd (.twld a b k) a b .cbPermit s

/-- TWMC (R297). -/
def execTwmc (a b : BitVec 5) (k : BitVec 2) (s : State) : Result := dispatchCmd (.twmc a b k) a b .cbPermit s

/-- TWST (R297). -/
def execTwst (a b : BitVec 5) (k : BitVec 2) (s : State) : Result := dispatchCmd (.twst a b k) a b .cbPermit s

/-- KBND (R221). -/
def execKbnd (a b : BitVec 5) (k : BitVec 2) (s : State) : Result := dispatchCmd (.kbnd a b k) a b .cbPermit s

/-- KSEL (R223). -/
def execKsel (a b : BitVec 5) (k : BitVec 2) (s : State) : Result := dispatchCmd (.ksel a b k) a b .cbPermit s

/-- KRST (R224). -/
def execKrst (k : BitVec 2) (s : State) : Result := dispatchCmd (.krst k) 0 0 .cbPermit s

/-- SGG (R301). -/
def execSgg (a b : BitVec 5) (k : BitVec 2) (s : State) : Result := dispatchCmd (.sgg a b k) a b .cbPermit s

/-- BCOPY (R303). -/
def execBcopy (a b : BitVec 5) (k : BitVec 2) (s : State) : Result := dispatchCmd (.bcopy a b k) a b .cbPermit s

/-- BFILL (R303). -/
def execBfill (a b : BitVec 5) (k : BitVec 2) (s : State) : Result := dispatchCmd (.bfill a b k) a b .cbPermit s

/-! ### Engine registers -/

/-- Whether an engine register is read-only (R182, R198, R219, R226, R231, R296, R300, R302). -/
def roEngReg (eng r : Nat) : Bool :=
  match eng, r with
  | 0, 3 => true | 1, 4 => true | 2, 3 => true | 3, 6 => true | 3, 7 => true | 4, 3 => true | 5, 1 => true
  | 6, 3 => true | 6, 4 => true | 6, 5 => true | 6, 6 => true | 7, 2 => true
  | _, _ => false

/-- A coprocessor instruction that is DONE at once takes its sequence number (R89, R90). -/
def Slot.passEntry (x : Slot) (w : InstrWord) (a : Word) : Slot :=
  (x.addEntry { x.newEntry w a 0 0 with phase := 3 }).reapRing

/-- ESET (R87, R88). Bits that a register's table leaves reserved are kept, so that a command can trap on them, but for
those of TCDG, which no command tests. (DEDUCED, DESIGN CHOICE: log entries 26, 88.) -/
def execEset (a : BitVec 5) (e : BitVec 4) (r : BitVec 8) (k : BitVec 4) (s : State) : Result :=
  issue (.eset a e r k) s fun q s =>
    let x := s.slot q
    if x.ringFull then .next s
    else
      complete q s fun x =>
        let y := x.passEntry ((encode (.eset a e r k)).getD 0) (x.sreg a)
        if roEngReg e.toNat r.toNat then y
        else { y with eset := putAt y.eset (esetKey e.toNat k.toNat r.toNat) (x.sreg a &&& engRegMask e.toNat r.toNat) }

/-- The value that an EGET reads (R87): a register of the set as it stood at the EGET, or, of a read-only register, as
it stands once the earlier commands are DONE; TCDV is read from the directory of the issuing tile (R226).
(DESIGN CHOICE: log entry 88.) -/
def State.engRegValue (s : State) (q : Nat) (e : RingEntry) : Word :=
  if e.eng = 5 ∧ e.fn = 1 then (s.tcdEntry (tileOf q) (fieldOf (e.reg 0) 6 0)).setWidth 64
  else if roEngReg e.eng e.fn then (s.slot q).ereg e.eng (wordSet e.word) e.fn
  else e.reg e.fn &&& engReadMask e.eng e.fn

/-- Whether an EGET may still have to wait: an earlier command of its engine is not DONE (R88). -/
def State.egetWaits (s : State) (q : Nat) (e : RingEntry) : Bool :=
  ((s.slot q).olderThan e).any fun f => wordIsCmd f.word && f.eng == e.eng && !f.isDone

/-- An EGET completes (R88, R97): its register holds the value, with a mask of zero, and its entry is DONE. -/
def State.egetDone (s : State) (q : Nat) (e : RingEntry) : State :=
  s.modSlot q fun x =>
    ((x.setS ((egetDest e.word).getD 0) (s.engRegValue q e) Taint.none).setEntry { e with phase := 3 }).reapRing

/-- EGET (R87, R88, R96, R97): it takes its ring entry and retires; its register is written at once, or once every
earlier command of the engine is DONE. -/
def execEget (d : BitVec 5) (e : BitVec 4) (r : BitVec 8) (k : BitVec 4) (s : State) : Result :=
  issue (.eget d e r k) s fun q s =>
    let x := s.slot q
    if x.ringFull then .next s
    else
      let f := x.newEntry ((encode (.eget d e r k)).getD 0) (x.sreg d) 0 s.nextId
      let s1 := s.useId.modSlot q fun x => (x.addEntry f).advance
      if s1.egetWaits q f then .next (s1.push (.engineDone q f.seq)) else .next (s1.egetDone q f)

/-! ### The table unit (R226 to R229) -/

/-- A table command: it waits for its ring entry and its mask, and either completes or traps precisely,
its entry being DONE in both cases (R227, R229). `body` gives the state after its effect, a fault with
STVAL, or none where it must wait. -/
def tableCmd (i : Instr) (a : BitVec 5) (body : Nat → Word → State → Option (Eng Unit)) (s : State) : Result :=
  issue i s fun q s =>
    let x := s.slot q
    if x.ringFull ∨ !x.satisfied (x.smask a) then .next s
    else
      match body q (x.sreg a) s with
      | none => .next s
      | some (s1, r) =>
        let s2 := s1.modSlot q fun x => x.passEntry ((encode i).getD 0) (x.sreg a)
        match r with
        | .ok _ => complete q s2 fun x => x
        | .error (.fault f _ t) =>
          if f.cause = eAbort then .next (s2.consume q i t) else .next (s2.trapAt q i f.cause f.reason t)
        | .error (.need _ _ _) => .next s1

/-- The TID of a table command, tested (R229). -/
def tableTid (q : Nat) (v : Word) (s : State) (k : State → Nat → Eng Unit) : Eng Unit :=
  if v &&& ~~~0xFFF ≠ 0 then engIll s
  else if !s.tidInWindow q v.toNat then engOpen s eProt 0x05
  else k s v.toNat

/-- The words of a table entry as a load of the activation reads them (R227); it may have to wait. -/
def tableLoad (q tid : Nat) (s : State) : Eng (List Word) :=
  let va := s.reg (ttbaseOff (s.slot q).ctx) + BitVec.ofNat 64 (32 * tid)
  match s.slotWords q va 4 with
  | (s1, .wait) => (s1, .error (.need 0 0 false))
  | (s1, .fault f) => (s1, .error (.fault f .read va))
  | (s1, .words ws _) => (s1, .ok ws)

/-- Whether the slot has a store that memory does not hold yet; a table load waits behind it. -/
def State.storesOut (s : State) (q : Nat) : Bool :=
  s.dirty.any (fun w => w.thread == q) || s.outWrites.any fun w => w.thread == q

/-- A TIDINV or TIDLD of a context completes: what commands of the context have read of the tensor table by then is theirs
alone (R228). -/
def State.tidChanged (s : State) (x : Nat) : State :=
  let mark (y : Slot) : Slot := { y with ring := y.ring.map fun r => (r.1, { r.2 with stale := true }) }
  { s with slots := s.slots.map fun e => (e.1, if e.2.ctx = x then mark e.2 else e.2) }

/-- TIDLD (R227). -/
def execTidld (a : BitVec 5) (s : State) : Result :=
  tableCmd (.tidld a) a (fun q v s =>
    if s.storesOut q then some (s.drainThread q, .error (.need 0 0 false))
    else
      some (tableTid q v s fun s t =>
        engThen (tableLoad q t s) fun s ws =>
          ((s.tidChanged (s.slot q).ctx).tidKeep (clusterOf q) (s.slot q).ctx t ws, .ok ()))) s

/-- TIDINV (R227). -/
def execTidinv (a : BitVec 5) (s : State) : Result :=
  tableCmd (.tidinv a) a (fun q v s =>
    some (tableTid q v s fun s t =>
      let x := (s.slot q).ctx
      let s1 := s.tidChanged x
      ({ s1 with tids := s1.tids.filter (fun e => !(e.ctx == x && e.tid == t)),
                 keyRanges := s1.keyRanges.filter fun r => !(r.ctx == x && r.tid == t) }, .ok ()))) s

/-- TCLS (R211, R227): the slot's own earlier stores are performed first. -/
def execTcls (a : BitVec 5) (s : State) : Result :=
  tableCmd (.tcls a) a (fun q v s =>
    if s.storesOut q then some (s.drainThread q, .error (.need 0 0 false)) else
    let f := fieldOf v 6 0
    let n := fieldOf v 14 8 + 1
    let tag := fieldOf v 19 16
    if v &&& ~~~0xF7F7F ≠ 0 ∨ (0xC ≤ tag ∧ tag ≠ 0xF) ∨ 128 < f + n then some (engIll s)
    else
      some ((List.range n).foldl (fun s i =>
        s.setTcd (tileOf q) (f + i)
          (classifyFull (s.mem.readBytes (padKey (tileOf q) (1024 * (f + i))) 1024) tag (f + i))) s, .ok ())) s

/-! ### Acceptance and permits -/

/-- The TIDs that a command names. -/
def RingEntry.tids (e : RingEntry) : List Nat :=
  match e.eng with
  | 3 => fieldOf (e.reg 0) 11 0 :: (if e.fn = 0 then refTid e.valA else [])
  | 4 => [fieldOf (e.reg 0) 11 0]
  | 7 => []
  | 0 => if e.fn = 4 then [] else refTid e.valA ++ (if e.fn ≤ 3 then refTid e.valB else [])
  | _ => refTid e.valA ++ refTid e.valB

/-- The entry that a command captures for a TID (R68, R228): from a table in another package, through a
line the command has read. -/
def captureTid (q : Nat) (e : RingEntry) (s : State) (tid : Nat) : Eng (Nat × List Word) :=
  let x := (s.slot q).ctx
  let va := s.reg (ttbaseOff x) + BitVec.ofNat 64 (32 * tid)
  match resolve s { s.who q with level := 1 } va 32 .read with
  | (s1, .ok l) =>
    if isFar l.key && s.tidInWindow q tid then
      match (if e.lines.isEmpty then s1.tidHeld (clusterOf q) x tid else (s1, none)) with
      | (s2, some ws) => engTid q tid (s2, tidChecked ws)
      | (s2, none) =>
        match e.fromUnits va l.key 32 false with
        | .ok bs =>
          let ws := (chunks 8 4 bs).map fun b => BitVec.ofNat 64 (leNat b)
          engTid q tid (if e.stale then s2 else s2.tidKeep (clusterOf q) x tid ws, tidChecked ws)
        | .error h => (s2, .error h)
    else engTid q tid (s1.tidUse q tid)
  | (_, .error _) => engTid q tid (s.tidUse q tid)

/-- The tests at acceptance of an engine. -/
def engTests (q : Nat) (e : RingEntry) (s : State) : Eng Accepted :=
  let plain (r : Eng (List CbKey)) : Eng Accepted := engThen r fun s ks => (s, .ok ⟨ks, none⟩)
  match e.eng with
  | 0 => plain (mmAccept q e s)
  | 1 => plain (cvAccept q e s)
  | 2 => twAccept q e s
  | 3 => plain (keyAccept q e s)
  | 4 => sgAccept q e s
  | _ => copyAccept q e s

/-- Acceptance: references whose KIND or reserved bits are wrong, then the tensor entries, then the
engine's tests. -/
def engAccept (q : Nat) (e : RingEntry) (s : State) : Eng (RingEntry × Accepted) :=
  engThen (if e.ents = [] then engEach (captureTid q e) e.tids s else (s, .ok e.ents)) fun s es =>
    let e1 := { e with ents := es }
    engThen (engTests q e1 s) fun s a => (s, .ok ({ e1 with count := a.count }, a))

/-- The other slots of a slot's core. -/
def coreMates (q : Nat) : List Nat := ((List.range 4).map (4 * coreOf q + ·)).filter (· ≠ q)

/-- Whether the commands of an engine of an activation stay at DISPATCHED (R470): one has a fault that is not settled, or
its handler has one in hand that could not be replayed. -/
def Slot.engBarred (x : Slot) (eng : Nat) : Bool :=
  x.fatal.contains eng || x.ordered.any fun f => wordIsCmd f.word && f.eng == eng && f.fault.isSome

/-- Whether the command of a slot that is next on an engine came before a command of another slot and has still to be
captured (R189, R208): one that waits for a permit, or for the settlement of a fault, holds nothing back, nor do those
behind it. (DEDUCED: log entry 71.) -/
def Slot.cameFirst (x : Slot) (e : RingEntry) : Bool :=
  let next := x.ordered.find? fun f => wordIsCmd f.word && f.eng == e.eng && f.phase == 0
  !x.halted && !x.engBarred e.eng &&
    match next with
    | some f => decide (f.before < e.before) && !f.parked && !f.suspended
    | none => false

/-- Whether a command may be accepted now: no command of its engine has an unsettled fault (R470), no EGET before it is under
way (R192), and
the earlier ones have come as far as the engine's order asks (R189, R208, R225, R295); the conversion unit and the
matrix unit serve the slots of their core in arrival order (R189, R208). (DEDUCED: log entry 71.) -/
def State.engTurn (s : State) (q : Nat) (e : RingEntry) : Bool :=
  let x := s.slot q
  let older := (x.olderThan e).filter fun f => wordIsCmd f.word && f.eng == e.eng
  !x.engBarred e.eng && !(x.joinsBefore e.before) &&
    !(decide (e.eng ≤ 1) && !e.parked && (coreMates q).any fun r => (s.slot r).cameFirst e) &&
    (match e.eng with
      | 0 => older.all fun f => f.phase != 0 && (f.fn != 6 || f.isDone)
      | 2 => older.all fun f => !(s.agenda.any fun ev => ev == .cbPermit q f.seq)
      | _ => older.all RingEntry.isDone)

/-- Whether a write of a thread older than an identifier has still to be performed. -/
def State.olderOut (s : State) (q before : Nat) : Bool :=
  s.dirty.any (fun w => w.thread == q && decide (w.id < before)) ||
    s.outWrites.any fun w => w.thread == q && decide (w.id < before)

/-- Permits taken one by one, in order, as long as each instance has a free slot (R64, R190, R297): those
the command then holds, and whether it holds them all. -/
def takePermits : List CbKey → RingEntry → State → State × RingEntry × Bool
  | [], e, s => (s, e, true)
  | k :: t, e, s =>
    if e.permits.any fun p => p.1 == k then takePermits t e s
    else
      match s.cbAt k with
      | none => (s, e, false)
      | some c =>
        if c.free = 0 then (s, e, false)
        else
          let (s1, ix) := s.cbPermitTake c
          takePermits t { e with permits := e.permits ++ [(k, ix)] } s1

/-- A step of a command that could not go on: a fault, or bytes to read first. -/
def State.engHalt (s : State) (q n : Nat) (h : EngStop) (again : Event) : State :=
  match h with
  | .fault f a t => s.engStop q n f a t
  | .need k m const => (s.engFetch q n k m const).push again

/-- Whether an entry may take a step of its life: it is at a phase, not faulted and not suspended. -/
def RingEntry.live (e : RingEntry) (phase : BitVec 2) : Bool :=
  e.phase == phase && e.fault.isNone && !e.suspended

/-- A walker command waits at the walker (R230), behind those of its tile that came first. -/
def State.queueWalk (s : State) (q n : Nat) : State :=
  let w := (clusterOf q, q, n)
  State.push { s with walkQueue := if s.walkQueue.contains w then s.walkQueue else s.walkQueue ++ [w] }
    (.walkContextGrant (clusterOf q))

/-- Whether every slot that a walk filled has been counted (R233). -/
def State.walkCounted (s : State) (e : RingEntry) : Bool :=
  e.permits.all fun p => match s.cbAt p.1 with
    | some c => !c.permits.contains (.slot p.2 true)
    | none => true

/-- Whether a walker command that has come to its result phase must still wait (R233): a WSTART for its
slots, a WSTOP for the walks it stopped. -/
def State.walkerWaits (s : State) (q : Nat) (e : RingEntry) : Bool :=
  if e.fn = 0 then !s.walkCounted e
  else ((s.slot q).olderThan e).any fun f =>
    wordIsCmd f.word && f.eng == 6 && f.fn == 0 && wordSet f.word == wordSet e.word && !f.isDone

/-- CB_PERMIT (R64, R66, R190): a command is accepted, behind the activation's own earlier stores (R278), and takes its
permits; then it goes on to its capture, or to the combining node (R297). -/
def execCbPermit (q n : Nat) (s : State) : Result :=
  match (s.slot q).entry n with
  | none => .next s
  | some e =>
    if !e.live 0 then .next s
    else if e.eng = 6 then .next (s.queueWalk q n)
    else if !s.engTurn q e then .next (s.push (.cbPermit q n))
    else if s.olderOut q e.before then .next ((s.drainThread q).push (.cbPermit q n))
    else
      match engAccept q e s with
      | (s1, .error h) => .next (s1.engHalt q n h (.cbPermit q n))
      | (s1, .ok (e1, a)) =>
        let (s2, e2, all) := takePermits a.need e1 s1
        let s3 := s2.modSlot q fun x => x.setEntry { e2 with parked := !all, pts := max e2.pts (((x.entry n).map (·.pts)).getD 0) }
        if !all then .next (s3.push (.cbPermit q n))
        else if twOffered e2 then .next (s3.push (.combiningRequest (twRequest s3 q e2)))
        else .next (s3.push (.engineCapture q n))

/-! ### The combining node (R298, R299) -/

/-- Whether two requests carry the same merge key. -/
def sameFetch (a b : CombineReq) : Bool :=
  a.ctx == b.ctx && a.tid == b.tid && a.coord == b.coord && a.round == b.round

/-- COMBINING_REQUEST (R299): it joins a pending fetch that has not issued, opens one, or waits for one
of the 32 entries. -/
def execCombiningRequest (r : CombineReq) (s : State) : Result :=
  let c := clusterOf r.thread
  let live : Bool := match (s.slot r.thread).entry r.seq with
    | some e => e.live 0
    | none => false
  if !live then .next s
  else
    if (s.slot r.thread).engBarred 2 then .next (s.push (.combiningRequest r))
    else
    let fits (f : Fetch) : Bool := f.cluster == c && !f.issued && f.reqs.any (sameFetch r)
    if s.fetches.any fits then
      .next { s with fetches := s.fetches.map fun f => if fits f then { f with reqs := f.reqs ++ [r] } else f }
    else if 32 ≤ (s.fetches.filter fun f => f.cluster == c).length then .next (s.push (.combiningRequest r))
    else
      let f : Fetch := { cluster := c, reqs := [r], issued := false }
      .next (State.push { s with fetches := s.fetches ++ [f] } (.engineCapture r.thread r.seq))

/-! ### Capture -/

/-- The capture and computation of an engine. -/
def engCapture (q : Nat) (e : RingEntry) (s : State) : Eng EngOut :=
  match e.eng with
  | 0 => matrixCapture q e s
  | 1 => convertCapture q e s
  | 2 => tweCapture q e s
  | 3 => keyCapture q e s
  | 4 => sguCapture q e s
  | _ => copyCapture q e s

/-- A captured command, CAPTURED with what it staged; its result phase follows. MROT's permit is spent
at its capture (R205). -/
def State.engStaged (s : State) (q n : Nat) (o : EngOut) : State :=
  (s.modSlot q fun x =>
    match x.entry n with
    | some e =>
      x.setEntry { e with
        phase := 1, staged := o.writes, stagedAcc := o.acc, stagedRegs := o.regs, flags := o.flags, lines := [],
        permits := if e.eng = 0 ∧ e.fn = 3 then [] else e.permits }
    | none => x).push (.engineResultPhase q n)

/-- The joined requests of a merged fetch whose threads have still to perform stores older than their commands
(R278, R299). -/
def State.joinersOut (s : State) (f : Fetch) : List CombineReq :=
  f.reqs.filter fun r => match (s.slot r.thread).entry r.seq with
    | some d => s.olderOut r.thread d.before
    | none => false

/-- The merged fetch that a request leads. -/
def State.ledBy (s : State) (q n : Nat) : Option Fetch :=
  s.fetches.find? fun f => match f.reqs with
    | r :: _ => r.thread == q && r.seq == n
    | [] => false

/-- The joined requests of a merged fetch whose activations may not have a command captured now (R470). -/
def State.joinersBarred (s : State) (f : Fetch) : List CombineReq := f.reqs.filter fun r => (s.slot r.thread).engBarred 2

/-- A merged fetch without some of its requests: they come to the combining node again, and the first of the others leads. -/
def State.splitFetch (s : State) (f : Fetch) (out : List CombineReq) : State :=
  let rest := f.reqs.filter fun r => !out.contains r
  let s1 := { s with fetches := (s.fetches.map fun g => if g = f then { g with reqs := rest } else g).filter fun g => g.reqs ≠ [] }
  (s1.pushAll (out.map .combiningRequest)).pushAll ((rest.take 1).map fun r => .engineCapture r.thread r.seq)

/-- The greatest pts among the commands that a merged fetch serves. -/
def State.fetchPts (s : State) (f : Fetch) : Nat :=
  f.reqs.foldl (fun p r => max p ((((s.slot r.thread).entry r.seq).map (·.pts)).getD 0)) 0

/-- A merged fetch (R299): its tile is read once, for every joined command, with the greatest of their pts (R278); a fault
goes to each. A request whose activation may have nothing captured leaves it (R470). -/
def State.mergedFetch (s0 : State) (q n : Nat) (e0 : RingEntry) (f : Fetch) : State :=
  let late := s0.joinersOut f
  if s0.joinersBarred f ≠ [] then s0.splitFetch f (s0.joinersBarred f)
  else if late ≠ [] then (late.foldl (fun s r => s.drainThread r.thread) s0).push (.engineCapture q n)
  else
  let s := s0.engSaw q n (s0.fetchPts f)
  let e := ((s.slot q).entry n).getD e0
  let s1 := { s with fetches := s.fetches.map fun g => if g = f then { g with issued := true } else g }
  let gone (s : State) : State := { s with fetches := s.fetches.filter fun g => g.reqs ≠ f.reqs }
  match engThen (twTile e s1) fun s a => a.capture q e s with
  | (s2, .error (.fault x a t)) => f.reqs.foldl (fun s r => s.engStop r.thread r.seq x a t) (gone s2)
  | (s2, .error h) => s2.engHalt q n h (.engineCapture q n)
  | (s2, .ok c) =>
    let pts := s2.entryPts q e
    f.reqs.foldl (fun s r =>
      match (s.slot r.thread).entry r.seq with
      | some d => (s.engSaw r.thread r.seq pts).engStaged r.thread r.seq { EngOut.empty with writes := slotWrites s d c }
      | none => s) (gone s2)

/-- ENGINE_CAPTURE (R90, R278): the activation's own earlier stores drain first; then the operands are
read, marked slots freed and the result computed. (DEDUCED: log entries 27, 71.) -/
def execEngineCapture (q n : Nat) (s : State) : Result :=
  match (s.slot q).entry n with
  | none => .next s
  | some e =>
    if !e.live 0 then .next s
    else
      let s1 := s.drainThread q
      match s1.ledBy q n with
      | some f => .next (s1.mergedFetch q n e f)
      | none =>
        if (s.slot q).engBarred e.eng ∨ s1.olderOut q e.before then .next (s1.push (.engineCapture q n))
        else
          match engCapture q e s1 with
          | (s2, .error h) => .next (s2.engHalt q n h (.engineCapture q n))
          | (s2, .ok o) => .next (s2.engStaged q n o)

/-! ### Result phase and DONE -/

/-- ENGINE_RESULT_PHASE (R82, R90): the result stands in the staging buffer and its flags merge.
(DEDUCED: log entry 27.) -/
def execEngineResultPhase (q n : Nat) (s : State) : Result :=
  match (s.slot q).entry n with
  | none => .next s
  | some e =>
    if !e.live 1 then .next s
    else .next ((s.modSlot q fun x => (x.setEntry { e with phase := 2 }).orFlags e.flags).push (.engineDone q n))

/-- The end of a command whose result is written: its slots are full (R66), its accumulator and registers
hold the result, its engine's count rises and its counter's add is on its way (R295). (DEDUCED: log entry 28.) -/
def State.engFinal (s : State) (q n : Nat) (e : RingEntry) : State :=
  let e := ((s.slot q).entry n).getD e
  let s1 := e.heldPermits.foldl (fun s p => s.cbFill p.1 p.2 e.pts) s
  let s2 := s1.modSlot q fun x =>
    let acc := match e.stagedAcc with
      | some a => putAt x.acc (e.sel % 4) a
      | none => x.acc
    let regs := if e.eng = 3 then
        e.stagedRegs.foldl (fun m r => putAt m (esetKey 3 (e.sel % 4) r.1) r.2) x.eset
      else x.eset
    let poison := if e.stagedAcc.isSome then delAt x.poison (80 + e.sel % 4) else x.poison
    { x with acc := acc, eset := regs, poison := poison }
  let s3 : State := s2.modSlot q fun x =>
    match x.entry n with
    | some d => x.finish { d with permits := [], stagedRegs := if e.eng = 6 then d.stagedRegs else [] }
    | none => x
  match e.count with
  | some (k, va) =>
    s3.useId.push (.counterAddAtHome ⟨s3.nextId, none, none, k, va, 1, [], e.pts, (s3.slot q).ctx, [], .plain⟩)
  | none => s3

/-- The next piece of a command's result (R277), written: whether there was one. (DEDUCED: log entry 27.) -/
def State.engWrites (s : State) (q n : Nat) (e : RingEntry) : Eng Bool :=
  match (e.staged.flatMap writePieces)[e.progress]? with
  | some w =>
    engThen (engWrite q n e s w) fun s _ => (s.pairItem q ⟨1, e.pc, w.va :: BitVec.ofNat 64 w.data.length :: bytesWords w.data⟩,
      .ok true)
  | none => (s, .ok false)

/-- Whether a command at its result may not yet be DONE: an EGET of its engine before it has still to read, or, of the
matrix unit, an earlier command on its accumulator is not DONE (R208). -/
def State.doneWaits (s : State) (q : Nat) (e : RingEntry) : Bool :=
  (((s.slot q).olderThan e).any fun f =>
    f.eng == e.eng && !f.isDone &&
      ((egetDest f.word).isSome || (e.eng == 0 && wordIsCmd f.word && f.sel % 4 == e.sel % 4))) ||
    (e.staged != [] && s.pairOpen q)

/-- The end of a command whose results are written: the counter that it names is translated anew for the add at DONE
(R295, R406), and where that faults the command faults. (DEDUCED: log entry 42.) -/
def State.engClose (s : State) (q n : Nat) (e : RingEntry) : State :=
  match e.count with
  | none => s.engFinal q n e
  | some (_, va) =>
    match engCounter q e va s with
    | (s1, .error h) => s1.engHalt q n h (.engineDone q n)
    | (s1, .ok c) =>
      (s1.modSlot q fun x => match x.entry n with | some d => x.setEntry { d with count := c } | none => x).engFinal q n e

/-- ENGINE_DONE (R90, R194, R209, R277, R301): the staged result is written, a piece in each step; when every
write to another package is acknowledged the command is DONE. An SGG gathers its next page instead while any is
left, and a BCOPY whose ranges do not overlap copies its next line (R304). An EGET that has waited completes (R88); a
command is DONE after the EGETs before it, which read what stood before it, and, of the matrix unit, after the earlier
commands on its accumulator (R208). (DEDUCED: log entry 28.) -/
def execEngineDone (q n : Nat) (s : State) : Result :=
  match (s.slot q).entry n with
  | none => .next s
  | some e =>
    if (egetDest e.word).isSome then
      if !e.live 0 then .next s
      else if s.egetWaits q e then .next (s.push (.engineDone q n)) else .next (s.egetDone q e)
    else if !e.live 2 then .next s
    else if s.doneWaits q e then .next (s.push (.engineDone q n))
    else if e.eng = 6 ∧ s.walkerWaits q e then .next (s.push (.engineDone q n))
    else if e.eng = 4 then
      match e.stagedRegs with
      | p :: _ =>
        match sguPage q e p.2.toNat s with
        | (s1, .error h) => .next (s1.engHalt q n h (.engineDone q n))
        | (s1, .ok e1) =>
          .next ((s1.modSlot q fun x =>
            match x.entry n with
            | some d => x.setEntry { d with permits := e1.permits, stagedRegs := e1.stagedRegs, lines := e1.lines }
            | none => x).push (.engineDone q n))
      | [] =>
        match sguEnd q e s with
        | (s1, .ok _) => .next (s1.engClose q n e)
        | (s1, .error h) => .next (s1.engHalt q n h (.engineDone q n))
    else if copyByLines q e ∧ e.progress < (e.reg 0).toNat then
      match copyStep q n e s with
      | (s1, .error h) => .next (s1.engHalt q n h (.engineDone q n))
      | (s1, .ok k) =>
        .next ((s1.modSlot q fun x =>
          match x.entry n with
          | some d => x.setEntry { d with progress := d.progress + k, lines := [] }
          | none => x).push (.engineDone q n))
    else if e.staged ≠ [] then
      match s.engWrites q n e with
      | (s1, .error h) => .next (s1.engHalt q n h (.engineDone q n))
      | (s1, .ok more) =>
        .next ((s1.modSlot q fun x =>
          match x.entry n with
          | some d => x.setEntry (if more then { d with progress := d.progress + 1, lines := [] } else { d with staged := [] })
          | none => x).push (.engineDone q n))
    else if e.sent ≠ [] then .next (s.push (.engineDone q n))
    else .next (s.engClose q n e)

/-! ### Faults and traps -/

/-- The trap of a command's fault (R388, R389). -/
def engTrap (x : Slot) (e : RingEntry) (cause reason : BitVec 8) (tval : Word) : Trap :=
  ⟨cause, reason, x.pc, e.word, tval, some (BitVec.ofNat 12 e.seq), false⟩

/-- The state without a walk: its context is free for the next WSTART of its cluster. -/
def State.dropWalk (s : State) (k : Nat) : State :=
  { s with walks := delAt s.walks k }.push (.walkContextGrant (k / 8))

/-- The end status of a walk (R231, R232). -/
def walkEnd (w : Walk) (reason : Nat) (entry : Option (Nat × Nat)) : List (Nat × Word) :=
  let (t, i) := entry.getD (0, 0)
  [(3, BitVec.ofNat 64 (i * 2 ^ 32 + t * 2 ^ 8 + reason)), (4, va57 w.pc), (5, BitVec.ofNat 64 w.emits)]

/-- The reason of a memory fault of a walk (R249): E_XLAT, E_PROT and E_ABORT keep theirs, and every other cause
carries the MEMORY code. -/
def walkReason (cause reason : BitVec 8) : BitVec 8 :=
  if cause = eXlat ∨ cause = eProt ∨ cause = eAbort ∨ cause = shadowFull then reason else 0x05

/-- A walk ended: its context is free, and its WSTART is at its result phase with the end status. -/
def State.walkOver (s : State) (k : Nat) (w : Walk) (reason : Nat) (entry : Option (Nat × Nat)) : State :=
  (s.dropWalk k).modSlot w.thread fun x =>
    match x.entry w.seq with
    | some e => x.setEntry { e with phase := 2, lines := [], suspended := false, stagedRegs := walkEnd w reason entry }
    | none => x

/-- The refusal of a WSIG's add comes to a WSTART: its walk ends on it, or has ended, and its end status is that of the fault,
at the WSIG (R231, R249). -/
def State.faultWalk (s : State) (q n : Nat) : State :=
  match s.walks.find? fun w => w.2.thread == q && w.2.seq == n, (s.slot q).entry n with
  | some (k, w), some e => s.walkOver k { w with pc := BitVec.ofNat 57 e.progress } 5 none
  | none, some e =>
    if e.eng = 6 ∧ e.fn = 0 ∧ e.phase = 2 ∧ e.sent ≠ [] then
      s.modSlot q fun x => x.setEntry { e with
        stagedRegs := [(3, 5), (4, va57 (BitVec.ofNat 57 e.progress))] ++ e.stagedRegs.filter fun r => r.1 == 5 }
    else s
  | _, none => s

/-- ENGINE_FAULT (R430): FAULT is set in the entry and the trap follows. Uncorrectable data consumed by a
command follows R411. -/
def execEngineFault (q n : Nat) (cause reason : BitVec 8) (tval : Word) (s : State) : Result :=
  let x := s.slot q
  match x.entry n with
  | none => .next s
  | some e =>
    if e.fault.isSome then .next s
    else if cause = eAbort ∧ reason = 0x02 ∧ !((s.reg (rctlOff x.ctx)).getLsbD 0 ∧ e.level = 0) then
      .next (s.fenceFor q 0x01)
    else
      let s1 := s.faultWalk q n
      let r := if e.eng = 6 ∧ e.phase ≠ 0 then walkReason cause reason else reason
      .next ((s1.modSlot q fun x => x.setEntry { (x.entry n).getD e with fault := some cause }).push
        (.trapDelivery q (engTrap x e cause r tval)))

/-- TRAP_DELIVERY (R389, R430): at an instruction boundary of the slot. A trap that stands for a wait goes with the
wait; a command's trap is held while the slot is above T; one that cannot be replayed settles its entry as it is delivered. -/
def execTrapDelivery (q : Nat) (t : Trap) (s : State) : Result :=
  let x := s.slot q
  match x.state with
  | .free => .next s
  | .saved => .next (if ofWait t then s else s.push (.trapDelivery q t))
  | _ =>
    if x.dying then .next s
    else if x.loads.any fun l => l.blocking && !x.waitsFor l.serial then .next (s.push (.trapDelivery q t))
    else
      match t.seq with
      | none => .next (if ofWait t ∧ x.state ≠ .waiting then s else s.deliver q t)
      | some n =>
        if x.level ≠ 0 then .next (s.modSlot q fun x => { x with heldTraps := x.heldTraps ++ [t] })
        else
          let s1 := s.deliver q { t with pc := x.pc }
          match (s1.slot q).entry n.toNat with
          | some e => if fatalCause t.cause then
              .next ((s1.modSlot q fun x => { x with fatal := e.eng :: x.fatal }).settleEmpty q e)
            else .next s1
          | none => .next s1

end Sys2Proof.Machine
end

