-- ==== Sys2Proof/Machine/Fetch.lean ====
section
/-! DEFINITION. Instruction fetch (R73, R98, R165, R405): the word at the PC of a slot, or the body of a
REP, and what an unreadable word does. -/

namespace Sys2Proof.Machine

/-- What a fetch gives. -/
inductive Fetched where
  | word (w : InstrWord)
  | fault (f : XFault)
  | wait
  deriving DecidableEq, Repr

/-- The word at an offset of a line. -/
def lineWord (bs : List Byte) (o : Nat) : InstrWord := BitVec.ofNat 32 (leNat ((bs.drop o).take 4))

/-- A word of memory of this package. Where the slot holds other bytes of that word from fetching ahead,
it may get either, whole (R98). (DEDUCED: log entry 10.) -/
def State.fetchNear (s : State) (q key : Nat) : State × Fetched :=
  let w := lineWord (s.mem.readBytes key 4) 0
  let keep (s : State) : State × Fetched :=
    (s.modSlot q fun x => { x with ahead := some (key / 128 * 128, s.mem.readBytes (key / 128 * 128) 128) }, .word w)
  match (s.slot q).ahead with
  | some (l, bs) =>
    if l = key / 128 * 128 then
      let old := lineWord bs (key % 128)
      if old = w then (s, .word w)
      else
        let (s1, stale) := s.coin
        if stale then (s1, .word old) else keep s1
    else keep s
  | none => keep s

/-- A word of memory of another package: from the line the slot holds, else that line is asked for. -/
def State.fetchFar (s : State) (q key p o : Nat) : State × Fetched :=
  let line := key / 128 * 128
  let ask : State × Fetched :=
    if s.farReqs.any fun r => r.thread == some q && r.serial == none && !r.store && r.id == 0 then (s, .wait)
    else
      (s.farSend { farRequest s q none 0 p (o / 128 * 128) tyRead true false
        [BitVec.ofNat 64 (s.slot q).pts, 0, 128] with va := va57 (s.slot q).pc }, .wait)
  match (s.slot q).ahead with
  | some (l, bs) => if l = line then (s, .word (lineWord bs (key % 128))) else ask
  | none => ask

/-- The word at an address, as slot q fetches it (R73); a return address that is no multiple of 4 traps
here (R404). -/
def State.fetchAt (s : State) (q : Nat) (pc : BitVec 57) : State × Fetched :=
  if pc.toNat % 4 ≠ 0 then (s, .fault (xf eAlign 0))
  else
  match resolve s (s.who q) (va57 pc) 4 .fetch with
  | (s1, .error f) => (s1, .fault f)
  | (s1, .ok l) =>
    match homeOf l.key with
    | .far p o => s1.fetchFar q l.key p o
    | .reg o =>
      match s1.regCheck (s1.slot q).level.toNat (s1.slot q).ctx (o / 8 * 8) (halfOf o 4) none with
      | some f => (s1, .fault f)
      | none =>
        let (s2, v) := s1.regRead (o / 8 * 8) (halfOf o 4)
        (s2, .word (v.truncate 32))
    | _ => if s1.anyBad l.key 4 then (s1.detect (some q) l.key 4, .fault (xf eAbort 0x02)) else s1.fetchNear q l.key

/-- Words of a REP body, up to the first whose fetch fails, which that word's turn meets (R73, R162, R165), and whether a
word is still awaited. (DEDUCED: log entry 10.) -/
def fetchBody (q : Nat) : Nat → BitVec 57 → State → State × List InstrWord × Bool
  | 0, _, s => (s, [], false)
  | n + 1, pc, s =>
    match s.fetchAt q pc with
    | (s1, .word w) =>
      let (s2, ws, late) := fetchBody q n (pc + 4) s1
      (s2, w :: ws, late)
    | (s1, .wait) => (s1, [], true)
    | (_, .fault _) => (s, [], false)

/-- The state with the body of an active REP fetched as far as it is not held (R162, R165), and whether a word of it is
still awaited. (DEDUCED: log entry 10.) -/
def State.holdBody (s : State) (q : Nat) : State × Bool :=
  let x := s.slot q
  let n := x.repBody.length
  if x.repActive ∧ n ≤ x.repNm1 then
    let (s1, ws, late) := fetchBody q (x.repNm1 + 1 - n) (x.pc - BitVec.ofNat 57 (4 * x.repPos) + BitVec.ofNat 57 (4 * n)) s
    (s1.modSlot q fun x => { x with repBody := x.repBody ++ ws }, late)
  else (s, false)

/-- The word that a slot executes next: the body's in a REP, else the one at its PC. -/
def State.fetchSlot (s : State) (q : Nat) : State × Fetched :=
  match s.holdBody q with
  | (s1, true) => (s1, .wait)
  | (s1, false) =>
    let x := s1.slot q
    match (if x.repActive then x.repBody[x.repPos]? else none) with
    | some w => (s1, .word w)
    | none => s1.fetchAt q x.pc

/-- A fetch that fails (R73, R394, R411): the slot waits on its collector, consumes uncorrectable data,
or traps at the word. (DEDUCED: log entry 18.) -/
def State.fetchFault (s : State) (q : Nat) (f : XFault) : State :=
  let x := s.slot q
  let va := va57 x.pc
  let s1 := s.openWord.1
  let w : InstrWord := s.openWord.2.truncate 32
  if f.cause = eAbort then
    if (s.reg (rctlOff x.ctx)).getLsbD 0 ∧ x.level = 0 then s1.deliver q ⟨eAbort, 0x02, x.pc, w, va, none, false⟩
    else s.fenceFor q 0x01
  else if f.collect ∧ x.level = 0 ∧ s.collects x.ctx then
    (s.setSlot q { x with state := .waiting, wait := some (.collected va none) }).push
      (.trapMessageAtCollector (faultMsg s q f .fetch va none 0))
  else s1.deliver q ⟨f.cause, f.reason, x.pc, w, va, none, false⟩

/-- The fields of a word that name registers, by its major and function code (R91 to R95, R162): the place of the lowest bit of
each, and whether it names a vector register. A word of an unassigned major or function names none. -/
def registerFields (w : Nat) : List (Nat × Bool) :=
  let d := (21, false)
  let a := (16, false)
  let b := (11, false)
  let vd := (21, true)
  let va := (16, true)
  let vb := (11, true)
  let fn := w % 64
  let vfn := w % 32
  let xfn := w / 2 ^ 12 % 16
  let kfn := w / 2 ^ 13 % 16
  match w / 2 ^ 26 with
  | 0x01 =>
    if fn < 0x14 then [d, a, b] else if fn < 0x16 then [d, a] else if fn < 0x18 then [d, a, b, (6, false)]
    else if fn = 0x18 then [d, a] else []
  | 0x02 | 0x03 | 0x04 | 0x05 | 0x07 | 0x18 | 0x19 => [d, a]
  | 0x06 => if w / 64 % 4 = 3 then [] else [d, a]
  | 0x08 | 0x09 | 0x1A => [d]
  | 0x0A => if fn = 2 then [d] else if fn < 4 then [a] else []
  | 0x0B => if xfn < 4 then [d] else []
  | 0x0C => if fn < 9 then [d, a, b] else if fn = 9 then [d, a, b, (6, false)] else if fn < 0x10 then [d, a] else []
  | 0x10 | 0x11 | 0x12 | 0x13 | 0x14 | 0x15 => [d, a]
  | 0x17 => if xfn = 1 then [d, a] else if xfn < 3 then [a] else []
  | 0x1B => if xfn < 2 then [vd, a] else if xfn < 4 then [vd] else []
  | 0x1C => if xfn < 2 then [d, a] else []
  | 0x1D => match fn with | 0 => [d] | 1 => [d, a] | 2 => [vd] | 3 => [vd, va] | _ => []
  | 0x1E => if fn < 9 then [d, a, b] else if fn < 0xB then [a, b] else []
  | 0x1F => if xfn = 0 then [d, a] else []
  | 0x20 =>
    if vfn = 6 ∨ vfn = 7 ∨ vfn = 9 ∨ vfn = 0xA then [vd, va] else if vfn < 0x10 then [vd, va, vb] else []
  | 0x21 => if vfn < 4 then [vd, va, vb] else []
  | 0x22 => if vfn < 3 then [d, va] else []
  | 0x23 =>
    match vfn with | 0 => [vd, va, vb] | 1 => [vd, va, b] | 2 => [vd, a] | 3 => [d, va, b] | 4 => [vd, a, b] | _ => []
  | 0x24 => if vfn < 2 then [vd, va] else []
  | 0x2C | 0x2D | 0x2E => [d, a]
  | 0x34 => if fn = 0 ∨ fn = 4 then [a, b] else if fn = 1 then [a] else []
  | 0x35 => if fn = 0 then [a, b] else if fn < 4 then [d, a, b] else []
  | 0x36 => if kfn < 5 then [d] else []
  | 0x37 => if kfn = 1 ∨ kfn = 2 then [d] else []
  | 0x38 =>
    if fn = 5 ∨ fn = 8 ∨ fn = 0xB then [a] else if fn = 7 ∨ fn = 9 ∨ fn = 0xA then [a, b] else []
  | _ => []

/-- `renumber` of R162 on a word that decode refuses: by the operands of its major and function. -/
def renumberWord (w : InstrWord) (k : Nat) : InstrWord :=
  (registerFields w.toNat).foldl (fun w r =>
    let f := fieldOf (w.setWidth 64) (r.1 + 4) r.1
    if f = 0 ∧ !r.2 then w else (withField (w.setWidth 64) (r.1 + 4) r.1 ((f + k) % 32)).setWidth 32) w

/-- The instruction of a word at a slot: decode tests 1 to 4 (R74), with the registers of a REP body
renumbered for its pass (R162); where a test fails, the word of the trap (R165). (DEDUCED: log entry 77.) -/
def Slot.decode (x : Slot) (w : InstrWord) : Except InstrWord Instr :=
  match decodeFields w.toNat with
  | .ok i =>
    let j := if x.repActive then i.renumber x.repShift else i
    if j.wellFormed then .ok j else .error ((encode j).getD w)
  | .error _ => .error (if x.repActive then renumberWord w x.repShift else w)

/-- ILLEGAL_INSTRUCTION (R74, R75): a word that decode refuses traps E_ILL, precisely.
(DESIGN CHOICE: log entry 85.) -/
def execIllegalInstruction (w : InstrWord) (s : State) : Result :=
  match s.cur with
  | none => .fault .noThread
  | some q =>
    let x := s.slot q
    if x.state ≠ .running then .fault .noThread
    else if x.blocked then .next s
    else .next (s.openWord.1.deliver q ⟨eIll, 0, x.pc, w, s.openWord.2, none, false⟩)

end Sys2Proof.Machine
end

