-- ==== Sys2Proof/Machine/FlitIn.lean ====
section
/-! DEFINITION. FLIT_RECEIVE (R314 to R318, R325): the checks at ingress, forwarding, the requests of other
packages performed at their homes here, and the answers to this package's own requests. -/

namespace Sys2Proof.Machine

/-- The data bytes of a payload from a word on. -/
def flitBytes (f : Flit) (i n : Nat) : List Byte := ((f.payload.drop i).flatMap wordBytes).take n

/-- Where a memory packet's address lies in this package (R252, R314). -/
def flitKey (f : Flit) : Nat := dramKey (f.addr.toNat % 2 ^ 42)

/-! ### Requests at their homes -/

/-- A write: its length, its timestamp and its bytes. (DESIGN CHOICE: log entry 44.) -/
def State.serveWrite (s : State) (f : Flit) : State :=
  let n := flitNat f 0
  if s.anyBad (flitKey f) n then (s.detect none (flitKey f) n).nakFlit f 5
  else
    let (s1, w) := s.homeApply (flitKey f) (flitNat f 1) (flitBytes f 2 n)
    s1.answer f tyAck [BitVec.ofNat 64 w]

/-- A read of a line with a lease (R261): the requester's timestamp, and the bytes of the line that it needs.
Where other bytes of the line are withheld (R284) only those it needs are sent. (DESIGN CHOICE: log entry 44.) -/
def State.serveRead (s : State) (f : Flit) : State :=
  let line := flitKey f / 128 * 128
  let off := flitNat f 1
  let size := flitNat f 2
  if s.anyBad (line + off) size then (s.detect none (line + off) size).nakFlit f 5
  else
    let (s1, w, r) := s.sliceLease line (flitNat f 0)
    let (o, n) := if s.anyBad line 128 then (off, size) else (0, 128)
    s1.answer f tyResponse
      ([BitVec.ofNat 64 n, BitVec.ofNat 64 w, BitVec.ofNat 64 r] ++ bytesWords (s1.mem.readBytes (line + o) n))

/-- What a half of a granule, or a whole one, holds after a group's sum is added: a number of n bytes. -/
def sumAt (s : State) (f : Flit) (i n : Nat) : List Byte :=
  let old := leNat (s.mem.readBytes (flitKey f + 4 * i) n)
  if flitNat f 0 % 256 = 10 then natBytes (FpFmt.f32.addR rne (FpFmt.f32.decode old) (addendVal f i)).1 n
  else natBytes ((old + addendInt f i) % 2 ^ (8 * n)) n

/-- A merged group performed as one write of the halves of its granule that have a sum (R330). -/
def State.serveSum (s : State) (f : Flit) : State :=
  let lanes := [0, 1].filter fun i => hasLane f i
  let new := if flitNat f 0 / 256 % 2 = 1 then sumAt s f 0 8 else lanes.flatMap fun i => sumAt s f i 4
  let (s1, w) := s.homeApply (flitKey f + 4 * lanes.headD 0) (flitNat f 3) new
  s1.answer f tyAck [BitVec.ofNat 64 w]

/-- An atomic, reduction, nibble store or counter add of another package (R280, R281, R371).
(DESIGN CHOICE: log entry 44.) -/
def State.serveAtomic (s : State) (f : Flit) : State :=
  let key := flitKey f
  let code := flitNat f 0
  let fn := code % 256
  let wide := decide (code / 256 % 2 = 1)
  let b := flitNat f 1
  let pts := flitNat f 3
  let n := if fn = 0x20 ∨ fn = 0x21 then 1 else if fn = farAddFn then 16 else if wide ∨ isGroup f then 8 else 4
  if s.anyBad key n then (s.detect none key n).nakFlit f 5
  else if isGroup f then s.serveSum f
  else if n = 1 then
    let (s1, w) := s.nibbleAt key pts (fn == 0x21) (BitVec.ofNat 4 b)
    s1.answer f tyAck [BitVec.ofNat 64 w]
  else if n = 16 then
    let old := s.counter key
    let (s1, w) := s.addCounter key b pts
    s1.answer f tyAck [BitVec.ofNat 64 w, BitVec.ofNat 64 old, s1.status key]
  else
    let (s1, old, w, fl) := s.rmwAt key pts fn wide (decide (code / 512 % 2 = 1)) b (flitNat f 2)
    s1.answer f tyAck [BitVec.ofNat 64 w, BitVec.ofNat 64 old, if fn = 8 then fl.setWidth 64 else 0]

/-! ### Hops and reports of peers (R346) -/

/-- The entry that a hop carries, for its launch of record here. -/
def hopEntry (f : Flit) (l : Nat) : RunEntry :=
  let x := flitNat f 0
  let w := flitNat f 6
  if 2 ^ 32 ≤ w then
    .task x l (w % 2 ^ 32 / 256) (farPool + w % 256) ((List.range 6).map fun i => f.payload.getD (7 + i) 0)
      (min 15 (flitNat f 2)) (flitNat f 3) false 0
  else .group x l w (min 15 (flitNat f 2)) false 0

/-- The record of the launch that a hop belongs to, as it lives here. -/
def hopLaunch (f : Flit) (desc : List Word) (cbs : List (Nat × Word × Word)) : Launch :=
  let w := flitNat f 6
  let task := if 2 ^ 32 ≤ w then some (w % 2 ^ 32 / 256, w % 256) else none
  { newLaunch desc cbs (flitNat f 0) none none (flitNat f 3) with
    remaining := if task.isSome then 0 else 1, running := if task.isSome then 1 else 0,
    far := some ⟨f.src.toNat, flitNat f 4, flitNat f 5, task⟩ }

/-- A hop from another package: accepted into the arrival pool of the reporting cluster and admitted under the
peer context, or refused. It waits while the hub reads the declarations of its launch.
(DEDUCED, DESIGN CHOICE: log entries 46, 82.) -/
def State.takeHop (s : State) (f : Flit) : State :=
  let x := flitNat f 0 % 64
  let c := flitNat f 1
  let desc := (f.payload.drop 13).take 8
  let rd := fun (s : State) va n => s.hubWords x va n
  let l := lowestFree 0 s.launches
  if !s.usable x c ∨ 512 ≤ s.arrivals c ∨ descBad desc ∨ tidBad desc ∨ 65536 ≤ l then s.nakFlit f 1
  else
    match readDecls rd (va57 (low57 (desc.getD 7 0))) (descHandles desc) 0 s with
    | (s1, .error none) => s1.push (.flitReceive 48 0 f)
    | (s1, .error (some _)) => s1.nakFlit f 1
    | (s1, .ok (cbs, _)) =>
      if s1.cbsBad x (descStages desc) cbs then s1.nakFlit f 1
      else
        let e := hopEntry f l
        let s2 := { s1 with launches := putAt s1.launches l (hopLaunch f desc cbs) }
        let cls := s2.entryClass e
        (((s2.setRun c cls (s2.runList c cls ++ [e])).arrived c).dropConst x c).answer f tyAck [0]

/-- A hop that its peer has accepted: the entry is there, and its task's entry stays in use until the peer
reports. (DEDUCED: log entry 82.) -/
def State.hopTaken (s : State) (h : Hop) : State :=
  let s1 := { s with hopping := s.hopping.erase h }
  match h.entry with
  | .task _ _ home e _ _ _ _ _ =>
    { s1 with pools := s1.pools.map fun p =>
        if p.1 = 256 * home + e ∧ e < farPool then (p.1, { p.2 with started := true }) else p }
  | e => s1.modLaunch (entryLaunch e) fun r => { r with remaining := r.remaining - 1, running := r.running + 1 }

/-- The report that an entry which hopped from here has ended. (DEDUCED: log entry 82.) -/
def State.hopReport (s : State) (f : Flit) : State :=
  let l := flitNat f 1
  let w := flitNat f 2
  let here := (findAt s.launches l).all fun r => r.far.isNone
  if 2 ^ 32 ≤ w ∧ here then
    let tile := w % 2 ^ 32 / 256
    ((s.modLaunch l fun r => { r with tasks := r.tasks - 1 }).freePool tile (w % 256)).reapLaunch l
  else ((s.modLaunch l fun r => { r with running := r.running - 1 }).checkLaunch l).reapLaunch l

/-- The distance report of a peer (R346): it is that of the context's peer entry that names the package and the context
which sent it. (DESIGN CHOICE: log entry 44.) -/
def State.peerReports (s : State) (f : Flit) : State :=
  let x := flitNat f 0 % 64
  s.pushAll (([0, 1, 2, 3].filter fun i =>
    let g := s.reg (grpeerOff x i)
    g.getLsbD 63 && s.domNode (fieldOf g 41 32) == f.src.toNat && fieldOf g 5 0 == flitNat f 3).map fun i => .peerReport x i (flitNat f 1) (flitNat f 2))

/-- A peer's access to a Geyser page (R352): it must carry the key of the queue's context (R398). The payload is an
operation (0 read, 1 write, 2 and 3 a write of the low or the high half), the offset in the Geyser pages and the value. A
write takes effect at once. (DESIGN CHOICE: log entry 44.) -/
def State.serveGeyser (s : State) (p : Nat) (f : Flit) : State :=
  let op := flitNat f 0
  let at_ := flitNat f 1
  let o := geyserBase + at_ / 8 * 8
  if 2 ^ 24 ≤ at_ then s.nakFlit f 1
  else if f.pkey.toNat ≠ s.pkey (s.queueCtx (at_ / 65536)) then (if p < 48 then s.keyViolation p else s).nakFlit f 3
  else if op = 0 then
    let (s1, v) := s.regRead o .both
    s1.answer f tyAck [v]
  else
    (s.answer f tyAck [0]).pushNext (.registerWrite
      { id := 0, agent := .manager, level := 0, ctx := s.queueCtx (at_ / 65536), offset := o,
        half := if op = 1 then .both else if op = 2 then .lo else .hi, value := f.payload.getD 2 0, pts := 0 })

/-- A message packet that came on port p. -/
def State.serveMessage (s : State) (p : Nat) (f : Flit) : State :=
  match f.addr.toNat with
  | 0 => s.takeHop f
  | 1 => (s.hopReport f).answer f tyAck [0]
  | 2 => s.peerReports f
  | 3 => s.serveGeyser p f
  | _ => s.nakFlit f 1

/-! ### Answers to requests of this package -/

/-- The slot with the answer of an atomic or counter add in its load. -/
def Slot.fillFar (x : Slot) (n : Nat) (f : Flit) : Slot :=
  x.fillLoad n fun l =>
    let old := flitNat f 1 % 2 ^ (8 * l.size)
    match l.kind with
    | .addOld _ => { l with data := some old, wts := flitNat f 0, status := BitVec.ofNat 2 (flitNat f 2) }
    | _ => { l with data := some old, wts := flitNat f 0, flags := BitVec.ofNat 5 (flitNat f 2) }

/-- An ack (R325): the write it answers is performed; a hop is taken; a merged group's contributors are
answered; an entry of an orphan ring is whole. -/
def State.takeAck (s : State) (f : Flit) : State :=
  let tag := f.tag.toNat
  match s.farReqs.find? fun r => r.tag == tag with
  | none => s
  | some r =>
    let s1 := s.farDone r
    match r.thread with
    | none =>
      let s2 := (s1.orphanAnswered tag (flitNat f 0)).answerGroup tag tyAck f.payload
      match s2.hopping.find? fun h => h.target == clusterCount + tag with
      | some h => s2.hopTaken h
      | none => s2
    | some q =>
      let s2 := match r.serial with
        | some n => (s1.modSlot q fun x => x.fillFar n f).push (.loadCompletion q n)
        | none => s1
      s2.push (.writeAck q r.id (flitNat f 0))

/-- What a counter wait to another package has read (R359, R370): it is met, or it polls; `polled` says that it has looked
before. -/
def State.farObserved (s : State) (q n : Nat) (polled : Bool) (f : Flit) : State :=
  let x := s.slot q
  match x.wait, x.loads.find? fun l => l.serial == n with
  | some (.counter key va target trap k), some l =>
    if k ≠ n then s
    else
      let off := if flitNat f 0 = 128 then l.key % 128 else 0
      let bs := flitBytes f 3 128
      let v := leNat ((bs.drop off).take 8)
      let st := BitVec.ofNat 64 (leNat ((bs.drop (off + 8)).take 8))
      let r : WaitReq := ⟨q, n, key, va, target, trap, l.origin.word, if polled then s.cycle + pollCycles else 0⟩
      if target.toNat ≤ v ∨ st.getLsbD 0 then s.wakeWith r v st (flitNat f 1)
      else s.push (.counterWaitPoll { r with due := s.cycle + pollCycles })
  | _, _ => s

/-- The line of a read response in a slot's load (R259, R261): a whole line is kept with its lease, or, of a constant
page, in the constant cache. -/
def State.farLoaded (s : State) (q n : Nat) (r : FarReq) (f : Flit) : State :=
  let c := clusterOf q
  match (s.slot q).loads.find? fun l => l.serial == n with
  | none => s
  | some l =>
    match l.kind with
    | .wait _ => s.farObserved q n r.polled f
    | _ =>
      let whole := flitNat f 0 = 128
      let bs := flitBytes f 3 (flitNat f 0)
      let s1 := if !whole then s
        else if l.const then s.constKeepPair c (s.slot q).ctx (l.key / 128 * 128) bs
        else s.install c (l.key / 128) ⟨bs, flitNat f 1, flitNat f 2, r.sent⟩
      let mine := if whole then (bs.drop (l.key % 128)).take l.size else bs.take l.size
      s1.answerLoad q n (s1.overlay q l.before l.key mine) (flitNat f 1)

/-- A read response (R325): to a load, a command, a slot's own read or the hub. -/
def State.takeResponse (s : State) (f : Flit) : State :=
  match s.farReqs.find? fun r => r.tag == f.tag.toNat with
  | none => s
  | some r =>
    let s1 := s.farDone r
    let bs := flitBytes f 3 128
    let line := 2 ^ 52 + f.addr.toNat / 128 * 128
    match r.thread with
    | none => if r.store then s1 else { s1 with hubLines := putAt s1.hubLines r.id (flitNat f 1, bs) }
    | some q =>
      match r.serial with
      | some n => s1.farLoaded q n r f
      | none =>
        if engRead0 ≤ r.id then s1.lineArrives q r.id line bs (flitNat f 1)
        else if r.id = ownRead then { s1 with hubLines := putAt s1.hubLines (ownKey q line) (flitNat f 1, bs) }
        else if r.id = 0 then s1.modSlot q fun x => { x with ahead := some (line, bs) }
        else s1

/-! ### Ingress -/

/-- A flit at its own node delivered by TYPE (R314). -/
def State.deliverFlit (s : State) (p : Nat) (f : Flit) : State :=
  match f.type.toNat with
  | 0x0 => s.serveWrite f
  | 0x1 => s.serveRead f
  | 0x2 => s.takeResponse f
  | 0x3 => s.takeAck f
  | 0x4 => s.push (.nakReceived f.tag.toNat (flitNat f 0))
  | 0x5 => s.serveAtomic f
  | 0x6 => s.serveAtomic f
  | 0x7 => s.serveMessage p f
  | 0x8 => s.push (.managementPacket p f)
  | 0x9 =>
    let a := f.addr.toNat
    let k := a % 2 ^ 38 / 4 % 16
    s.push (.exclusionPacket (a / 2 ^ 38) (a % 2 ^ 38 / 4) (a % 4)
      ((List.range exclusionSpan).filterMap fun i =>
        if (f.payload.getD (i / 64) 0).getLsbD (i % 64) then some (exclusionSpan * k + i) else none))
  | _ => s

/-- The partition check at a Llynsy ingress (R398): a valid key of PKTAB, or FMKEY of a management or exclusion flit; one
of the management type for this node is checked where it is delivered (R335). (DEDUCED: log entry 47.) -/
def State.flitAccepted (s : State) (f : Flit) : Bool :=
  s.keyAccepted f.pkey ||
    ((f.type == tyManagement || f.type == tyExclusion) && f.pkey.toNat == fieldOf (s.reg fmkeyOff) 15 0) ||
    (f.type == tyManagement && f.dst.toNat == s.nodeId)

/-- A flit past its link: the partition check, and then delivery or the next link (R316, R318). -/
def State.routeIn (s : State) (p : Nat) (f : Flit) : State :=
  if p < 48 ∧ !s.flitAccepted f then (s.keyViolation p).nakFlit f 3
  else if f.dst.toNat = s.nodeId then s.deliverFlit p f
  else if f.hops = 7 then s.nakFlit f 2
  else s.forward p { f with hops := f.hops + 1 }

/-- A flit that a link cannot take (R315): a replay from the first flit that is missing is asked for, and the flits behind
it are dropped. A replay that begins with a bad flit again has failed, and the fourth in succession fails the port (R326). -/
def State.askReplay (s : State) (p seq : Nat) : State :=
  let next := getAt 0 s.rxSeq p
  if seq < next then s
  else
    match findAt s.rxAsk p with
    | none => { s with rxAsk := putAt s.rxAsk p 0 }
    | some n =>
      if seq ≠ next then s
      else if n < 3 then { s with rxAsk := putAt s.rxAsk p (n + 1) }
      else s.pushNext (.portFailure p 3)

/-- FLIT_RECEIVE (R315): a flit arrives on port p with its link sequence, or, for p = 48, from this node. One
with a bad CRC or out of sequence is asked for again; an idle flit carries nothing. (DESIGN CHOICE: log entry 17.) -/
def execFlitReceive (p seq : Nat) (f : Flit) (s : State) : Result :=
  if 48 ≤ p then .next (s.routeIn p f)
  else if f.crc ≠ Config.crc32 (flitCovered f) ∨ seq ≠ getAt 0 s.rxSeq p then .next (s.askReplay p seq)
  else
    let s1 := { s with rxSeq := putAt s.rxSeq p (seq + 1), rxAsk := delAt s.rxAsk p }
    .next (if f.type = 0xF then s1 else s1.routeIn p f)

end Sys2Proof.Machine
end

