-- ==== Sys2Proof/Machine/Health.lean ====
section
/-! DEFINITION. Temperature, power and the lifetime records (R29, R434 to R436, R445), and the lock of the hub
clock's servo (R353). What sensors and monitors report is free. -/

namespace Sys2Proof.Machine

/-- A reading of a sensor, which the manual leaves open. (DESIGN CHOICE: log entries 5, 61.) -/
def State.reading (s : State) (n : Nat) : State × Nat :=
  ({ s with draws := s.draws + 1 }, (Config.freeWord s.draws).toNat % n)

/-- A reading of each of several sensors. -/
def State.readings (n : Nat) : Nat → State → State × List Nat
  | 0, s => (s, [])
  | k + 1, s =>
    let (s1, v) := s.reading n
    let (s2, vs) := State.readings n k s1
    (s2, v :: vs)

/-- Cycles in 1 ms and in 1 s (R6). -/
def cyclesMs : Nat := 1700000
/-- Cycles in 1 s. -/
def cyclesSec : Nat := 1700000000

/-- The thermal limit of a die in W (R445); it starts where it lowers no die's limit.
(DESIGN CHOICE: log entry 61.) -/
def State.thermalLimit (s : State) (d : Nat) : Nat := getAt 500 s.thermal d

/-- Place in the thermal store of the cycle at which a die's next thermal step is due. -/
def thermalDue (d : Nat) : Nat := 16 + d

/-- Place of the cycle at which the next power window ends. -/
def powerDue : Nat := 32

/-- THERMAL_STEP (R445): every 1 ms, TEMP in units of 0.125 °C. From 105 °C the thermal limit falls by 50 W and HOT
is set; below 100 °C it rises by 50 W; at 115 °C a package reset begins. (DESIGN CHOICE: log entry 61.) -/
def execThermalStep (d temp : Nat) (s : State) : Result :=
  if s.cycle < getAt 0 s.thermal (thermalDue d) then .next (s.push (.thermalStep d temp))
  else
    let v := withField (s.reg (dstatOff d)) 47 32 temp
    let v1 := if 840 ≤ temp then withField v 1 1 1 else if temp < 800 then withField v 1 1 0 else v
    let l := s.thermalLimit d
    let l1 := if 840 ≤ temp then l - 50 else if temp < 800 then min 500 (l + 50) else l
    let (s1, t) := (State.setReg { s with
      thermal := putAt (putAt s.thermal d l1) (thermalDue d) (s.cycle + cyclesMs) } (dstatOff d) v1).reading 65536
    let s2 := s1.push (.thermalStep d t)
    .next (if 920 ≤ temp then s2.push (.thermalResetTrip d) else s2)

/-- THERMAL_RESET_TRIP (R445). -/
def execThermalResetTrip (_d : Nat) (s : State) : Result := .next (s.push .packageReset)

/-- The limit that a die holds (R445). -/
def State.dieLimit (s : State) (d pkg : Nat) : Nat :=
  let lim (d : Nat) : Nat := fieldOf (s.reg (dplimOff d)) 9 0
  let sum := ((List.range 8).map lim).foldl (· + ·) 0
  let cap := fieldOf (s.reg pkglimOff) 12 0
  let share := if cap < pkg then cap * lim d / max 1 sum else lim d
  min (min (lim d) share) (s.thermalLimit d)

/-- One die at the end of a power window: its power, and THROT where it exceeds its limit. -/
def State.dieWindow (s : State) (pkg d power : Nat) : State :=
  let old := s.reg (dstatOff d)
  let hot := decide (s.dieLimit d pkg < power)
  let s1 := s.setReg (dstatOff d) (withField (withField old 25 16 power) 0 0 (if hot then 1 else 0))
  if hot ∧ !old.getLsbD 0 then (s1.setReg throtcntOff (satInc (s1.reg throtcntOff))).hostEvent 2 else s1

/-- POWER_LIMIT_WINDOW (R29, R442, R445): the power of the package and of each die over the last 1 ms. A die above
its limit lowers its issue rate, which changes no result and no order. (DESIGN CHOICE: log entry 61.) -/
def execPowerLimitWindow (pkg : Nat) (dies : List Nat) (s : State) : Result :=
  if s.cycle < getAt 0 s.thermal powerDue then .next (s.push (.powerLimitWindow pkg dies))
  else
    let s1 := State.setReg { s with thermal := putAt s.thermal powerDue (s.cycle + cyclesMs) } pkgpwrOff
      (BitVec.ofNat 64 (pkg % 2 ^ 13))
    let s2 := (List.range 8).foldl (fun (s : State) d => s.dieWindow pkg d (dies.getD d 0)) s1
    let (s3, p) := s2.reading 8192
    let (s4, ps) := State.readings 1024 8 s3
    .next (s4.push (.powerLimitWindow p ps))

/-- One second of a lifetime counter of hours: place among the seconds, offset of the counter (R436). -/
def State.lifeSecond (s : State) (k off : Nat) : State :=
  let n := getAt 0 s.mram.secs k + 1
  let m := s.mram
  if n < 3600 then { s with mram := { m with secs := putAt m.secs k n } }
  else { s with mram := { m with secs := putAt m.secs k 0, life := putAt m.life (off / 8) (satInc (getAt 0 m.life (off / 8))) } }

/-- The temperature bucket of R436, from units of 0.125 °C. -/
def tempBucket (t : Nat) : Nat := if t < 360 then 0 else min 7 ((t - 360) / 80 + 1)

/-- The voltage bucket of R436, from a deviation of v − 10,000 hundredths of a percent. -/
def voltBucket (v : Nat) : Nat := if v < 9400 then 0 else min 7 ((v - 9400) / 200 + 1)

/-- The wear monitors of a quadrant (R435): AGE never falls; a warning is recorded when it first passes 0xE000, or
when a prediction below 8,760 hours appears. (DEDUCED: log entry 62.) -/
def State.wearQuadrant (s : State) (i : Nat) : State :=
  let old := s.reg (qwearOff (i / 4) (i % 4))
  let oldEol := s.reg (qeolOff (i / 4) (i % 4))
  let (s1, w) := s.reading (2 ^ 64)
  let (s2, h) := s1.reading (2 ^ 64)
  let new : BitVec 64 := BitVec.ofNat 64 w
  let age := max (fieldOf old 63 48) (fieldOf new 63 48)
  let wear := BitVec.ofNat 64 (age * 2 ^ 48 + fieldOf new 47 32 * 2 ^ 32 + fieldOf new 15 0)
  let eol := BitVec.ofNat 64 h &&& 0x80000000FFFFFFFF
  let s3 := (s2.setReg (qwearOff (i / 4) (i % 4)) wear).setReg (qeolOff (i / 4) (i % 4)) eol
  if (fieldOf old 63 48 ≤ 0xE000 ∧ 0xE000 < age) ∨
      (!oldEol.getLsbD 63 ∧ eol.getLsbD 63 ∧ fieldOf eol 31 0 < 8760) then
    s3.record { ErrRec.ofKind 0x0C with data0 := wear, data1 := eol }
  else s3

/-- LIFE_UPDATE (R435, R436): every second, the temperature and the supply voltage of each die.
(DESIGN CHOICE: log entry 61.) -/
def execLifeUpdate (temps volts : List Nat) (s : State) : Result :=
  if s.cycle < s.lifeDue then .next (s.push (.lifeUpdate temps volts))
  else
    let s1 := State.lifeSecond { s with lifeDue := s.cycle + cyclesSec } 0 0x0008
    let s2 := (List.range 8).foldl (fun (s : State) d =>
      let b := tempBucket (temps.getD d 0)
      let v := voltBucket (volts.getD d 10000)
      (s.lifeSecond (0x100 + 8 * d + b) (0x0100 + 0x40 * d + 8 * b)).lifeSecond (0x200 + 8 * d + v)
        (0x0300 + 0x40 * d + 8 * v)) s1
    let s3 := (List.range 32).foldl (fun (s : State) i => s.wearQuadrant i) s2
    let (s4, ts) := State.readings 1024 8 s3
    let (s5, vs) := State.readings 20000 8 s4
    .next (s5.push (.lifeUpdate ts vs))

/-- RETENTION_ENTRY (R434): the register files of a core whose slots have all been FREE or WAITING for 64 cycles enter
retention. Only the time to wake follows from it. (DEDUCED: log entry 62.) -/
def execRetentionEntry (k : Nat) (s : State) : Result :=
  if (List.range 4).all fun i => (s.slot (4 * k + i)).state == .free || (s.slot (4 * k + i)).state == .waiting then
    if s.cycle < getAt 0 s.timers (restAt k) then .next (s.push (.retentionEntry k))
    else .next (s.setCore k { s.core k with retained := true })
  else .next s

/-- SERVO_LOCK_CHANGE (R353): TTCTL.LOCKED. -/
def execServoLockChange (on : Bool) (s : State) : Result :=
  .next (s.setReg ttctlOff (withField (s.reg ttctlOff) 1 1 (if on then 1 else 0)))

end Sys2Proof.Machine
end

