-- ==== Sys2Proof/Machine/Isolation.lean ====
section
/-! DEFINITION. The steps of isolation: contexts and Calderas (R380, R381, R421), walks at the NI (R393),
collected faults (R394 to R397) and attestation (R402). -/

namespace Sys2Proof.Machine

/-! ### Contexts and Calderas -/

/-- Whether something of a context still stands, so that it cannot be removed (R380). -/
def State.ctxBusy (s : State) (x : Nat) : Bool :=
  s.slots.any (fun e => e.2.state != .free && e.2.ctx == x && e.2.kind != .firmware) ||
    (List.range 256).any (fun n =>
      fieldOf (s.reg (qctlOff n)) 45 40 == x && !(s.reg (qstatOff n)).getLsbD 1) ||
    (List.range 256).any (fun e =>
      let w := s.reg (ttentOff e 0)
      fieldOf w 61 56 == x && w.getLsbD 63) ||
    s.hqueues.any fun e => e.1 / 256 == x

/-- The translation entries, TID-cache entries, key ranges and constant lines of a context index dropped
everywhere (R380). (DEDUCED: log entry 51.) -/
def State.dropContext (s : State) (x : Nat) : State :=
  { s with
    tlb := s.tlb.filter (fun e => e.asid % 64 ≠ x),
    walkCache := s.walkCache.filter (fun e => e.asid % 64 ≠ x),
    tids := s.tids.filter (fun e => e.ctx ≠ x),
    keyRanges := s.keyRanges.filter (fun e => e.ctx ≠ x),
    constLines := s.constLines.filter (fun e => e.ctx ≠ x) }

/-- Whether a CALD entry keeps lockstep pairs whole (R421). -/
def caldPaired (v : Word) : Bool := fieldOf v 11 8 % 2 == 0 && fieldOf v 15 12 % 2 == 1

/-- Whether LOCKSTEP of a context may be set: every valid CALD entry keeps pairs whole. (DEDUCED: log entry 51.) -/
def State.lockable (s : State) (x : Nat) : Bool :=
  (List.range 8).all fun i =>
    let v := s.reg (caldOff x i)
    !v.getLsbD 63 || caldPaired v

/-- CCTL_WRITE (R379, R380, R421, R443): at S only FCOLL changes. EN rises only once the package is READY, with AGEN
and what was cached for the index dropped, and does not fall while anything of the context stands (its key registrations
go with it, R217); LOCKSTEP changes only while EN is 0. (DEDUCED: log entry 51.) -/
def execCctlWrite (x : Nat) (v : Word) (h : Half) (level : Nat) (s : State) : Result :=
  let old := s.reg (cctlOff x)
  let full := mergeHalf old v h
  if level ≠ 2 then .next (s.setReg (cctlOff x) (withField old 1 1 (fieldOf full 1 1)))
  else
    let was := old.getLsbD 0
    let en := full.getLsbD 0 && (was || (s.reg bootstatOff).getLsbD 0)
    if was ∧ !en ∧ s.ctxBusy x then .next s
    else
      let v1 := withField (withField (withField old 47 32 (fieldOf full 47 32)) 9 8 (fieldOf full 9 8)) 1 0
        (2 * fieldOf full 1 1 + (if en then 1 else 0))
      let v2 := if was ∨ (full.getLsbD 2 ∧ !s.lockable x) then v1 else withField v1 2 2 (fieldOf full 2 2)
      let v3 := if !was ∧ en then withField v2 31 22 (fieldOf v2 31 22 + 1) else v2
      let s1 := s.setReg (cctlOff x) v3
      .next (if !was ∧ en then s1.dropContext x
        else if was ∧ !en then { s1 with keyRanges := s1.keyRanges.filter (fun r => r.ctx ≠ x) } else s1)

/-- The bits of CALD that hold fields (R379). -/
def caldMask : Word := 0x800000000007FF77

/-- Whether two rectangles share a cluster. -/
def caldOverlap (a b : Word) : Bool :=
  fieldOf a 18 16 == fieldOf b 18 16 &&
    decide (fieldOf a 2 0 ≤ fieldOf b 6 4) && decide (fieldOf b 2 0 ≤ fieldOf a 6 4) &&
    decide (fieldOf a 11 8 ≤ fieldOf b 15 12) && decide (fieldOf b 11 8 ≤ fieldOf a 15 12)

/-- Whether a write to CALD is ignored (R381, R421). (DEDUCED: log entry 52.) -/
def State.caldRefused (s : State) (x i : Nat) (new : Word) : Bool :=
  let c := s.reg (cctlOff x)
  (new.getLsbD 63 && (decide (fieldOf new 6 4 < fieldOf new 2 0) || decide (fieldOf new 15 12 < fieldOf new 11 8))) ||
    (new.getLsbD 63 && (List.range 8).any fun j =>
      j != i && (s.reg (caldOff x j)).getLsbD 63 && caldOverlap new (s.reg (caldOff x j))) ||
    (c.getLsbD 0 && !(new.getLsbD 63 && !(s.reg (caldOff x i)).getLsbD 63)) ||
    (c.getLsbD 2 && !caldPaired new)

/-- CALD_WRITE (R381, R421). (DEDUCED: log entry 52.) -/
def execCaldWrite (x i : Nat) (v : Word) (h : Half) (s : State) : Result :=
  let new := mergeHalf (s.reg (caldOff x i)) v h &&& caldMask
  .next (if s.caldRefused x i new then s else s.setReg (caldOff x i) new)

/-- TRANSLATION_WALK (R390, R393): the entries that a cluster's caches hold for an address are evicted, as they may be at any
time, and a walk fills them afresh; where the leaf has gone already there is none. (DESIGN CHOICE: log entry 9.) -/
def execTranslationWalk (c x : Nat) (va : BitVec 57) (s : State) : Result :=
  let keep (e : XlatEntry) : Bool := !(e.cluster == c && e.asid == s.asid x && e.index == vaIndex va e.level)
  let s1 := { s with tlb := s.tlb.filter keep, walkCache := s.walkCache.filter keep }
  .next (if s1.tlb.length < s.tlb.length then (walk s1 c x va).1 else s1)

/-! ### Collected faults -/

/-- The number of a collector: that of its die's grid row (R394, R395). -/
def rowNumber (c : Nat) : Nat := 8 * dieOf c + rowOf c

/-- A row's collector. -/
def State.collector (s : State) (r : Nat) : Collector := getAt ⟨0, []⟩ s.collectors r

/-- Bits set in a bitmap. -/
def countBits (b : BitVec 768) : Nat := ((List.range 768).filter fun i => b.getLsbD i).length

/-- The words of a record of the fault ring (R395), for the collector of a row. -/
def FaultRec.words (f : FaultRec) (row : Nat) : List Word :=
  let n := BitVec.ofNat 64
  va57 (BitVec.ofNat 57 (f.page * 65536)) ::
    n (f.id * 2 ^ 48 + row / 8 * 2 ^ 45 + row % 8 * 2 ^ 42 + f.kind * 2 ^ 40 + (if f.perm then 2 ^ 39 else 0) +
      countBits f.bitmap) ::
    ((List.range 12).map fun i => f.bitmap.extractLsb' (64 * i) 64) ++ [0, 0]

/-- Where a record lies in the context's fault ring. -/
def State.faultSlot (s : State) (x ix : Nat) : Word :=
  va57 (low57 (s.reg (fltbaseOff x))) + BitVec.ofNat 64 (128 * (ix % 2 ^ fieldOf (s.reg (fltctlOff x)) 4 0))

/-- The identity by which a collector writes for a context: level S, resolved in the cluster of the access (R395).
(DEDUCED: log entry 53.) -/
def faultWho (x c : Nat) : Who := ⟨x, 1, slotNum (16 * c) 0 0⟩

/-- A record written at its place in the ring; false where it cannot be. (DEDUCED: log entry 53.) -/
def State.putFault (s : State) (row c : Nat) (f : FaultRec) : State × Bool :=
  s.hubWrite (faultWho f.ctx c) (s.faultSlot f.ctx f.ring) ((f.words row).flatMap wordBytes) 0

/-- The trap of a fault that its collector does not hold, or that is resolved by FAIL (R395, R396). -/
def faultTrap (s : State) (m : FaultMsg) (coll : Bool) : Trap :=
  ⟨if m.perm then eProt else eXlat, if m.perm then 0x01 else 0x02, (s.slot m.thread).pc, m.word, m.tval,
    m.seq.map (BitVec.ofNat 12), coll⟩

/-- Whether a message's access still waits on its collector. -/
def State.faultWaits (s : State) (m : FaultMsg) : Bool :=
  let x := s.slot m.thread
  match m.seq with
  | none => x.state == .waiting && (match x.wait with | some (.collected va _) => va == m.tval | _ => false)
  | some n =>
    x.state != .saved && (x.entry n).any fun e => e.phase == 0 && e.fault.isNone && !e.suspended

/-- A collected fault traps precisely after all (R395, R396); a LAUNCH's as the descriptor or declarations that cannot be
read (R44, R366). -/
def State.faultTraps (s : State) (coll : Bool) (m : FaultMsg) : State :=
  if !s.faultWaits m then s
  else
    let t := faultTrap s m coll
    let s1 := match m.seq with
      | some n =>
        s.modSlot m.thread fun x =>
          match x.entry n with
          | some e => x.setEntry { e with fault := some t.cause }
          | none => x
      | none => s
    match m.seq, (s.slot m.thread).wait with
    | none, some (.collected _ (some d)) => (s1.abandonDone m.ctx d).push (.trapDelivery m.thread { t with reason := 0x08 })
    | _, _ => s1.push (.trapDelivery m.thread t)

/-- A collected fault's access is performed again (R396). -/
def State.faultRetries (s : State) (m : FaultMsg) : State :=
  if !s.faultWaits m then s
  else
    match m.seq with
    | some n => s.push (.cbPermit m.thread n)
    | none => s.modSlot m.thread fun x => { x with state := .running, wait := none }

/-- A notice of a new record to the context's fault queue (R395), where that queue is bound, with the timestamp of the
record (R468). (DEDUCED: log entry 53.) -/
def State.faultNotice (s : State) (x ring row pts : Nat) : State :=
  let q := fieldOf (s.reg (fltctlOff x)) 15 8
  match findAt s.hqueues (256 * x + q) with
  | some h =>
    State.push { s with nextId := s.nextId + 1 }
      (.messageDelivery { deviceMsg s x q h.place [BitVec.ofNat 64 ring, BitVec.ofNat 64 row, 0, 0, 0, 0, 0, 0] with
        pts := pts })
  | none => s

/-- TRAP_MESSAGE_AT_COLLECTOR (R394, R395): the message joins the open record of its context, page and kind, or
opens one; where the ring or the collector is full its access traps. (DEDUCED: log entry 53.) -/
def execTrapMessageAtCollector (m : FaultMsg) (s : State) : Result :=
  let row := rowNumber m.cluster
  let k := s.collector row
  let bit : BitVec 768 := BitVec.twoPow 768 m.bit
  match k.recs.find? fun r => r.ctx == m.ctx && r.page == m.page && r.kind == m.kind with
  | some r =>
    let r1 := { r with bitmap := r.bitmap ||| bit, waiters := r.waiters ++ [m] }
    let k1 := { k with recs := k.recs.map fun f => if f.id = r.id then r1 else f }
    .next (State.putFault { s with collectors := putAt s.collectors row k1 } row m.cluster r1).1
  | none =>
    let ctl := s.reg (fltctlOff m.ctx)
    let size := fieldOf ctl 4 0
    let tail := s.ringTail (flttailOff m.ctx)
    let r : FaultRec := ⟨k.nextId, m.ctx, m.page, m.kind, m.perm, tail, bit, [m]⟩
    if size = 0 ∨ (tail + 2 ^ 32 - fieldOf ctl 63 32) % 2 ^ 32 = 2 ^ size ∨ 64 ≤ k.recs.length then
      .next (s.faultTraps false m)
    else
      match s.putFault row m.cluster r with
      | (s1, false) => .next (s1.faultTraps false m)
      | (s1, true) =>
        let k1 : Collector := ⟨(k.nextId + 1) % 65536, k.recs ++ [r]⟩
        .next ((State.ringPut { s1 with collectors := putAt s1.collectors row k1 } s (faultWho m.ctx m.cluster)
          (s.faultSlot m.ctx tail) (flttailOff m.ctx) tail 0 none).faultNotice m.ctx tail row
            (s1.hubTs (faultWho m.ctx m.cluster) (s.faultSlot m.ctx tail)))

/-- The open record that a write to FRES names, closed (R396). -/
def State.closeFault (s : State) (d r x id : Nat) : State × List FaultMsg :=
  let row := 8 * d + r
  let k := s.collector row
  match k.recs.find? fun f => f.id == id && f.ctx == x with
  | some f =>
    ({ s with collectors := putAt s.collectors row { k with recs := k.recs.filter fun g => g.id ≠ id } }, f.waiters)
  | none => (s, [])

/-- FRES_RETRY (R396, R397). -/
def execFresRetry (d r x id : Nat) (s : State) : Result :=
  let (s1, ms) := s.closeFault d r x id
  .next (ms.foldl (fun s m => s.faultRetries m) s1)

/-- FRES_FAIL (R396). -/
def execFresFail (d r x id : Nat) (s : State) : Result :=
  let (s1, ms) := s.closeFault d r x id
  .next (ms.foldl (fun s m => s.faultTraps true m) s1)

/-! ### Attestation (R402) -/

/-- The signed part of a report: bytes 0x000 to 0x17F. -/
def State.reportBody (s : State) (x : Nat) : List Byte :=
  [s.reg 0, s.reg nodeidOff, s.reg (cctlOff x), s.reg (ptrootOff x), 0, 0].flatMap wordBytes ++
    ((List.range 4).map fun i => s.reg (attnonceOff x + 8 * i)).flatMap wordBytes ++
    natBytes s.fwMeasure.toNat 48 ++ natBytes s.cfgMeasure.toNat 48 ++
    natBytes (Config.deviceKey.toNat / 2 ^ 384) 48 ++ natBytes (Config.deviceKey.toNat % 2 ^ 384) 48 ++
    List.replicate 112 0

/-- The 512 bytes of a report. (DEDUCED: log entry 54.) -/
def State.report (s : State) (x : Nat) : List Byte :=
  let b := s.reportBody x
  let sig := (Config.deviceSign (Config.sha384 b)).toNat
  b ++ natBytes (sig / 2 ^ 384) 48 ++ natBytes (sig % 2 ^ 384) 48 ++ List.replicate 32 0

/-- ATTEST_GO (R402): GO reads 1 and the report is made of what stands now; while GO is 1 nothing happens.
(DEDUCED: log entry 54.) -/
def execAttestGo (x : Nat) (s : State) : Result :=
  let v := s.reg (attgoOff x)
  if v.getLsbD 0 then .next s
  else
    .next ((State.setReg { s with attest := putAt s.attest x ((chunks 8 64 (s.report x)).map fun b => BitVec.ofNat 64 (leNat b)) }
      (attgoOff x) (v ||| 1)).push (.attestReportDone x))

/-- ATTEST_REPORT_DONE (R402): the report is written whole and GO and ERR clear, or nothing is written and ERR
is set. (DEDUCED: log entry 54.) -/
def execAttestReportDone (x : Nat) (s : State) : Result :=
  let w := s.hubWho x
  let va := va57 (low57 (s.reg (attdstOff x)))
  let part (s : State) (i : Nat) (bs : List Byte) : State × Bool := s.hubWrite w (va + BitVec.ofNat 64 (64 * i)) bs 0
  let (s0, ok) := (List.range 8).foldl
    (fun (p : State × Bool) i =>
      let (s1, b) := part p.1 i []
      (s1, p.2 && b)) (s, true)
  let ws := getAt [] s.attest x
  let s1 := { s0 with attest := delAt s0.attest x }
  if ok then
    .next (State.setReg ((List.range 8).foldl
      (fun (s : State) i => (part s i (((ws.drop (8 * i)).take 8).flatMap wordBytes)).1) s1) (attgoOff x) 0)
  else .next (s1.setReg (attgoOff x) 2)

end Sys2Proof.Machine
end

