-- ==== Sys2Proof/Machine/Vector.lean ====
section
/-! DEFINITION. Vector instructions: majors 0x20 to 0x24 (R167 to R178). Lane i of a register of lane
width w is its bits [w (i + 1) - 1 : w i] (R168). -/

namespace Sys2Proof.Machine

/-- The lanes of a register, lane 0 first. -/
def lanes (w : Nat) (v : Line) : List Nat :=
  (List.range (1024 / w)).map fun i => v.toNat / 2 ^ (w * i) % 2 ^ w

/-- The register whose lanes are given; lanes that are not given are zero. -/
def ofLanes (w : Nat) (l : List Nat) : Line :=
  BitVec.ofNat 1024 (l.foldr (fun x acc => x % 2 ^ w + acc * 2 ^ w) 0)

/-- The union of the masks of vector registers (R79). -/
def Slot.vmasks (x : Slot) (rs : List (BitVec 5)) : Taint :=
  rs.foldl (fun m r => m.union (x.vmask r)) Taint.none

/-- Lanes computed with their flags: the lanes and the flags of all of them (R170). -/
def gather (l : List (Nat × BitVec 5)) : List Nat × BitVec 5 :=
  (l.map (·.1), l.foldl (fun f e => f ||| e.2) 0)

/-- A vector instruction that writes a register with a mask and neither rounds nor flags. -/
def vecOp (i : Instr) (d : BitVec 5) (mask : Slot → Taint) (f : Slot → Line) (s : State) : Result :=
  issue i s fun q s => complete q s fun x => x.setV d (f x) (mask x)

/-- A floating vector instruction that rounds each lane (R170): ⌈n/4⌉ generator steps where the mode
is stochastic. `f` gives the lanes from one rounding for each. -/
def vecRound (i : Instr) (d : BitVec 5) (srcs : List (BitVec 5)) (n w : Nat)
    (f : Slot → List Rounding → List (Nat × BitVec 5)) (s : State) : Result :=
  issue i s fun q s => complete q s fun x =>
    let r := gather (f x (x.roundings n))
    ((x.setV d (ofLanes w r.1) (x.vmasks srcs)).orFlags r.2).takeSteps n

/-- Lane values of a floating register. -/
def Slot.vals (x : Slot) (y : BitVec 4) (r : BitVec 5) : List Val :=
  (lanes (tyWidth y) (x.vreg r)).map (fmtOfTy y).decode

/-- Lane numbers of an integer register. -/
def Slot.ints (x : Slot) (y : BitVec 4) (r : BitVec 5) : List Int :=
  (lanes (tyWidth y) (x.vreg r)).map (intOf (tyWidth y) (tySign y))

/-- A lane by lane function of two registers' lanes, on raw bits. -/
def Slot.lane2 (x : Slot) (w : Nat) (a b : BitVec 5) (f : Nat → Nat → Nat) : Line :=
  ofLanes w (List.zipWith f (lanes w (x.vreg a)) (lanes w (x.vreg b)))

/-- Rounded floating arithmetic on two registers. -/
def float2 (y : BitVec 4) (a b : BitVec 5) (f : FpFmt → Rounding → Val → Val → Nat × BitVec 5) (x : Slot)
    (rs : List Rounding) : List (Nat × BitVec 5) :=
  List.zipWith (fun r (p : Val × Val) => f (fmtOfTy y) r p.1 p.2) rs ((x.vals y a).zip (x.vals y b))

/-- Integer arithmetic on two registers (R172): the exact result wrapped, or clamped with MOD 0b01. -/
def int2 (y : BitVec 4) (m : BitVec 2) (a b : BitVec 5) (f : Int → Int → Int) (x : Slot) : Line :=
  let w := tyWidth y
  ofLanes w (List.zipWith
    (fun u v => wrapTo w (if m = 1 then clampInt w (tySign y) (f u v) else f u v)) (x.ints y a) (x.ints y b))

/-- VADD, VSUB and VMUL (R171, R172). -/
def arith (i : Instr) (d a b : BitVec 5) (y : BitVec 4) (m : BitVec 2)
    (f : FpFmt → Rounding → Val → Val → Nat × BitVec 5) (g : Int → Int → Int) (s : State) : Result :=
  if tyFloat y then vecRound i d [a, b] (1024 / tyWidth y) (tyWidth y) (float2 y a b f) s
  else vecOp i d (fun x => x.vmasks [a, b]) (int2 y m a b g) s

/-- The minimum or maximum of two lanes (R171). -/
def laneMinMax (y : BitVec 4) (maxi : Bool) (a b : Nat) : Nat :=
  if tyFloat y then (fmtOfTy y).minmax maxi a b
  else
    let w := tyWidth y
    let less := decide (intOf w (tySign y) a < intOf w (tySign y) b)
    if less != maxi then a else b

/-- Whether a relation of R174 holds of two lanes: 0 equal, 1 below, 2 below or equal. -/
def laneRel (y : BitVec 4) (rel : Nat) (a b : Nat) : Bool :=
  let eq := if tyFloat y then ((fmtOfTy y).decode a).eq ((fmtOfTy y).decode b) else a == b
  let lt := if tyFloat y then ((fmtOfTy y).decode a).lt ((fmtOfTy y).decode b)
    else decide (intOf (tyWidth y) (tySign y) a < intOf (tyWidth y) (tySign y) b)
  match rel with | 0 => eq | 1 => lt | _ => lt || eq

/-- A compare (R174). -/
def compareOp (i : Instr) (d a b : BitVec 5) (y : BitVec 4) (rel : Nat) (s : State) : Result :=
  vecOp i d (fun x => x.vmasks [a, b])
    (fun x => x.lane2 (tyWidth y) a b fun u v => if laneRel y rel u v then 2 ^ tyWidth y - 1 else 0) s

/-- One level of the pairwise tree (R140): lane i with lane i + h. -/
def pairLevel {α : Type} (f : Rounding → α → α → α) (h : Nat) (rs : List Rounding) (l : List α) : List α :=
  List.zipWith (fun r (p : α × α) => f r p.1 p.2) rs ((l.take h).zip (l.drop h))

/-- The pairwise tree of R140 over 2^k lanes; `rs` holds a rounding for each combination, level by
level. -/
def pairTree {α : Type} (f : Rounding → α → α → α) : Nat → List Rounding → List α → List α
  | 0, _, l => l
  | k + 1, rs, l => pairTree f k (rs.drop (2 ^ k)) (pairLevel f (2 ^ k) rs l)

/-- The value of a reduction as the scalar register takes it (R175). -/
def scalarOfLane (y : BitVec 4) (v : Nat) : Word :=
  if tyInt y && tySign y then BitVec.ofInt 64 (toSigned (tyWidth y) v) else BitVec.ofNat 64 v

/-- VRMAX and VRMIN (R175). -/
def reduceMinMax (i : Instr) (d a : BitVec 5) (y : BitVec 4) (maxi : Bool) (s : State) : Result :=
  issue i s fun q s => complete q s fun x =>
    let w := tyWidth y
    let l := lanes w (x.vreg a)
    let r := pairTree (fun _ u v => laneMinMax y maxi u v) (Nat.log2 (1024 / w))
      (List.replicate (1024 / w) rne) l
    x.setS d (scalarOfLane y (r.headD 0)) (x.vmask a)

/-- Lane n of a list of lanes, with the index reduced to the lane count (R176). -/
def laneAt (l : List Nat) (n : Nat) : Nat := l.getD (n % l.length) 0

/-- Whether a conversion is exact (R128), from type st to type dt of R85; a conversion of a type to
itself is one too. -/
def exactTy (st dt : BitVec 4) : Bool :=
  st == dt || (dt == 0 && (tyFloat st || st == 3 || st == 4)) ||
    ((dt == 1 || dt == 2) && (st == 3 || st == 4))

/-- One element of VCVT (R177). -/
def convertLane (st dt : BitVec 4) (flush : Bool) (r : Rounding) (v : Nat) : Nat × BitVec 5 :=
  let floatTy (y : BitVec 4) := decide (y.toNat < 8)
  if floatTy st then
    let x := (fmtOfTy st).decode v
    if floatTy dt then
      (fmtOfTy dt).flush (flush && !exactTy st dt) ((fmtOfTy dt).round r x)
    else
      let (z, fl) := x.toInt r (intMin (tyWidth dt) (tySign dt)) (intMax (tyWidth dt) (tySign dt))
      (wrapTo (tyWidth dt) z, fl)
  else
    let z := intOf (tyWidth st) (tySign st) v
    if floatTy dt then (fmtOfTy dt).flush flush ((fmtOfTy dt).round r (Val.ofInt z))
    else (wrapTo (tyWidth dt) (clampInt (tyWidth dt) (tySign dt) z), 0)

/-- VADD (R171, R172). -/
def execVadd (d a b : BitVec 5) (y : BitVec 4) (m : BitVec 2) (s : State) : Result :=
  arith (.vadd d a b y m) d a b y m (fun f r u v => f.addR r u v) (fun u v => u + v) s

/-- VSUB (R171, R172). -/
def execVsub (d a b : BitVec 5) (y : BitVec 4) (m : BitVec 2) (s : State) : Result :=
  arith (.vsub d a b y m) d a b y m (fun f r u v => f.addR r u v.neg) (fun u v => u - v) s

/-- VMUL (R171, R172). -/
def execVmul (d a b : BitVec 5) (y : BitVec 4) (m : BitVec 2) (s : State) : Result :=
  arith (.vmul d a b y m) d a b y m (fun f r u v => f.mulR r u v) (fun u v => u * v) s

/-- VFMA (R171). -/
def execVfma (d a b : BitVec 5) (y : BitVec 4) (s : State) : Result :=
  vecRound (.vfma d a b y) d [a, b, d] (1024 / tyWidth y) (tyWidth y)
    (fun x rs => List.zipWith (fun r (p : (Val × Val) × Val) => (fmtOfTy y).fmaR r p.1.1 p.1.2 p.2) rs
      (((x.vals y a).zip (x.vals y b)).zip (x.vals y d))) s

/-- VMIN (R171). -/
def execVmin (d a b : BitVec 5) (y : BitVec 4) (s : State) : Result :=
  vecOp (.vmin d a b y) d (fun x => x.vmasks [a, b])
    (fun x => x.lane2 (tyWidth y) a b (laneMinMax y false)) s

/-- VMAX (R171). -/
def execVmax (d a b : BitVec 5) (y : BitVec 4) (s : State) : Result :=
  vecOp (.vmax d a b y) d (fun x => x.vmasks [a, b])
    (fun x => x.lane2 (tyWidth y) a b (laneMinMax y true)) s

/-- VABS (R171): the sign bit cleared, or the wrapped absolute value. -/
def execVabs (d a : BitVec 5) (y : BitVec 4) (s : State) : Result :=
  vecOp (.vabs d a y) d (fun x => x.vmask a)
    (fun x => ofLanes (tyWidth y) ((lanes (tyWidth y) (x.vreg a)).map fun u =>
      if tyFloat y then u % 2 ^ (tyWidth y - 1) else wrapTo (tyWidth y) (toSigned (tyWidth y) u).natAbs)) s

/-- VNEG (R171): the sign bit inverted, or the wrapped negation. -/
def execVneg (d a : BitVec 5) (y : BitVec 4) (s : State) : Result :=
  vecOp (.vneg d a y) d (fun x => x.vmask a)
    (fun x => ofLanes (tyWidth y) ((lanes (tyWidth y) (x.vreg a)).map fun u =>
      if tyFloat y then (u + 2 ^ (tyWidth y - 1)) % 2 ^ tyWidth y
      else wrapTo (tyWidth y) (-(toSigned (tyWidth y) u)))) s

/-- VDIV (R171, R173). -/
def execVdiv (d a b : BitVec 5) (s : State) : Result :=
  vecRound (.vdiv d a b) d [a, b] 32 32 (float2 0 a b fun f r u v => f.div r u v) s

/-- VSQRT (R171, R173). -/
def execVsqrt (d a : BitVec 5) (s : State) : Result :=
  vecRound (.vsqrt d a) d [a] 32 32
    (fun x rs => List.zipWith (fun r v => FpFmt.f32.sqrt r v) rs (x.vals 0 a)) s

/-- VEXP2 (R173). -/
def execVexp2 (d a : BitVec 5) (s : State) : Result :=
  vecRound (.vexp2 d a) d [a] 32 32
    (fun x rs => List.zipWith (fun r v => exp2F32 r v) rs (x.vals 0 a)) s

/-- VAND (R171). -/
def execVand (d a b : BitVec 5) (y : BitVec 4) (s : State) : Result :=
  vecOp (.vand d a b y) d (fun x => x.vmasks [a, b]) (fun x => x.vreg a &&& x.vreg b) s

/-- VOR (R171). -/
def execVor (d a b : BitVec 5) (y : BitVec 4) (s : State) : Result :=
  vecOp (.vor d a b y) d (fun x => x.vmasks [a, b]) (fun x => x.vreg a ||| x.vreg b) s

/-- VXOR (R171). -/
def execVxor (d a b : BitVec 5) (y : BitVec 4) (s : State) : Result :=
  vecOp (.vxor d a b y) d (fun x => x.vmasks [a, b]) (fun x => x.vreg a ^^^ x.vreg b) s

/-- VSHL (R171). -/
def execVshl (d a b : BitVec 5) (y : BitVec 4) (s : State) : Result :=
  vecOp (.vshl d a b y) d (fun x => x.vmasks [a, b])
    (fun x => x.lane2 (tyWidth y) a b fun u k => u * 2 ^ (k % tyWidth y)) s

/-- VSHR (R171). -/
def execVshr (d a b : BitVec 5) (y : BitVec 4) (s : State) : Result :=
  vecOp (.vshr d a b y) d (fun x => x.vmasks [a, b])
    (fun x => x.lane2 (tyWidth y) a b fun u k =>
      wrapTo (tyWidth y) (intOf (tyWidth y) (tySign y) u / 2 ^ (k % tyWidth y))) s

/-- VCEQ (R174). -/
def execVceq (d a b : BitVec 5) (y : BitVec 4) (s : State) : Result :=
  compareOp (.vceq d a b y) d a b y 0 s

/-- VCLT (R174). -/
def execVclt (d a b : BitVec 5) (y : BitVec 4) (s : State) : Result :=
  compareOp (.vclt d a b y) d a b y 1 s

/-- VCLE (R174). -/
def execVcle (d a b : BitVec 5) (y : BitVec 4) (s : State) : Result :=
  compareOp (.vcle d a b y) d a b y 2 s

/-- VSEL (R174). -/
def execVsel (d a b : BitVec 5) (y : BitVec 4) (s : State) : Result :=
  vecOp (.vsel d a b y) d (fun x => x.vmasks [a, b, d])
    (fun x =>
      let w := tyWidth y
      ofLanes w (List.zipWith (fun c (p : Nat × Nat) => if c = 0 then p.2 else p.1) (lanes w (x.vreg d))
        ((lanes w (x.vreg a)).zip (lanes w (x.vreg b))))) s

/-- VRSUM (R175): the pairwise tree with a draw for each combination, or the exact integer sum. -/
def execVrsum (d a : BitVec 5) (y : BitVec 4) (s : State) : Result :=
  issue (.vrsum d a y) s fun q s => complete q s fun x =>
    let w := tyWidth y
    let n := 1024 / w
    if tyFloat y then
      let f := fmtOfTy y
      let comb (r : Rounding) (u v : Nat × BitVec 5) : Nat × BitVec 5 :=
        let (k, fl) := f.addR r (f.decode u.1) (f.decode v.1)
        (k, u.2 ||| v.2 ||| fl)
      let t := (pairTree comb (Nat.log2 n) (x.roundings (n - 1)) ((lanes w (x.vreg a)).map (·, 0))).headD (0, 0)
      ((x.setS d (BitVec.ofNat 64 t.1) (x.vmask a)).orFlags t.2).takeSteps (n - 1)
    else x.setS d (BitVec.ofInt 64 ((x.ints y a).foldl (fun u v => u + v) 0)) (x.vmask a)

/-- VRMAX (R175). -/
def execVrmax (d a : BitVec 5) (y : BitVec 4) (s : State) : Result :=
  reduceMinMax (.vrmax d a y) d a y true s

/-- VRMIN (R175). -/
def execVrmin (d a : BitVec 5) (y : BitVec 4) (s : State) : Result :=
  reduceMinMax (.vrmin d a y) d a y false s

/-- VPERM (R176). -/
def execVperm (d a b : BitVec 5) (y : BitVec 4) (s : State) : Result :=
  vecOp (.vperm d a b y) d (fun x => x.vmasks [a, b])
    (fun x => x.lane2 (tyWidth y) b b fun k _ => laneAt (lanes (tyWidth y) (x.vreg a)) k) s

/-- VROT (R176). -/
def execVrot (d a b : BitVec 5) (y : BitVec 4) (s : State) : Result :=
  vecOp (.vrot d a b y) d (fun x => (x.vmask a).union (x.smask b))
    (fun x =>
      let l := lanes (tyWidth y) (x.vreg a)
      ofLanes (tyWidth y) ((List.range l.length).map fun k => laneAt l (k + (x.sreg b).toNat))) s

/-- VBCST (R176). -/
def execVbcst (d a : BitVec 5) (y : BitVec 4) (s : State) : Result :=
  vecOp (.vbcst d a y) d (fun x => x.smask a)
    (fun x => ofLanes (tyWidth y) (List.replicate (1024 / tyWidth y) (x.sreg a).toNat)) s

/-- VEXT (R176). -/
def execVext (d a b : BitVec 5) (y : BitVec 4) (s : State) : Result :=
  issue (.vext d a b y) s fun q s => complete q s fun x =>
    x.setS d (scalarOfLane y (laneAt (lanes (tyWidth y) (x.vreg a)) (x.sreg b).toNat))
      ((x.vmask a).union (x.smask b))

/-- VINS (R176). -/
def execVins (d a b : BitVec 5) (y : BitVec 4) (s : State) : Result :=
  vecOp (.vins d a b y) d (fun x => ((x.vmask d).union (x.smask a)).union (x.smask b))
    (fun x =>
      let l := lanes (tyWidth y) (x.vreg d)
      ofLanes (tyWidth y) (l.set ((x.sreg b).toNat % l.length) ((x.sreg a).toNat % 2 ^ tyWidth y))) s

/-- VCVT (R177). -/
def execVcvt (d a : BitVec 5) (st y : BitVec 4) (s : State) : Result :=
  issue (.vcvt d a st y) s fun q s => complete q s fun x =>
    let n := 1024 / max (tyWidth st) (tyWidth y)
    let r := gather (List.zipWith (fun r v => convertLane st y x.flush r v) (x.roundings n)
      (lanes (tyWidth st) (x.vreg a)))
    let z := (x.setV d (ofLanes (tyWidth y) r.1) (x.vmask a)).orFlags r.2
    if st.toNat < 8 ∨ y.toNat < 8 then z.takeSteps n else z

/-- VMOV (R178). -/
def execVmov (d a : BitVec 5) (s : State) : Result :=
  vecOp (.vmov d a) d (fun x => x.vmask a) (fun x => x.vreg a) s

end Sys2Proof.Machine
end

