-- ==== Sys2Proof/Machine/Walker.lean ====
section
/-! DEFINITION. The format walker (R230 to R249): its contexts and their grant, WSTART and WSTOP, the walker
words, the streams and their order, the tile buffers, emissions, and the end of a walk. -/

namespace Sys2Proof.Machine

/-! ### The shape of a walk (R231, R232) -/

/-- TFMT. -/
def shapeFmt (w : Word) : Nat := fieldOf w 20 16
/-- Columns of the tile buffers. -/
def shapeCols (w : Word) : Nat := fieldOf w 14 8 + 1
/-- Rows of the tile buffers. -/
def shapeRows (w : Word) : Nat := fieldOf w 6 0 + 1
/-- Bytes of an element. -/
def shapeElem (w : Word) : Nat := fmtBits (shapeFmt w) / 8
/-- Bytes of a tile buffer. -/
def shapeBytes (w : Word) : Nat := shapeRows w * shapeCols w * shapeElem w

/-- Whether WPC and WSHAPE may start a walk (R233). (DEDUCED: log entry 31.) -/
def walkOk (pc shape : Word) : Bool :=
  fieldOf pc 63 57 == 0 && fieldOf pc 1 0 == 0 && fieldOf shape 63 21 == 0 && !shape.getLsbD 15 &&
    !shape.getLsbD 7 && [0, 1, 2, 3, 4, 8, 10, 11].contains (shapeFmt shape) && decide (shapeBytes shape ≤ 16384)

/-- The state that a walk starts with (R234). -/
def Walk.start (q : Nat) (e : RingEntry) : Walk :=
  { thread := q, seq := e.seq, set := wordSet e.word, shape := e.reg 1,
    w := [(1, e.valA), (2, e.valB), (3, e.reg 2)], t0 := [], t1 := [], row0 := 0, col0 := 0,
    str0 := Stream.empty, str1 := Stream.empty, pc := low57 (e.reg 0), emits := 0, flags := 0,
    suspended := false, stop := false }

/-- A walker register; w0 reads as zero. -/
def Walk.get (w : Walk) (r : BitVec 4) : Word := if r = 0 then 0 else getAt 0 w.w r.toNat

/-- The walk with a register written; a write to w0 is discarded. -/
def Walk.set_ (w : Walk) (r : BitVec 4) (v : Word) : Walk := if r = 0 then w else { w with w := putAt w.w r.toNat v }

/-- The walk past a word. -/
def Walk.next (w : Walk) : Walk := { w with pc := w.pc + 4 }

/-- A stream of the walk. -/
def Walk.stream (w : Walk) (t : Nat) : Stream := if t = 0 then w.str0 else w.str1

/-- The walk with a stream set. -/
def Walk.setStream (w : Walk) (t : Nat) (x : Stream) : Walk := if t = 0 then { w with str0 := x } else { w with str1 := x }

/-- A tile buffer. -/
def Walk.buffer (w : Walk) (t : Nat) : Store Byte := if t = 0 then w.t0 else w.t1

/-- The walk with a tile buffer set. -/
def Walk.setBuffer (w : Walk) (t : Nat) (x : Store Byte) : Walk := if t = 0 then { w with t0 := x } else { w with t1 := x }

/-- The walk with an element placed in a buffer, at a row and column of it. -/
def Walk.place (w : Walk) (t row col v : Nat) : Walk :=
  let z := shapeElem w.shape
  let base := (row * shapeCols w.shape + col) * z
  w.setBuffer t (((natBytes v z).zipIdx).foldl (fun m b => putAt m (base + b.2) b.1) (w.buffer t))

/-- The bytes of a tile buffer. -/
def Walk.bytes (w : Walk) (t : Nat) : List Byte := (List.range (shapeBytes w.shape)).map fun i => getAt 0 (w.buffer t) i

/-! ### Reads and endings -/

/-- Why a walker word does not complete: an engine stop (with the stream entry concerned), an ending with
REASON (R232), or a wait. -/
inductive WalkStop where
  | eng (h : EngStop) (entry : Option (Nat × Nat))
  | ended (reason : Nat) (entry : Option (Nat × Nat))
  | wait
  deriving DecidableEq, Repr

/-- The outcome of a part of a walker word. -/
abbrev WalkRes (α : Type) := State × (Except WalkStop α)

/-- One part after another. -/
def walkThen {α β : Type} (r : WalkRes α) (k : State → α → WalkRes β) : WalkRes β :=
  match r with
  | (s, .ok a) => k s a
  | (s, .error e) => (s, .error e)

/-- A memory fault of a walk (R249): E_XLAT and E_PROT carry the REASON of R386, E_ABORT that of R411 and every
other cause the MEMORY code. (DEDUCED: log entry 30.) -/
def walkFault {α : Type} (s : State) (f : XFault) (a : Access) (tval : Word) (entry : Option (Nat × Nat)) : WalkRes α :=
  (s, .error (.eng (.fault { f with reason := walkReason f.cause f.reason, collect := false } a tval) entry))

/-- A fault of a walk whose STVAL R388 does not name. -/
def walkOpen {α : Type} (s : State) (cause : BitVec 8) : WalkRes α :=
  walkFault s.openWord.1 (xf cause 0x05) .read s.openWord.2 none

/-- An aligned value of n bytes read by a walk, as an access of its activation. (DEDUCED: log entry 31.) -/
def walkRead (q : Nat) (e : RingEntry) (s : State) (va : Word) (n : Nat) (entry : Option (Nat × Nat)) : WalkRes Nat :=
  match resolve s (s.engWho q e) va n .read with
  | (s1, .error f) => walkFault s1 f .read va entry
  | (s1, .ok l) =>
    match homeOf l.key with
    | .reg o =>
      if n ≠ 4 ∧ n ≠ 8 then walkFault s1 (xf eAlign 0) .read va entry
      else
        match s1.regCheck e.level (s1.slot q).ctx (o / 8 * 8) (halfOf o n) none with
        | some f => walkFault s1 f .read va entry
        | none =>
          let (s2, v) := s1.regRead (o / 8 * 8) (halfOf o n)
          (s2, .ok v.toNat)
    | .ctrl c o => (s1, .ok (s1.ctrlRead c o n))
    | _ =>
      match engReadNow q e s1 va n l with
      | (s2, .ok bs) => (s2, .ok (leNat bs))
      | (s2, .error (.fault f a t)) => walkFault s2 f a t entry
      | (s2, .error h) => (s2, .error (.eng h entry))

/-- A walker word fetched (R235). (DEDUCED: log entry 77.) -/
def walkFetch (q : Nat) (e : RingEntry) (s : State) (pc : BitVec 57) : WalkRes InstrWord :=
  match resolve s (s.engWho q e) (va57 pc) 4 .fetch with
  | (s1, .error f) => walkFault s1 f .fetch (va57 pc) none
  | (s1, .ok l) =>
    match homeOf l.key with
    | .reg o =>
      match s1.regCheck e.level (s1.slot q).ctx (o / 8 * 8) (halfOf o 4) none with
      | some f => walkFault s1 f .fetch (va57 pc) none
      | none =>
        let (s2, v) := s1.regRead (o / 8 * 8) (halfOf o 4)
        (s2, .ok (v.truncate 32))
    | _ =>
      match engReadNow q e s1 (va57 pc) 4 l with
      | (s2, .ok bs) => (s2, .ok (BitVec.ofNat 32 (leNat bs)))
      | (s2, .error (.fault f a t)) => walkFault s2 f a t none
      | (s2, .error h) => (s2, .error (.eng h none))

/-- A walk that ends on a fault (R249): its WSTART is at its result phase with the fault. (DEDUCED: log entry 30.) -/
def State.walkFails (s : State) (k : Nat) (w : Walk) (reason : Nat) (entry : Option (Nat × Nat)) (cause code : BitVec 8)
    (tval : Word) : State :=
  (s.walkOver k w reason entry).pushNext (.engineFault w.thread w.seq cause code tval)

/-- A walk that ends without a fault (R245, R233): the flags of its additions merge (R241). -/
def State.walkEnds (s : State) (k : Nat) (w : Walk) (reason : Nat) : State :=
  ((s.walkOver k w reason none).modSlot w.thread fun x => x.orFlags w.flags).push (.engineDone w.thread w.seq)

/-- What a stop does to its walk. (DEDUCED: log entry 32.) -/
def State.walkStop (s : State) (k : Nat) (w : Walk) : WalkStop → State
  | .wait => s
  | .eng (.need key n const) _ => s.engFetch w.thread w.seq key n const
  | .eng (.fault f _ t) en =>
    if f.cause = shadowFull then s.shadowOverflow w.thread else s.walkFails k w 5 en f.cause f.reason t
  | .ended 0 _ => s.walkEnds k w 0
  | .ended r en => s.openWord.1.walkFails k w r en eWalk (BitVec.ofNat 8 r) s.openWord.2

/-- A walker word executed by the walk that has the turn: its effect, or its stop. (DESIGN CHOICE: log entry 85.) -/
def walkWord (body : Nat → RingEntry → Walk → State → WalkRes Walk) (s : State) : Result :=
  match s.curWalk with
  | none => .fault .noWalk
  | some k =>
    match findAt s.walks k with
    | none => .fault .noWalk
    | some w =>
      match (s.slot w.thread).entry w.seq with
      | none => .fault .noWalk
      | some e =>
        match body w.thread e w s with
        | (s1, .ok w1) =>
          .next ({ s1 with walks := putAt s1.walks k w1 }.modSlot w.thread fun x =>
            match x.entry w.seq with
            | some e => x.setEntry { e with lines := [] }
            | none => x)
        | (s1, .error h) => .next (s1.walkStop k w h)

/-- A walker word that only changes its walk. -/
def walkPure (f : Walk → Walk) (s : State) : Result := walkWord (fun _ _ w s => (s, .ok (f w))) s

/-- WALKER_ILLEGAL_WORD (R236). -/
def execWalkerIllegalWord (_w : InstrWord) (s : State) : Result := walkWord (fun _ _ _ s => (s, .error (.ended 1 none))) s

/-! ### Register words (R237) -/

/-- WLI. -/
def execWli (d : BitVec 4) (i : BitVec 24) (s : State) : Result :=
  walkPure (fun w => (w.set_ d (i.signExtend 64)).next) s

/-- WADDI. -/
def execWaddi (d a : BitVec 4) (i : BitVec 20) (s : State) : Result :=
  walkPure (fun w => (w.set_ d (w.get a + i.signExtend 64)).next) s

/-- A WALU word. -/
def walkAlu (f : Word → Word → Word) (d a b : BitVec 4) (s : State) : Result :=
  walkPure (fun w => (w.set_ d (f (w.get a) (w.get b))).next) s

/-- WALU FN 0x0. -/
def execWadd (d a b : BitVec 4) (s : State) : Result := walkAlu (· + ·) d a b s
/-- WALU FN 0x1. -/
def execWsub (d a b : BitVec 4) (s : State) : Result := walkAlu (· - ·) d a b s
/-- WALU FN 0x2. -/
def execWmul (d a b : BitVec 4) (s : State) : Result := walkAlu (· * ·) d a b s
/-- WALU FN 0x3. -/
def execWand (d a b : BitVec 4) (s : State) : Result := walkAlu (· &&& ·) d a b s
/-- WALU FN 0x4. -/
def execWor (d a b : BitVec 4) (s : State) : Result := walkAlu (· ||| ·) d a b s
/-- WALU FN 0x5: the shift amount is b[5:0]. -/
def execWshl (d a b : BitVec 4) (s : State) : Result := walkAlu (fun x y => x <<< (y.toNat % 64)) d a b s
/-- WALU FN 0x6. -/
def execWshr (d a b : BitVec 4) (s : State) : Result := walkAlu (fun x y => x >>> (y.toNat % 64)) d a b s
/-- WALU FN 0x7. -/
def execWminu (d a b : BitVec 4) (s : State) : Result := walkAlu (fun x y => if x.toNat ≤ y.toNat then x else y) d a b s
/-- WALU FN 0x8. -/
def execWsltu (d a b : BitVec 4) (s : State) : Result := walkAlu (fun x y => if x.toNat < y.toNat then 1 else 0) d a b s

/-- WLD. (DEDUCED: log entry 31.) -/
def execWld (d a : BitVec 4) (y : BitVec 3) (o : BitVec 16) (s : State) : Result :=
  walkWord (fun q e w s =>
    let va := va57 (low57 (w.get a) + o.signExtend 57)
    let n := accBytes y
    if va.toNat % n ≠ 0 then walkFault s (xf eAlign 0) .read va none
    else
      walkThen (walkRead q e s va n none) fun s v =>
        (s, .ok (w.set_ d (BitVec.ofNat 64 (if accSigned y then wrapTo 64 (toSigned (8 * n) v) else v))).next)) s

/-- A WBR word: the branch goes to wrap57(pc + 4 × OFF17). -/
def walkBranch (c : Word → Word → Bool) (a b : BitVec 4) (o : BitVec 17) (s : State) : Result :=
  walkPure (fun w => if c (w.get a) (w.get b) then { w with pc := w.pc + 4 * o.signExtend 57 } else w.next) s

/-- WBR CC 0. -/
def execWbeq (a b : BitVec 4) (o : BitVec 17) (s : State) : Result := walkBranch (fun x y => x == y) a b o s
/-- WBR CC 1. -/
def execWbne (a b : BitVec 4) (o : BitVec 17) (s : State) : Result := walkBranch (fun x y => x != y) a b o s
/-- WBR CC 2. -/
def execWbltu (a b : BitVec 4) (o : BitVec 17) (s : State) : Result :=
  walkBranch (fun x y => decide (x.toNat < y.toNat)) a b o s
/-- WBR CC 3. -/
def execWbgeu (a b : BitVec 4) (o : BitVec 17) (s : State) : Result :=
  walkBranch (fun x y => decide (y.toNat ≤ x.toNat)) a b o s
/-- WBR CC 4. -/
def execWblts (a b : BitVec 4) (o : BitVec 17) (s : State) : Result :=
  walkBranch (fun x y => decide (x.toInt < y.toInt)) a b o s
/-- WBR CC 5. -/
def execWbges (a b : BitVec 4) (o : BitVec 17) (s : State) : Result :=
  walkBranch (fun x y => decide (y.toInt ≤ x.toInt)) a b o s

/-! ### Streams (R239 to R241) -/

/-- A stream as WSTRM configures it: START, POS and END from the register n. (DEDUCED: log entry 31.) -/
def walkStream (w : Walk) (c v n : BitVec 4) (dup : Bool) : Stream :=
  ⟨w.get c, w.get v, decide (v = 0), fieldOf (w.get n) 31 0, fieldOf (w.get n) 31 0, fieldOf (w.get n) 63 32, dup⟩

/-- WSTRM (R239). -/
def execWstrm (c v n : BitVec 4) (t d : BitVec 1) (s : State) : Result :=
  walkWord (fun _ _ w s =>
    let x := walkStream w c v n (d == 1)
    if x.fin < x.start then (s, .error (.ended 3 none))
    else if x.cbase.toNat % 4 ≠ 0 then walkFault s (xf eAlign 0) .read x.cbase none
    else if !x.ones ∧ x.vbase.toNat % shapeElem w.shape ≠ 0 then walkFault s (xf eAlign 0) .read x.vbase none
    else (s, .ok (w.setStream t.toNat x).next)) s

/-- The coordinate of entry i of a stream as memory holds it. -/
def rawCoord (q : Nat) (e : RingEntry) (t i : Nat) (x : Stream) (s : State) : WalkRes Nat :=
  walkRead q e s (x.cbase + BitVec.ofNat 64 (4 * i)) 4 (some (t, i))

/-- The coordinate of entry i read and checked (R240). -/
def coordAt (q : Nat) (e : RingEntry) (t i : Nat) (x : Stream) (s : State) : WalkRes Nat :=
  walkThen (rawCoord q e t i x s) fun s c =>
    if x.start < i then
      walkThen (rawCoord q e t (i - 1) x s) fun s p =>
        if c < p ∨ (c = p ∧ !x.dup) then (s, .error (.ended 2 (some (t, i))))
        else if c = 0xFFFFFFFF then (s, .error (.ended 3 (some (t, i))))
        else (s, .ok c)
    else if c = 0xFFFFFFFF then (s, .error (.ended 3 (some (t, i))))
    else (s, .ok c)

/-- The coordinate at the head of a stream, where it is not empty. -/
def headCoord (q : Nat) (e : RingEntry) (t : Nat) (x : Stream) (s : State) : WalkRes (Option Nat) :=
  if x.pos < x.fin then walkThen (coordAt q e t x.pos x s) fun s c => (s, .ok (some c)) else (s, .ok none)

/-- The end of the run of entries at the head whose coordinate is c (R241): the entry alone outside DUP
mode. `fuel` bounds the entries looked at. -/
def runEnd (q : Nat) (e : RingEntry) (t c : Nat) (x : Stream) : Nat → Nat → State → WalkRes Nat
  | 0, i, s => (s, .ok i)
  | f + 1, i, s =>
    if x.dup ∧ i < x.fin then
      walkThen (coordAt q e t i x s) fun s d => if d = c then runEnd q e t c x f (i + 1) s else (s, .ok i)
    else (s, .ok i)

/-- The value of entry i (R239). -/
def entryValue (q : Nat) (e : RingEntry) (fmt t i : Nat) (x : Stream) (s : State) : WalkRes Nat :=
  if x.ones then (s, .ok (identOne fmt))
  else walkRead q e s (x.vbase + BitVec.ofNat 64 (i * (fmtBits fmt / 8))) (fmtBits fmt / 8) (some (t, i))

/-- A sum in TFMT (R241): rounded RNE, or wrapped. -/
def walkAdd (fmt a b : Nat) : Nat × BitVec 5 :=
  if fmt ≤ 4 then
    let f := fmtOfTy (BitVec.ofNat 4 fmt)
    f.addR rne (f.decode a) (f.decode b)
  else ((a + b) % 2 ^ fmtBits fmt, 0)

/-- The sum of a run's values in index order, with the flags of its additions. -/
def runValue (q : Nat) (e : RingEntry) (fmt t : Nat) (x : Stream) : Nat → Nat → Nat → BitVec 5 → State →
    WalkRes (Nat × BitVec 5)
  | 0, _, v, fl, s => (s, .ok (v, fl))
  | n + 1, i, v, fl, s =>
    walkThen (entryValue q e fmt t i x s) fun s u =>
      let r := walkAdd fmt v u
      runValue q e fmt t x n (i + 1) r.1 (fl ||| r.2) s

/-- The value of the entry or run at the head of a stream, which ends before `stop`. -/
def headValue (q : Nat) (e : RingEntry) (fmt t stop : Nat) (x : Stream) (s : State) : WalkRes (Nat × BitVec 5) :=
  walkThen (entryValue q e fmt t x.pos x s) fun s v => runValue q e fmt t x (stop - (x.pos + 1)) (x.pos + 1) v 0 s

/-- WSKIP (R239), entry by entry. (DEDUCED: log entry 29.) -/
def skipTo (q : Nat) (e : RingEntry) (t lim : Nat) : Nat → Walk → State → WalkRes Walk
  | 0, w, s => (s, .ok w)
  | f + 1, w, s =>
    let x := w.stream t
    walkThen (headCoord q e t x s) fun s h =>
      match h with
      | some c =>
        if c < lim then
          walkThen (runEnd q e t c x x.fin (x.pos + 1) s) fun s j => skipTo q e t lim f (w.setStream t { x with pos := j }) s
        else (s, .ok w)
      | none => (s, .ok w)

/-- WSKIP. -/
def execWskip (a : BitVec 4) (t : BitVec 1) (s : State) : Result :=
  walkWord (fun q e w s =>
    let x := w.stream t.toNat
    walkThen (skipTo q e t.toNat (fieldOf (w.get a) 31 0) (x.fin - x.pos + 1) w s) fun s w => (s, .ok w.next)) s

/-- WPEEK (R239). -/
def execWpeek (d : BitVec 4) (t : BitVec 1) (k : BitVec 2) (s : State) : Result :=
  walkWord (fun q e w s =>
    let x := w.stream t.toNat
    let put (s : State) (v : Nat) : WalkRes Walk := (s, .ok (w.set_ d (BitVec.ofNat 64 v)).next)
    if k = 0 then walkThen (headCoord q e t.toNat x s) fun s h => put s (h.getD 0xFFFFFFFF)
    else if k = 1 then put s x.pos
    else put s (x.fin - x.pos)) s

/-! ### Placing (R242, R243) -/

/-- WTILE. -/
def execWtile (a b : BitVec 4) (s : State) : Result :=
  walkPure (fun w => { w.next with row0 := fieldOf (w.get a) 31 0, col0 := fieldOf (w.get b) 31 0 }) s

/-- The first coordinate past the window. -/
def Walk.lim (w : Walk) : Nat := w.col0 + shapeCols w.shape

/-- The row of a buffer that a register names, where it lies in the tile. -/
def Walk.row (w : Walk) (r : Word) : Option Nat :=
  if r.toNat < w.row0 ∨ shapeRows w.shape ≤ r.toNat - w.row0 then none else some (r.toNat - w.row0)

/-- The head of a stream, at coordinate c, placed where it lies in the window, and consumed. -/
def placeHead (q : Nat) (e : RingEntry) (t buf row col c : Nat) (inside : Bool) (w : Walk) (s : State) : WalkRes Walk :=
  let x := w.stream t
  walkThen (runEnd q e t c x x.fin (x.pos + 1) s) fun s j =>
    if inside then
      walkThen (headValue q e (shapeFmt w.shape) t j x s) fun s v =>
        (s, .ok { (w.place buf row col v.1).setStream t { x with pos := j } with flags := w.flags ||| v.2 })
    else (s, .ok (w.setStream t { x with pos := j }))

/-- `wscat` of R242. -/
def scatter (q : Nat) (e : RingEntry) (t buf row : Nat) : Nat → Walk → State → WalkRes Walk
  | 0, w, s => (s, .ok w)
  | f + 1, w, s =>
    walkThen (headCoord q e t (w.stream t) s) fun s h =>
      match h with
      | none => (s, .ok w)
      | some c =>
        if w.lim ≤ c then (s, .ok w)
        else
          walkThen (placeHead q e t buf row (c - w.col0) c (decide (w.col0 ≤ c)) w s) fun s w =>
            scatter q e t buf row f w s

/-- WSCAT. (DEDUCED: log entry 29.) -/
def execWscat (a : BitVec 4) (t buf : BitVec 1) (s : State) : Result :=
  walkWord (fun q e w s =>
    match w.row (w.get a) with
    | none => (s, .error (.ended 3 none))
    | some r =>
      let x := w.stream t.toNat
      walkThen (scatter q e t.toNat buf.toNat r (x.fin - x.pos + 1) w s) fun s w => (s, .ok w.next)) s

/-- Which of two heads that both end the walk is reached first (R240, R243): the one with the lesser coordinate, stream 0
where they are equal. Reads that have still to be made come before. (DEDUCED: log entry 30.) -/
def firstFault (q : Nat) (e : RingEntry) (x y : Stream) (a b : WalkStop) (s : State) : WalkStop :=
  match a, b with
  | .ended _ (some (_, i)), .ended _ (some (_, j)) =>
    match (rawCoord q e 0 i x s).2, (rawCoord q e 1 j y s).2 with
    | .ok c, .ok d => if d < c then b else a
    | _, _ => a
  | .ended _ _, .eng (.need _ _ _) _ => b
  | _, _ => a

/-- The coordinates at the heads of both streams (R243). -/
def bothHeads (q : Nat) (e : RingEntry) (w : Walk) (s : State) : WalkRes (Option Nat × Option Nat) :=
  let (s1, a) := headCoord q e 0 w.str0 s
  let (s2, b) := headCoord q e 1 w.str1 s1
  match a, b with
  | .ok x, .ok y => (s2, .ok (x, y))
  | .error f, .ok _ => (s2, .error f)
  | .ok _, .error f => (s2, .error f)
  | .error f, .error g => (s2, .error (firstFault q e w.str0 w.str1 f g s2))

/-- `wmrg` of R243 in union mode: the walk and j. -/
def mergeUnion (q : Nat) (e : RingEntry) (row : Nat) : Nat → Nat → Walk → State → WalkRes (Walk × Nat)
  | 0, j, w, s => (s, .ok (w, j))
  | f + 1, j, w, s =>
    walkThen (bothHeads q e w s) fun s h =>
      let (a, b) := h
      let c? := match a, b with
        | some x, some y => some (min x y)
        | some x, none => some x
        | none, y => y
      match c? with
      | none => (s, .ok (w, j))
      | some c =>
        if w.lim ≤ c then (s, .ok (w, j))
        else
          let inside := decide (w.col0 ≤ c)
          let take (t : Nat) (h : Option Nat) (w : Walk) (s : State) : WalkRes Walk :=
            if h = some c then placeHead q e t t row (c - w.col0) c inside w s else (s, .ok w)
          walkThen (take 0 a w s) fun s w =>
          walkThen (take 1 b w s) fun s w =>
            mergeUnion q e row f (if inside then j + 1 else j) w s

/-- `wmrg` of R243 in intersection mode. -/
def mergeMatch (q : Nat) (e : RingEntry) (row : Nat) : Nat → Nat → Walk → State → WalkRes (Walk × Nat)
  | 0, j, w, s => (s, .ok (w, j))
  | f + 1, j, w, s =>
    walkThen (bothHeads q e w s) fun s h =>
      match h.1, h.2 with
      | some x, some y =>
        if w.lim ≤ min x y then (s, .ok (w, j))
        else if x < y then
          walkThen (placeHead q e 0 0 row 0 x false w s) fun s w => mergeMatch q e row f j w s
        else if y < x then
          walkThen (placeHead q e 1 1 row 0 y false w s) fun s w => mergeMatch q e row f j w s
        else if w.col0 ≤ x then
          if shapeCols w.shape ≤ j then (s, .ok (w, j))
          else
            walkThen (placeHead q e 0 0 row j x true w s) fun s w =>
            walkThen (placeHead q e 1 1 row j x true w s) fun s w => mergeMatch q e row f (j + 1) w s
        else
          walkThen (placeHead q e 0 0 row 0 x false w s) fun s w =>
          walkThen (placeHead q e 1 1 row 0 x false w s) fun s w => mergeMatch q e row f j w s
      | some _, none => (s, .ok (w, j))
      | none, _ => (s, .ok (w, j))

/-- A WMRG word: the row check, the merge, and j in wd. (DEDUCED: log entries 29, 30.) -/
def walkMerge (union : Bool) (d a : BitVec 4) (s : State) : Result :=
  walkWord (fun q e w s =>
    match w.row (w.get a) with
    | none => (s, .error (.ended 3 none))
    | some r =>
      let n := (w.str0.fin - w.str0.pos) + (w.str1.fin - w.str1.pos) + 1
      walkThen (if union then mergeUnion q e r n 0 w s else mergeMatch q e r n 0 w s) fun s p =>
        (s, .ok (p.1.set_ d (BitVec.ofNat 64 p.2)).next)) s

/-- WMRG in union mode. -/
def execWmrgUn (d a : BitVec 4) (s : State) : Result := walkMerge true d a s

/-- WMRG in intersection mode. -/
def execWmrgIs (d a : BitVec 4) (s : State) : Result := walkMerge false d a s

/-! ### Emission, signals and the end (R244, R245) -/

/-- A tile buffer emitted into a slot: its permit, its bytes and its fill. A slot with an uncorrectable line is not
written (R284): the command keeps its permit. -/
def walkEmit (q : Nat) (e : RingEntry) (w : Walk) (buf : Nat) (c : CbInst) (s : State) : WalkRes Walk :=
  let (s1, ix) := s.cbPermitTake c
  let key := c.slotKey ix
  let bs := w.bytes buf
  if s1.anyBad key bs.length then
    let s2 := (s1.detect (some q) key bs.length).openWord
    walkFault (s2.1.modSlot q fun x =>
      match x.entry w.seq with
      | some e => x.setEntry { e with permits := e.permits ++ [(c.key, ix)], parked := true }
      | none => x) (xf eAbort 0x02) .write s2.2 none
  else
    let (s2, t) := s1.bulkWrite key bs (shapeFmt w.shape) e.pts
    let s3 := s2.modSlot q fun x =>
      match x.entry w.seq with
      | some e => x.setEntry { e with pts := max e.pts t, permits := e.permits ++ [(c.key, ix)] }
      | none => x
    (s3.cbFill c.key ix (max e.pts t), .ok { (w.setBuffer buf []).next with emits := w.emits + 1 })

/-- WEMIT (R244): it waits while FREE is 0. -/
def execWemit (h : BitVec 4) (buf : BitVec 1) (s : State) : Result :=
  walkWord (fun q e w s =>
    match s.cbFor q h.toNat with
    | none => walkOpen s eCb
    | some c =>
      if !c.hasProducer ∨ c.pstage ≠ 1 ∨ c.slotBytes < shapeBytes w.shape then walkOpen s eCb
      else if s.peerFenced c then walkOpen s eFenced
      else if c.free = 0 then (s, .error .wait)
      else walkEmit q e w buf.toNat c s) s

/-- WSIG (R245): every earlier emission is performed, and the add follows; it waits for the adds of the walk's earlier
WSIG words. -/
def execWsig (a b : BitVec 4) (s : State) : Result :=
  walkWord (fun q e w s =>
    let va := w.get a
    if e.sent ≠ [] then (s, .error .wait)
    else
      match counterLoc s (s.engWho q e) va .write with
      | (s1, .error f) => walkFault s1 f .write va none
      | (s1, .ok l) =>
        if s1.homeFenced (s1.slot q).ctx l.key then walkFault s1 (xf eFenced 0) .write va none
        else if s1.anyBad l.key 16 then walkFault (s1.detect (some q) l.key 16) (xf eAbort 0x02) .write va none
        else
          let (s2, wd) := s1.widenFor (s1.engWho q e) va
          (((s2.engSent q w.seq l.key).modSlot q fun x =>
            match x.entry w.seq with
            | some e => x.setEntry { e with progress := w.pc.toNat }
            | none => x).push (.counterAddAtHome
            ⟨s2.nextId, some q, none, l.key, va, w.get b, [], e.pts, (s2.slot q).ctx, wd, .plain⟩), .ok w.next)) s

/-- WEND (R245). -/
def execWend (s : State) : Result := walkWord (fun _ _ _ s => (s, .error (.ended 0 none))) s

/-! ### Commands and contexts (R230, R233) -/

/-- WSTART (R233). -/
def execWstart (a b : BitVec 5) (k : BitVec 2) (s : State) : Result :=
  dispatchThen (.wstart a b k) a b (fun q n s => s.queueWalk q n) s

/-- WSTOP (R233). (DEDUCED: log entry 32.) -/
def execWstop (k : BitVec 2) (s : State) : Result := dispatchThen (.wstop k) 0 0 (fun q n s => s.queueWalk q n) s

/-- A WSTART that has no context ends without running (R233). -/
def State.cancelStart (s : State) (q : Nat) (e : RingEntry) : State :=
  (s.modSlot q fun x => x.setEntry { e with phase := 2, stagedRegs := walkEnd (Walk.start q e) 4 none }).push
    (.engineDone q e.seq)

/-- A WSTOP at the walker: the walks of its set stop at their next word, and those that wait end. -/
def State.stopWalks (s : State) (q : Nat) (e : RingEntry) : State :=
  let mine := ((s.slot q).olderThan e).filter fun f =>
    wordIsCmd f.word && f.eng == 6 && f.fn == 0 && wordSet f.word == wordSet e.word
  let s1 := (mine.filter fun f => f.phase == 0 && f.fault.isNone).foldl (fun s f => s.cancelStart q f) s
  let s2 := { s1 with walks := s1.walks.map fun (w : Nat × Walk) =>
    (w.1, if w.2.thread = q ∧ (mine.any fun f => f.seq == w.2.seq) then { w.2 with stop := true } else w.2) }
  (s2.modSlot q fun x => x.setEntry { e with phase := 2 }).push (.engineDone q e.seq)

/-- Walk contexts that a tile holds. -/
def State.tileWalks (s : State) (tile : Nat) : Nat := (s.walks.filter fun w => tileOf w.2.thread == tile).length

/-- The lowest free walk context of a cluster. -/
def State.freeWalk (s : State) (c : Nat) : Option Nat :=
  ((List.range 8).map (8 * c + ·)).find? fun k => (findAt s.walks k).isNone

/-- The command that a place in the walker's queue stands for, while it waits there. -/
def State.waitingWalk (s : State) (w : Nat × Nat × Nat) : Option RingEntry :=
  match (s.slot w.2.1).entry w.2.2 with
  | some e => if e.eng = 6 ∧ e.live 0 then some e else none
  | none => none

/-- The WSTART that is granted next (R230): round robin by tile, and in arrival order within a tile. -/
def State.nextStart (s : State) (c : Nat) : Option ((Nat × Nat × Nat) × RingEntry) :=
  let rr := getAt 0 s.walkRr c
  ((List.range 16).map fun i => 16 * c + (rr + i) % 16).findSome? fun tile =>
    if 2 ≤ s.tileWalks tile then none
    else
      s.walkQueue.findSome? fun w =>
        if tileOf w.2.1 = tile then (s.waitingWalk w).map fun e => (w, e) else none

/-- WALK_CONTEXT_GRANT (R230, R233): the walker of a cluster takes a waiting WSTOP, or grants a context to a
waiting WSTART. (DEDUCED: log entry 32.) -/
def execWalkContextGrant (c : Nat) (s : State) : Result :=
  let s1 := { s with walkQueue := s.walkQueue.filter fun w =>
    match (s.slot w.2.1).entry w.2.2 with
    | some e => e.phase == 0 && e.fault.isNone
    | none => false }
  let again (s : State) (w : Nat × Nat × Nat) : State :=
    { s with walkQueue := s.walkQueue.filter (· ≠ w) }.push (.walkContextGrant c)
  match s1.walkQueue.findSome? fun w =>
      if w.1 = c then (s1.waitingWalk w).bind fun e => if e.fn = 1 then some (w, e) else none else none with
  | some (w, e) => .next ((again s1 w).stopWalks w.2.1 e)
  | none =>
    match s1.freeWalk c, s1.nextStart c with
    | some k, some (w, e) =>
      let q := w.2.1
      let s2 := again s1 w
      if walkOk (e.reg 0) (e.reg 1) then
        .next ({ s2 with
          walks := putAt s2.walks k (Walk.start q e),
          walkRr := putAt s2.walkRr c ((tileOf q + 1) % 16) }.modSlot q fun x => x.setEntry { e with phase := 1 })
      else .next (s2.openWord.1.engStop q e.seq (xf eIll 0) .read s2.openWord.2)
    | _, _ => .next s1

/-! ### A walk's turn -/

/-- Whether a walk must wait for its activation's stores and EGETs that precede its WSTART (R192, R246). -/
def State.walkHeld (s : State) (w : Walk) (e : RingEntry) : Bool :=
  (s.slot w.thread).joinsBefore e.before || s.dirty.any (fun v => v.thread == w.thread && decide (v.id < e.before)) ||
    s.outWrites.any fun v => v.thread == w.thread && decide (v.id < e.before)

/-- What a walk does at its turn. -/
inductive WalkTurn where
  | rest
  | word (i : Instr)
  | illegal (w : InstrWord)

/-- A walk has the turn: at a word boundary it stops where a WSTOP named it, a suspended one too; else it fetches its next word.
(DEDUCED: log entry 29.) -/
def State.walkTurn (s : State) (k : Nat) : State × WalkTurn :=
  match findAt s.walks k with
  | none => (s, .rest)
  | some w =>
    match (s.slot w.thread).entry w.seq with
    | none => (s.dropWalk k, .rest)
    | some e =>
      if w.stop then (s.walkEnds k w 4, .rest)
      else if w.suspended then (s, .rest)
      else
        let s1 := s.drainThread w.thread
        if s1.walkHeld w e then (s1, .rest)
        else
          match walkFetch w.thread e s1 w.pc with
          | (s2, .error h) => (s2.walkStop k w h, .rest)
          | (s2, .ok v) =>
            match decodeWalker v with
            | .ok i => ({ s2 with curWalk := some k }, .word i)
            | .error _ => ({ s2 with curWalk := some k }, .illegal v)

end Sys2Proof.Machine
end

