-- ==== Sys2Proof/Machine/Dispatch.lean ====
section
/-! DEFINITION. What each instruction and each step of the package does: one arm per constructor of
`Instr`, each a call of its own meaning. -/

namespace Sys2Proof.Machine

def exec (i : Instr) (s : State) : Host.Outcome State Fault Refusal :=
  match i with
  | .add d a b => Sys2Proof.Machine.execAdd d a b s
  | .sub d a b => Sys2Proof.Machine.execSub d a b s
  | .mul d a b => Sys2Proof.Machine.execMul d a b s
  | .mulhS64 d a b => Sys2Proof.Machine.execMulhS64 d a b s
  | .mulhZ64 d a b => Sys2Proof.Machine.execMulhZ64 d a b s
  | .divS64 d a b => Sys2Proof.Machine.execDivS64 d a b s
  | .divZ64 d a b => Sys2Proof.Machine.execDivZ64 d a b s
  | .remS64 d a b => Sys2Proof.Machine.execRemS64 d a b s
  | .remZ64 d a b => Sys2Proof.Machine.execRemZ64 d a b s
  | .and d a b => Sys2Proof.Machine.execAnd d a b s
  | .or d a b => Sys2Proof.Machine.execOr d a b s
  | .xor d a b => Sys2Proof.Machine.execXor d a b s
  | .shl d a b => Sys2Proof.Machine.execShl d a b s
  | .shrZ64 d a b => Sys2Proof.Machine.execShrZ64 d a b s
  | .shrS64 d a b => Sys2Proof.Machine.execShrS64 d a b s
  | .minS64 d a b => Sys2Proof.Machine.execMinS64 d a b s
  | .maxS64 d a b => Sys2Proof.Machine.execMaxS64 d a b s
  | .sltS64 d a b => Sys2Proof.Machine.execSltS64 d a b s
  | .sltZ64 d a b => Sys2Proof.Machine.execSltZ64 d a b s
  | .seq d a b => Sys2Proof.Machine.execSeq d a b s
  | .clz d a => Sys2Proof.Machine.execClz d a s
  | .popc d a => Sys2Proof.Machine.execPopc d a s
  | .sel d a b c => Sys2Proof.Machine.execSel d a b c s
  | .madd d a b c => Sys2Proof.Machine.execMadd d a b c s
  | .ext d a t => Sys2Proof.Machine.execExt d a t s
  | .addi d a i0 => Sys2Proof.Machine.execAddi d a i0 s
  | .andi d a i0 => Sys2Proof.Machine.execAndi d a i0 s
  | .ori d a i0 => Sys2Proof.Machine.execOri d a i0 s
  | .xori d a i0 => Sys2Proof.Machine.execXori d a i0 s
  | .shli d a k => Sys2Proof.Machine.execShli d a k s
  | .shriZ64 d a k => Sys2Proof.Machine.execShriZ64 d a k s
  | .shriS64 d a k => Sys2Proof.Machine.execShriS64 d a k s
  | .sltiS64 d a i0 => Sys2Proof.Machine.execSltiS64 d a i0 s
  | .li d i0 => Sys2Proof.Machine.execLi d i0 s
  | .lsi d i0 => Sys2Proof.Machine.execLsi d i0 s
  | .pset p a => Sys2Proof.Machine.execPset p a s
  | .pstep p a => Sys2Proof.Machine.execPstep p a s
  | .pget d p => Sys2Proof.Machine.execPget d p s
  | .padd p a => Sys2Proof.Machine.execPadd p a s
  | .crrd d c => Sys2Proof.Machine.execCrrd d c s
  | .crwr a c => Sys2Proof.Machine.execCrwr a c s
  | .crset a c => Sys2Proof.Machine.execCrset a c s
  | .crclr a c => Sys2Proof.Machine.execCrclr a c s
  | .fadd d a b => Sys2Proof.Machine.execFadd d a b s
  | .fsub d a b => Sys2Proof.Machine.execFsub d a b s
  | .fmul d a b => Sys2Proof.Machine.execFmul d a b s
  | .fdiv d a b => Sys2Proof.Machine.execFdiv d a b s
  | .fmin d a b => Sys2Proof.Machine.execFmin d a b s
  | .fmax d a b => Sys2Proof.Machine.execFmax d a b s
  | .feq d a b => Sys2Proof.Machine.execFeq d a b s
  | .flt d a b => Sys2Proof.Machine.execFlt d a b s
  | .fle d a b => Sys2Proof.Machine.execFle d a b s
  | .fma d a b c => Sys2Proof.Machine.execFma d a b c s
  | .fsqrt d a => Sys2Proof.Machine.execFsqrt d a s
  | .fabs d a => Sys2Proof.Machine.execFabs d a s
  | .fcvtS64 d a => Sys2Proof.Machine.execFcvtS64 d a s
  | .fcvtiS64 d a => Sys2Proof.Machine.execFcvtiS64 d a s
  | .fxsd d a => Sys2Proof.Machine.execFxsd d a s
  | .fxse d a => Sys2Proof.Machine.execFxse d a s
  | .beq a b o => Sys2Proof.Machine.execBeq a b o s
  | .bne a b o => Sys2Proof.Machine.execBne a b o s
  | .bltS64 a b o => Sys2Proof.Machine.execBltS64 a b o s
  | .bgeS64 a b o => Sys2Proof.Machine.execBgeS64 a b o s
  | .bltZ64 a b o => Sys2Proof.Machine.execBltZ64 a b o s
  | .bgeZ64 a b o => Sys2Proof.Machine.execBgeZ64 a b o s
  | .jal o => Sys2Proof.Machine.execJal o s
  | .jr a => Sys2Proof.Machine.execJr a s
  | .jalr d a => Sys2Proof.Machine.execJalr d a s
  | .rep k0 c n k => Sys2Proof.Machine.execRep k0 c n k s
  | .ld t a y o => Sys2Proof.Machine.execLd t a y o s
  | .st t a y o => Sys2Proof.Machine.execSt t a y o s
  | .ldp t p y o => Sys2Proof.Machine.execLdp t p y o s
  | .ldpi t p y => Sys2Proof.Machine.execLdpi t p y s
  | .stp t p y o => Sys2Proof.Machine.execStp t p y o s
  | .stpi t p y => Sys2Proof.Machine.execStpi t p y s
  | .vld v a o => Sys2Proof.Machine.execVld v a o s
  | .vst v a o => Sys2Proof.Machine.execVst v a o s
  | .vldp v p o => Sys2Proof.Machine.execVldp v p o s
  | .vstp v p o => Sys2Proof.Machine.execVstp v p o s
  | .lda t a k0 y => Sys2Proof.Machine.execLda t a k0 y s
  | .stl t a k0 y => Sys2Proof.Machine.execStl t a k0 y s
  | .fence k0 => Sys2Proof.Machine.execFence k0 s
  | .tclr d => Sys2Proof.Machine.execTclr d s
  | .tdep d a => Sys2Proof.Machine.execTdep d a s
  | .vtclr d => Sys2Proof.Machine.execVtclr d s
  | .vtdep d a => Sys2Proof.Machine.execVtdep d a s
  | .aswap t a b k0 w => Sys2Proof.Machine.execAswap t a b k0 w s
  | .acas t a b k0 w => Sys2Proof.Machine.execAcas t a b k0 w s
  | .aadd t a b k0 w => Sys2Proof.Machine.execAadd t a b k0 w s
  | .aand t a b k0 w => Sys2Proof.Machine.execAand t a b k0 w s
  | .aor t a b k0 w => Sys2Proof.Machine.execAor t a b k0 w s
  | .axor t a b k0 w => Sys2Proof.Machine.execAxor t a b k0 w s
  | .amin t a b k0 w g => Sys2Proof.Machine.execAmin t a b k0 w g s
  | .amax t a b k0 w g => Sys2Proof.Machine.execAmax t a b k0 w g s
  | .afadd t a b k0 => Sys2Proof.Machine.execAfadd t a b k0 s
  | .radd a b k0 w => Sys2Proof.Machine.execRadd a b k0 w s
  | .rfadd a b k0 => Sys2Proof.Machine.execRfadd a b k0 s
  | .stn4 t a o => Sys2Proof.Machine.execStn4 t a o s
  | .vadd d a b y m => Sys2Proof.Machine.execVadd d a b y m s
  | .vsub d a b y m => Sys2Proof.Machine.execVsub d a b y m s
  | .vmul d a b y m => Sys2Proof.Machine.execVmul d a b y m s
  | .vfma d a b y => Sys2Proof.Machine.execVfma d a b y s
  | .vmin d a b y => Sys2Proof.Machine.execVmin d a b y s
  | .vmax d a b y => Sys2Proof.Machine.execVmax d a b y s
  | .vabs d a y => Sys2Proof.Machine.execVabs d a y s
  | .vneg d a y => Sys2Proof.Machine.execVneg d a y s
  | .vdiv d a b => Sys2Proof.Machine.execVdiv d a b s
  | .vsqrt d a => Sys2Proof.Machine.execVsqrt d a s
  | .vexp2 d a => Sys2Proof.Machine.execVexp2 d a s
  | .vand d a b y => Sys2Proof.Machine.execVand d a b y s
  | .vor d a b y => Sys2Proof.Machine.execVor d a b y s
  | .vxor d a b y => Sys2Proof.Machine.execVxor d a b y s
  | .vshl d a b y => Sys2Proof.Machine.execVshl d a b y s
  | .vshr d a b y => Sys2Proof.Machine.execVshr d a b y s
  | .vceq d a b y => Sys2Proof.Machine.execVceq d a b y s
  | .vclt d a b y => Sys2Proof.Machine.execVclt d a b y s
  | .vcle d a b y => Sys2Proof.Machine.execVcle d a b y s
  | .vsel d a b y => Sys2Proof.Machine.execVsel d a b y s
  | .vrsum d a y => Sys2Proof.Machine.execVrsum d a y s
  | .vrmax d a y => Sys2Proof.Machine.execVrmax d a y s
  | .vrmin d a y => Sys2Proof.Machine.execVrmin d a y s
  | .vperm d a b y => Sys2Proof.Machine.execVperm d a b y s
  | .vrot d a b y => Sys2Proof.Machine.execVrot d a b y s
  | .vbcst d a y => Sys2Proof.Machine.execVbcst d a y s
  | .vext d a b y => Sys2Proof.Machine.execVext d a b y s
  | .vins d a b y => Sys2Proof.Machine.execVins d a b y s
  | .vcvt d a k0 y => Sys2Proof.Machine.execVcvt d a k0 y s
  | .vmov d a => Sys2Proof.Machine.execVmov d a s
  | .mma a b k0 => Sys2Proof.Machine.execMma a b k0 s
  | .mmag a b m c => Sys2Proof.Machine.execMmag a b m c s
  | .mmas a b k0 => Sys2Proof.Machine.execMmas a b k0 s
  | .mrot a b k0 => Sys2Proof.Machine.execMrot a b k0 s
  | .mzero c => Sys2Proof.Machine.execMzero c s
  | .mld a m c => Sys2Proof.Machine.execMld a m c s
  | .mst a c => Sys2Proof.Machine.execMst a c s
  | .cvt a b m r => Sys2Proof.Machine.execCvt a b m r s
  | .cvb a b m r => Sys2Proof.Machine.execCvb a b m r s
  | .cvq a b m r => Sys2Proof.Machine.execCvq a b m r s
  | .cvqn a b m r => Sys2Proof.Machine.execCvqn a b m r s
  | .cvqnq a b m r => Sys2Proof.Machine.execCvqnq a b m r s
  | .cvtr a b m r => Sys2Proof.Machine.execCvtr a b m r s
  | .twld a b k0 => Sys2Proof.Machine.execTwld a b k0 s
  | .twmc a b k0 => Sys2Proof.Machine.execTwmc a b k0 s
  | .twst a b k0 => Sys2Proof.Machine.execTwst a b k0 s
  | .kbnd a b k0 => Sys2Proof.Machine.execKbnd a b k0 s
  | .ksel a b k0 => Sys2Proof.Machine.execKsel a b k0 s
  | .krst k0 => Sys2Proof.Machine.execKrst k0 s
  | .sgg a b k0 => Sys2Proof.Machine.execSgg a b k0 s
  | .tidld a => Sys2Proof.Machine.execTidld a s
  | .tidinv a => Sys2Proof.Machine.execTidinv a s
  | .tcls a => Sys2Proof.Machine.execTcls a s
  | .wstart a b k0 => Sys2Proof.Machine.execWstart a b k0 s
  | .wstop k0 => Sys2Proof.Machine.execWstop k0 s
  | .bcopy a b k0 => Sys2Proof.Machine.execBcopy a b k0 s
  | .bfill a b k0 => Sys2Proof.Machine.execBfill a b k0 s
  | .eset a e r k0 => Sys2Proof.Machine.execEset a e r k0 s
  | .eget d e r k0 => Sys2Proof.Machine.execEget d e r k0 s
  | .spawn a b => Sys2Proof.Machine.execSpawn a b s
  | .launch a => Sys2Proof.Machine.execLaunch a s
  | .retire => Sys2Proof.Machine.execRetire s
  | .yield => Sys2Proof.Machine.execYield s
  | .msend a b => Sys2Proof.Machine.execMsend a b s
  | .cadd a b k0 => Sys2Proof.Machine.execCadd a b k0 s
  | .caddo t a b k0 => Sys2Proof.Machine.execCaddo t a b k0 s
  | .cwait t a b k0 => Sys2Proof.Machine.execCwait t a b k0 s
  | .cwaitt t a b k0 => Sys2Proof.Machine.execCwaitt t a b k0 s
  | .cbwp a h n => Sys2Proof.Machine.execCbwp a h n s
  | .cbwc a h n => Sys2Proof.Machine.execCbwc a h n s
  | .cbap a h n => Sys2Proof.Machine.execCbap a h n s
  | .cbac a h n => Sys2Proof.Machine.execCbac a h n s
  | .cbstat d h => Sys2Proof.Machine.execCbstat d h s
  | .mark h => Sys2Proof.Machine.execMark h s
  | .mwait a => Sys2Proof.Machine.execMwait a s
  | .mround d => Sys2Proof.Machine.execMround d s
  | .ecall => Sys2Proof.Machine.execEcall s
  | .mcall => Sys2Proof.Machine.execMcall s
  | .eret => Sys2Proof.Machine.execEret s
  | .ifence => Sys2Proof.Machine.execIfence s
  | .brk => Sys2Proof.Machine.execBrk s
  | .xinv a => Sys2Proof.Machine.execXinv a s
  | .xinva => Sys2Proof.Machine.execXinva s
  | .qbind a b => Sys2Proof.Machine.execQbind a b s
  | .qunb a => Sys2Proof.Machine.execQunb a s
  | .slsave a b => Sys2Proof.Machine.execSlsave a b s
  | .slrest a b => Sys2Proof.Machine.execSlrest a b s
  | .slkill a => Sys2Proof.Machine.execSlkill a s
  | .hint h => Sys2Proof.Machine.execHint h s
  | .wli d i0 => Sys2Proof.Machine.execWli d i0 s
  | .waddi d a i0 => Sys2Proof.Machine.execWaddi d a i0 s
  | .wadd d a b => Sys2Proof.Machine.execWadd d a b s
  | .wsub d a b => Sys2Proof.Machine.execWsub d a b s
  | .wmul d a b => Sys2Proof.Machine.execWmul d a b s
  | .wand d a b => Sys2Proof.Machine.execWand d a b s
  | .wor d a b => Sys2Proof.Machine.execWor d a b s
  | .wshl d a b => Sys2Proof.Machine.execWshl d a b s
  | .wshr d a b => Sys2Proof.Machine.execWshr d a b s
  | .wminu d a b => Sys2Proof.Machine.execWminu d a b s
  | .wsltu d a b => Sys2Proof.Machine.execWsltu d a b s
  | .wld d a y o => Sys2Proof.Machine.execWld d a y o s
  | .wbeq a b o => Sys2Proof.Machine.execWbeq a b o s
  | .wbne a b o => Sys2Proof.Machine.execWbne a b o s
  | .wbltu a b o => Sys2Proof.Machine.execWbltu a b o s
  | .wbgeu a b o => Sys2Proof.Machine.execWbgeu a b o s
  | .wblts a b o => Sys2Proof.Machine.execWblts a b o s
  | .wbges a b o => Sys2Proof.Machine.execWbges a b o s
  | .wstrm c v n k0 d => Sys2Proof.Machine.execWstrm c v n k0 d s
  | .wskip a k0 => Sys2Proof.Machine.execWskip a k0 s
  | .wpeek d k0 e => Sys2Proof.Machine.execWpeek d k0 e s
  | .wtile a b => Sys2Proof.Machine.execWtile a b s
  | .wscat a k0 t => Sys2Proof.Machine.execWscat a k0 t s
  | .wmrgUn d a => Sys2Proof.Machine.execWmrgUn d a s
  | .wmrgIs d a => Sys2Proof.Machine.execWmrgIs d a s
  | .wemit h t => Sys2Proof.Machine.execWemit h t s
  | .wsig a b => Sys2Proof.Machine.execWsig a b s
  | .wend => Sys2Proof.Machine.execWend s
  | .powerOn => Sys2Proof.Machine.execPowerOn s
  | .packageReset => Sys2Proof.Machine.execPackageReset s
  | .bootStage n => Sys2Proof.Machine.execBootStage n s
  | .registerWrite r => Sys2Proof.Machine.execRegisterWrite r s
  | .hostRequest r => Sys2Proof.Machine.execHostRequest r s
  | .ucieLinkDown m => Sys2Proof.Machine.execUcieLinkDown m s
  | .doorbell n t pts => Sys2Proof.Machine.execDoorbell n t pts s
  | .launchAdmission n => Sys2Proof.Machine.execLaunchAdmission n s
  | .queueControlWrite n v half level => Sys2Proof.Machine.execQueueControlWrite n v half level s
  | .queueReset n => Sys2Proof.Machine.execQueueReset n s
  | .ttSlotStart k => Sys2Proof.Machine.execTtSlotStart k s
  | .ttClockStep t => Sys2Proof.Machine.execTtClockStep t s
  | .launchCompletion l => Sys2Proof.Machine.execLaunchCompletion l s
  | .pressurePublish c => Sys2Proof.Machine.execPressurePublish c s
  | .distanceRecompute c => Sys2Proof.Machine.execDistanceRecompute c s
  | .peerReport x i0 d c => Sys2Proof.Machine.execPeerReport x i0 d c s
  | .grctlWrite x v => Sys2Proof.Machine.execGrctlWrite x v s
  | .hopAccept h => Sys2Proof.Machine.execHopAccept h s
  | .dispatchDecision t => Sys2Proof.Machine.execDispatchDecision t s
  | .handlerStart x n => Sys2Proof.Machine.execHandlerStart x n s
  | .counterAddAtHome r => Sys2Proof.Machine.execCounterAddAtHome r s
  | .counterWaitAtHome r => Sys2Proof.Machine.execCounterWaitAtHome r s
  | .counterWaitPoll r => Sys2Proof.Machine.execCounterWaitPoll r s
  | .spawnPoolRelease t => Sys2Proof.Machine.execSpawnPoolRelease t s
  | .retirement q => Sys2Proof.Machine.execRetirement q s
  | .messageDelivery m => Sys2Proof.Machine.execMessageDelivery m s
  | .messageExpiry m => Sys2Proof.Machine.execMessageExpiry m s
  | .cbPermit q n => Sys2Proof.Machine.execCbPermit q n s
  | .cbFillComplete k n => Sys2Proof.Machine.execCbFillComplete k n s
  | .channelSlotArrival k x => Sys2Proof.Machine.execChannelSlotArrival k x s
  | .channelCreditArrival k n => Sys2Proof.Machine.execChannelCreditArrival k n s
  | .engineCapture q n => Sys2Proof.Machine.execEngineCapture q n s
  | .engineResultPhase q n => Sys2Proof.Machine.execEngineResultPhase q n s
  | .engineDone q n => Sys2Proof.Machine.execEngineDone q n s
  | .engineFault q n cause reason tval => Sys2Proof.Machine.execEngineFault q n cause reason tval s
  | .trapDelivery q t => Sys2Proof.Machine.execTrapDelivery q t s
  | .walkContextGrant c => Sys2Proof.Machine.execWalkContextGrant c s
  | .combiningRequest r => Sys2Proof.Machine.execCombiningRequest r s
  | .loadCompletion q n => Sys2Proof.Machine.execLoadCompletion q n s
  | .sliceRead q n => Sys2Proof.Machine.execSliceRead q n s
  | .sliceWrite w => Sys2Proof.Machine.execSliceWrite w s
  | .homeAtomic r => Sys2Proof.Machine.execHomeAtomic r s
  | .homeReduction r => Sys2Proof.Machine.execHomeReduction r s
  | .nibbleStoreAtHome r => Sys2Proof.Machine.execNibbleStoreAtHome r s
  | .summaryWiden r => Sys2Proof.Machine.execSummaryWiden r s
  | .writeAck q id wts => Sys2Proof.Machine.execWriteAck q id wts s
  | .nakReceived tag reason => Sys2Proof.Machine.execNakReceived tag reason s
  | .ackTimeout tag => Sys2Proof.Machine.execAckTimeout tag s
  | .dirtyDrainTimeout id => Sys2Proof.Machine.execDirtyDrainTimeout id s
  | .ptsTick => Sys2Proof.Machine.execPtsTick s
  | .releaseComplete r => Sys2Proof.Machine.execReleaseComplete r s
  | .bankctlWrite c b v level ctx => Sys2Proof.Machine.execBankctlWrite c b v level ctx s
  | .bankSwitchComplete c b => Sys2Proof.Machine.execBankSwitchComplete c b s
  | .ccdrain c => Sys2Proof.Machine.execCcdrain c s
  | .escapeTimeout n => Sys2Proof.Machine.execEscapeTimeout n s
  | .flitReceive p seq f => Sys2Proof.Machine.execFlitReceive p seq f s
  | .linkReplay p n => Sys2Proof.Machine.execLinkReplay p n s
  | .portFailure p cause => Sys2Proof.Machine.execPortFailure p cause s
  | .exclusionPacket node id path dests => Sys2Proof.Machine.execExclusionPacket node id path dests s
  | .portUp p node port => Sys2Proof.Machine.execPortUp p node port s
  | .routingEntryWrite t b n v => Sys2Proof.Machine.execRoutingEntryWrite t b n v s
  | .routingSwap t => Sys2Proof.Machine.execRoutingSwap t s
  | .routingSwapComplete t => Sys2Proof.Machine.execRoutingSwapComplete t s
  | .rwinWrite w i0 v half level ctx => Sys2Proof.Machine.execRwinWrite w i0 v half level ctx s
  | .reducePacketAtPort p f => Sys2Proof.Machine.execReducePacketAtPort p f s
  | .reductionHoldExpiry p n => Sys2Proof.Machine.execReductionHoldExpiry p n s
  | .proxyAtomic d k => Sys2Proof.Machine.execProxyAtomic d k s
  | .managementPacket p f => Sys2Proof.Machine.execManagementPacket p f s
  | .noticeResend n => Sys2Proof.Machine.execNoticeResend n s
  | .fnackWrite n => Sys2Proof.Machine.execFnackWrite n s
  | .cctlWrite x v half level => Sys2Proof.Machine.execCctlWrite x v half level s
  | .caldWrite x i0 v half => Sys2Proof.Machine.execCaldWrite x i0 v half s
  | .translationWalk c x va => Sys2Proof.Machine.execTranslationWalk c x va s
  | .trapMessageAtCollector m => Sys2Proof.Machine.execTrapMessageAtCollector m s
  | .fresRetry d r x id => Sys2Proof.Machine.execFresRetry d r x id s
  | .fresFail d r x id => Sys2Proof.Machine.execFresFail d r x id s
  | .attestGo x => Sys2Proof.Machine.execAttestGo x s
  | .attestReportDone x => Sys2Proof.Machine.execAttestReportDone x s
  | .correctableError e => Sys2Proof.Machine.execCorrectableError e s
  | .uncorrectableError e => Sys2Proof.Machine.execUncorrectableError e s
  | .scrubPass key => Sys2Proof.Machine.execScrubPass key s
  | .errheal v => Sys2Proof.Machine.execErrheal v s
  | .fcmdFence x i0 => Sys2Proof.Machine.execFcmdFence x i0 s
  | .fcmdRestart x i0 => Sys2Proof.Machine.execFcmdRestart x i0 s
  | .calderaFence x i0 kind => Sys2Proof.Machine.execCalderaFence x i0 kind s
  | .clusterFence c => Sys2Proof.Machine.execClusterFence c s
  | .lockstepCompare q => Sys2Proof.Machine.execLockstepCompare q s
  | .shadowCommit x => Sys2Proof.Machine.execShadowCommit x s
  | .thermalStep d temp => Sys2Proof.Machine.execThermalStep d temp s
  | .powerLimitWindow pkg dies => Sys2Proof.Machine.execPowerLimitWindow pkg dies s
  | .lifeUpdate temps volts => Sys2Proof.Machine.execLifeUpdate temps volts s
  | .retentionEntry k => Sys2Proof.Machine.execRetentionEntry k s
  | .illegalInstruction w => Sys2Proof.Machine.execIllegalInstruction w s
  | .walkerIllegalWord w => Sys2Proof.Machine.execWalkerIllegalWord w s
  | .ucieLinkUp m => Sys2Proof.Machine.execUcieLinkUp m s
  | .thermalResetTrip d => Sys2Proof.Machine.execThermalResetTrip d s
  | .servoLockChange on => Sys2Proof.Machine.execServoLockChange on s

end Sys2Proof.Machine
end

