-- ==== Sys2Proof/Machine/RunEvent.lean ====
section
/-! DEFINITION. A step that is due performed: each `Event` has the meaning of the constructor of `Instr`
of the same name. -/

namespace Sys2Proof.Machine

/-- The meaning of a step that is due. -/
def runEvent (e : Event) (s : State) : Result :=
  match e with
  | .powerOn => Sys2Proof.Machine.execPowerOn s
  | .packageReset => Sys2Proof.Machine.execPackageReset s
  | .bootStage n => Sys2Proof.Machine.execBootStage n s
  | .registerWrite r => Sys2Proof.Machine.execRegisterWrite r s
  | .hostRequest r => Sys2Proof.Machine.execHostRequest r s
  | .ucieLinkDown m => Sys2Proof.Machine.execUcieLinkDown m s
  | .doorbell n t pts => Sys2Proof.Machine.execDoorbell n t pts s
  | .launchAdmission n => Sys2Proof.Machine.execLaunchAdmission n s
  | .queueControlWrite n v half level => Sys2Proof.Machine.execQueueControlWrite n v half level s
  | .queueReset n => Sys2Proof.Machine.execQueueReset n s
  | .ttSlotStart k => Sys2Proof.Machine.execTtSlotStart k s
  | .ttClockStep t => Sys2Proof.Machine.execTtClockStep t s
  | .launchCompletion l => Sys2Proof.Machine.execLaunchCompletion l s
  | .pressurePublish c => Sys2Proof.Machine.execPressurePublish c s
  | .distanceRecompute c => Sys2Proof.Machine.execDistanceRecompute c s
  | .peerReport x i0 d c => Sys2Proof.Machine.execPeerReport x i0 d c s
  | .grctlWrite x v => Sys2Proof.Machine.execGrctlWrite x v s
  | .hopAccept h => Sys2Proof.Machine.execHopAccept h s
  | .dispatchDecision t => Sys2Proof.Machine.execDispatchDecision t s
  | .handlerStart x n => Sys2Proof.Machine.execHandlerStart x n s
  | .counterAddAtHome r => Sys2Proof.Machine.execCounterAddAtHome r s
  | .counterWaitAtHome r => Sys2Proof.Machine.execCounterWaitAtHome r s
  | .counterWaitPoll r => Sys2Proof.Machine.execCounterWaitPoll r s
  | .spawnPoolRelease t => Sys2Proof.Machine.execSpawnPoolRelease t s
  | .retirement q => Sys2Proof.Machine.execRetirement q s
  | .messageDelivery m => Sys2Proof.Machine.execMessageDelivery m s
  | .messageExpiry m => Sys2Proof.Machine.execMessageExpiry m s
  | .cbPermit q n => Sys2Proof.Machine.execCbPermit q n s
  | .cbFillComplete k n => Sys2Proof.Machine.execCbFillComplete k n s
  | .channelSlotArrival k x => Sys2Proof.Machine.execChannelSlotArrival k x s
  | .channelCreditArrival k n => Sys2Proof.Machine.execChannelCreditArrival k n s
  | .engineCapture q n => Sys2Proof.Machine.execEngineCapture q n s
  | .engineResultPhase q n => Sys2Proof.Machine.execEngineResultPhase q n s
  | .engineDone q n => Sys2Proof.Machine.execEngineDone q n s
  | .engineFault q n cause reason tval => Sys2Proof.Machine.execEngineFault q n cause reason tval s
  | .trapDelivery q t => Sys2Proof.Machine.execTrapDelivery q t s
  | .walkContextGrant c => Sys2Proof.Machine.execWalkContextGrant c s
  | .combiningRequest r => Sys2Proof.Machine.execCombiningRequest r s
  | .loadCompletion q n => Sys2Proof.Machine.execLoadCompletion q n s
  | .sliceRead q n => Sys2Proof.Machine.execSliceRead q n s
  | .sliceWrite w => Sys2Proof.Machine.execSliceWrite w s
  | .homeAtomic r => Sys2Proof.Machine.execHomeAtomic r s
  | .homeReduction r => Sys2Proof.Machine.execHomeReduction r s
  | .nibbleStoreAtHome r => Sys2Proof.Machine.execNibbleStoreAtHome r s
  | .summaryWiden r => Sys2Proof.Machine.execSummaryWiden r s
  | .writeAck q id wts => Sys2Proof.Machine.execWriteAck q id wts s
  | .nakReceived tag reason => Sys2Proof.Machine.execNakReceived tag reason s
  | .ackTimeout tag => Sys2Proof.Machine.execAckTimeout tag s
  | .dirtyDrainTimeout id => Sys2Proof.Machine.execDirtyDrainTimeout id s
  | .ptsTick => Sys2Proof.Machine.execPtsTick s
  | .releaseComplete r => Sys2Proof.Machine.execReleaseComplete r s
  | .bankctlWrite c b v level ctx => Sys2Proof.Machine.execBankctlWrite c b v level ctx s
  | .bankSwitchComplete c b => Sys2Proof.Machine.execBankSwitchComplete c b s
  | .ccdrain c => Sys2Proof.Machine.execCcdrain c s
  | .escapeTimeout n => Sys2Proof.Machine.execEscapeTimeout n s
  | .flitReceive p seq f => Sys2Proof.Machine.execFlitReceive p seq f s
  | .linkReplay p n => Sys2Proof.Machine.execLinkReplay p n s
  | .portFailure p cause => Sys2Proof.Machine.execPortFailure p cause s
  | .exclusionPacket node id path dests => Sys2Proof.Machine.execExclusionPacket node id path dests s
  | .portUp p node port => Sys2Proof.Machine.execPortUp p node port s
  | .routingEntryWrite t b n v => Sys2Proof.Machine.execRoutingEntryWrite t b n v s
  | .routingSwap t => Sys2Proof.Machine.execRoutingSwap t s
  | .routingSwapComplete t => Sys2Proof.Machine.execRoutingSwapComplete t s
  | .rwinWrite w i0 v half level ctx => Sys2Proof.Machine.execRwinWrite w i0 v half level ctx s
  | .reducePacketAtPort p f => Sys2Proof.Machine.execReducePacketAtPort p f s
  | .reductionHoldExpiry p n => Sys2Proof.Machine.execReductionHoldExpiry p n s
  | .proxyAtomic d k => Sys2Proof.Machine.execProxyAtomic d k s
  | .managementPacket p f => Sys2Proof.Machine.execManagementPacket p f s
  | .noticeResend n => Sys2Proof.Machine.execNoticeResend n s
  | .fnackWrite n => Sys2Proof.Machine.execFnackWrite n s
  | .cctlWrite x v half level => Sys2Proof.Machine.execCctlWrite x v half level s
  | .caldWrite x i0 v half => Sys2Proof.Machine.execCaldWrite x i0 v half s
  | .translationWalk c x va => Sys2Proof.Machine.execTranslationWalk c x va s
  | .trapMessageAtCollector m => Sys2Proof.Machine.execTrapMessageAtCollector m s
  | .fresRetry d r x id => Sys2Proof.Machine.execFresRetry d r x id s
  | .fresFail d r x id => Sys2Proof.Machine.execFresFail d r x id s
  | .attestGo x => Sys2Proof.Machine.execAttestGo x s
  | .attestReportDone x => Sys2Proof.Machine.execAttestReportDone x s
  | .correctableError e => Sys2Proof.Machine.execCorrectableError e s
  | .uncorrectableError e => Sys2Proof.Machine.execUncorrectableError e s
  | .scrubPass key => Sys2Proof.Machine.execScrubPass key s
  | .errheal v => Sys2Proof.Machine.execErrheal v s
  | .fcmdFence x i0 => Sys2Proof.Machine.execFcmdFence x i0 s
  | .fcmdRestart x i0 => Sys2Proof.Machine.execFcmdRestart x i0 s
  | .calderaFence x i0 kind => Sys2Proof.Machine.execCalderaFence x i0 kind s
  | .clusterFence c => Sys2Proof.Machine.execClusterFence c s
  | .lockstepCompare q => Sys2Proof.Machine.execLockstepCompare q s
  | .shadowCommit x => Sys2Proof.Machine.execShadowCommit x s
  | .thermalStep d temp => Sys2Proof.Machine.execThermalStep d temp s
  | .powerLimitWindow pkg dies => Sys2Proof.Machine.execPowerLimitWindow pkg dies s
  | .lifeUpdate temps volts => Sys2Proof.Machine.execLifeUpdate temps volts s
  | .retentionEntry k => Sys2Proof.Machine.execRetentionEntry k s
  | .illegalInstruction w => Sys2Proof.Machine.execIllegalInstruction w s
  | .walkerIllegalWord w => Sys2Proof.Machine.execWalkerIllegalWord w s
  | .ucieLinkUp m => Sys2Proof.Machine.execUcieLinkUp m s
  | .thermalResetTrip d => Sys2Proof.Machine.execThermalResetTrip d s
  | .servoLockChange on => Sys2Proof.Machine.execServoLockChange on s

end Sys2Proof.Machine
end

