-- ==== Sys2Proof/Machine/Turns.lean ====
section
/-! DEFINITION. Which agent moves next: the cores with a slot that may issue (R148), the walks, and the
steps that are due; and the passing of time. -/

namespace Sys2Proof.Machine

/-- Whether a slot may issue: it is RUNNING and nothing that may yet trap before its next word is outstanding (R73, R74),
its core has not stopped at M (R389), and every slot it
yielded to that can still issue has issued, or 16 cycles have passed (R369). (DEDUCED: log entry 76.) -/
def State.mayIssue (s : State) (q : Nat) : Bool :=
  let x := s.slot q
  x.state == .running && !x.blocked && !x.retiring && !x.saving && !(s.core (coreOf q)).stopped &&
    !(decide (s.cycle < x.yieldEnd) &&
      x.yielding.any fun r => (s.slot r).state == .running && !(s.slot r).retiring && !(s.slot r).saving)

/-- The slot of a core that issues next, in round robin from the one after the last (R148). -/
def State.nextSlot (s : State) (k : Nat) : Option Nat :=
  ((List.range 4).map fun i => 4 * k + ((s.core k).rr + i) % 4).find? s.mayIssue

/-- The cores with a slot that may issue. -/
def State.readyCores (s : State) : List Nat :=
  ((s.slots.map (·.1)).filter s.mayIssue).map coreOf

/-- The walks that may take a step; a suspended one only to stop (R247). -/
def State.readyWalks (s : State) : List Nat :=
  (s.walks.filter fun e => !e.2.suspended || e.2.stop).map (·.1)

/-- Everything that could move next. (DESIGN CHOICE: log entry 3.) -/
def State.turns (s : State) : List Turn :=
  (List.range s.agenda.length).map Turn.event ++ s.readyCores.map Turn.core ++ s.readyWalks.map Turn.walk

/-- The cycle in which the next rise of the timestamps is due (R262), where the package is ready.
(DEDUCED: log entry 69.) -/
def State.tickDue (s : State) : Option Nat := if s.agenda.contains .ptsTick then some (64 * (s.ticks + 1)) else none

/-- The turn that comes next: the one that is settled, else a rise of the timestamps that is due, else a free choice; none
where nothing can move. (DEDUCED, DESIGN CHOICE: log entries 3, 69.) -/
def State.nextTurn (s : State) : State × Option Turn :=
  match s.focus with
  | some t => ({ s with focus := none }, some t)
  | none =>
    if s.tickDue.any (· ≤ s.cycle) then (s, (s.agenda.findIdx? (· == .ptsTick)).map Turn.event)
    else
    let ts := s.turns
    ({ s with choices := s.choices + 1 }, ts[Config.choice s.choices % ts.length]?)

/-- Nanoseconds of the hub clock in a number of cycles of 1.7 GHz (R6). (DESIGN CHOICE: log entry 75.) -/
def cyclesNs (c : Nat) : Nat := c * 10 / 17

/-- Time passes by a free number of cycles, and never goes back (R155), but not past the end of 64 cycles before the
timestamps have risen (R262). (DEDUCED, DESIGN CHOICE: log entries 69, 75.) -/
def State.tick (s : State) : State :=
  let free := s.cycle + Config.cycles s.choices
  let c := max s.cycle (s.tickDue.elim free (min free))
  { s with cycle := c, choices := s.choices + 1, hubNs := s.hubNs + (cyclesNs c - cyclesNs s.cycle) }

/-- A slot has its core's turn: it is the current one, and its core's round robin moves past it. -/
def State.giveTurn (s : State) (q : Nat) : State :=
  let k := coreOf q
  { s with cur := some q }.setCore k { s.core k with rr := (q % 4 + 1) % 4, retained := false }

/-- Whether an instruction transfers control, and so may leave the PC where it was. -/
def isTransfer : Instr → Bool
  | .beq _ _ _ => true
  | .bne _ _ _ => true
  | .bltS64 _ _ _ => true
  | .bgeS64 _ _ _ => true
  | .bltZ64 _ _ _ => true
  | .bgeZ64 _ _ _ => true
  | .jal _ => true
  | .jr _ => true
  | .jalr _ _ => true
  | _ => false

/-- Whether a turn of a slot has issued its word: the slot has gone past it, or waits in it, or has trapped or retired, or
the word transfers control to itself. A turn in which it waits for a fetch, a register or a mask issues nothing.
(DEDUCED: log entry 76.) -/
def Slot.issuedIn (x y : Slot) (w : InstrWord) : Bool :=
  x.pc != y.pc || x.repst != y.repst || x.state != y.state || x.level != y.level || x.retiring != y.retiring ||
    (match x.decode w with
      | .ok i => isTransfer i && !x.interlocked i.operands
      | .error _ => true)

/-- The slots of the core that yielded to a slot no longer wait for it (R369). (DEDUCED: log entry 76.) -/
def State.endYields (s : State) (q : Nat) : State :=
  ((List.range 4).map (4 * coreOf q + ·)).foldl
    (fun s r =>
      if (s.slot r).yielding.contains q then
        s.modSlot r fun x => { x with yielding := x.yielding.filter (· ≠ q) }
      else s) s

end Sys2Proof.Machine
end

