-- ==== Sys2Proof/Machine/Step.lean ====
section
/-! DEFINITION. One step of the package: one agent's turn; and a state whose next step runs a given
instruction word. -/

namespace Sys2Proof.Machine

/-- What the issue of a word by slot q adds, from the state before it: its items where its context runs in lockstep
(R422), a core that may come to rest where the slot waits (R434), and, where the word has issued, the end of the waits of
the slots that yielded to it (R369). (DEDUCED: log entries 62, 76.) -/
def afterIssue (q : Nat) (w : InstrWord) (s : State) (r : Result) : Result :=
  match r with
  | .next t =>
    let v := if (s.slot q).issuedIn (t.slot q) w then t.endYields q else t
    let u := v.mirror q w (s.slot q)
    .next (if (u.slot q).state = .waiting then u.restFrom (coreOf q) else u)
  | r => r

/-- A core's turn: a slot of it fetches, decodes and executes one word. -/
def coreTurn (k : Nat) (s : State) : Result :=
  match s.nextSlot k with
  | none => .next s
  | some q =>
    match (s.giveTurn q).fetchSlot q with
    | (s1, .wait) => .next s1
    | (s1, .fault f) => .next (s1.fetchFault q f)
    | (s1, .word w) =>
      afterIssue q w s1
        (match (s1.slot q).decode w with
          | .ok i => exec i s1
          | .error v => Sys2Proof.Machine.execIllegalInstruction v s1)

/-- A walk's turn: it fetches, decodes and executes one walker word, or it stops, or waits.
(DEDUCED: log entry 29.) -/
def walkerTurn (k : Nat) (s : State) : Result :=
  match s.walkTurn k with
  | (s1, .rest) => .next s1
  | (s1, .word i) => exec i s1
  | (s1, .illegal w) => Sys2Proof.Machine.execWalkerIllegalWord w s1

/-- The turn of a step that is due: it leaves the agenda and is performed. (DESIGN CHOICE: log entry 86.) -/
def eventTurn (n : Nat) (s : State) : Result :=
  match s.agenda[n]? with
  | none => .next s
  | some e => runEvent e { s with agenda := s.agenda.eraseIdx n }

/-- One step. (DESIGN CHOICE: log entry 3.) -/
def step (s : State) : Host.Outcome State Fault Refusal :=
  match s.tick.nextTurn with
  | (s1, none) => .next s1
  | (s1, some (.core k)) => coreTurn k s1
  | (s1, some (.walk k)) => walkerTurn k s1
  | (s1, some (.event n)) => eventTurn n s1

/-! ### A state that fetches a given word -/

/-- The PC at which `withFetchWord` puts its word; its page is mapped to the same device-memory offset. -/
def fetchPc : BitVec 57 := 0x10000

/-- A leaf that maps the page at `fetchPc` to the same offset, readable, writable and executable, in the translation
cache of cluster 0 for context 0. -/
def fetchLeaf (s : State) : XlatEntry := ⟨0, s.asid 0, 0, vaIndex fetchPc 0, 0x1001F⟩

/-- The stage whose core a word runs on: the math core's where it may, else the feed core's, else the shape
core's. -/
def fetchStage (i : Instr) : Nat := if i.onStage 2 then 2 else if i.onStage 0 then 0 else 1

/-- A slot about to fetch at `fetchPc`. -/
def fetchSlotFor (level : Nat) : Slot :=
  { Slot.empty with state := .running, level := BitVec.ofNat 2 level, nsreg := 4, nvreg := 4, pc := fetchPc }

/-- The ring entry of the WSTART whose walk is about to fetch at `fetchPc`. -/
def fetchEntry : RingEntry :=
  { (Slot.empty.newEntry 0xB0006000 0 0 0) with phase := 1, level := 1, eset := List.replicate 7 0 }

/-- The state in which the next step fetches and runs a word: a Tvedpen word on slot 0 of a core of tile 0 that may
run it, a word of the format walker alone on walk context 0 of cluster 0. The word stands in device memory where the
fetch reads it. (DESIGN CHOICE: log entry 19.) -/
def State.withFetchWord (s : State) (nbits w : Nat) : State :=
  let s1 := { s with
    tlb := fetchLeaf s :: s.tlb,
    mem := s.mem.writeBytes (dramKey fetchPc.toNat) (natBytes w 4),
    bad := s.bad.filter fun e => e.1 ≠ fetchPc.toNat / 8 }
  match decodeTableWord nbits w with
  | some i =>
    if i.isCore then
      let q := slotNum 0 (fetchStage i) 0
      { (s1.setSlot q (fetchSlotFor (max 1 i.minLevel))).setCore (coreOf q) { s.core (coreOf q) with stopped := false, rr := 0 } with
        focus := some (.core (coreOf q)) }
    else
      let x := fetchSlotFor 1
      let k : Walk := { Walk.start 0 fetchEntry with pc := fetchPc }
      { s1.setSlot 0 { x with state := .waiting, ring := [(0, fetchEntry)] } with
        walks := putAt s.walks 0 k, focus := some (.walk 0) }
  | none =>
    let q := slotNum 0 2 0
    { (s1.setSlot q (fetchSlotFor 1)).setCore (coreOf q) { s.core (coreOf q) with stopped := false, rr := 0 } with
      focus := some (.core (coreOf q)) }

end Sys2Proof.Machine
end

