-- ==== Sys2Proof/Safety.lean ====
section
/-! DEFINITION. The terms that the statements use: the invariant of the package's memory, what it means that an
instruction completes, traps or leaves something alone, and the instruction that each due step stands for. -/

namespace Sys2Proof

/-- An instruction is the row of the opcode table that a due step stands for: the one of the same name, with the
same operands. -/
def Event.StandsFor (e : Event) (ins : Instr) : Prop :=
  match e with
  | .powerOn => ins = .powerOn
  | .packageReset => ins = .packageReset
  | .bootStage n => ins = .bootStage n
  | .registerWrite r => ins = .registerWrite r
  | .hostRequest r => ins = .hostRequest r
  | .ucieLinkDown m => ins = .ucieLinkDown m
  | .doorbell n t pts => ins = .doorbell n t pts
  | .launchAdmission n => ins = .launchAdmission n
  | .queueControlWrite n v half level => ins = .queueControlWrite n v half level
  | .queueReset n => ins = .queueReset n
  | .ttSlotStart k => ins = .ttSlotStart k
  | .ttClockStep t => ins = .ttClockStep t
  | .launchCompletion l => ins = .launchCompletion l
  | .pressurePublish c => ins = .pressurePublish c
  | .distanceRecompute c => ins = .distanceRecompute c
  | .peerReport x i d c => ins = .peerReport x i d c
  | .grctlWrite x v => ins = .grctlWrite x v
  | .hopAccept h => ins = .hopAccept h
  | .dispatchDecision t => ins = .dispatchDecision t
  | .handlerStart x n => ins = .handlerStart x n
  | .counterAddAtHome r => ins = .counterAddAtHome r
  | .counterWaitAtHome r => ins = .counterWaitAtHome r
  | .counterWaitPoll r => ins = .counterWaitPoll r
  | .spawnPoolRelease t => ins = .spawnPoolRelease t
  | .retirement q => ins = .retirement q
  | .messageDelivery m => ins = .messageDelivery m
  | .messageExpiry m => ins = .messageExpiry m
  | .cbPermit q n => ins = .cbPermit q n
  | .cbFillComplete k n => ins = .cbFillComplete k n
  | .channelSlotArrival k x => ins = .channelSlotArrival k x
  | .channelCreditArrival k n => ins = .channelCreditArrival k n
  | .engineCapture q n => ins = .engineCapture q n
  | .engineResultPhase q n => ins = .engineResultPhase q n
  | .engineDone q n => ins = .engineDone q n
  | .engineFault q n cause reason tval => ins = .engineFault q n cause reason tval
  | .trapDelivery q t => ins = .trapDelivery q t
  | .walkContextGrant c => ins = .walkContextGrant c
  | .combiningRequest r => ins = .combiningRequest r
  | .loadCompletion q n => ins = .loadCompletion q n
  | .sliceRead q n => ins = .sliceRead q n
  | .sliceWrite w => ins = .sliceWrite w
  | .homeAtomic r => ins = .homeAtomic r
  | .homeReduction r => ins = .homeReduction r
  | .nibbleStoreAtHome r => ins = .nibbleStoreAtHome r
  | .summaryWiden r => ins = .summaryWiden r
  | .writeAck q id wts => ins = .writeAck q id wts
  | .nakReceived tag reason => ins = .nakReceived tag reason
  | .ackTimeout tag => ins = .ackTimeout tag
  | .dirtyDrainTimeout id => ins = .dirtyDrainTimeout id
  | .ptsTick => ins = .ptsTick
  | .releaseComplete r => ins = .releaseComplete r
  | .bankctlWrite c b v level ctx => ins = .bankctlWrite c b v level ctx
  | .bankSwitchComplete c b => ins = .bankSwitchComplete c b
  | .ccdrain c => ins = .ccdrain c
  | .escapeTimeout n => ins = .escapeTimeout n
  | .flitReceive p seq f => ins = .flitReceive p seq f
  | .linkReplay p n => ins = .linkReplay p n
  | .portFailure p cause => ins = .portFailure p cause
  | .exclusionPacket node id path dests => ins = .exclusionPacket node id path dests
  | .portUp p node port => ins = .portUp p node port
  | .routingEntryWrite t b n v => ins = .routingEntryWrite t b n v
  | .routingSwap t => ins = .routingSwap t
  | .routingSwapComplete t => ins = .routingSwapComplete t
  | .rwinWrite w i v half level ctx => ins = .rwinWrite w i v half level ctx
  | .reducePacketAtPort p f => ins = .reducePacketAtPort p f
  | .reductionHoldExpiry p n => ins = .reductionHoldExpiry p n
  | .proxyAtomic d k => ins = .proxyAtomic d k
  | .managementPacket p f => ins = .managementPacket p f
  | .noticeResend n => ins = .noticeResend n
  | .fnackWrite n => ins = .fnackWrite n
  | .cctlWrite x v half level => ins = .cctlWrite x v half level
  | .caldWrite x i v half => ins = .caldWrite x i v half
  | .translationWalk c x va => ins = .translationWalk c x va
  | .trapMessageAtCollector m => ins = .trapMessageAtCollector m
  | .fresRetry d r x id => ins = .fresRetry d r x id
  | .fresFail d r x id => ins = .fresFail d r x id
  | .attestGo x => ins = .attestGo x
  | .attestReportDone x => ins = .attestReportDone x
  | .correctableError e => ins = .correctableError e
  | .uncorrectableError e => ins = .uncorrectableError e
  | .scrubPass key => ins = .scrubPass key
  | .errheal v => ins = .errheal v
  | .fcmdFence x i => ins = .fcmdFence x i
  | .fcmdRestart x i => ins = .fcmdRestart x i
  | .calderaFence x i kind => ins = .calderaFence x i kind
  | .clusterFence c => ins = .clusterFence c
  | .lockstepCompare q => ins = .lockstepCompare q
  | .shadowCommit x => ins = .shadowCommit x
  | .thermalStep d temp => ins = .thermalStep d temp
  | .powerLimitWindow pkg dies => ins = .powerLimitWindow pkg dies
  | .lifeUpdate temps volts => ins = .lifeUpdate temps volts
  | .retentionEntry k => ins = .retentionEntry k
  | .illegalInstruction w => ins = .illegalInstruction w
  | .walkerIllegalWord w => ins = .walkerIllegalWord w
  | .ucieLinkUp m => ins = .ucieLinkUp m
  | .thermalResetTrip d => ins = .thermalResetTrip d
  | .servoLockChange on => ins = .servoLockChange on

namespace Safety

open Sys2Proof.Machine

/-- The invariant that every step keeps: memory is in its one canonical form. -/
def Inv (s : State) : Prop := s.mem.wf = true

/-- Instruction i, ready on a slot, changes only that slot, by f, and goes on to the next word. -/
def Completes (i : Instr) (f : Slot → Slot) : Prop :=
  ∀ (s : State) (q : Nat), Ready i q s → exec i s = .next (s.modSlot q fun x => (f x).advance)

/-- Instruction i, ready on a slot, writes scalar register d with a value and a mask, and nothing else. -/
def WritesS (i : Instr) (d : BitVec 5) (v : Slot → Word) (m : Slot → Taint) : Prop :=
  Completes i fun x => x.setS d (v x) (m x)

/-- Instruction i, ready on a slot, writes vector register d with a value and a mask, and nothing else. -/
def WritesV (i : Instr) (d : BitVec 5) (v : Slot → Line) (m : Slot → Taint) : Prop :=
  Completes i fun x => x.setV d (v x) (m x)

/-- Lane k of a register of lane width w (R168). -/
def lane (w : Nat) (v : Line) (k : Nat) : Nat := v.toNat / 2 ^ (w * k) % 2 ^ w

/-- A lane read as the integer type y says (R85): two's complement for .sN, unsigned for .zN. -/
def laneInt (y : BitVec 4) (v : Line) (k : Nat) : Int :=
  if tySign y then
    (if lane (tyWidth y) v k < 2 ^ (tyWidth y - 1) then (lane (tyWidth y) v k : Int)
     else (lane (tyWidth y) v k : Int) - 2 ^ tyWidth y)
  else (lane (tyWidth y) v k : Int)

/-- Instruction i, ready on a slot, writes vector register d with mask m so that lane k of width w has the value
that `f` gives for it, and changes nothing else. -/
def WritesLanes (i : Instr) (d : BitVec 5) (m : Slot → Taint) (w : Nat) (f : Slot → Nat → Nat) : Prop :=
  ∀ (s : State) (q : Nat), Ready i q s → ∃ v : Line,
    exec i s = .next (s.modSlot q fun x => (x.setV d v (m x)).advance) ∧
      ∀ k, k < 1024 / w → lane w v k = f (s.slot q) k

/-- The union of two masks. -/
def both (a b : BitVec 5) (x : Slot) : Taint := (x.smask a).union (x.smask b)

/-- The union of the masks of two vector registers. -/
def vboth (a b : BitVec 5) (x : Slot) : Taint := (x.vmask a).union (x.vmask b)

/-- What a slot holds beside its general registers, its PC and its repetition state: flags and modes, control taint,
accumulators, engine registers, trap records and the other special registers. -/
def special (x : Slot) : List Nat × List Word × TrapRegs × TrapRegs × Taint × Store (Store (BitVec 32)) × Store Word :=
  ([x.fflags.toNat, x.rm.toNat, x.flush.toNat, x.seqnext.toNat, x.level.toNat, x.plevel.toNat, x.cstat.toNat,
      x.slres.toNat, x.drop.toNat, x.round.toNat, x.gen.toNat],
    [x.srseed, x.lastspawn, x.notify], x.strap, x.mtrap, x.ctm, x.acc, x.eset)

/-- Nothing but thread slot q differs between two states; in particular every byte of memory and every device
register reads as before. -/
def OnlySlot (q : Nat) (s t : State) : Prop :=
  (∃ x, t = s.setSlot q x) ∧ (∀ a, t.mem.read a = s.mem.read a) ∧ (∀ o, t.reg o = s.reg o) ∧
    ∀ r, r ≠ q → t.slot r = s.slot r

/-- Every scalar register of slot q but those of a list reads as before, with its mask. -/
def KeepsScalars (q : Nat) (ds : List (BitVec 5)) (s t : State) : Prop :=
  ∀ r, r ∉ ds → (t.slot q).sreg r = (s.slot q).sreg r ∧ (t.slot q).smask r = (s.slot q).smask r

/-- Every pointer and step register of slot q but those of a list reads as before. -/
def KeepsPointers (q : Nat) (ps : List (BitVec 3)) (s t : State) : Prop :=
  ∀ p, p ∉ ps → (t.slot q).preg p = (s.slot q).preg p ∧ (t.slot q).pmask p = (s.slot q).pmask p ∧
    (t.slot q).step p = (s.slot q).step p

/-- Every vector register of slot q but those of a list reads as before, with its mask. -/
def KeepsVectors (q : Nat) (vs : List (BitVec 5)) (s t : State) : Prop :=
  ∀ r, r ∉ vs → (t.slot q).vreg r = (s.slot q).vreg r ∧ (t.slot q).vmask r = (s.slot q).vmask r

/-! ### Streams of a walk (R239 to R243) -/

/-- The entries of a list, as coordinate and value, cut into maximal runs of equal coordinates (R241). -/
def runsOf : List (Nat × Nat) → List (List (Nat × Nat))
  | [] => []
  | x :: l =>
    match runsOf l with
    | (y :: r) :: t => if x.1 = y.1 then (x :: y :: r) :: t else [x] :: (y :: r) :: t
    | t => [x] :: t

/-- The coordinate of a run. -/
def runCoord (r : List (Nat × Nat)) : Nat := (r.headD (0, 0)).1

/-- The value of a run, its entries' values added in order in format `fmt`, with the flags of the additions (R241). -/
def runSum (fmt : Nat) (r : List (Nat × Nat)) : Nat × BitVec 5 :=
  (r.drop 1).foldl (fun p x => ((walkAdd fmt p.1 x.2).1, p.2 ||| (walkAdd fmt p.1 x.2).2)) ((r.headD (0, 0)).2, 0)

/-- A walk with the value of a run placed in a buffer, its flags merged. -/
def laid (w : Walk) (buf row col : Nat) (r : List (Nat × Nat)) : Walk :=
  { w.place buf row col (runSum (shapeFmt w.shape) r).1 with flags := w.flags ||| (runSum (shapeFmt w.shape) r).2 }

/-- A walk with every run of a list that does not lie before the window placed at its column (R242). -/
def laidAll (w : Walk) (buf row : Nat) (rs : List (List (Nat × Nat))) : Walk :=
  rs.foldl (fun w r => if w.col0 ≤ runCoord r then laid w buf row (runCoord r - w.col0) r else w) w

/-- The pairs of runs with equal coordinates that an intersection packs into consecutive columns from j on (R243), and what
is left of the two lists; `fuel` bounds the steps. -/
def matched (lim col0 cols : Nat) :
    Nat → Nat → List (List (Nat × Nat)) → List (List (Nat × Nat)) →
      List (List (Nat × Nat) × List (Nat × Nat)) × List (List (Nat × Nat)) × List (List (Nat × Nat))
  | f + 1, j, x :: a, y :: b =>
    if lim ≤ min (runCoord x) (runCoord y) then ([], x :: a, y :: b)
    else if runCoord x < runCoord y then matched lim col0 cols f j a (y :: b)
    else if runCoord y < runCoord x then matched lim col0 cols f j (x :: a) b
    else if runCoord x < col0 then matched lim col0 cols f j a b
    else if cols ≤ j then ([], x :: a, y :: b)
    else ((x, y) :: (matched lim col0 cols f (j + 1) a b).1, (matched lim col0 cols f (j + 1) a b).2)
  | _, _, a, b => ([], a, b)

/-- What is left of stream t of a walk is a list of entries: every coordinate and value from its START on can be read as
memory holds it, changing nothing, and they stand in the order that R240 asks for. -/
def StreamReads (s : State) (w : Walk) (e : RingEntry) (t : Nat) (l : List (Nat × Nat)) : Prop :=
  ∃ c v : Nat → Nat,
    (w.stream t).start ≤ (w.stream t).pos ∧
    (∀ i, (w.stream t).start ≤ i → i < (w.stream t).fin →
      c i < 0xFFFFFFFF ∧ rawCoord w.thread e t i (w.stream t) s = (s, .ok (c i)) ∧
      entryValue w.thread e (shapeFmt w.shape) t i (w.stream t) s = (s, .ok (v i)) ∧
      (i + 1 < (w.stream t).fin → c i < c (i + 1) ∨ ((w.stream t).dup = true ∧ c i = c (i + 1)))) ∧
    l = (List.range ((w.stream t).fin - (w.stream t).pos)).map fun i =>
      (c ((w.stream t).pos + i), v ((w.stream t).pos + i))

end Safety

end Sys2Proof
end

