-- ==== Sys2Proof/Certificates/Slice0/Obligations.lean ====
section
/-! DEFINITION. The statements for the provers. Each docstring names the rules of spec/ it formalises. -/

open Sys2Proof Sys2Proof.Machine Sys2Proof.Safety

/-- Right after reset every slot is FREE with tag 0, every register reads its reset value and only the boot is due
(R36, R80, R210, R256, R443, spec/13_tephra_scheduling.md). THE MODEL'S CHOICES in it: the zeros of registers rest
on entry 1, those of memory on entry 2, those of cfg and cal registers on entry 6 (each a DESIGN CHOICE). -/
def Obligations.ResetLeavesTheStatedValues : Prop :=
  (∀ q, State.reset.slot q = Slot.empty) ∧ Slot.empty.state = .free ∧ Slot.empty.gen = 0 ∧
    (∀ r, Slot.empty.sreg r = 0) ∧ (∀ p, Slot.empty.preg p = 0) ∧ (∀ r, Slot.empty.vreg r = 0) ∧
    Slot.empty.fflags = 0 ∧ Slot.empty.fctl = 0 ∧ Slot.empty.repst = 0 ∧ Slot.empty.loads = [] ∧ Slot.empty.ring = [] ∧
    (∀ o, State.reset.reg o = devReset o) ∧
    (∀ t g, State.reset.tcdEntry t g = 0x7C) ∧
    (∀ c b, (State.reset.bank c b).mode = .cache ∧ (State.reset.bank c b).busy = false) ∧
    (∀ a, State.reset.mem.read a = 0) ∧ State.reset.agenda = [.bootStage 1] ∧
    State.reset.launches = [] ∧ State.reset.runs = [] ∧ State.reset.pools = [] ∧ State.reset.cbs = [] ∧
    State.reset.hqueues = [] ∧ State.reset.spilled = [] ∧ State.reset.operands = [] ∧ State.reset.waits = [] ∧
    State.reset.walks = [] ∧ State.reset.walkQueue = [] ∧ State.reset.dirty = [] ∧ State.reset.outWrites = [] ∧
    State.reset.farReqs = [] ∧ State.reset.held = [] ∧ State.reset.proxies = []

/-- The invariant of memory holds at reset (spec/10_ordering_model.md, R3). -/
def Obligations.MemoryIsCanonicalAtReset : Prop := Inv State.reset

/-- Every step from every state keeps memory in its canonical form (spec/10_ordering_model.md,
spec/11_memory_instructions.md, R3). -/
def Obligations.EveryStepKeepsMemoryCanonical : Prop :=
  ∀ s t : State, Inv s → Machine.step s = .next t → Inv t

/-- Decode of encode is the instruction, for every well-formed word of the cores and of the walker
(spec/03_instruction_formats.md, spec/09_format_walker.md, R83, R91, R92, R93, R94, R95, R235). THE MODEL'S CHOICES
in it: that CVQNQ with SEL[2:0] of 6 or 7 is not well formed rests on entry 99 (DEDUCED). -/
def Obligations.EncodedInstructionsDecodeToThemselves : Prop :=
  ∀ (i : Instr) (w : InstrWord), i.wellFormed = true → encode i = some w →
    (if i.isWalker then decodeWalker w else decodeWord w) = .ok i

/-- A word that decodes is the word of the instruction it decodes to, so no two words share a meaning
(spec/03_instruction_formats.md, spec/09_format_walker.md, R74, R235). THE MODEL'S CHOICES in it: that CVQNQ with
SEL[2:0] of 6 or 7 is refused rests on entry 99 (DEDUCED). -/
def Obligations.DecodedWordsEncodeToThemselves : Prop :=
  ∀ (w : InstrWord) (i : Instr),
    (decodeWord w = .ok i → i.wellFormed = true ∧ i.isWalker = false ∧ encode i = some w) ∧
      (decodeWalker w = .ok i → i.wellFormed = true ∧ i.isWalker = true ∧ encode i = some w)

/-- Words written out from the spec's encodings decode to the instructions they stand for
(spec/03_instruction_formats.md, spec/06_scalar_instructions.md, spec/09_format_walker.md). -/
def Obligations.SampleWordsDecodeAsTheSpecEncodesThem : Prop :=
  decodeWord 0x21200003 = .ok (.li 9 3) ∧ decodeWord 0x2D201003 = .ok (.crwr 9 3) ∧
    decodeWord 0x3084000D = .ok (.fcvtiS64 4 4) ∧ decodeWord 0x30C42803 = .ok (.fdiv 6 4 5) ∧
    decodeWord 0x30E6000F = .ok (.fxse 7 6) ∧ decodeWord 0x5C402104 = .ok (.rep 2 0 1 4) ∧
    decodeWord 0x04845000 = .ok (.add 4 4 10) ∧ decodeWord 0x88A20000 = .ok (.vrsum 5 2 0) ∧
    decodeWord 0xE0000000 = .ok .ecall ∧ decodeWalker 0xE0000000 = .ok .wend ∧
    decodeWalker 0x31230001 = .ok (.wsub 1 2 3) ∧
    decodeWord 0x00000000 = .error .unassignedMajor ∧ decodeWord 0x0400003F = .error .unassignedFunction ∧
    decodeWord 0x04000040 = .error .unusedField ∧ decodeWord 0x80000280 = .error .operandValue

/-- A core's turn executes the instruction that the word at its slot's PC decodes to (R73, R74, R148,
spec/02_execution_model.md, spec/03_instruction_formats.md). THE MODEL'S CHOICES in it: the order of turns rests on
entry 3 (DESIGN CHOICE), what counts as issuing for a YIELD on entry 76 (DEDUCED). -/
def Obligations.ACoreTurnRunsTheDecodedWord : Prop :=
  ∀ (s s0 : State) (k : Nat), s.tick.nextTurn = (s0, some (.core k)) →
    (s0.nextSlot k = none → Machine.step s = .next s0) ∧
      ∀ (q : Nat) (s1 : State) (w : InstrWord), s0.nextSlot k = some q →
        (s0.giveTurn q).fetchSlot q = (s1, .word w) →
        (∀ i, (s1.slot q).decode w = .ok i →
          Machine.step s = afterIssue q w s1 (exec i s1) ∧
            ∀ t, exec i s1 = .next t → t.lockstep (t.slot q).ctx = false → (t.slot q).state ≠ .waiting →
              (∀ r, q ∉ (t.slot r).yielding) →
              Machine.step s = .next t) ∧
          ∀ v, (s1.slot q).decode w = .error v →
            Machine.step s = afterIssue q w s1 (exec (.illegalInstruction v) s1)

/-- The word fetched at a PC in device memory is the four bytes that stand there, lowest address first, and no
window can be fetched from (R73, R98, R250, R251, spec/03_instruction_formats.md, spec/10_ordering_model.md). THE
MODEL'S CHOICES in it: that a slot holds at most one line fetched ahead rests on entry 10 (DEDUCED). -/
def Obligations.AFetchReadsTheWordInMemory : Prop :=
  ∀ (s : State) (q : Nat), (s.slot q).repActive = false →
    ((s.slot q).pc.toNat % 4 ≠ 0 → s.fetchSlot q = (s, .fault (xf eAlign 0))) ∧
      ((s.slot q).pc.toNat % 4 = 0 → 0xFFFFFFFFE0000000 ≤ (va57 (s.slot q).pc).toNat →
        let v := (va57 (s.slot q).pc).toNat
        let inside := v < 0xFFFFFFFFF8000000 ∨ (0xFFFFFFFFFFC00000 ≤ v ∧ v < 0xFFFFFFFFFFE01000) ∨ 0xFFFFFFFFFFFE0000 ≤ v
        (inside → s.fetchSlot q = (s, .fault (xf eProt 0x05))) ∧
        (¬inside → s.fetchSlot q = (s, .fault (xf eXlat 0x04)))) ∧
      ∀ (s1 : State) (l : Loc), (s.slot q).pc.toNat % 4 = 0 →
        resolve s (s.who q) (va57 (s.slot q).pc) 4 .fetch = (s1, .ok l) →
        (∃ o, homeOf l.key = .dram o) → s1.anyBad l.key 4 = false →
        let now : InstrWord := BitVec.ofNat 32 ((s1.mem.read l.key).toNat + 256 * (s1.mem.read (l.key + 1)).toNat +
          256 ^ 2 * (s1.mem.read (l.key + 2)).toNat + 256 ^ 3 * (s1.mem.read (l.key + 3)).toNat)
        ((∀ k bs, (s1.slot q).ahead = some (k, bs) → k ≠ l.key / 128 * 128) →
          ∃ t, s.fetchSlot q = (t, .word now) ∧ t.mem = s1.mem) ∧
        ∀ bs, (s1.slot q).ahead = some (l.key / 128 * 128, bs) →
          ∃ t w, s.fetchSlot q = (t, .word w) ∧ (w = now ∨ w = lineWord bs (l.key % 128)) ∧ t.mem = s1.mem

/-- A walk's turn executes the walker word that it has fetched (R230, R235, R236, spec/09_format_walker.md). -/
def Obligations.AWalkTurnRunsTheDecodedWord : Prop :=
  ∀ (s s0 : State) (k : Nat), s.tick.nextTurn = (s0, some (.walk k)) →
    ∀ s1 : State,
      (∀ i, s0.walkTurn k = (s1, .word i) → Machine.step s = exec i s1) ∧
        (∀ w, s0.walkTurn k = (s1, .illegal w) → Machine.step s = exec (.walkerIllegalWord w) s1) ∧
        (s0.walkTurn k = (s1, .rest) → Machine.step s = .next s1)

/-- A step that is due leaves the agenda and has the meaning of the table's row of its name
(spec/95_what_each_step_holds.md). -/
def Obligations.ADueStepIsTheInstructionOfItsName : Prop :=
  (∀ (e : Event), ∃ i, e.StandsFor i ∧ ∀ s : State, runEvent e s = exec i s) ∧
    (∀ (s : State) (t : Turn), s.focus = some t → s.nextTurn = ({ s with focus := none }, some t)) ∧
    ∀ (s s0 : State) (n : Nat) (e : Event), s.tick.nextTurn = (s0, some (.event n)) → s0.agenda[n]? = some e →
      ∃ i, e.StandsFor i ∧ Machine.step s = exec i { s0 with agenda := s0.agenda.eraseIdx n }

/-- A word on a wrong core, a privileged word below its level and a word whose register is awaited have no effect of
their own (R38, R74, R97, R148, R284). THE MODEL'S CHOICES in it: that a slot with an access that may yet trap
issues nothing rests on entry 81 (DEDUCED), the STVAL left open on entry 5 (DESIGN CHOICE). -/
def Obligations.TheTestsOfDecodeComeBeforeTheEffect : Prop :=
  ∀ (i : Instr) (s : State) (q : Nat),
    (encode i).isSome = true → i.isWalker = false →
    s.cur = some q → (s.slot q).state = .running →
    ((s.slot q).blocked = true → exec i s = .next s) ∧
    ((s.slot q).blocked = false →
      ((s.slot q).admits q i = false → exec i s = .next (s.openWord.1.trapAt q i 0x01 0 s.openWord.2)) ∧
      ((s.slot q).admits q i = true → (s.slot q).level.toNat < i.minLevel →
        exec i s = .next (s.openWord.1.trapAt q i 0x02 0 s.openWord.2)) ∧
      ((s.slot q).admits q i = true → i.minLevel ≤ (s.slot q).level.toNat →
        (s.slot q).interlocked i.operands = true → exec i s = .next s))

/-- ADD to EXT: each ready integer register instruction writes its result and mask to rd and nothing else (R78,
R147, R149, R79, spec/06_scalar_instructions.md). -/
def Obligations.IntegerRegisterInstructionsWriteTheirResults : Prop :=
  ∀ d a b c : BitVec 5,
    WritesS (.add d a b) d (fun x => BitVec.ofInt 64 ((x.sreg a).toInt + (x.sreg b).toInt)) (both a b) ∧
    WritesS (.sub d a b) d (fun x => BitVec.ofInt 64 ((x.sreg a).toInt - (x.sreg b).toInt)) (both a b) ∧
    WritesS (.mul d a b) d (fun x => BitVec.ofInt 64 ((x.sreg a).toInt * (x.sreg b).toInt)) (both a b) ∧
    WritesS (.mulhS64 d a b) d (fun x => BitVec.ofInt 64 ((x.sreg a).toInt * (x.sreg b).toInt / 2 ^ 64)) (both a b) ∧
    WritesS (.mulhZ64 d a b) d (fun x => BitVec.ofNat 64 ((x.sreg a).toNat * (x.sreg b).toNat / 2 ^ 64)) (both a b) ∧
    WritesS (.and d a b) d (fun x => x.sreg a &&& x.sreg b) (both a b) ∧
    WritesS (.or d a b) d (fun x => x.sreg a ||| x.sreg b) (both a b) ∧
    WritesS (.xor d a b) d (fun x => x.sreg a ^^^ x.sreg b) (both a b) ∧
    WritesS (.shl d a b) d (fun x => BitVec.ofNat 64 ((x.sreg a).toNat * 2 ^ ((x.sreg b).toNat % 64))) (both a b) ∧
    WritesS (.shrZ64 d a b) d (fun x => BitVec.ofNat 64 ((x.sreg a).toNat / 2 ^ ((x.sreg b).toNat % 64))) (both a b) ∧
    WritesS (.shrS64 d a b) d (fun x => BitVec.ofInt 64 ((x.sreg a).toInt / 2 ^ ((x.sreg b).toNat % 64))) (both a b) ∧
    WritesS (.minS64 d a b) d (fun x => BitVec.ofInt 64 (min (x.sreg a).toInt (x.sreg b).toInt)) (both a b) ∧
    WritesS (.maxS64 d a b) d (fun x => BitVec.ofInt 64 (max (x.sreg a).toInt (x.sreg b).toInt)) (both a b) ∧
    WritesS (.sltS64 d a b) d (fun x => if (x.sreg a).toInt < (x.sreg b).toInt then 1 else 0) (both a b) ∧
    WritesS (.sltZ64 d a b) d (fun x => if (x.sreg a).toNat < (x.sreg b).toNat then 1 else 0) (both a b) ∧
    WritesS (.seq d a b) d (fun x => if x.sreg a = x.sreg b then 1 else 0) (both a b) ∧
    (∃ clz : Word → Nat, WritesS (.clz d a) d (fun x => BitVec.ofNat 64 (clz (x.sreg a))) (fun x => x.smask a) ∧
      ∀ w, clz w ≤ 64 ∧ (∀ k, k < clz w → w.getLsbD (63 - k) = false) ∧ (clz w < 64 → w.getLsbD (63 - clz w) = true)) ∧
    WritesS (.popc d a) d
      (fun x => BitVec.ofNat 64 ((List.range 64).filter fun k => (x.sreg a).getLsbD k).length) (fun x => x.smask a) ∧
    WritesS (.sel d a b c) d (fun x => if x.sreg c ≠ 0 then x.sreg a else x.sreg b)
      (fun x => (both a b x).union (x.smask c)) ∧
    WritesS (.madd d a b c) d
      (fun x => BitVec.ofInt 64 ((x.sreg a).toInt * (x.sreg b).toInt + (x.sreg c).toInt))
      (fun x => (both a b x).union (x.smask c)) ∧
    WritesS (.ext d a 0) d (fun x => ((x.sreg a).truncate 8).signExtend 64) (fun x => x.smask a) ∧
    WritesS (.ext d a 1) d (fun x => ((x.sreg a).truncate 16).signExtend 64) (fun x => x.smask a) ∧
    WritesS (.ext d a 2) d (fun x => ((x.sreg a).truncate 32).signExtend 64) (fun x => x.smask a) ∧
    WritesS (.ext d a 4) d (fun x => BitVec.ofNat 64 ((x.sreg a).toNat % 2 ^ 8)) (fun x => x.smask a) ∧
    WritesS (.ext d a 5) d (fun x => BitVec.ofNat 64 ((x.sreg a).toNat % 2 ^ 16)) (fun x => x.smask a) ∧
    WritesS (.ext d a 6) d (fun x => BitVec.ofNat 64 ((x.sreg a).toNat % 2 ^ 32)) (fun x => x.smask a) ∧
    WritesS (.ext d a 3) d (fun x => x.sreg a) (fun x => x.smask a) ∧
    WritesS (.ext d a 7) d (fun x => x.sreg a) (fun x => x.smask a)

/-- DIV and REM give the results of R150 for every pair of operands, without a trap or a flag (R150). -/
def Obligations.DivisionNeverTrapsAndIsExact : Prop :=
  ∃ divS remS divZ remZ : Word → Word → Word,
    (∀ d a b : BitVec 5,
      WritesS (.divS64 d a b) d (fun x => divS (x.sreg a) (x.sreg b)) (both a b) ∧
      WritesS (.remS64 d a b) d (fun x => remS (x.sreg a) (x.sreg b)) (both a b) ∧
      WritesS (.divZ64 d a b) d (fun x => divZ (x.sreg a) (x.sreg b)) (both a b) ∧
      WritesS (.remZ64 d a b) d (fun x => remZ (x.sreg a) (x.sreg b)) (both a b)) ∧
    ∀ a b : Word,
      (b = 0 → divS a b = BitVec.ofInt 64 (-1) ∧ remS a b = a ∧ divZ a b = BitVec.ofNat 64 (2 ^ 64 - 1) ∧ remZ a b = a) ∧
      (a.toInt = -2 ^ 63 → b.toInt = -1 → (divS a b).toInt = -2 ^ 63 ∧ remS a b = 0) ∧
      (b ≠ 0 → ¬(a.toInt = -2 ^ 63 ∧ b.toInt = -1) →
        (divS a b).toInt = Int.tdiv a.toInt b.toInt ∧ (remS a b).toInt = a.toInt - b.toInt * (divS a b).toInt) ∧
      (b ≠ 0 → (divZ a b).toNat = a.toNat / b.toNat ∧ (remZ a b).toNat = a.toNat - b.toNat * (divZ a b).toNat) ∧
      a = divS a b * b + remS a b ∧ a = divZ a b * b + remZ a b

/-- The immediate majors and PSET, PSTEP, PGET and PADD write what their tables say and nothing else (R151, R152,
R84, R77, spec/06_scalar_instructions.md). -/
def Obligations.ImmediateAndPointerInstructionsWriteTheirResults : Prop :=
  ∀ (d a : BitVec 5) (p : BitVec 3) (i : BitVec 16) (j : BitVec 21) (k : BitVec 6),
    WritesS (.addi d a i) d (fun x => BitVec.ofInt 64 ((x.sreg a).toInt + i.toInt)) (fun x => x.smask a) ∧
    WritesS (.andi d a i) d (fun x => x.sreg a &&& BitVec.ofNat 64 i.toNat) (fun x => x.smask a) ∧
    WritesS (.ori d a i) d (fun x => x.sreg a ||| BitVec.ofNat 64 i.toNat) (fun x => x.smask a) ∧
    WritesS (.xori d a i) d (fun x => x.sreg a ^^^ BitVec.ofNat 64 i.toNat) (fun x => x.smask a) ∧
    WritesS (.shli d a k) d (fun x => BitVec.ofNat 64 ((x.sreg a).toNat * 2 ^ k.toNat)) (fun x => x.smask a) ∧
    WritesS (.shriZ64 d a k) d (fun x => BitVec.ofNat 64 ((x.sreg a).toNat / 2 ^ k.toNat)) (fun x => x.smask a) ∧
    WritesS (.shriS64 d a k) d (fun x => BitVec.ofInt 64 ((x.sreg a).toInt / 2 ^ k.toNat)) (fun x => x.smask a) ∧
    WritesS (.sltiS64 d a i) d (fun x => if (x.sreg a).toInt < i.toInt then 1 else 0) (fun x => x.smask a) ∧
    WritesS (.li d j) d (fun _ => BitVec.ofInt 64 j.toInt) (fun _ => Taint.none) ∧
    WritesS (.lsi d i) d (fun x => BitVec.ofNat 64 ((x.sreg d).toNat * 2 ^ 16) ||| BitVec.ofNat 64 i.toNat)
      (fun x => x.smask d) ∧
    Completes (.pset p a) (fun x => x.setP p (x.sreg a) (x.smask a)) ∧
    Completes (.pstep p a) (fun x => (x.setStep p (x.sreg a)).setPmask p ((x.pmask p).union (x.smask a))) ∧
    WritesS (.pget d p) d (fun x => x.preg p) (fun x => x.pmask p) ∧
    Completes (.padd p a) (fun x =>
      x.setP p (BitVec.ofInt 64 ((x.preg p).toInt + (x.sreg a).toInt)) ((x.pmask p).union (x.smask a)))

/-- The scalar FP32 instructions write the rounded result, its mask and their flags, and take one generator step
(R119, R129, R130, R131, R133, R137, R147, R156, R157, spec/05_number_formats.md). -/
def Obligations.ScalarFloatInstructionsWriteTheirResults : Prop :=
  let md (x : Slot) : Rounding := (x.roundings 1).headD rne
  let v (x : Slot) (r : BitVec 5) : Val := FpFmt.f32.decode ((x.sreg r).toNat % 2 ^ 32)
  let rounds (i : Instr) (d : BitVec 5) (f : Slot → Nat × BitVec 5) (m : Slot → Taint) : Prop :=
    Completes i fun x => ((x.setS d (BitVec.ofNat 64 (f x).1) (m x)).orFlags (f x).2).takeSteps 1
  ∀ d a b c : BitVec 5,
    rounds (.fadd d a b) d (fun x => FpFmt.f32.addR (md x) (v x a) (v x b)) (both a b) ∧
    rounds (.fsub d a b) d (fun x => FpFmt.f32.addR (md x) (v x a) (v x b).neg) (both a b) ∧
    rounds (.fmul d a b) d (fun x => FpFmt.f32.mulR (md x) (v x a) (v x b)) (both a b) ∧
    rounds (.fdiv d a b) d (fun x => FpFmt.f32.div (md x) (v x a) (v x b)) (both a b) ∧
    rounds (.fma d a b c) d (fun x => FpFmt.f32.fmaR (md x) (v x a) (v x b) (v x c))
      (fun x => (both a b x).union (x.smask c)) ∧
    rounds (.fsqrt d a) d (fun x => FpFmt.f32.sqrt (md x) (v x a)) (fun x => x.smask a) ∧
    rounds (.fcvtS64 d a) d (fun x =>
      (((Val.toInt (md x) (-2 ^ 63) (2 ^ 63 - 1) (v x a)).1 % 2 ^ 64).toNat,
        (Val.toInt (md x) (-2 ^ 63) (2 ^ 63 - 1) (v x a)).2)) (fun x => x.smask a) ∧
    rounds (.fcvtiS64 d a) d (fun x => FpFmt.f32.round (md x) (Val.ofInt (x.sreg a).toInt)) (fun x => x.smask a) ∧
    rounds (.fxse d a) d (fun x => fxseCode (md x) (v x a)) (fun x => x.smask a) ∧
    WritesS (.fmin d a b) d
      (fun x => BitVec.ofNat 64 (FpFmt.f32.minmax false ((x.sreg a).toNat % 2 ^ 32) ((x.sreg b).toNat % 2 ^ 32))) (both a b) ∧
    WritesS (.fmax d a b) d
      (fun x => BitVec.ofNat 64 (FpFmt.f32.minmax true ((x.sreg a).toNat % 2 ^ 32) ((x.sreg b).toNat % 2 ^ 32))) (both a b) ∧
    WritesS (.feq d a b) d (fun x => if (v x a).eq (v x b) then 1 else 0) (both a b) ∧
    WritesS (.flt d a b) d (fun x => if (v x a).lt (v x b) then 1 else 0) (both a b) ∧
    WritesS (.fle d a b) d (fun x => if (v x a).lt (v x b) ∨ (v x a).eq (v x b) then 1 else 0) (both a b) ∧
    WritesS (.fabs d a) d (fun x => x.sreg a &&& 0x7FFFFFFF) (fun x => x.smask a) ∧
    WritesS (.fxsd d a) d
      (fun x => BitVec.ofNat 64 (FpFmt.f32.round rne (FpFmt.xs8.decode ((x.sreg a).toNat % 256))).1) (fun x => x.smask a) ∧
    (∀ u : Val, Val.nan.eq u = false ∧ u.eq Val.nan = false ∧ Val.nan.lt u = false ∧ u.lt Val.nan = false)

/-- A conditional branch moves the PC by four times its offset or to the next word and joins both masks to ctm
(R158). -/
def Obligations.BranchesGoWhereTheConditionSays : Prop :=
  let goes (i : Instr) (a b : BitVec 5) (o : BitVec 16) (c : Word → Word → Prop) : Prop :=
    ∀ (s : State) (q : Nat), Ready i q s → ∃ t : State, exec i s = .next t ∧
      t = s.setSlot q { (s.slot q) with
        ctm := ((s.slot q).addCtm (both a b (s.slot q))).ctm, pc := (t.slot q).pc } ∧
      (c ((s.slot q).sreg a) ((s.slot q).sreg b) →
        (t.slot q).pc = BitVec.ofInt 57 (((s.slot q).pc.toNat : Int) + 4 * o.toInt)) ∧
      (¬c ((s.slot q).sreg a) ((s.slot q).sreg b) → (t.slot q).pc = (s.slot q).pc + 4)
  ∀ (a b : BitVec 5) (o : BitVec 16),
    goes (.beq a b o) a b o (fun u v => u = v) ∧ goes (.bne a b o) a b o (fun u v => u ≠ v) ∧
    goes (.bltS64 a b o) a b o (fun u v => u.toInt < v.toInt) ∧ goes (.bgeS64 a b o) a b o (fun u v => u.toInt ≥ v.toInt) ∧
    goes (.bltZ64 a b o) a b o (fun u v => u.toNat < v.toNat) ∧ goes (.bgeZ64 a b o) a b o (fun u v => u.toNat ≥ v.toNat)

/-- JAL, JR and JALR write their link and go to their target; REP starts or skips its body; HINT only moves on (R76,
R159, R160, R161, R162, spec/06_scalar_instructions.md). THE MODEL'S CHOICES in it: that a target both misaligned
and not canonical traps E_ALIGN rests on entry 98 (DESIGN CHOICE). -/
def Obligations.JumpsLinkAndMoveThePc : Prop :=
  ∀ (s : State) (q : Nat) (d a : BitVec 5) (o : BitVec 26) (st c : BitVec 5) (n : BitVec 4) (k : BitVec 8),
    let x := s.slot q
    let target := x.sreg a
    (Ready (.jal o) q s → exec (.jal o) s = .next (s.setSlot q
      { x.setS 31 (va57 (x.pc + 4)) Taint.none with pc := BitVec.ofInt 57 ((x.pc.toNat : Int) + 4 * o.toInt) })) ∧
    (∀ i, (i = .jr a ∨ i = .jalr d a) → Ready i q s →
      (target.toNat % 4 ≠ 0 → exec i s = .next (s.trapAt q i 0x03 0 target)) ∧
      (target.toNat % 4 = 0 → canonical target = false → exec i s = .next (s.trapAt q i 0x04 0x01 target))) ∧
    (target.toNat % 4 = 0 → canonical target = true →
      (Ready (.jr a) q s → exec (.jr a) s = .next (s.setSlot q { x.addCtm (x.smask a) with pc := target.truncate 57 })) ∧
      (Ready (.jalr d a) q s → exec (.jalr d a) s = .next (s.setSlot q
        { (x.addCtm (x.smask a)).setS d (va57 (x.pc + 4)) Taint.none with pc := target.truncate 57 }))) ∧
    (Ready (.rep st c n k) q s →
      let count : BitVec 32 := if c = 0 then BitVec.ofNat 32 k.toNat else (x.sreg c).truncate 32
      let y := if c = 0 then x else x.addCtm (x.smask c)
      (count = 0 → exec (.rep st c n k) s =
        .next (s.setSlot q { y with pc := x.pc + 4 + BitVec.ofNat 57 (4 * (n.toNat + 1)) })) ∧
      (count ≠ 0 → ∃ r, exec (.rep st c n k) s =
          .next (s.setSlot q { y with pc := x.pc + 4, repcnt := count, repst := r, repBody := [] }) ∧
        r.getLsbD 24 = true ∧ fieldOf r 63 32 = 0 ∧ fieldOf r 23 20 = 0 ∧ fieldOf r 19 16 = n.toNat ∧
        fieldOf r 12 8 = st.toNat)) ∧
    ∀ h, Completes (.hint h) id

/-- After each body word the slot goes to the next position, the next pass or past the REP (R96, R161, R162, R164,
spec/06_scalar_instructions.md). -/
def Obligations.RepRunsItsBodyPassByPass : Prop :=
  ∀ x : Slot,
    (x.repActive = false → x.advance = { x with pc := x.pc + 4 }) ∧
    (x.repActive = true → x.repPos < x.repNm1 →
      x.advance.pc = x.pc + 4 ∧ x.advance.repPos = x.repPos + 1 ∧ x.advance.repPass = x.repPass ∧
        x.advance.repActive = true) ∧
    (x.repActive = true → ¬x.repPos < x.repNm1 → x.repPass + 1 < x.repcnt.toNat →
      x.advance.pc = x.pc - BitVec.ofNat 57 (4 * x.repNm1) ∧ x.advance.repPos = 0 ∧
        x.advance.repPass = x.repPass + 1 ∧ x.advance.repActive = true) ∧
    (x.repActive = true → ¬x.repPos < x.repNm1 → ¬x.repPass + 1 < x.repcnt.toNat →
      x.advance.pc = x.pc + 4 ∧ x.advance.repActive = false ∧ x.advance.repcnt = x.repcnt) ∧
    x.advance.s = x.s ∧ x.advance.sMask = x.sMask ∧ x.advance.p = x.p ∧ x.advance.v = x.v ∧
    x.advance.fflags = x.fflags ∧ x.advance.repcnt = x.repcnt ∧ special x.advance = special x ∧
    ∀ (d a b : BitVec 5) (k : Nat),
      (Instr.add d a b).renumber k =
        .add (if d = 0 then 0 else d + BitVec.ofNat 5 k) (if a = 0 then 0 else a + BitVec.ofNat 5 k)
          (if b = 0 then 0 else b + BitVec.ofNat 5 k)

/-- CRRD reads a control register with an empty mask; CRWR, CRSET and CRCLR change its writable fields alone (R80,
R81, R82, R153, R154, R155, R362, R387, R431, R434). -/
def Obligations.ControlRegisterInstructionsReadAndWriteTheirFields : Prop :=
  ∀ (s : State) (q : Nat) (d a : BitVec 5) (c : BitVec 12),
    let x := s.slot q
    let w (v : Word) : State := s.writeCr q c v (x.smask a)
    (∀ i, (i = .crrd d c ∨ i = .crwr a c ∨ i = .crset a c ∨ i = .crclr a c) → Ready i q s →
      ((c = 2 ∧ (x.flagsPending = true ∨ x.addPending = true)) ∨ (c = 0x013 ∧ x.statusPending = true)) →
      exec i s = .next s) ∧
    ((c = 2 → x.flagsPending = false ∧ x.addPending = false) → (c = 0x013 → x.statusPending = false) →
      (Ready (.crrd d c) q s →
        exec (.crrd d c) s = .next (s.modSlot q fun x => (x.setS d (s.creg q c) Taint.none).advance)) ∧
      (Ready (.crwr a c) q s → exec (.crwr a c) s = .next ((w (x.sreg a)).modSlot q Slot.advance)) ∧
      (Ready (.crset a c) q s → exec (.crset a c) s = .next ((w (s.creg q c ||| x.sreg a)).modSlot q Slot.advance)) ∧
      (Ready (.crclr a c) q s → exec (.crclr a c) s = .next ((w (s.creg q c &&& ~~~(x.sreg a))).modSlot q Slot.advance))) ∧
    ∀ (v : Word) (m : Taint),
      s.writeCr q 0x002 v m = s.setSlot q { x with fflags := v.truncate 5 } ∧
      (5 ≤ (v.truncate 3 : BitVec 3).toNat → s.writeCr q 0x003 v m = s.setSlot q { x with flush := v.getLsbD 3 }) ∧
      ((v.truncate 3 : BitVec 3).toNat < 5 →
        s.writeCr q 0x003 v m = s.setSlot q { x with rm := v.truncate 3, flush := v.getLsbD 3 }) ∧
      (∀ p : BitVec 3, s.writeCr q (BitVec.ofNat 12 (8 + p.toNat)) v m =
        s.setSlot q ((x.setStep p v).setPmask p ((x.pmask p).union m))) ∧
      s.writeCr q 0x010 v m = s.setSlot q { x with srseed := v } ∧
      (x.level ≠ 2 → s.writeCr q 0x100 v m = s) ∧
      (x.level = 2 → s.writeCr q 0x100 v m = s.setReg (ttbaseOff x.ctx) (v &&& 0x01FFFFFFFFFFF000)) ∧
      (∀ k, k < 7 → s.writeCr q (BitVec.ofNat 12 (0x400 + k)) v m = s.setSlot q { x with strap := x.strap.set k v } ∧
        s.writeCr q (BitVec.ofNat 12 (0x800 + k)) v m = s.setSlot q { x with mtrap := x.mtrap.set k v }) ∧
      s.writeCr q 0x400 v m = s.setSlot q { x with strap := { x.strap with epc := v } } ∧
      s.writeCr q 0x406 v m = s.setSlot q { x with strap := { x.strap with scratch := v } } ∧
      s.writeCr q 0x409 v m = s.setSlot q { x with drop := v.getLsbD 0 } ∧
      s.writeCr q 0x40A v m = s.setCore (coreOf q) { s.core (coreOf q) with sleepd := v.truncate 2 } ∧
      s.writeCr q 0x800 v m = s.setSlot q { x with mtrap := { x.mtrap with epc := v } } ∧
      (v.truncate 2 ≠ (3 : BitVec 2) → s.writeCr q 0x807 v m = s.setSlot q { x with plevel := v.truncate 2 }) ∧
      (v.truncate 2 = (3 : BitVec 2) → s.writeCr q 0x807 v m = s) ∧
      (∀ n ∈ [0x000, 0x001, 0x004, 0x005, 0x006, 0x007, 0x011, 0x012, 0x013, 0x407, 0x408],
        s.writeCr q (BitVec.ofNat 12 n) v m = s)

/-- Integer, immediate, pointer and branch instructions change no other register, flag, special register or byte of
memory (R78, R147, R158, R159, R166, spec/06_scalar_instructions.md). -/
def Obligations.ScalarInstructionsLeaveTheRestAlone : Prop :=
  ∀ (s t : State) (q : Nat) (i : Instr) (ds : List (BitVec 5)) (ps : List (BitVec 3)),
    ((∃ d a b, ds = [d] ∧ ps = [] ∧ (i = .add d a b ∨ i = .mul d a b ∨ i = .divS64 d a b)) ∨
      (∃ d a b c, ds = [d] ∧ ps = [] ∧ (i = .sel d a b c ∨ i = .madd d a b c)) ∨
      (∃ d a y, ds = [d] ∧ ps = [] ∧ i = .ext d a y) ∨ (∃ d a k, ds = [d] ∧ ps = [] ∧ i = .addi d a k) ∨
      (∃ d k, ds = [d] ∧ ps = [] ∧ i = .li d k) ∨ (∃ d k, ds = [d] ∧ ps = [] ∧ i = .lsi d k) ∨
      (∃ d a, ds = [d] ∧ ps = [] ∧ i = .clz d a) ∨ (∃ d p, ds = [d] ∧ ps = [] ∧ i = .pget d p) ∨
      (∃ p a, ds = [] ∧ ps = [p] ∧ (i = .pset p a ∨ i = .pstep p a ∨ i = .padd p a)) ∨
      (∃ a b o, ds = [] ∧ ps = [] ∧ i = .beq a b o) ∨ (∃ h, ds = [] ∧ ps = [] ∧ i = .hint h)) →
    Ready i q s → exec i s = .next t →
    OnlySlot q s t ∧ KeepsScalars q ds s t ∧ KeepsPointers q ps s t ∧ KeepsVectors q [] s t ∧
      ((∀ a b o, i ≠ .beq a b o) → special (t.slot q) = special (s.slot q)) ∧
      special { (t.slot q) with ctm := (s.slot q).ctm } = special (s.slot q)

/-- Integer VADD to VSHR write every lane as the tables say, wrapped or clamped, and nothing but vd changes (R94,
R168, R171, R172, R79, spec/07_vector_instructions.md). -/
def Obligations.VectorIntegerArithmeticIsLaneByLane : Prop :=
  ∀ (d a b : BitVec 5) (y : BitVec 4), tyInt y = true →
    let w := tyWidth y
    let n (r : BitVec 5) (x : Slot) (k : Nat) : Int := laneInt y (x.vreg r) k
    let raw (r : BitVec 5) (x : Slot) (k : Nat) : Nat := lane w (x.vreg r) k
    let wrap (z : Int) : Nat := (z % 2 ^ w).toNat
    let lo : Int := if tySign y then -2 ^ (w - 1) else 0
    let hi : Int := if tySign y then 2 ^ (w - 1) - 1 else 2 ^ w - 1
    let sat (z : Int) : Nat := wrap (max lo (min hi z))
    WritesLanes (.vadd d a b y 0) d (vboth a b) w (fun x k => wrap (n a x k + n b x k)) ∧
    WritesLanes (.vsub d a b y 0) d (vboth a b) w (fun x k => wrap (n a x k - n b x k)) ∧
    WritesLanes (.vmul d a b y 0) d (vboth a b) w (fun x k => wrap (n a x k * n b x k)) ∧
    WritesLanes (.vadd d a b y 1) d (vboth a b) w (fun x k => sat (n a x k + n b x k)) ∧
    WritesLanes (.vsub d a b y 1) d (vboth a b) w (fun x k => sat (n a x k - n b x k)) ∧
    WritesLanes (.vmul d a b y 1) d (vboth a b) w (fun x k => sat (n a x k * n b x k)) ∧
    WritesLanes (.vmin d a b y) d (vboth a b) w (fun x k => if n a x k < n b x k then raw a x k else raw b x k) ∧
    WritesLanes (.vmax d a b y) d (vboth a b) w (fun x k => if n a x k < n b x k then raw b x k else raw a x k) ∧
    (tySign y = true → WritesLanes (.vabs d a y) d (fun x => x.vmask a) w (fun x k => wrap (n a x k).natAbs) ∧
      WritesLanes (.vneg d a y) d (fun x => x.vmask a) w (fun x k => wrap (-(n a x k)))) ∧
    WritesV (.vand d a b y) d (fun x => x.vreg a &&& x.vreg b) (vboth a b) ∧
    WritesV (.vor d a b y) d (fun x => x.vreg a ||| x.vreg b) (vboth a b) ∧
    WritesV (.vxor d a b y) d (fun x => x.vreg a ^^^ x.vreg b) (vboth a b) ∧
    WritesLanes (.vshl d a b y) d (vboth a b) w (fun x k => raw a x k * 2 ^ (raw b x k % w) % 2 ^ w) ∧
    WritesLanes (.vshr d a b y) d (vboth a b) w (fun x k => wrap (n a x k / 2 ^ (raw b x k % w)))

/-- Floating VADD to VEXP2 round each lane once with its own draw, OR the flags of all lanes and take their steps
(R119, R129, R133, R135, R137, R168, R170, R171, R173, spec/07_vector_instructions.md). -/
def Obligations.VectorFloatArithmeticRoundsEachLane : Prop :=
  let rounds (i : Instr) (d : BitVec 5) (m : Slot → Taint) (w : Nat) (f : Slot → Rounding → Nat → Nat × BitVec 5) : Prop :=
    ∀ (s : State) (q : Nat), Ready i q s → ∃ (v : Line) (fl : BitVec 5),
      exec i s = .next (s.modSlot q fun x => (((x.setV d v (m x)).orFlags fl).takeSteps (1024 / w)).advance) ∧
      (∀ k, k < 1024 / w →
        lane w v k = (f (s.slot q) (((s.slot q).roundings (1024 / w)).getD k rne) k).1 % 2 ^ w) ∧
      fl = (List.range (1024 / w)).foldl
        (fun e k => e ||| (f (s.slot q) (((s.slot q).roundings (1024 / w)).getD k rne) k).2) 0
  (∀ (d a b : BitVec 5) (y : BitVec 4), tyFloat y = true →
    let w := tyWidth y
    let f := fmtOfTy y
    let u (r : BitVec 5) (x : Slot) (k : Nat) : Val := f.decode (lane w (x.vreg r) k)
    rounds (.vadd d a b y 0) d (vboth a b) w (fun x r k => f.addR r (u a x k) (u b x k)) ∧
    rounds (.vsub d a b y 0) d (vboth a b) w (fun x r k => f.addR r (u a x k) (u b x k).neg) ∧
    rounds (.vmul d a b y 0) d (vboth a b) w (fun x r k => f.mulR r (u a x k) (u b x k)) ∧
    rounds (.vfma d a b y) d (fun x => (vboth a b x).union (x.vmask d)) w
      (fun x r k => f.fmaR r (u a x k) (u b x k) (u d x k)) ∧
    WritesLanes (.vmin d a b y) d (vboth a b) w
      (fun x k => f.minmax false (lane w (x.vreg a) k) (lane w (x.vreg b) k) % 2 ^ w) ∧
    WritesLanes (.vmax d a b y) d (vboth a b) w
      (fun x k => f.minmax true (lane w (x.vreg a) k) (lane w (x.vreg b) k) % 2 ^ w) ∧
    WritesLanes (.vabs d a y) d (fun x => x.vmask a) w (fun x k => lane w (x.vreg a) k % 2 ^ (w - 1)) ∧
    WritesLanes (.vneg d a y) d (fun x => x.vmask a) w
      (fun x k => (lane w (x.vreg a) k + 2 ^ (w - 1)) % 2 ^ w)) ∧
  ∀ d a b : BitVec 5,
    rounds (.vdiv d a b) d (vboth a b) 32
      (fun x r k => FpFmt.f32.div r (FpFmt.f32.decode (lane 32 (x.vreg a) k)) (FpFmt.f32.decode (lane 32 (x.vreg b) k))) ∧
    rounds (.vsqrt d a) d (fun x => x.vmask a) 32
      (fun x r k => FpFmt.f32.sqrt r (FpFmt.f32.decode (lane 32 (x.vreg a) k))) ∧
    rounds (.vexp2 d a) d (fun x => x.vmask a) 32
      (fun x r k => exp2F32 r (FpFmt.f32.decode (lane 32 (x.vreg a) k)))

/-- VCEQ, VCLT and VCLE write all ones or zero to each lane; VSEL selects by the raw bits of the old lane (R119,
R168, R174, spec/07_vector_instructions.md). -/
def Obligations.VectorComparesAndSelectWriteWholeLanes : Prop :=
  ∀ (d a b : BitVec 5) (y : BitVec 4), tyLane y = true →
    let w := tyWidth y
    let raw (r : BitVec 5) (x : Slot) (k : Nat) : Nat := lane w (x.vreg r) k
    let n (r : BitVec 5) (x : Slot) (k : Nat) : Int := laneInt y (x.vreg r) k
    let u (r : BitVec 5) (x : Slot) (k : Nat) : Val := (fmtOfTy y).decode (raw r x k)
    let ones (p : Prop) [Decidable p] : Nat := if p then 2 ^ w - 1 else 0
    (tyInt y = true →
      WritesLanes (.vceq d a b y) d (vboth a b) w (fun x k => ones (n a x k = n b x k)) ∧
      WritesLanes (.vclt d a b y) d (vboth a b) w (fun x k => ones (n a x k < n b x k)) ∧
      WritesLanes (.vcle d a b y) d (vboth a b) w (fun x k => ones (n a x k ≤ n b x k))) ∧
    (tyFloat y = true →
      WritesLanes (.vceq d a b y) d (vboth a b) w (fun x k => ones ((u a x k).eq (u b x k) = true)) ∧
      WritesLanes (.vclt d a b y) d (vboth a b) w (fun x k => ones ((u a x k).lt (u b x k) = true)) ∧
      WritesLanes (.vcle d a b y) d (vboth a b) w
        (fun x k => ones ((u a x k).lt (u b x k) = true ∨ (u a x k).eq (u b x k) = true))) ∧
    WritesLanes (.vsel d a b y) d (fun x => (vboth a b x).union (x.vmask d)) w
      (fun x k => if raw d x k ≠ 0 then raw a x k else raw b x k)

/-- VRSUM, VRMAX and VRMIN reduce the lanes of a register to one scalar, by the exact sum, the extreme lane or the
tree (R78, R135, R140, R168, R175, spec/07_vector_instructions.md). -/
def Obligations.VectorReductionsWriteOneScalar : Prop :=
  ∀ (d a : BitVec 5) (y : BitVec 4),
    let w := tyWidth y
    let n := 1024 / w
    let f := fmtOfTy y
    let lanesOf (x : Slot) : List Nat := (List.range n).map fun k => lane w (x.vreg a) k
    (tyInt y = true →
      WritesS (.vrsum d a y) d
        (fun x => BitVec.ofInt 64 (((List.range n).map fun k => laneInt y (x.vreg a) k).foldl (· + ·) 0)) (fun x => x.vmask a) ∧
      (∃ top : Slot → Nat, WritesS (.vrmax d a y) d (fun x => BitVec.ofInt 64 (laneInt y (x.vreg a) (top x))) (fun x => x.vmask a) ∧
        ∀ x, top x < n ∧ ∀ k, k < n → laneInt y (x.vreg a) k ≤ laneInt y (x.vreg a) (top x)) ∧
      (∃ low : Slot → Nat, WritesS (.vrmin d a y) d (fun x => BitVec.ofInt 64 (laneInt y (x.vreg a) (low x))) (fun x => x.vmask a) ∧
        ∀ x, low x < n ∧ ∀ k, k < n → laneInt y (x.vreg a) (low x) ≤ laneInt y (x.vreg a) k)) ∧
    (tyFloat y = true →
      Completes (.vrsum d a y) (fun x =>
        let t := (pairTree (fun r (u v : Nat × BitVec 5) =>
          ((f.addR r (f.decode u.1) (f.decode v.1)).1, u.2 ||| v.2 ||| (f.addR r (f.decode u.1) (f.decode v.1)).2))
          (Nat.log2 n) (x.roundings (n - 1)) ((lanesOf x).map fun k => (k, 0))).headD (0, 0)
        ((x.setS d (BitVec.ofNat 64 t.1) (x.vmask a)).orFlags t.2).takeSteps (n - 1)) ∧
      WritesS (.vrmax d a y) d (fun x => BitVec.ofNat 64
        ((pairTree (fun _ u v => f.minmax true u v) (Nat.log2 n) (List.replicate n rne) (lanesOf x)).headD 0)) (fun x => x.vmask a) ∧
      WritesS (.vrmin d a y) d (fun x => BitVec.ofNat 64
        ((pairTree (fun _ u v => f.minmax false u v) (Nat.log2 n) (List.replicate n rne) (lanesOf x)).headD 0)) (fun x => x.vmask a)) ∧
    ∀ (g : Rounding → Nat → Nat → Nat) (k : Nat) (rs : List Rounding) (l : List Nat),
      pairTree g (k + 1) rs l = pairTree g k (rs.drop (2 ^ k))
        (List.zipWith (fun r (p : Nat × Nat) => g r p.1 p.2) rs ((l.take (2 ^ k)).zip (l.drop (2 ^ k))))

/-- VPERM, VROT, VBCST, VEXT, VINS and VMOV move raw lanes; VCVT converts each element and OR its flags (R168, R176,
R177, R178, spec/07_vector_instructions.md). -/
def Obligations.LaneMovementCopiesRawLanes : Prop :=
  (∀ (d a b : BitVec 5) (y : BitVec 4), tyLane y = true →
    let w := tyWidth y
    let n := 1024 / w
    let raw (r : BitVec 5) (x : Slot) (k : Nat) : Nat := lane w (x.vreg r) k
    WritesLanes (.vperm d a b y) d (vboth a b) w (fun x k => raw a x (raw b x k % n)) ∧
    WritesLanes (.vrot d a b y) d (fun x => (x.vmask a).union (x.smask b)) w
      (fun x k => raw a x ((k + (x.sreg b).toNat % n) % n)) ∧
    WritesLanes (.vbcst d a y) d (fun x => x.smask a) w (fun x _ => (x.sreg a).toNat % 2 ^ w) ∧
    WritesS (.vext d a b y) d
      (fun x => if tyInt y = true then BitVec.ofInt 64 (laneInt y (x.vreg a) ((x.sreg b).toNat % n))
        else BitVec.ofNat 64 (raw a x ((x.sreg b).toNat % n))) (fun x => (x.vmask a).union (x.smask b)) ∧
    WritesLanes (.vins d a b y) d (fun x => ((x.vmask d).union (x.smask a)).union (x.smask b)) w
      (fun x k => if k = (x.sreg b).toNat % n then (x.sreg a).toNat % 2 ^ w else raw d x k)) ∧
  (∀ d a : BitVec 5, WritesV (.vmov d a) d (fun x => x.vreg a) (fun x => x.vmask a)) ∧
  ∀ (d a : BitVec 5) (st y : BitVec 4), tyConvert st = true → tyConvert y = true →
    let ws := tyWidth st
    let wd := tyWidth y
    let n := 1024 / max ws wd
    ∀ (s : State) (q : Nat), Ready (.vcvt d a st y) q s → ∃ (v : Line) (fl : BitVec 5),
      let x := s.slot q
      let e (k : Nat) : Nat × BitVec 5 :=
        convertLane st y x.flush ((x.roundings n).getD k rne) (lane ws (x.vreg a) k)
      exec (.vcvt d a st y) s = .next (s.modSlot q fun x =>
        let z := (x.setV d v (x.vmask a)).orFlags fl
        (if st.toNat < 8 ∨ y.toNat < 8 then z.takeSteps n else z).advance) ∧
      (∀ k, k < n → lane wd v k = (e k).1 % 2 ^ wd) ∧ (∀ k, n ≤ k → k < 1024 / wd → lane wd v k = 0) ∧
      fl = (List.range n).foldl (fun g k => g ||| (e k).2) 0

/-- Vector instructions change no register but their destination, no byte of memory and, the floating ones aside, no
flag (R168, R170, R175, R176, spec/07_vector_instructions.md). -/
def Obligations.VectorInstructionsLeaveTheRestAlone : Prop :=
  ∀ (s t : State) (q : Nat) (i : Instr) (y : BitVec 4) (vs ds : List (BitVec 5)),
    ((∃ d a b m, vs = [d] ∧ ds = [] ∧ (i = .vadd d a b y m ∨ i = .vmul d a b y m)) ∨
      (∃ d a b, vs = [d] ∧ ds = [] ∧ (i = .vfma d a b y ∨ i = .vmin d a b y ∨ i = .vceq d a b y ∨ i = .vsel d a b y ∨
        i = .vperm d a b y ∨ i = .vrot d a b y ∨ i = .vins d a b y)) ∨
      (∃ d a, vs = [d] ∧ ds = [] ∧ (i = .vbcst d a y ∨ i = .vcvt d a y y ∨ i = .vmov d a)) ∨
      (∃ d a, vs = [] ∧ ds = [d] ∧ (i = .vrsum d a y ∨ i = .vrmax d a y)) ∨
      (∃ d a b, vs = [] ∧ ds = [d] ∧ i = .vext d a b y)) →
    i.wellFormed = true → Ready i q s → exec i s = .next t →
    OnlySlot q s t ∧ KeepsScalars q ds s t ∧ KeepsPointers q [] s t ∧ KeepsVectors q vs s t ∧
      special { (t.slot q) with fflags := (s.slot q).fflags, srseed := (s.slot q).srseed } = special (s.slot q) ∧
      (8 ≤ y.toNat → (t.slot q).fflags = (s.slot q).fflags ∧ (t.slot q).srseed = (s.slot q).srseed)

/-- LD to LDA take a load tag, move their pointer, advance and ask the home of their address (R192, R265, R283,
R286, R287, R288, R153, R438, spec/11_memory_instructions.md). THE MODEL'S CHOICES in it: that a load's home reads
it in a step of its own rests on entry 4 (DEDUCED). -/
def Obligations.LoadsTakeATagAndAskTheHome : Prop :=
  let asks (i : Instr) (va : Slot → Word) (m : Slot → Taint) (n : Nat) (sx : Bool) (d : Dest) (k : LoadKind)
      (bump : Option (BitVec 3)) : Prop :=
    ∀ (s : State) (q : Nat) (s1 : State) (l : Loc), Ready i q s →
      (s.slot q).satisfied (m (s.slot q)) = true → (va (s.slot q)).toNat % n = 0 →
      resolve s (s.who q) (va (s.slot q)) n .read = (s1, .ok l) →
      let issued (t : State) (data : Option Nat) (ts : Nat) : Prop := ∃ r : LoadRec,
        r.dest = d ∧ r.kind = k ∧ r.key = l.key ∧ r.size = n ∧ r.sext = sx ∧ r.const = l.const ∧
        r.data = data ∧ r.wts = ts ∧ r.abort = false ∧ r.status = 0 ∧ r.flags = 0 ∧
        exec i s = .next ((t.modSlot q fun x =>
          let y := x.takeLoad r
          (match bump with
            | some p => y.setP p (y.preg p + y.step p) (y.pmask p)
            | none => y).advance).push
          (if data.isSome then .loadCompletion q (t.slot q).nextSerial else .sliceRead q (t.slot q).nextSerial))
      match homeOf l.key with
      | .reg o =>
        (n = 4 ∨ n = 8) →
        s1.regCheck (s.slot q).level.toNat (s.slot q).ctx (o / 8 * 8) (halfOf o n) none = none →
        s1.lineOut q l.key s1.nextId = false → (s.slot q).joinsBefore s1.nextId = false →
        issued (s1.regRead (o / 8 * 8) (halfOf o n)).1 (some (s1.regRead (o / 8 * 8) (halfOf o n)).2.toNat)
          ((s1.regRead (o / 8 * 8) (halfOf o n)).1.tsOver l.key n)
      | .ctrl c o => (s.slot q).joinsBefore s1.nextId = false → issued s1 (some (s1.ctrlRead c o n)) 0
      | _ => issued s1 none 0
  ∀ (t a v : BitVec 5) (p y k : BitVec 3) (o : BitVec 12),
    let n := 2 ^ (y.toNat % 4)
    let sx := decide (y.toNat < 4)
    asks (.ld t a y o) (fun x => x.sreg a + o.signExtend 64) (fun x => x.smask a) n sx (.scalar t.toNat) .plain none ∧
    asks (.ldp t p y o) (fun x => x.preg p + o.signExtend 64) (fun x => x.pmask p) n sx (.scalar t.toNat) .plain none ∧
    asks (.ldpi t p y) (fun x => x.preg p) (fun x => x.pmask p) n sx (.scalar t.toNat) .plain (some p) ∧
    asks (.vld v a o) (fun x => x.sreg a + 128 * o.signExtend 64) (fun x => x.smask a) 128 false (.vector v.toNat)
      .plain none ∧
    asks (.vldp v p o) (fun x => x.preg p + 128 * o.signExtend 64) (fun x => x.pmask p) 128 false (.vector v.toNat)
      .plain (some p) ∧
    asks (.lda t a k y) (fun x => x.sreg a) (fun x => x.smask a) n sx (.scalar t.toNat) (.acquire k.toNat) none

/-- ST to VSTP hand their bytes to the home of their address with the taint that holds them, and retire at once
(R192, R267, R283, R286, R287, R153, R438, spec/11_memory_instructions.md). THE MODEL'S CHOICES in it: that a store
to the slot's own scratchpad or its cluster's banks is performed at issue and another joins the dirty bytes rests on
entry 8, the widening of summaries on entry 70 (both DEDUCED). -/
def Obligations.StoresLeaveForTheirHomeAndRetire : Prop :=
  let stores (i : Instr) (va : Slot → Word) (data : Slot → List Byte) (hold : Slot → Taint)
      (bump : Option (BitVec 3)) : Prop :=
    ∀ (s : State) (q : Nat) (s1 : State) (l : Loc), Ready i q s →
      let x := s.slot q
      let n := (data x).length
      (va x).toNat % n = 0 → resolve s (s.who q) (va x) n .write = (s1, .ok l) →
      let retire (t : State) : State := t.modSlot q fun x =>
        (match bump with
          | some p => x.setP p (x.preg p + x.step p) (x.pmask p)
          | none => x).advance
      match homeOf l.key with
      | .reg o =>
        (n = 4 ∨ n = 8) →
        let w : RegWrite := ⟨s1.nextId, .slot q, (s1.slot q).level.toNat, (s1.slot q).ctx, o / 8 * 8, halfOf o n,
          BitVec.ofNat 64 (leNat (data x)), (s1.slot q).pts⟩
        s1.regCheck x.level.toNat x.ctx (o / 8 * 8) (halfOf o n) (some w.value) = none →
        s1.mayGo q s1.nextId l.key n (x.behind (hold x)) = true →
        exec i s = .next ((retire (((s1.outstanding q s1.nextId l.key).modSlot q
          fun x => x.countSent q l.key).useId)).push (.registerWrite w))
      | .ctrl c o =>
        x.satisfied (hold x) = true → x.joinsBefore s1.nextId = false → exec i s = .next (ctrlStore s1 q i ⟨va x, data x, hold x, bump⟩ c o)
      | _ =>
        let s2 := (s1.widenFor (s1.who q) (va x)).1
        exec i s = .next (retire (s2.useId.putStore
          ⟨s2.nextId, q, clusterOf q, l.key, va x, data x, (s2.slot q).pts, (s2.slot q).behind (hold x), false, l.ord,
            (s1.widenFor (s1.who q) (va x)).2, false, .held⟩))
  ∀ (t a v : BitVec 5) (p y : BitVec 3) (o : BitVec 12),
    let n := 2 ^ (y.toNat % 4)
    let low (x : Slot) : List Byte := natBytes (x.sreg t).toNat n
    stores (.st t a y o) (fun x => x.sreg a + o.signExtend 64) low
      (fun x => ((x.smask a).union (x.smask t)).union x.ctm) none ∧
    stores (.stp t p y o) (fun x => x.preg p + o.signExtend 64) low
      (fun x => ((x.pmask p).union (x.smask t)).union x.ctm) none ∧
    stores (.stpi t p y) (fun x => x.preg p) low (fun x => ((x.pmask p).union (x.smask t)).union x.ctm) (some p) ∧
    stores (.vst v a o) (fun x => x.sreg a + 128 * o.signExtend 64) (fun x => natBytes (x.vreg v).toNat 128)
      (fun x => ((x.smask a).union (x.vmask v)).union x.ctm) none ∧
    stores (.vstp v p o) (fun x => x.preg p + 128 * o.signExtend 64) (fun x => natBytes (x.vreg v).toNat 128)
      (fun x => ((x.pmask p).union (x.vmask v)).union x.ctm) (some p)

/-- A store changes no byte outside those it names, and an access that stores nothing changes none (R283, R286,
R287, R212, R261, R263, R423, spec/11_memory_instructions.md). THE MODEL'S CHOICES in it: that a store to the slot's
own scratchpad is in memory in the very next state rests on entry 8 (DEDUCED). -/
def Obligations.AStoreChangesNoByteOutsideItsOwn : Prop :=
  let stores (i : Instr) (va : Slot → Word) (data : Slot → List Byte) (hold : Slot → Taint) : Prop :=
    ∀ (s : State) (q : Nat) (s1 : State) (l : Loc) (t : State), Ready i q s →
      let x := s.slot q
      let n := (data x).length
      (va x).toNat % n = 0 → resolve s (s.who q) (va x) n .write = (s1, .ok l) →
      (match homeOf l.key with
        | .reg _ => False
        | .ctrl _ _ => False
        | _ => True) →
      exec i s = .next t →
      (∀ a, ¬(l.key ≤ a ∧ a < l.key + n) → t.mem.read a = s1.mem.read a) ∧
      (s.shadowCopy q = none → ∀ a, s1.mem.read a = s.mem.read a) ∧
      (∀ o, homeOf l.key = .pad (tileOf q) o → s1.mayGo q s1.nextId l.key n (x.behind (hold x)) = true →
        (s1.dirty.any fun d => d.thread == q && d.key / 128 == l.key / 128 && decide (d.id < s1.nextId)) = false →
        s1.anyBad l.key n = false →
        ∀ k, k < n → t.mem.read (l.key + k) = (data x).getD k 0)
  let loads (i : Instr) (va : Slot → Word) (m : Slot → Taint) (n : Nat) : Prop :=
    ∀ (s : State) (q : Nat) (s1 : State) (l : Loc) (t : State), Ready i q s →
      (s.slot q).satisfied (m (s.slot q)) = true → (va (s.slot q)).toNat % n = 0 →
      resolve s (s.who q) (va (s.slot q)) n .read = (s1, .ok l) →
      (∀ o, homeOf l.key ≠ .reg o) → exec i s = .next t →
      ∀ a, t.mem.read a = s.mem.read a
  ∀ (t a v : BitVec 5) (p y k : BitVec 3) (o : BitVec 12),
    let n := 2 ^ (y.toNat % 4)
    let low (x : Slot) : List Byte := natBytes (x.sreg t).toNat n
    stores (.st t a y o) (fun x => x.sreg a + o.signExtend 64) low
      (fun x => ((x.smask a).union (x.smask t)).union x.ctm) ∧
    stores (.stp t p y o) (fun x => x.preg p + o.signExtend 64) low
      (fun x => ((x.pmask p).union (x.smask t)).union x.ctm) ∧
    stores (.stpi t p y) (fun x => x.preg p) low (fun x => ((x.pmask p).union (x.smask t)).union x.ctm) ∧
    stores (.vst v a o) (fun x => x.sreg a + 128 * o.signExtend 64) (fun x => natBytes (x.vreg v).toNat 128)
      (fun x => ((x.smask a).union (x.vmask v)).union x.ctm) ∧
    stores (.vstp v p o) (fun x => x.preg p + 128 * o.signExtend 64) (fun x => natBytes (x.vreg v).toNat 128)
      (fun x => ((x.pmask p).union (x.vmask v)).union x.ctm) ∧
    loads (.ld t a y o) (fun x => x.sreg a + o.signExtend 64) (fun x => x.smask a) n ∧
    loads (.ldp t p y o) (fun x => x.preg p + o.signExtend 64) (fun x => x.pmask p) n ∧
    loads (.ldpi t p y) (fun x => x.preg p) (fun x => x.pmask p) n ∧
    loads (.vld v a o) (fun x => x.sreg a + 128 * o.signExtend 64) (fun x => x.smask a) 128 ∧
    loads (.vldp v p o) (fun x => x.preg p + 128 * o.signExtend 64) (fun x => x.pmask p) 128 ∧
    loads (.lda t a k y) (fun x => x.sreg a) (fun x => x.smask a) n

/-- An access tests its mask, its alignment and its address, in that order, before it has any effect (R267, R283,
R285, R286, R287, R288, R290, R386, R388, R394, spec/11_memory_instructions.md). THE MODEL'S CHOICES in it: the
E_PROT of an atomic at a register or at the control page rests on entry 65, the release that raises a refused write
on entry 11 (both DEDUCED). -/
def Obligations.AccessesTrapAndWaitBeforeTheyAct : Prop :=
  let traps (i : Instr) (va : Slot → Word) (m : Slot → Taint) (n : Nat) (acc : Access) : Prop :=
    ∀ (s : State) (q : Nat), Ready i q s →
      let x := s.slot q
      ((acc = .read ∧ x.satisfied (m x) = false) → exec i s = .next s) ∧
      ((acc = .read → x.satisfied (m x) = true) →
        ((va x).toNat % n ≠ 0 →
          exec i s = .next (s.deliver q ⟨0x03, 0, x.pc, (encode i).getD 0, va x, none, false⟩)) ∧
        ((va x).toNat % n = 0 → ∀ (s1 : State) (e : XFault), resolve s (s.who q) (va x) n acc = (s1, .error e) →
          (e.late = false ∨ acc = .read → exec i s = .next (s1.accessFault q i e acc (va x)))))
  let late (i : Instr) (va : Slot → Word) (n : Nat) (bump : Option (BitVec 3)) : Prop :=
    ∀ (s : State) (q : Nat) (s1 : State) (e : XFault), Ready i q s → (va (s.slot q)).toNat % n = 0 →
      resolve s (s.who q) (va (s.slot q)) n .write = (s1, .error e) → e.late = true →
      exec i s = .next ((s1.refuse q e.cause e.reason (va (s.slot q))).modSlot q fun x =>
        (match bump with
          | some p => x.setP p (x.preg p + x.step p) (x.pmask p)
          | none => x).advance)
  let bars (i : Instr) (va : Slot → Word) (n : Nat) : Prop :=
    ∀ (s : State) (q : Nat) (s1 : State) (l : Loc) (e : XFault), Ready i q s → (va (s.slot q)).toNat % n = 0 →
      resolve s (s.who q) (va (s.slot q)) n .write = (s1, .ok l) → atomicPlace s1 l = some e →
      e.cause = 0x05 ∧ exec i s = .next (s1.accessFault q i e .write (va (s.slot q)))
  ∀ (t a b v : BitVec 5) (p y k : BitVec 3) (o : BitVec 12) (w g : BitVec 1),
    let n := 2 ^ (y.toNat % 4)
    let z := if w = 1 then 8 else 4
    let nil (_ : Slot) : Taint := Taint.none
    let off (x : Slot) : Word := x.sreg a + o.signExtend 64
    traps (.ld t a y o) off (fun x => x.smask a) n .read ∧
    traps (.ldp t p y o) (fun x => x.preg p + o.signExtend 64) (fun x => x.pmask p) n .read ∧
    traps (.ldpi t p y) (fun x => x.preg p) (fun x => x.pmask p) n .read ∧
    traps (.vld v a o) (fun x => x.sreg a + 128 * o.signExtend 64) (fun x => x.smask a) 128 .read ∧
    traps (.vldp v p o) (fun x => x.preg p + 128 * o.signExtend 64) (fun x => x.pmask p) 128 .read ∧
    traps (.lda t a k y) (fun x => x.sreg a) (fun x => x.smask a) n .read ∧
    traps (.st t a y o) off nil n .write ∧ late (.st t a y o) off n none ∧
    traps (.stp t p y o) (fun x => x.preg p + o.signExtend 64) nil n .write ∧
    late (.stp t p y o) (fun x => x.preg p + o.signExtend 64) n none ∧
    traps (.stpi t p y) (fun x => x.preg p) nil n .write ∧ late (.stpi t p y) (fun x => x.preg p) n (some p) ∧
    traps (.vst v a o) (fun x => x.sreg a + 128 * o.signExtend 64) nil 128 .write ∧
    late (.vst v a o) (fun x => x.sreg a + 128 * o.signExtend 64) 128 none ∧
    traps (.vstp v p o) (fun x => x.preg p + 128 * o.signExtend 64) nil 128 .write ∧
    late (.vstp v p o) (fun x => x.preg p + 128 * o.signExtend 64) 128 (some p) ∧
    traps (.stl t a k y) (fun x => x.sreg a) nil n .write ∧
    (∀ (s : State) (q : Nat) (s1 : State) (e : XFault), Ready (.stl t a k y) q s → ((s.slot q).sreg a).toNat % n = 0 →
      resolve s (s.who q) ((s.slot q).sreg a) n .write = (s1, .error e) → e.late = true →
      let s2 := s1.refuse q e.cause e.reason ((s.slot q).sreg a)
      ∃ c r va, (s2.slot q).nak = some (c, r, va) ∧
        exec (.stl t a k y) s = .next ((s2.modSlot q fun x => { x with nak := none }).deliver q
          ⟨c, r, (s1.slot q).pc, (encode (.stl t a k y)).getD 0, va, none, false⟩)) ∧
    traps (.stn4 t a o) (fun x => x.sreg a + (o.sshiftRight 1).signExtend 64) nil 1 .write ∧
    late (.stn4 t a o) (fun x => x.sreg a + (o.sshiftRight 1).signExtend 64) 1 none ∧
    (∀ i, i = .aswap t a b k w ∨ i = .acas t a b k w ∨ i = .aadd t a b k w ∨ i = .aand t a b k w ∨ i = .aor t a b k w ∨
        i = .axor t a b k w ∨ i = .amin t a b k w g ∨ i = .amax t a b k w g →
      traps i (fun x => x.sreg a) nil z .write ∧ bars i (fun x => x.sreg a) z) ∧
    traps (.afadd t a b k) (fun x => x.sreg a) nil 4 .write ∧ bars (.afadd t a b k) (fun x => x.sreg a) 4 ∧
    bars (.radd a b k w) (fun x => x.sreg a) z ∧ bars (.rfadd a b k) (fun x => x.sreg a) 4 ∧
    traps (.radd a b k w) (fun x => x.sreg a) nil z .write ∧ late (.radd a b k w) (fun x => x.sreg a) z none ∧
    traps (.rfadd a b k) (fun x => x.sreg a) nil 4 .write ∧ late (.rfadd a b k) (fun x => x.sreg a) 4 none

/-- STL leaves a release behind and retires, FENCE waits for all that is older, TCLR to VTDEP change masks alone
(R271, R272, R285, R288, R289, R308, spec/11_memory_instructions.md). THE MODEL'S CHOICES in it: what a release
waits for, that a release or FENCE of any scope raises a refused write, and that FENCE is tried again until its
waits are met rest on entry 11 (DEDUCED). -/
def Obligations.ReleasesFencesAndTaintControlComplete : Prop :=
  (∀ (t a : BitVec 5) (k y : BitVec 3) (s : State) (q : Nat) (s1 : State) (l : Loc),
    Ready (.stl t a k y) q s →
    let x := s.slot q
    let n := 2 ^ (y.toNat % 4)
    (x.sreg a).toNat % n = 0 → resolve s (s.who q) (x.sreg a) n .write = (s1, .ok l) → x.nak = none →
    (match homeOf l.key with
      | .reg _ => False
      | .ctrl _ _ => False
      | _ => True) →
    let s2 := (s1.widenFor (s1.who q) (x.sreg a)).1
    let w : WriteReq := ⟨s2.nextId, q, clusterOf q, l.key, x.sreg a, natBytes (x.sreg t).toNat n, (s2.slot q).pts,
      (s2.slot q).behind (((x.smask a).union (x.smask t)).union x.ctm), true, l.ord, (s1.widenFor (s1.who q) (x.sreg a)).2,
      false, .held⟩
    exec (.stl t a k y) s = .next ((s2.startRelease q k.toNat l.key (.store w)).modSlot q Slot.advance) ∧
    .releaseComplete ⟨q, (s2.slot q).relNext, s2.nextId, k.toNat, .store w⟩ ∈
      ((s2.startRelease q k.toNat l.key (.store w)).agenda)) ∧
  (∀ (t a : BitVec 5) (k y : BitVec 3) (s : State) (q : Nat) (s1 : State) (l : Loc) (o : Nat),
    Ready (.stl t a k y) q s →
    let x := s.slot q
    let n := 2 ^ (y.toNat % 4)
    (x.sreg a).toNat % n = 0 → (n = 4 ∨ n = 8) →
    resolve s (s.who q) (x.sreg a) n .write = (s1, .ok l) → homeOf l.key = .reg o → x.nak = none →
    let r := regReq s1 q o (natBytes (x.sreg t).toNat n)
    s1.regCheck x.level.toNat x.ctx r.offset r.half (some r.value) = none →
    x.satisfied (((x.smask a).union (x.smask t)).union x.ctm) = true →
    exec (.stl t a k y) s = .next ((s1.startRelease q k.toNat l.key (.register r)).modSlot q Slot.advance)) ∧
  (∀ (t a : BitVec 5) (k y : BitVec 3) (s : State) (q : Nat) (s1 : State) (l : Loc) (c o : Nat),
    Ready (.stl t a k y) q s →
    let x := s.slot q
    let n := 2 ^ (y.toNat % 4)
    let hold := ((x.smask a).union (x.smask t)).union x.ctm
    (x.sreg a).toNat % n = 0 → resolve s (s.who q) (x.sreg a) n .write = (s1, .ok l) → homeOf l.key = .ctrl c o →
    x.nak = none →
    let s2 := s1.drainThread q
    let met := (s2.slot q).satisfied hold && s2.relReady q k.toNat (s2.slot q).relNext s2.nextId
    exec (.stl t a k y) s = .next (if met then
      ctrlStore (s2.modSlot q Slot.clearTouched) q (.stl t a k y) ⟨x.sreg a, natBytes (x.sreg t).toNat n, hold, none⟩ c o
      else s2)) ∧
  (∀ (k : BitVec 3) (s : State) (q : Nat), Ready (.fence k) q s →
    let s1 := s.drainThread q
    (s1.relReady q k.toNat (s1.slot q).relNext s1.nextId = false → exec (.fence k) s = .next s1) ∧
    (s1.relReady q k.toNat (s1.slot q).relNext s1.nextId = true → (s1.slot q).nak = none →
      exec (.fence k) s = .next (s1.modSlot q fun x => x.clearTouched.advance)) ∧
    (∀ cause reason va, s1.relReady q k.toNat (s1.slot q).relNext s1.nextId = true →
      (s1.slot q).nak = some (cause, reason, va) →
      exec (.fence k) s = .next ((s1.modSlot q fun x => { x with nak := none }).deliver q
        ⟨cause, reason, (s1.slot q).pc, (encode (.fence k)).getD 0, va, none, false⟩))) ∧
  ∀ d a : BitVec 5,
    Completes (.tclr d) (fun x => x.setSmask d Taint.none) ∧
    Completes (.tdep d a) (fun x => x.setSmask d ((x.smask d).union (x.smask a))) ∧
    Completes (.vtclr d) (fun x => x.setVmask d Taint.none) ∧
    Completes (.vtdep d a) (fun x => x.setVmask d ((x.vmask d).union (x.vmask a)))

/-- ASWAP to AFADD take a load tag and leave for their home, RADD, RFADD and STN4 leave and retire (R212, R218,
R265, R290, R291, R292, R293, R294, R308, spec/11_memory_instructions.md). THE MODEL'S CHOICES in it: that an
atomic, a reduction and a nibble store carry the widening of their key ranges rests on entry 70 (DEDUCED from R218
and R212). -/
def Obligations.AtomicsLeaveForTheirHome : Prop :=
  let sent (s : State) (q : Nat) (key : Nat) : State :=
    ((s.outstanding q s.nextId key).modSlot q fun x => x.countSent q key).useId
  let goes (i : Instr) (fn : Nat) (wide sgn : Bool) (a b : BitVec 5) (k : BitVec 3) (t : Option (BitVec 5))
      (operand : Slot → Word) (hold : Slot → Taint) : Prop :=
    ∀ (s : State) (q : Nat) (s1 : State) (l : Loc), Ready i q s →
      let x := s.slot q
      let n := if wide then 8 else 4
      (x.sreg a).toNat % n = 0 → resolve s (s.who q) (x.sreg a) n .write = (s1, .ok l) → atomicPlace s1 l = none →
      let s2 := (s1.widenFor (s1.who q) (x.sreg a)).1
      let req (serial : Option Nat) : AtomicReq := ⟨s2.nextId, q, serial, fn, wide, sgn, l.key, x.sreg a, x.sreg b,
        operand x, (s1.slot q).behind (hold x), (s1.slot q).pts, k.toNat == 4, l.ord, (s1.widenFor (s1.who q) (x.sreg a)).2⟩
      match t with
      | none => exec i s = .next (((sent s2 q l.key).modSlot q Slot.advance).push (.homeReduction (req none)))
      | some d => ∃ r : LoadRec, r.dest = .scalar d.toNat ∧ r.kind = .atomic (fn == 8) ∧ r.key = l.key ∧ r.size = n ∧
          r.sext = (sgn && !wide) ∧ r.data = none ∧ r.abort = false ∧
          exec i s = .next (((sent s2 q l.key).modSlot q fun x => (x.takeLoad r).advance).push
            (.homeAtomic (req (some (s1.slot q).nextSerial))))
  ∀ (t a b : BitVec 5) (k : BitVec 3) (w g : BitVec 1) (o : BitVec 12),
    let two (x : Slot) : Taint := ((x.smask a).union (x.smask b)).union x.ctm
    let old (x : Slot) : Word := x.sreg t
    goes (.aswap t a b k w) 0 (w == 1) false a b k (some t) old two ∧
    goes (.acas t a b k w) 1 (w == 1) false a b k (some t) old (fun x => (two x).union (x.smask t)) ∧
    goes (.aadd t a b k w) 2 (w == 1) false a b k (some t) old two ∧
    goes (.aand t a b k w) 3 (w == 1) false a b k (some t) old two ∧
    goes (.aor t a b k w) 4 (w == 1) false a b k (some t) old two ∧
    goes (.axor t a b k w) 5 (w == 1) false a b k (some t) old two ∧
    goes (.amin t a b k w g) 6 (w == 1) (g == 1) a b k (some t) old two ∧
    goes (.amax t a b k w g) 7 (w == 1) (g == 1) a b k (some t) old two ∧
    goes (.afadd t a b k) 8 false false a b k (some t) old two ∧
    goes (.radd a b k w) 9 (w == 1) false a b k none (fun _ => 0) two ∧
    goes (.rfadd a b k) 10 false false a b k none (fun _ => 0) two ∧
    ∀ (s : State) (q : Nat) (s1 : State) (l : Loc), Ready (.stn4 t a o) q s →
      let x := s.slot q
      let va := x.sreg a + (o.sshiftRight 1).signExtend 64
      resolve s (s.who q) va 1 .write = (s1, .ok l) →
      (match homeOf l.key with
        | .host _ => False
        | .reg _ => False
        | .ctrl _ _ => False
        | _ => True) →
      let s2 := (s1.widenFor (s1.who q) va).1
      exec (.stn4 t a o) s = .next (((sent s2 q l.key).modSlot q Slot.advance).push
        (.nibbleStoreAtHome ⟨s2.nextId, q, l.key, va, (s1.widenFor (s1.who q) va).2, o.getLsbD 0,
          (x.sreg t).truncate 4, x.behind (((x.smask a).union (x.smask t)).union x.ctm), x.pts, l.ord⟩))

/-- SLICE_READ reads a load's location at its home, LOAD_COMPLETION writes the register and frees the tag (R192,
R261, R263, R264, R265, R268, R276, R284, R286, R308, R418, R468). THE MODEL'S CHOICES in it: that a load's home
reads it in a step of its own, in program order per 8-byte location, rests on entry 4 (DEDUCED), the free evictions
on entry 9 (DESIGN CHOICE). -/
def Obligations.LoadsReadTheirHomeAndLand : Prop :=
  (∀ (s : State) (q n : Nat) (l : LoadRec),
    let x := s.slot q
    x.loads.find? (fun k => k.serial == n) = some l → l.data = none → l.abort = false →
    let older := s.lineOut q l.key l.before || s.heldOver q l || x.joinsBefore l.before ||
      x.loads.any fun k => decide (k.serial < n) && k.data.isNone && !k.abort &&
        decide (k.key / 8 < (l.key + l.size + 7) / 8) && decide (l.key / 8 < (k.key + k.size + 7) / 8)
    let answered (t : State) (v w : Nat) : State :=
      (t.modSlot q fun x => x.fillLoad n fun l => { l with data := some v, wts := w }).push (.loadCompletion q n)
    (older = true → exec (.sliceRead q n) s = .next (s.push (.sliceRead q n))) ∧
    (older = false → s.homeFenced x.ctx l.key = false → s.anyBad l.key l.size = false → s.dirty = [] →
      (∀ o t c b, homeOf l.key = .pad t o ∨ homeOf l.key = .bank c b o → l.const = false →
        exec (.sliceRead q n) s =
          .next (answered s (leNat (s.mem.readBytes l.key l.size)) (s.tsOver l.key l.size))) ∧
      (∀ o, homeOf l.key = .dram o → l.const = false → s.cacheWays (clusterOf q) = 0 →
        findAt s.copies (copyKey (clusterOf q) (l.key / 128)) = none →
        let line := 128 * (l.key / 128)
        let (w, r) := (s.evictLine line).ts line
        ∃ u : State, u.mem = s.mem ∧ u.slots = s.slots ∧ u.ts line = (w, max r (max x.pts w + 16)) ∧
          exec (.sliceRead q n) s = .next (answered u
            (leNat (((s.mem.readBytes line 128).drop (l.key % 128)).take l.size)) w)) ∧
      (∀ o k s1, homeOf l.key = .dram o → l.const = false →
        findAt s.copies (copyKey (clusterOf q) (l.key / 128)) = some k → s.coin = (s1, false) →
        s1.copyServes (clusterOf q) k x.pts = true →
        exec (.sliceRead q n) s = .next (answered s1 (leNat ((k.data.drop (l.key % 128)).take l.size)) k.wts))) ∧
    (older = false → s.readsLost q l = false → s.homeFenced x.ctx l.key = true →
      exec (.sliceRead q n) s = .next ((s.modSlot q fun x => x.unissue l).deliver q
        ⟨0x0A, 0, l.origin.pc, l.origin.word, l.origin.va, none, false⟩))) ∧
  ∀ (s : State) (q n : Nat) (l : LoadRec) (r : BitVec 5),
    let x := s.slot q
    x.loads.find? (fun k => k.serial == n) = some l → l.dest = .scalar r.toNat →
    ∃ y : Slot, exec (.loadCompletion q n) s = .next ((s.setSlot q y).flushHeld q) ∧
      y.loads = x.loads.filter (fun k => k.serial ≠ n) ∧ y.ctm = y.unsatisfied x.ctm ∧ y.pc = x.pc ∧
      y.fflags = x.fflags ||| l.flags ∧ y.pts = max x.pts l.wts ∧
      (∀ k, y.smask k = x.smask k) ∧ (∀ k, k ≠ r → y.sreg k = x.sreg k) ∧ (∀ k, y.vreg k = x.vreg k) ∧
      (∀ k, y.preg k = x.preg k) ∧
      (r ≠ 0 → ∀ v, l.abort = false → l.data = some v → v < 2 ^ (8 * l.size) → (l.size = 1 ∨ l.size = 2 ∨ l.size = 4 ∨ l.size = 8) →
        y.sreg r = (if l.sext ∧ 2 ^ (8 * l.size - 1) ≤ v then BitVec.ofInt 64 (v - 2 ^ (8 * l.size)) else BitVec.ofNat 64 v) ∧
        getAt false y.poison r.toNat = false) ∧
      (l.abort = true → y.sreg r = x.sreg r ∧ getAt false y.poison r.toNat = true)

/-- SLICE_WRITE writes a line with a later timestamp, WRITE_ACK ends the write, dirty bytes drain by themselves
(R261, R263, R267, R271, R284, R285, R308, R418, R468, spec/10_ordering_model.md). THE MODEL'S CHOICES in it: when a
dirty byte leaves rests on entry 8 (DEDUCED), the slice's eviction before a write on entry 9 (DESIGN CHOICE), the
refusal of a write at a fenced home kept for the next release on entry 11 (DEDUCED). -/
def Obligations.WritesArePerformedAtTheirHomeAndAcknowledged : Prop :=
  let unwatched (s : State) (w : WriteReq) : Prop :=
    ∀ r ∈ s.waits, r.key + 16 ≤ w.key ∨ w.key + w.data.length ≤ r.key
  (∀ (s : State) (w : WriteReq), s.isOut w.thread w.id = true →
    (s.homeFenced (s.slot w.thread).ctx w.key = false → s.anyBad w.key w.data.length = false →
      (∀ o, homeOf w.key = .dram o → ∃ t, exec (.sliceWrite w) s = .next t ∧
        t.mem = s.mem.writeBytes w.key w.data ∧
        (let n := max w.pts (((s.evictLine o).ts o).2 + 1)
        t.ts w.key = (n, n) ∧ (w.widen = [] → .writeAck w.thread w.id n ∈ t.agenda)) ∧
        (unwatched s w → t.slots = s.slots) ∧ findAt t.copies (copyKey w.cluster (w.key / 128)) = none) ∧
      (∀ tile o c b, homeOf w.key = .pad tile o ∨ homeOf w.key = .bank c b o → ∃ t, exec (.sliceWrite w) s = .next t ∧
        t.mem = s.mem.writeBytes w.key w.data ∧ (unwatched s w → t.slots = s.slots) ∧
        .writeAck w.thread w.id w.pts ∈ t.agenda)) ∧
    (s.homeFenced (s.slot w.thread).ctx w.key = true →
      exec (.sliceWrite w) s = .next ((s.refuse w.thread 0x0A 0 w.va).push (.writeAck w.thread w.id 0)))) ∧
  (∀ (s : State) (w : WriteReq), s.isOut w.thread w.id = false → exec (.sliceWrite w) s = .next s) ∧
  (∀ (s : State) (q id wts : Nat) (w : OutWrite),
    s.outWrites.find? (fun v => v.id == id && v.thread == q) = some w →
    let x := (s.slot q).countAcked q (128 * w.line)
    ∃ y : Slot, exec (.writeAck q id wts) s =
        .next (State.flushHeld ({ s with
          outWrites := s.outWrites.filter fun v => !(v.id == id && v.thread == q) }.setSlot q y) q) ∧
      ((∀ e ∈ x.ring, id ∉ e.2.sent) → y = { x with pts := max x.pts wts }) ∧
      ((∃ e ∈ x.ring, id ∈ e.2.sent) → y = { x with ring := x.ring.map fun e =>
        (e.1, if id ∈ e.2.sent then { e.2 with sent := e.2.sent.filter (· ≠ id), pts := max e.2.pts wts } else e.2) })) ∧
  (∀ (s : State) (id : Nat) (w : WriteReq), s.dirty.find? (fun d => d.id == id) = some w →
    exec (.dirtyDrainTimeout id) s =
      .next (if s.canSend w then s.sendDirty w else s.push (.dirtyDrainTimeout id))) ∧
  ∀ (s : State) (id q wts : Nat), (s.dirty.find? (fun d => d.id == id) = none →
      exec (.dirtyDrainTimeout id) s = .next s) ∧
    (s.isOut q id = false → exec (.writeAck q id wts) s = .next s)

/-- HOME_ATOMIC, HOME_REDUCTION and NIBBLE_STORE_AT_HOME change their location as the functions of R291 and R281 say
(R280, R281, R282, R291, R293, R294, R137, spec/10_ordering_model.md, spec/11_memory_instructions.md). THE MODEL'S
CHOICES in it: the widening that an atomic waits for rests on entry 70 (DEDUCED). -/
def Obligations.AtomicsReadAndWriteTheirHomeInOneStep : Prop :=
  let inPackage (key : Nat) : Prop :=
    (∃ o, homeOf key = .dram o) ∨ (∃ t o, homeOf key = .pad t o) ∨ ∃ c b o, homeOf key = .bank c b o
  let free (s : State) (q id key n : Nat) (hold : List Nat) : Prop :=
    inPackage key ∧ s.isOut q id = true ∧ s.mayGo q id key n hold = true ∧ s.dirty = [] ∧
      s.homeFenced (s.slot q).ctx key = false ∧ s.anyBad key n = false
  let unwatched (s : State) (key n : Nat) : Prop := ∀ r ∈ s.waits, r.key + 16 ≤ key ∨ key + n ≤ r.key
  let num (n : Nat) (sgn : Bool) (v : Nat) : Int :=
    if sgn ∧ 2 ^ (8 * n - 1) ≤ v then (v : Int) - 2 ^ (8 * n) else v
  let new (r : AtomicReq) (n old : Nat) : Option Nat :=
    let m := 2 ^ (8 * n)
    let b := r.b.toNat % m
    if r.fn = 0 then some b
    else if r.fn = 1 then (if old = r.t.toNat % m then some b else none)
    else if r.fn = 2 ∨ r.fn = 9 then some ((old + b) % m)
    else if r.fn = 3 then some (old &&& b)
    else if r.fn = 4 then some (old ||| b)
    else if r.fn = 5 then some (old ^^^ b)
    else if r.fn = 6 then some (if num n r.signed old ≤ num n r.signed b then old else b)
    else if r.fn = 7 then some (if num n r.signed b ≤ num n r.signed old then old else b)
    else some (FpFmt.f32.addR rne (FpFmt.f32.decode old) (FpFmt.f32.decode b)).1
  let written (s t : State) (r : AtomicReq) : Prop :=
    let n := if r.wide then 8 else 4
    t.mem = (match new r n (leNat (s.mem.readBytes r.key n)) with
      | some v => s.mem.writeBytes r.key (natBytes v n)
      | none => s.mem) ∧
    (r.widen = [] → ∃ w, .writeAck r.thread r.id w ∈ t.agenda)
  (∀ (s : State) (r : AtomicReq) (k : Nat), r.serial = some k → r.fn ≤ 8 →
    free s r.thread r.id r.key (if r.wide then 8 else 4) r.hold →
    ∃ t, exec (.homeAtomic r) s = .next t ∧ written s t r ∧ .loadCompletion r.thread k ∈ t.agenda ∧
      (unwatched s r.key (if r.wide then 8 else 4) → ∃ w f, t.slot r.thread = (s.slot r.thread).fillLoad k fun l => { l with
        data := some (leNat (s.mem.readBytes r.key (if r.wide then 8 else 4))), wts := w, flags := f })) ∧
  (∀ (s : State) (r : AtomicReq), r.serial = none → r.fn = 9 ∨ r.fn = 10 →
    free s r.thread r.id r.key (if r.wide then 8 else 4) r.hold →
    ∃ t, exec (.homeReduction r) s = .next t ∧ written s t r ∧
      (unwatched s r.key (if r.wide then 8 else 4) → t.slots = s.slots)) ∧
  ∀ (s : State) (r : NibbleReq), free s r.thread r.id r.key 1 r.hold →
    ∃ t, exec (.nibbleStoreAtHome r) s = .next t ∧ (unwatched s r.key 1 → t.slots = s.slots) ∧
      (∀ a, a ≠ r.key → t.mem.read a = s.mem.read a) ∧
      (t.mem.read r.key).toNat =
        (if r.high then (s.mem.read r.key).toNat % 16 + 16 * r.value.toNat
          else (s.mem.read r.key).toNat / 16 * 16 + r.value.toNat) ∧
      (r.widen = [] → ∃ w, .writeAck r.thread r.id w ∈ t.agenda)

/-- RELEASE_COMPLETE performs a release once its waits are met; refusals, time-outs, widens and PTS_TICK act as
stated (R218, R262, R271, R285, R288, R314, R325, spec/10_ordering_model.md, spec/12_fabric_order.md). THE MODEL'S
CHOICES in it: that a release of any scope raises a refused write and drops its own rests on entry 11 (DEDUCED), the
1 ms of a timeout in cycles on entry 72 (DEDUCED), the moment of the tick on entry 69 (DEDUCED). -/
def Obligations.ReleasesRefusalsAndTimeTakeTheirStep : Prop :=
  (∀ (s : State) (r : Release), s.isOut r.thread r.before = true →
    let s1 := s.drainThread r.thread
    let met := s1.relReady r.thread r.scope r.num r.before &&
      s1.mayGo r.thread r.before (actWrite r.act).1 (actWrite r.act).2.1 (actWrite r.act).2.2
    (met = false → exec (.releaseComplete r) s = .next (s1.push (.releaseComplete r))) ∧
    (met = true → (s1.slot r.thread).nak = none →
      exec (.releaseComplete r) s =
        .next ((s1.performAct r.thread r.before r.act).modSlot r.thread fun x =>
          { x with relDone := x.relDone + 1 }.clearTouched)) ∧
    (met = true → ∀ cause reason va, (s1.slot r.thread).nak = some (cause, reason, va) →
      ∃ (t : State) (w : InstrWord), exec (.releaseComplete r) s = .next t ∧ (t.slot r.thread).nak = none ∧
        (t.slot r.thread).relDone = (s1.slot r.thread).relDone + 1 ∧ t.isOut r.thread r.before = false ∧
        t.mem = s1.mem ∧
        .trapDelivery r.thread ⟨cause, reason, (s1.slot r.thread).pc, w, va, none, false⟩ ∈ t.agenda)) ∧
  (∀ (s : State) (tag reason q : Nat) (r : FarReq),
    s.farReqs.find? (fun r => r.tag == tag) = some r → r.thread = some q →
    let s1 := s.farDone r
    let cause : BitVec 8 := if reason = 4 then 0x0A else 0x0B
    (r.serial = none → r.store = true → reason ≠ 5 →
      ((s.slot q).ring.find? fun e => e.2.sent.contains r.id) = none →
      exec (.nakReceived tag reason) s = .next ((s1.push (.writeAck q r.id 0)).refuse q cause 0 r.va)) ∧
    (∀ n l, r.serial = some n → reason ≠ 5 → s1.isOut q r.id = false →
      (s1.slot q).loads.find? (fun k => k.serial == n) = some l →
      exec (.nakReceived tag reason) s = .next ((s1.modSlot q fun x => x.unissue l).deliver q
        ⟨cause, 0, l.origin.pc, l.origin.word, l.origin.va, none, false⟩)) ∧
    (s.cycle - r.sent < 1700000 → exec (.ackTimeout tag) s = .next (s.push (.ackTimeout tag))) ∧
    (1700000 ≤ s.cycle - r.sent → exec (.ackTimeout tag) s = exec (.nakReceived tag 1) s)) ∧
  (∀ (s : State) (r : WidenReq),
    let kmin (e : Widen × Nat × Nat) : Nat := e.1.summary + 2 * e.2.1
    let kmax (e : Widen × Nat × Nat) : Nat := e.1.summary + 256 + 2 * e.2.1
    let wider (m : Memory) (e : Widen × Nat × Nat) : Memory :=
      let b := summaryBounds e.1.fmt e.2.2
      (m.writeBytes (kmin e) (natBytes (FpFmt.bf16.minmax false (leNat (m.readBytes (kmin e) 2)) b.1) 2)).writeBytes (kmax e)
        (natBytes (FpFmt.bf16.minmax true (leNat (m.readBytes (kmax e) 2)) b.2) 2)
    (∀ e ∈ r.elems, s.anyBad (kmin e) 2 = false ∧ s.anyBad (kmax e) 2 = false ∧ e.2.1 < 128 ∧ kmax e + 2 ≤ 2 ^ 42) →
    ∃ t w, exec (.summaryWiden r) s = .next t ∧ r.wts ≤ w ∧ .writeAck r.thread r.id w ∈ t.agenda ∧
      t.mem = r.elems.foldl wider s.mem) ∧
  ∀ s : State,
    (s.cycle < 64 * (s.ticks + 1) → exec .ptsTick s = .next (s.push .ptsTick)) ∧
    (64 * (s.ticks + 1) ≤ s.cycle → ∃ t, exec .ptsTick s = .next t ∧ t.ticks = s.ticks + 1 ∧ t.mem = s.mem ∧
      ∀ q, (s.slot q).state ≠ .free →
        (t.slot q).pts = (s.slot q).pts + 1 ∧ (t.slot q).s = (s.slot q).s ∧ (t.slot q).pc = (s.slot q).pc ∧
        (t.slot q).ring = (s.slot q).ring.map fun r => (r.1, { r.2 with pts := r.2.pts + 1 }))

/-- CADD and CADDO leave a release with their add and retire; CWAIT and CWAITT wait with a load tag (R51, R53, R265,
R267, R285, R370, R371, R386, spec/14_task_instructions.md). THE MODEL'S CHOICES in it: that CWAIT and CWAITT wait
for the mask of the address register alone rests on R265 and R267; what the add's release waits for rests on entry
11 (DEDUCED). -/
def Obligations.CounterInstructionsLeaveForTheirCounter : Prop :=
  (∀ (t a b : BitVec 5) (k : BitVec 3) (s : State) (q : Nat) (s1 : State) (l : Loc),
    let x := s.slot q
    counterLoc s (s.who q) (x.sreg a) .write = (s1, .ok l) → (s1.slot q).nak = none →
    let wide := s1.widenFor (s1.who q) (x.sreg a)
    let s2 := wide.1
    let add (serial : Option Nat) : ReleaseAct := .add ⟨s2.nextId, some q, serial, l.key, x.sreg a, x.sreg b,
      (s2.slot q).behind (((x.smask a).union (x.smask b)).union x.ctm), (s2.slot q).pts, (s2.slot q).ctx, wide.2, .plain⟩
    (Ready (.cadd a b k) q s → exec (.cadd a b k) s =
      .next ((s2.startRelease q k.toNat l.key (add none)).modSlot q Slot.advance)) ∧
    (Ready (.caddo t a b k) q s → ∃ r : LoadRec, r.dest = .scalar t.toNat ∧ r.kind = .addOld k.toNat ∧
      r.key = l.key ∧ r.size = 8 ∧ r.data = none ∧
      exec (.caddo t a b k) s =
        .next ((s2.startRelease q k.toNat l.key (add (some (s2.slot q).nextSerial))).modSlot q
          fun x => (x.takeLoad r).advance))) ∧
  (∀ (t a b : BitVec 5) (k : BitVec 3) (trap : Bool) (s : State) (q : Nat),
    let i : Instr := if trap then .cwaitt t a b k else .cwait t a b k
    Ready i q s →
    let x := s.slot q
    (x.satisfied (x.smask a) = false → exec i s = .next s) ∧
    ∀ s1 l, x.satisfied (x.smask a) = true → counterLoc s (s.who q) (x.sreg a) .read = (s1, .ok l) →
      ∃ r : LoadRec, r.dest = .scalar t.toNat ∧ r.kind = .wait k.toNat ∧ r.key = l.key ∧ r.size = 8 ∧ r.data = none ∧
        exec i s = .next ((s1.modSlot q fun y => { y.takeLoad r with
            state := .waiting, wait := some (.counter l.key (x.sreg a) (x.sreg b) trap (s1.slot q).nextSerial) }).push
          (.counterWaitAtHome ⟨q, (s1.slot q).nextSerial, l.key, x.sreg a, x.sreg b, trap, (encode i).getD 0, 0⟩))) ∧
  ∀ (t a b : BitVec 5) (k : BitVec 3) (s : State) (q : Nat) (i : Instr),
    i = .cadd a b k ∨ i = .caddo t a b k ∨ i = .cwait t a b k ∨ i = .cwaitt t a b k → Ready i q s →
    (s.slot q).satisfied ((s.slot q).smask a) = true → ((s.slot q).sreg a).toNat % 16 ≠ 0 →
    exec i s = .next (s.deliver q
      ⟨0x03, 0, (s.slot q).pc, (encode i).getD 0, (s.slot q).sreg a, none, false⟩)

/-- COUNTER_ADD_AT_HOME adds to VALUE with saturation, sets SAT only then, and a crossing enqueues its task once
(R51, R52, R56, R370, R371, spec/02_execution_model.md). THE MODEL'S CHOICES in it: the timestamp that a crossing
gives its task rests on entry 4 and the widening of the add's summary on entry 70 (both DEDUCED). -/
def Obligations.ACounterAddSaturatesAndEnqueuesOnce : Prop :=
  ∀ (s : State) (r : AddReq),
    ((∃ o, homeOf r.key = .dram o ∧ o + 16 ≤ 2 ^ 42) ∨ (∃ t o, homeOf r.key = .pad t o) ∨
      ∃ c b o, homeOf r.key = .bank c b o) →
    (∀ q, r.thread = some q → s.isOut q r.id = true) →
    (r.thread = none → r.what ≠ .abandon) →
    s.homeFenced r.ctx r.key = false → s.anyBad r.key 16 = false →
    let v := s.counter r.key
    let v' := min (v + r.amount.toNat) (2 ^ 64 - 1)
    ∃ t, exec (.counterAddAtHome r) s = .next t ∧
      t.counter r.key = v' ∧
      t.status r.key = (if 2 ^ 64 - 1 < v + r.amount.toNat then s.status r.key ||| 2 else s.status r.key) ∧
      (∀ a, ¬(r.key ≤ a ∧ a < r.key + 16) → t.mem.read a = s.mem.read a) ∧
      (∀ q, r.thread = some q → (r.widen = [] → ∃ w, .writeAck q r.id w ∈ t.agenda) ∧
        ∀ n, r.serial = some n → .loadCompletion q n ∈ t.agenda ∧
          (s.waits = [] → ∃ w, t.slot q = (s.slot q).fillLoad n fun l =>
            { l with data := some v, status := (t.status r.key).extractLsb' 0 2, wts := w })) ∧
      (poolOfKey r.key = none → t.runs = s.runs) ∧
      ∀ tile e p, poolOfKey r.key = some (tile, e) → findAt s.pools (256 * tile + e) = some p →
        (¬(v < p.thresh ∧ p.thresh ≤ v') ∨ p.enqueued = true → t.runs = s.runs) ∧
        (v < p.thresh → p.thresh ≤ v' → p.enqueued = false →
          let ws := t.poolWords tile e
          let c := fieldOf (ws.getD 0 0) 58 57
          t.runList (tile / 16) c = s.runList (tile / 16) c ++ [.task p.ctx p.lrec tile e ws 0
            (max (getAt 0 s.counterTs r.key) r.pts) false 0] ∧
          findAt t.pools (256 * tile + e) = some { p with enqueued := true })

/-- COUNTER_WAIT_AT_HOME and COUNTER_WAIT_POLL end a wait whose target is reached or whose counter was abandoned
(R53, R54, R308, R359, R370, R376, spec/02_execution_model.md, spec/13_tephra_scheduling.md). THE MODEL'S CHOICES in
it: that a poll which finds the target reached completes on an abandoned counter rests on entry 33, the field that
keeps the observed VALUE on entry 74 (both DEDUCED, from R370 and R376). -/
def Obligations.ACounterWaitEndsAtItsTarget : Prop :=
  ∀ (s : State) (r : WaitReq) (l : LoadRec) (ev : Event),
    ((∃ o, homeOf r.key = .dram o) ∨ (∃ t o, homeOf r.key = .pad t o) ∨ ∃ c b o, homeOf r.key = .bank c b o) →
    (s.slot r.thread).waitsFor r.serial = true → s.homeFenced (s.slot r.thread).ctx r.key = false →
    s.anyBad r.key 16 = false → s.dirty = [] →
    ((ev = .counterWaitPoll r ∧ r.due ≤ s.cycle) ∨ (ev = .counterWaitAtHome r ∧
      (s.slot r.thread).loads.find? (fun k => k.serial == r.serial) = some l ∧
      s.lineOut r.thread r.key l.before = false ∧ (s.slot r.thread).joinsBefore l.before = false)) →
    ∀ ins, ev.StandsFor ins →
    let v := s.counter r.key
    let st := s.status r.key
    let rest := s.waits.filter (· ≠ r)
    let traps : Prop := st.getLsbD 0 = true ∧ r.trapAbandoned = true ∧ (r.due = 0 ∨ v < r.target.toNat)
    (¬traps → r.target.toNat ≤ v ∨ st.getLsbD 0 = true →
      ∃ t w, exec ins s = .next t ∧ t.mem = s.mem ∧ t.waits = rest ∧
        t.slot r.thread = { (((s.slot r.thread).fillLoad r.serial fun l =>
            { l with data := some v, status := st.extractLsb' 0 2, wts := w }).advance) with
          state := .running, wait := none, pts := max (s.slot r.thread).pts w, cstat := st.extractLsb' 0 2,
          cstatOf := r.serial } ∧
        .loadCompletion r.thread r.serial ∈ t.agenda) ∧
    (traps →
      ∃ t, exec ins s = .next t ∧ t.mem = s.mem ∧ t.waits = rest ∧
        t.slot r.thread = { s.slot r.thread with observed := BitVec.ofNat 64 v } ∧
        .trapDelivery r.thread ⟨0x06, 0x01, (s.slot r.thread).pc, r.word, r.va, none, false⟩ ∈ t.agenda) ∧
    (v < r.target.toNat → st.getLsbD 0 = false →
      ∃ t, exec ins s = .next t ∧ t.mem = s.mem ∧ t.slots = s.slots ∧
        (State.waitRoom { s with waits := rest } r.key = true → t.waits = rest ++ [r]) ∧
        (State.waitRoom { s with waits := rest } r.key = false →
          t.waits = rest ∧ .counterWaitPoll { r with due := s.cycle + 1024 } ∈ t.agenda))

/-- TRAP_DELIVERY, ECALL, MCALL, BRK and an illegal word save the record of R387 and go to the handler (R387, R388,
R389, R404, R430, spec/15_isolation.md). THE MODEL'S CHOICES in it: a trap kept for a SAVED slot or dropped with its
wait rests on entry 41, one kept while an access may still trap on entry 81, the recorded PC's sign extension on
entry 7, a discarded activation's end on entry 43 (all DEDUCED). -/
def Obligations.TrapsEnterTheHandlerOfTheirLevel : Prop :=
  (∀ (s : State) (q : Nat) (t : Trap),
    let x := s.slot q
    let u := s.deliver q t
    let y := u.slot q
    let cause := BitVec.ofNat 64 (t.cause.toNat + t.reason.toNat * 2 ^ 32 + (if t.coll then 2 ^ 18 else 0) +
      (match t.seq with | some n => 2 ^ 19 + n.toNat * 2 ^ 20 | none => 0))
    let same : Prop := u.mem = s.mem ∧ (∀ o, u.reg o = s.reg o) ∧ y.state = (if x.state = .waiting then .running else x.state) ∧
      y.repst = 0 ∧ y.repcnt = 0 ∧ y.s = x.s ∧ y.sMask = x.sMask ∧ y.p = x.p ∧ y.pMask = x.pMask ∧ y.pstep = x.pstep ∧
      y.v = x.v ∧ y.vMask = x.vMask ∧ y.ctm = x.ctm ∧ y.fflags = x.fflags ∧ y.acc = x.acc ∧ y.eset = x.eset ∧ y.wait = none
    (x.level = 0 → s.reg (svecOff x.ctx) ≠ 0 → same ∧ y.level = 1 ∧ y.pc = low57 (s.reg (svecOff x.ctx)) ∧ y.mtrap = x.mtrap ∧
      y.strap = { x.strap with
        epc := va57 t.pc, cause := cause, tval := t.tval, word := t.word.setWidth 64, repst := x.repst,
        repcnt := x.repcnt.setWidth 64 }) ∧
    (x.level = 0 → s.reg (svecOff x.ctx) = 0 → y.dying = true ∧ y.retiring = true ∧ y.level = 0 ∧ y.s = x.s ∧
      (∀ e ∈ y.ring, e.2.suspended = true) ∧ .retirement q ∈ u.agenda) ∧
    (x.level = 1 → same ∧ y.level = 2 ∧ y.plevel = 1 ∧ y.pc = s.fwVector ∧ y.strap = x.strap ∧
      y.mtrap = { x.mtrap with
        epc := va57 t.pc, cause := cause, tval := t.tval, word := t.word.setWidth 64, repst := x.repst,
        repcnt := x.repcnt.setWidth 64 }) ∧
    (x.level = 2 → (u.core (coreOf q)).stopped = true ∧ y.level = 2 ∧ y.pc = x.pc)) ∧
  (∀ (s : State) (q : Nat) (t : Trap),
    let x := s.slot q
    (x.state = .free → exec (.trapDelivery q t) s = .next s) ∧
    (x.state = .saved → exec (.trapDelivery q t) s = .next (if ofWait t then s else s.push (.trapDelivery q t))) ∧
    (x.state ≠ .free → x.state ≠ .saved → x.dying = true → exec (.trapDelivery q t) s = .next s) ∧
    (x.state ≠ .free → x.state ≠ .saved → x.dying = false → (x.loads.any fun l => l.blocking && !x.waitsFor l.serial) = true →
      exec (.trapDelivery q t) s = .next (s.push (.trapDelivery q t))) ∧
    (x.state ≠ .free → x.state ≠ .saved → x.dying = false → (x.loads.any fun l => l.blocking && !x.waitsFor l.serial) = false →
      (t.seq = none → ofWait t = true → x.state ≠ .waiting → exec (.trapDelivery q t) s = .next s) ∧
      (t.seq = none → ofWait t = false ∨ x.state = .waiting → exec (.trapDelivery q t) s = .next (s.deliver q t)) ∧
      ∀ n, t.seq = some n →
        (x.level ≠ 0 → exec (.trapDelivery q t) s = .next (s.modSlot q fun x => { x with heldTraps := x.heldTraps ++ [t] })) ∧
        (x.level = 0 → t.cause ≠ 1 → t.cause ≠ 7 → t.cause ≠ 8 → t.cause ≠ 9 →
          exec (.trapDelivery q t) s = .next (s.deliver q { t with pc := x.pc })) ∧
        (∀ e, x.level = 0 → t.cause = 1 ∨ t.cause = 7 ∨ t.cause = 8 ∨ t.cause = 9 →
          ((s.deliver q { t with pc := x.pc }).slot q).entry n.toNat = some e →
          exec (.trapDelivery q t) s = .next (((s.deliver q { t with pc := x.pc }).modSlot q fun x =>
            { x with fatal := e.eng :: x.fatal }).settleEmpty q e)))) ∧
  ∀ (s : State) (q : Nat),
    (Ready .ecall q s → exec .ecall s =
      .next (s.deliver q ⟨0x10, 0, (s.slot q).pc + 4, (encode .ecall).getD 0, 0, none, false⟩)) ∧
    (Ready .mcall q s → exec .mcall s =
      .next (s.deliver q ⟨0x11, 0, (s.slot q).pc + 4, (encode .mcall).getD 0, 0, none, false⟩)) ∧
    (Ready .brk q s → exec .brk s =
      .next (s.deliver q ⟨0x12, 0, (s.slot q).pc, (encode .brk).getD 0, 0, none, false⟩)) ∧
    (∀ w, s.cur = some q → (s.slot q).state = .running → (s.slot q).blocked = false → ∃ (s1 : State) (v : Word), s1.slots = s.slots ∧ s1.mem = s.mem ∧
      exec (.illegalInstruction w) s = .next (s1.deliver q ⟨0x01, 0, (s.slot q).pc, w, v, none, false⟩))

/-- ERET restores PC, level and repetition state, IFENCE drops words fetched ahead, XINV and XINVA drop translations
(R389, R404, R405, R406, R430, spec/15_isolation.md). THE MODEL'S CHOICES in it: that an invalidation drops every
constant line of the context and waits for all its accesses under way rests on entry 42, that it holds its slot for
its release on entry 36, the order of settling at ERET on entry 43 (all DEDUCED). -/
def Obligations.EretIfenceAndInvalidationComplete : Prop :=
  (∀ (s : State) (q : Nat), Ready .eret q s → (s.slot q).ring = [] → (s.slot q).heldTraps = [] →
    ((s.slot q).level = 1 → exec .eret s = .next (s.modSlot q fun x => { x with
      repst := x.strap.repst &&& 0xFFFFFFFF01FF1F00, repcnt := x.strap.repcnt.setWidth 32, repBody := [], level := 0, pc := low57 x.strap.epc,
      drop := false, fatal := [] })) ∧
    ((s.slot q).level = 2 → (s.slot q).plevel ≠ 0 → exec .eret s = .next (s.modSlot q fun x => { x with
      repst := x.mtrap.repst &&& 0xFFFFFFFF01FF1F00, repcnt := x.mtrap.repcnt.setWidth 32, repBody := [], level := x.plevel,
      pc := low57 x.mtrap.epc }))) ∧
  (∀ (s : State) (q : Nat), Ready .ifence q s →
    let s1 := s.drainThread q
    let busy := (s1.dirty.any fun w => w.thread == q) || (s1.outWrites.any fun w => w.thread == q)
    (busy = true → exec .ifence s = .next s1) ∧
    (busy = false → exec .ifence s = .next (s1.modSlot q fun x => { x with ahead := none }.advance))) ∧
  ∀ (s : State) (q : Nat) (a : BitVec 5) (all : Bool),
    let i : Instr := if all then .xinva else .xinv a
    let x := s.slot q
    let s1 := (s.slotRelease q 3).1
    let s2 := s1.dropXlat x.ctx (if all then none else some ((s1.slot q).sreg a))
    Ready i q s →
    (∀ m sent, x.xmark = some (m, sent) →
      (s.underWay x.ctx m sent = true → exec i s = .next (s.drainThread q)) ∧
      (s.underWay x.ctx m sent = false → exec i s = .next (s.modSlot q fun x => { x with xmark := none }.advance))) ∧
    (x.xmark = none → (s.slotRelease q 3).2 = some none →
    let hit (e : XlatEntry) : Bool := e.asid == s1.asid x.ctx && s1.inCalderas x.ctx e.cluster &&
      (all || (canonical ((s1.slot q).sreg a) && e.index == vaIndex (low57 ((s1.slot q).sreg a)) e.level))
    ∃ t, exec i s = .next t ∧ t.tlb = s1.tlb.filter (fun e => !hit e) ∧
      t.walkCache = s1.walkCache.filter (fun e => !hit e) ∧
      t.constLines = s1.constLines.filter (fun l => !(l.ctx == x.ctx && s1.inCalderas x.ctx l.cluster)) ∧
      t.mem = s1.mem ∧
      (s2.underWay x.ctx s2.nextId (s2.sentOut x.ctx) = false → t.slot q = (s1.slot q).advance) ∧
      (s2.underWay x.ctx s2.nextId (s2.sentOut x.ctx) = true →
        t.slot q = { s1.slot q with xmark := some (s2.nextId, s2.sentOut x.ctx) }))

/-- QBIND binds a queue that its record describes, QUNB unbinds it, waiting for a handler that runs (R386, R407,
spec/15_isolation.md). THE MODEL'S CHOICES in it: that QBIND issues again on a tile that another context holds rests
on entry 37, and that the fault of its place comes before E_PROT of a bound queue on entry 105 (both DEDUCED). -/
def Obligations.HandlerQueuesAreBoundAndUnbound : Prop :=
  (∀ (s : State) (q : Nat) (a b : BitVec 5) (s1 : State) (r : List Word) (w : Nat),
    let i : Instr := .qbind a b
    let x := s.slot q
    let n := (x.sreg a).toNat
    Ready i q s → x.satisfied (x.smask a) = true → x.satisfied (x.smask b) = true → n < 256 →
    (x.sreg b).toNat % 32 = 0 → s.slotWords q (x.sreg b) 4 = (s1, .words r w) →
    let tile := placeTile (BitVec.ofNat 16 (fieldOf (r.getD 1 0) 15 0))
    let key := 256 * x.ctx + n
    (bindingBad r = true → exec i s = .next (s1.openWord.1.trapAt q i 0x01 0 s1.openWord.2)) ∧
    (bindingBad r = false → ∀ f, placeFault s1 x.ctx tile = some f →
      exec i s = .next (s1.openWord.1.trapAt q i f.cause f.reason s1.openWord.2)) ∧
    (bindingBad r = false → placeFault s1 x.ctx tile = none → findAt s1.hqueues key ≠ none →
      exec i s = .next (s1.openWord.1.trapAt q i 0x05 0x05 s1.openWord.2)) ∧
    (bindingBad r = false → placeFault s1 x.ctx tile = none → findAt s1.hqueues key = none →
      s1.tileFree tile x.ctx = true → ∃ t, exec i s = .next t ∧ t.slot q = (s1.slot q).advance ∧
        (∀ k, k ≠ key → findAt t.hqueues k = findAt s1.hqueues k) ∧
        findAt t.hqueues key = some
          { entry := low57 (r.getD 0 0), nvreg := fieldOf (r.getD 1 0) 24 22, nsreg := fieldOf (r.getD 1 0) 21 19,
            level := BitVec.ofNat 2 (fieldOf (r.getD 1 0) 16 16), place := BitVec.ofNat 16 (fieldOf (r.getD 1 0) 15 0),
            roff := fieldOf (r.getD 2 0) 16 0, rsize := fieldOf (r.getD 2 0) 63 32, msgs := [], running := false,
            unbinding := false })) ∧
  ∀ (s : State) (q : Nat) (a : BitVec 5),
    let i : Instr := .qunb a
    let x := s.slot q
    let key := 256 * x.ctx + (x.sreg a).toNat
    Ready i q s → x.satisfied (x.smask a) = true → (x.sreg a).toNat < 256 →
    (findAt s.hqueues key = none → exec i s = .next (s.modSlot q Slot.advance)) ∧
    (∀ h, findAt s.hqueues key = some h →
      let u := h.msgs.foldl (fun (s : State) m => s.orphan m 0 3) s
      (h.running = false →
        exec i s = .next ({ u with hqueues := delAt u.hqueues key }.modSlot q Slot.advance)) ∧
      (h.running = true →
        exec i s = .next ({ u with hqueues := putAt u.hqueues key { h with msgs := [], unbinding := true } }.modSlot q fun x =>
          { x with state := .waiting, wait := some (.queue (x.sreg a).toNat) })))

/-- SLSAVE saves a quiet slot and writes its image, SLREST restores it, SLKILL ends it; SLRES says what was done
(R408, R425, R426, R427, R429, spec/15_isolation.md, spec/16_recovery.md). THE MODEL'S CHOICES in it: the waiting
and the order of the tests, code 4 for a firmware target among them, rest on entry 40, what is kept of a wait and
the test of the image on entry 41, the age of a held message on entry 38 (all DEDUCED). -/
def Obligations.SlotsAreSavedRestoredAndKilled : Prop :=
  ∀ (s : State) (q t : Nat) (a b : BitVec 5),
    let x := s.slot q
    let y := s.slot t
    let ends (i : Instr) (c : BitVec 3) (u : State) : Prop :=
      exec i s = .next (u.modSlot q fun x => { x with slres := c }.advance)
    slotTarget q (x.sreg a) = .ok t → x.satisfied (x.smask a) = true → x.satisfied (x.smask b) = true →
    x.satisfied x.ctm = true → (x.sreg b).toNat % 4096 = 0 →
    let gone : Prop := y.state = .free ∨ y.gen.toNat ≠ fieldOf (x.sreg a) 33 18
    let other : Prop := y.ctx ≠ x.ctx ∨ y.kind = .firmware
    (∀ i : Instr, i = .slsave a b ∨ i = .slrest a b ∨ i = .slkill a → Ready i q s →
      (gone → ends i 1 s) ∧ (¬gone → other → ends i 4 s)) ∧
    (¬gone → ¬other → Ready (.slkill a) q s →
      let s1 := (s.stopTarget t).drainThread t
      let busy := (s1.dirty.any fun w => w.thread == t) || (s1.outWrites.any fun w => w.thread == t) ||
        (s1.slot t).born.any fun b => decide (s1.cycle < b + 32)
      (busy = true → exec (.slkill a) s = .next s1) ∧ (busy = false → ends (.slkill a) 0 (s1.discardSlot t))) ∧
    (¬gone → ¬other → Ready (.slrest a b) q s → y.state ≠ .saved → ends (.slrest a b) 2 s) ∧
    (¬gone → ¬other → Ready (.slrest a b) q s → y.state = .saved →
      ∀ s1 ls s2 bs, imageLocs q (x.sreg b) .read 8 s = (s1, .ok ls) →
        (s1.dirty.any fun w => w.thread == q) = false → (s1.outWrites.any fun w => w.thread == q) = false →
        s1.readImage q ls = (s2, .ok bs) →
        let w (k : Nat) : Word := ((byteWords bs 4096).toArray).getD k 0
        (imageMatches s2 t w = false → ends (.slrest a b) 3 s2) ∧
        (imageMatches s2 t w = true →
          ends (.slrest a b) 0 (((((s2.setSlot t (restored s2 t w)).recordedWait t w).resendOperands t).resumeTarget t).respill t))) ∧
    (¬gone → ¬other → Ready (.slsave a b) q s → (y.dying = true → exec (.slsave a b) s = .next s)) ∧
    (¬gone → ¬other → Ready (.slsave a b) q s → y.dying = false → y.state ≠ .saved → y.level.toNat ≤ x.level.toNat →
      (y.ring.any fun e => e.2.fault.isSome && decide (2 ≤ e.2.phase.toNat) && !e.2.isDone) = false →
      ∀ s1 ls, imageLocs q (x.sreg b) .write 8 s = (s1, .ok ls) →
        let s2 := (s1.stopTarget t).drainThread t
        (s2.quiet t = false → exec (.slsave a b) s = .next s2) ∧
        (s2.quiet t = true →
          let s3 := (s2.operandsOut t).foldl (fun (s : State) p => s.spillOperand t p) s2
          ends (.slsave a b) 0 (((s3.modSlot t fun y =>
            { y with state := .saved, retiring := false, nak := none, ahead := none }).holdMsgs t true).writeImage q
              (x.sreg b) ls (s3.image t))))

/-- SPAWN writes a template into a free entry of its home tile's pool; SPAWN_POOL_RELEASE serves the first that
waits (R48, R56, R61, R271, R361, R363, R364, R365, spec/14_task_instructions.md). THE MODEL'S CHOICES in it: that
SPAWN waits as for a full pool on a tile that another context holds rests on entry 37, that it holds the slot for
its release on entry 36 (both DEDUCED). -/
def Obligations.SpawnPutsATaskIntoItsPool : Prop :=
  (∀ (s : State) (q home : Nat) (a b : BitVec 5) (l : Nat) (s1 s2 : State) (t : List Word) (w : Nat),
    let i : Instr := .spawn a b
    Ready i q s → s.slotRelease q 3 = (s1, some none) → (s1.slot q).lrec = some l →
    spawnHome q ((s1.slot q).sreg b) = some home → ((s1.slot q).sreg a).toNat % 64 = 0 →
    s1.slotWords q ((s1.slot q).sreg a) 6 = (s2, .words t w) → (s2.slot q).lrec = some l →
    (templateBad t = true → exec i s = .next (s2.openWord.1.trapAt q i 0x01 0 s2.openWord.2)) ∧
    (∀ s3, templateBad t = false →
      (if taskNotify t = 0 then s3 = s2 else ∃ p, counterLoc s2 (s2.who q) (taskNotify t) .write = (s3, .ok p)) →
      s3.slots = s2.slots →
      (dieOf (home / 16) ≠ dieOf (clusterOf q) → exec i s = .next (s3.openWord.1.trapAt q i 0x05 0x04 s3.openWord.2)) ∧
      (dieOf (home / 16) = dieOf (clusterOf q) → placeFault s3 (s3.slot q).ctx home = none →
      let ws := [t.getD 0 0, t.getD 1 0, t.getD 2 0, t.getD 3 0, withField (withField (t.getD 4 0) 63 48 l) 43 40 0,
        withField (t.getD 5 0) 47 32 (placeOf q).toNat]
      (∀ e, s3.tileFree home (s3.slot q).ctx = true → s3.firstWaiter home = none →
        s3.freeEntry home = some e →
        exec i s = .next ((s3.spawnAt q home e ws).modSlot q fun x =>
          { x with state := .running, wait := none, lastspawn := tilesAddress home (0x14000 + 64 * e) }.advance)) ∧
      (s3.tileFree home (s3.slot q).ctx = false ∨ s3.firstWaiter home ≠ none ∨ s3.freeEntry home = none →
        ∃ u, exec i s = .next u ∧ u.poolWaiters = s3.poolWaiters ++ [(home, q)] ∧
          u.slot q = { s3.slot q with state := .waiting, wait := some (.pool home ws) })))) ∧
  (∀ (s : State) (q home e : Nat) (ws : List Word),
    let p : PoolRec := ⟨(s.slot q).ctx, (s.slot q).lrec.getD 0, dField ws 4 31 0, false, false⟩
    let u := s.spawnAt q home e ws
    (s.slot q).lrec.isSome = true → (∀ r, findAt s.launches ((s.slot q).lrec.getD 0) = some r →
      r.torn = false ∧ r.queue.any s.resetting = false) →
    dField ws 4 31 0 ≠ 0 → findAt u.pools (256 * home + e) = some p ∧ u.runs = s.runs ∧
      ∀ r, findAt s.launches ((s.slot q).lrec.getD 0) = some r →
        findAt u.launches ((s.slot q).lrec.getD 0) = some { r with tasks := r.tasks + 1 }) ∧
  ∀ (s : State) (tile q e : Nat) (ws : List Word),
    s.firstWaiter tile = some (tile, q) →
    ((placeFault s (s.slot q).ctx tile).isSome = true → exec (.spawnPoolRelease tile) s =
      .next (State.push ({ s with poolWaiters := s.poolWaiters.filter (· ≠ (tile, q)) }.modSlot q fun x =>
        { x with state := .running, wait := none }) (.spawnPoolRelease tile))) ∧
    (placeFault s (s.slot q).ctx tile = none → (s.slot q).wait = some (.pool tile ws) → s.freeEntry tile = some e →
    exec (.spawnPoolRelease tile) s =
      .next ((({ s with poolWaiters := s.poolWaiters.filter (· ≠ (tile, q)) }.spawnAt q tile e ws).modSlot q fun x =>
        { x with state := .running, wait := none, lastspawn := tilesAddress tile (0x14000 + 64 * e) }.advance).push
          (.spawnPoolRelease tile)))

/-- RETIRE and RETIREMENT end an activation, YIELD gives way, MSEND sends, a message arrives, waits or expires (R36,
R37, R40, R60, R355, R367, R368, R369, R389, R407, spec/14_task_instructions.md). THE MODEL'S CHOICES in it: the
slots that YIELD waits for rest on entry 76, that MSEND holds its slot for its release on entry 36, the order of its
tests on entry 103, the end of a discarded activation on entry 43, messages of one sender in order and a full queue
on entry 38 (all DEDUCED); that the free slot keeps the cycle of its last dispatch is a field of the model. -/
def Obligations.RetireYieldAndMessagesComplete : Prop :=
  (∀ (s : State) (q : Nat),
    (Ready .retire q s → exec .retire s =
      .next ((s.modSlot q fun x => { x with retiring := true }).push (.retirement q))) ∧
    (Ready .yield q s → ∃ ys, (∀ r, r ∈ ys ↔ r ≠ q ∧ r / 4 = q / 4 ∧ (s.slot r).state = .running) ∧
      exec .yield s = .next (s.modSlot q fun x => { x with yielding := ys, yieldEnd := s.cycle + 16 }.advance)) ∧
    ((s.slot q).retiring = false → exec (.retirement q) s = .next s) ∧
    ((s.slot q).retiring = true → (s.slot q).dying = true →
      let u := s.drainThread q
      let busy := (u.dirty.any fun w => w.thread == q) || (u.outWrites.any fun w => w.thread == q) || !u.stayed q
      exec (.retirement q) s = .next (if busy then u.push (.retirement q) else u.discardSlot q)) ∧
    ((s.slot q).retiring = true → (s.slot q).dying = false →
      ((s.slot q).ring.any fun e => !e.2.isDone) = true ∨ s.stayed q = false →
      exec (.retirement q) s = .next ((s.drainThread q).push (.retirement q))) ∧
    ((∀ b, (s.slot q).born = some b → b + 32 ≤ s.cycle) → s.stayed q = true) ∧
    ((s.slot q).retiring = true → (s.slot q).dying = false → ((s.slot q).ring.any fun e => !e.2.isDone) = false →
      s.stayed q = true →
      (∀ s1, s.slotRelease q 3 = (s1, none) → exec (.retirement q) s = .next (s1.push (.retirement q))) ∧
      ∀ s1, s.slotRelease q 3 = (s1, some none) →
        let x := s1.slot q
        ((s.slot q).kind = .task →
          (x.notify = 0 → exec (.retirement q) s = .next (s1.freeSlot q) ∧ ((s1.freeSlot q).slot q).state = .free) ∧
          (x.notify ≠ 0 → ∀ s2 l, counterLoc s1 (s1.who q) x.notify .write = (s2, .ok l) → (s2.slot q).state ≠ .free →
            let add : AddReq := ⟨s2.nextId, none, none, l.key, x.notify, 1, [], x.pts, x.ctx, [], .notify (placeOf q).toNat⟩
            exec (.retirement q) s = .next
              ((State.push { s2 with nextId := s2.nextId + 1 } (.counterAddAtHome add)).freeSlot q))) ∧
        (∀ g n, (s.slot q).kind = .group g → (s.slot q).lrec = some n → x.notify = 0 → exec (.retirement q) s =
          .next ((s1.modLaunch n fun r => { r with pts := max r.pts x.pts }).freeSlot q)) ∧
        ∀ n h, (s.slot q).kind = .handler n → x.kind = .handler n → x.notify = 0 → x.queue = none →
          findAt s1.hqueues (256 * x.ctx + n) = some h →
          ∃ t, exec (.retirement q) s = .next t ∧ (t.slot q).state = .free ∧ t.mem = s1.mem ∧
            (h.unbinding = false → .handlerStart x.ctx n ∈ t.agenda ∧
              findAt t.hqueues (256 * x.ctx + n) = some { h with running := false }) ∧
            (h.unbinding = true → findAt t.hqueues (256 * x.ctx + n) = none))) ∧
  (∀ (s : State) (q : Nat) (a b : BitVec 5) (s1 s2 : State) (p : List Word) (w : Nat),
    let d := (s1.slot q).sreg b
    Ready (.msend a b) q s → s.slotRelease q 3 = (s1, some none) → destBad d = false →
    s1.shadowCopy q = none ∨ fieldOf d 47 46 ≠ 1 →
    placeFault s1 (s1.slot q).ctx (placeTile (BitVec.ofNat 16 (fieldOf d 15 0))) = none →
    ((s1.slot q).sreg a).toNat % 64 = 0 → s1.slotWords q ((s1.slot q).sreg a) 8 = (s2, .words p w) →
    ∃ m : Msg, m.id = s2.nextId ∧ m.ctx = (s2.slot q).ctx ∧ m.sender = placeOf q ∧ m.senderGen = (s2.slot q).gen ∧
      m.queueKind = (fieldOf d 47 46 == 1) ∧ m.queue = fieldOf d 45 38 ∧ m.handle = fieldOf d 37 34 ∧
      m.slot = fieldOf d 33 32 ∧ m.gen = BitVec.ofNat 16 (fieldOf d 31 16) ∧
      m.place = BitVec.ofNat 16 (fieldOf d 15 0) ∧ m.payload = p ∧
      exec (.msend a b) s = .next (State.pushAll ({ s2 with nextId := s2.nextId + 1 }.modSlot q Slot.advance)
        [.messageDelivery m, .messageExpiry m])) ∧
  ∀ (s : State) (m : Msg), s.msgBehind m = false →
    let tile := placeTile m.place
    let r := slotNum tile (placeStage m.place) m.slot
    let fenced := s.fencedCluster (tile / 16) || s.calderaFenced m.ctx (tile / 16)
    (fenced = true → exec (.messageDelivery m) s = .next ((s.msgRefused m 0x0A 0).unspill m)) ∧
    (fenced = false → 1700000 ≤ msgAge m s.cycle →
      exec (.messageDelivery m) s = .next ((s.orphan m (s.slot r).gen 2).unspill m)) ∧
    (fenced = false → msgAge m s.cycle < 1700000 →
      (m.queueKind = true → ∀ h, findAt s.hqueues (256 * m.ctx + m.queue) = some h → h.place = m.place →
        h.unbinding = false → h.msgs.length < 64 → exec (.messageDelivery m) s =
          .next ({ s with hqueues := putAt s.hqueues (256 * m.ctx + m.queue) { h with msgs := h.msgs ++ [m] } }.push
            (.handlerStart m.ctx m.queue))) ∧
      (m.queueKind = false → (s.slot r).state = .free →
        exec (.messageDelivery m) s = .next ((s.orphan m (s.slot r).gen 3).unspill m)) ∧
      (m.queueKind = false → (s.slot r).state ≠ .free → (s.slot r).gen ≠ m.gen →
        exec (.messageDelivery m) s = .next ((s.orphan m (s.slot r).gen 1).unspill m)) ∧
      (m.queueKind = false → (s.slot r).state ≠ .free → (s.slot r).gen = m.gen → (s.slot r).ctx = m.ctx →
        ∀ c, s.cbFor r m.handle = some c → c.hasConsumer = true → c.cstage = stageOf r → 64 ≤ c.slotBytes →
          c.free ≠ 0 → s.spilledBefore m = false →
          exec (.messageDelivery m) s = .next (((((s.cbPermitTake c).1.bulkWrite (c.slotKey (s.cbPermitTake c).2)
            ((List.range 8).flatMap fun i => wordBytes (m.payload.getD i 0)) 15 m.pts).1).cbFill c.key
              (s.cbPermitTake c).2 m.pts).unspill m))) ∧
    (s.agenda = [.messageDelivery m] →
      (msgAge m s.cycle < 1700000 → exec (.messageExpiry m) s = .next (s.push (.messageExpiry m))) ∧
      (1700000 ≤ msgAge m s.cycle →
        exec (.messageExpiry m) s = .next ((State.orphan { s with agenda := [] } m (s.slot r).gen 2).unspill m)))

/-- LAUNCH, queues and the time-triggered table admission a launch, make it wait or reject it; completion adds DELTA
to DONE (R43, R44, R47, R59, R350, R351, R353, R354, R366, spec/13_tephra_scheduling.md,
spec/14_task_instructions.md). THE MODEL'S CHOICES in it: the kept descriptor of a waiting LAUNCH, the order of the
rejections and the LAUNCH that is not read anew rest on entry 34, who reads a descriptor for the hub on entry 12
(both DEDUCED), the first slot of the time-triggered table on entry 73 (DESIGN CHOICE) and steps of its clock on
entry 79 (DEDUCED), what a completion does whose DONE cannot be resolved on entry 96 (DESIGN CHOICE). -/
def Obligations.LaunchesAreAdmittedRejectedAndCompleted : Prop :=
  (∀ (s : State) (q : Nat) (a : BitVec 5) (s1 s2 : State) (d : List Word) (cbs : List (Nat × Word × Word)) (w : Nat),
    Ready (.launch a) q s → s.slotRelease q 3 = (s1, some none) → s1.shadowCopy q = none →
    ((s1.slot q).sreg a).toNat % 64 = 0 →
    readLaunch (fun s va n => s.slotWords q va n) (declReader q) ((s1.slot q).sreg a) s1 = (s2, .ok d cbs w) →
    let s2 := s2.modSlot q fun x => { x with pts := max x.pts w }
    let x := s2.slot q
    (∀ s3, admission s2 x.ctx x.queue none x.pts d cbs = .ok s3 → exec (.launch a) s =
      .next (s3.modSlot q fun x => { x with state := .running, wait := none }.advance)) ∧
    (admission s2 x.ctx x.queue none x.pts d cbs = .wait → exec (.launch a) s =
      .next ((s2.modSlot q fun x => { x with state := .waiting, wait := some (.launch a d cbs) }).push
        (.launchAdmission (256 + q)))) ∧
    (∀ r f, admission s2 x.ctx x.queue none x.pts d cbs = .reject r f →
      let s3 := s2.abandonDone x.ctx d
      exec (.launch a) s = .next (s3.openWord.1.trapAt q (.launch a) f.cause f.reason s3.openWord.2))) ∧
  (∀ (s : State) (q : Nat) (a : BitVec 5) (s1 s2 : State) (f : XFault) (va : Word) (d : List Word),
    Ready (.launch a) q s → s.slotRelease q 3 = (s1, some none) → s1.shadowCopy q = none →
    ((s1.slot q).sreg a).toNat % 64 = 0 →
    readLaunch (fun s va n => s.slotWords q va n) (declReader q) ((s1.slot q).sreg a) s1 = (s2, .fault f va d) →
    let kept := f.collect = true ∧ (s2.slot q).level = 0 ∧ s2.collects (s2.slot q).ctx = true
    (kept → exec (.launch a) s =
      .next ((s2.setSlot q { s2.slot q with state := .waiting, wait := some (.collected va (some d)) }).push
        (.trapMessageAtCollector (faultMsg s2 q f .read va none ((encode (.launch a)).getD 0))))) ∧
    (¬kept → f.cause ≠ eAbort → exec (.launch a) s =
      .next ((s2.abandonDone (s2.slot q).ctx d).trapAt q (.launch a) f.cause 0x08 va))) ∧
  (∀ (s : State) (q : Nat) (a : BitVec 5) (d : List Word) (cbs : List (Nat × Word × Word)) (s3 : State),
    q < 2 ^ 19 → (s.slot q).state = .waiting → (s.slot q).wait = some (.launch a d cbs) →
    admission s (s.slot q).ctx (s.slot q).queue none (s.slot q).pts d cbs = .ok s3 →
    exec (.launchAdmission (256 + q)) s =
      .next (s3.modSlot q fun x => { x with state := .running, wait := none }.advance)) ∧
  (∀ (s : State) (x : Nat) (queue tt : Option Nat) (pts : Nat) (d : List Word) (cbs : List (Nat × Word × Word)),
    (descBad d = true → admission s x queue tt pts d cbs = .reject 1 (xf 0x01 1)) ∧
    (descBad d = false → tidBad d = true → admission s x queue tt pts d cbs = .reject 2 (xf 0x05 2)) ∧
    (descBad d = false → tidBad d = false → s.cbsBad x (descStages d) cbs = true →
      admission s x queue tt pts d cbs = .reject 3 (xf 0x01 3)) ∧
    (descBad d = false → tidBad d = false → s.cbsBad x (descStages d) cbs = false →
      (placeIn (descHome d) (s.usableList x) = none →
        (s.inCalderas x (descHome d) = false → admission s x queue tt pts d cbs = .reject 4 (xf 0x05 4)) ∧
        (s.inCalderas x (descHome d) = true → s.lockstep x = false →
          admission s x queue tt pts d cbs = .reject 4 (xf 0x0A 4))) ∧
      ∀ i, (s.reg (shctlOff x)).getLsbD 0 = false → placeIn (descHome d) (s.usableList x) = some i →
        let beyond := descMode d = 2 ∧ descGroups d ≠ 0 ∧ (s.usableList x).length ≤ i + (descGroups d - 1) / 16
        let unpinned := descMode d ≠ 2 ∧ ∃ c ∈ cbs, (declInst c).chan = true
        let spill := descSpillKB d * (descStageList d).length
        (beyond → admission s x queue tt pts d cbs = .reject 5 (xf 0x05 5)) ∧
        (¬beyond → unpinned → admission s x queue tt pts d cbs = .reject 6 (xf 0x01 6)) ∧
        (¬beyond → ¬unpinned → 32 < spill → admission s x queue tt pts d cbs = .reject 7 (xf 0x01 7)) ∧
        (¬beyond → ¬unpinned → spill ≤ 32 →
          (∃ h ∈ homesOf d (s.usableList x) i, 256 ≤ s.launchEntries h.1) ∨ 65536 ≤ lowestFree 0 s.launches →
          admission s x queue tt pts d cbs = .wait) ∧
        (¬beyond → ¬unpinned → spill ≤ 32 →
          (∀ h ∈ homesOf d (s.usableList x) i, s.launchEntries h.1 < 256) → lowestFree 0 s.launches < 65536 →
          ∃ u, admission s x queue tt pts d cbs = .ok u ∧ u.mem = s.mem ∧ u.slots = s.slots ∧
            findAt u.launches (lowestFree 0 s.launches) = some (newLaunch d cbs x queue tt pts) ∧
            (descGroups d = 0 → .launchCompletion (lowestFree 0 s.launches) ∈ u.agenda)))) ∧
  (∀ (s : State) (n : Nat) (t : BitVec 32) (pts : Nat),
    let tail := fieldOf (s.reg (qtailOff n)) 31 0
    let head := fieldOf (s.reg (qheadOff n)) 31 0
    let c := s.reg (qctlOff n)
    let ok := c.getLsbD 0 = true ∧ (t.toNat + 2 ^ 32 - tail) % 2 ^ 32 < 2 ^ 31 ∧
      (t.toNat + 2 ^ 32 - head) % 2 ^ 32 ≤ 2 ^ fieldOf c 4 1
    let e := s.reg (qerrOff n)
    let qerr (code : Nat) : State := s.setReg (qerrOff n)
      (withField (withField e 31 16 (min (fieldOf e 31 16 + 1) 65535)) 7 0 code)
    (s.resetting n = true → exec (.doorbell n t pts) s = .next (qerr 0x11)) ∧
    (s.resetting n = false → ¬ok → exec (.doorbell n t pts) s = .next (qerr 0x10)) ∧
    (s.resetting n = false → ok → ∃ u, exec (.doorbell n t pts) s = .next u ∧ u.reg (qtailOff n) = t.setWidth 64 ∧
      .launchAdmission n ∈ u.agenda ∧ u.mem = s.mem ∧ u.slots = s.slots ∧ ∀ o, o / 8 ≠ qtailOff n / 8 → u.reg o = s.reg o)) ∧
  (∀ (s : State) (n : Nat), n < 256 →
    (s.resetting n = true ∨ fieldOf (s.reg (qheadOff n)) 31 0 = fieldOf (s.reg (qtailOff n)) 31 0 →
      exec (.launchAdmission n) s = .next s) ∧
    (s.resetting n = false → fieldOf (s.reg (qheadOff n)) 31 0 ≠ fieldOf (s.reg (qtailOff n)) 31 0 →
      let x := s.queueCtx n
      let head := fieldOf (s.reg (qheadOff n)) 31 0
      let pts := s.tsOver (regKey (qtailOff n)) 8
      let rd := fun (s : State) va k => s.hubWords x va k
      let past (u : State) : State := (u.setReg (qheadOff n)
        (BitVec.ofNat 64 ((fieldOf (u.reg (qheadOff n)) 31 0 + 1) % 2 ^ 32))).push (.launchAdmission n)
      (∀ s1 f va d, readLaunch rd rd (s.ringSlot n head) s = (s1, .fault f va d) → exec (.launchAdmission n) s =
        .next (past ((s1.abandonDone x d).queueError n (head % 2 ^ fieldOf (s.reg (qctlOff n)) 4 1) 8))) ∧
      ∀ s1 d cbs w, readLaunch rd rd (s.ringSlot n head) s = (s1, .ok d cbs w) →
        (∀ s2, admission s1 x (some n) none (max pts w) d cbs = .ok s2 → exec (.launchAdmission n) s = .next (past s2)) ∧
        (admission s1 x (some n) none (max pts w) d cbs = .wait →
          exec (.launchAdmission n) s = .next (s1.push (.launchAdmission n))) ∧
        (∀ r f, admission s1 x (some n) none (max pts w) d cbs = .reject r f → exec (.launchAdmission n) s =
          .next (past ((s1.abandonDone x d).queueError n (head % 2 ^ fieldOf (s.reg (qctlOff n)) 4 1) r))))) ∧
  (∀ (s : State) (n : Nat) (v : Word), fieldOf v 63 63 = 0 → ∃ u, exec (.queueControlWrite n v .both 2) s = .next u ∧
    fieldOf (u.reg (qctlOff n)) 0 0 = fieldOf v 0 0 ∧
    ((s.reg (qctlOff n)).getLsbD 0 = false → fieldOf (u.reg (qctlOff n)) 4 1 = fieldOf v 4 1 ∧
      fieldOf (u.reg (qctlOff n)) 45 40 = fieldOf v 45 40) ∧
    ((s.reg (qctlOff n)).getLsbD 0 = true → fieldOf (u.reg (qctlOff n)) 4 1 = fieldOf (s.reg (qctlOff n)) 4 1 ∧
      fieldOf (u.reg (qctlOff n)) 45 40 = fieldOf (s.reg (qctlOff n)) 45 40)) ∧
  (∀ (s : State) (n : Nat), fieldOf (s.reg (qheadOff n)) 31 0 = fieldOf (s.reg (qtailOff n)) 31 0 →
    ∃ u, exec (.queueReset n) s = .next u ∧ u.resetting n = false) ∧
  (∀ (s : State) (k : Nat),
    (s.ttNow < k → ∃ j, exec (.ttSlotStart k) s = .next (s.push (.ttSlotStart j)) ∧ s.ttNow < j ∧ j ≤ k) ∧
    (k ≤ s.ttNow → (s.reg ttctlOff).getLsbD 0 = false →
      exec (.ttSlotStart k) s = .next (s.push (.ttSlotStart (k + 1)))) ∧
    (k ≤ s.ttNow → (s.reg ttctlOff).getLsbD 0 = true → (∀ e, e < 256 → ttFires (s.reg (ttentOff e 0)) k = false) →
      exec (.ttSlotStart k) s = .next (s.push (.ttSlotStart (k + 1)))) ∧
    (k ≤ s.ttNow → (s.reg ttctlOff).getLsbD 0 = true → ∀ e, e < 256 →
      (∀ d, d < 256 → ttFires (s.reg (ttentOff d 0)) k = decide (d = e)) → (s.reg (ttentOff e 3)).toNat < k →
      s.ttRunning e = true → ∃ u, exec (.ttSlotStart k) s = .next u ∧ .ttSlotStart (k + 1) ∈ u.agenda ∧ u.mem = s.mem ∧
        u.reg (ttentOff e 3) = BitVec.ofNat 64 k ∧ (u.reg (ttovrOff (e / 64))).getLsbD (e % 64) = true ∧
        fieldOf (u.reg (ttentOff e 2)) 31 0 = min (fieldOf (s.reg (ttentOff e 2)) 31 0 + 1) (2 ^ 32 - 1)) ∧
    (k ≤ s.ttNow → (s.reg ttctlOff).getLsbD 0 = true → ∀ e, e < 256 →
      (∀ d, d < 256 → ttFires (s.reg (ttentOff d 0)) k = decide (d = e)) → (s.reg (ttentOff e 3)).toNat < k →
      s.ttRunning e = false → findAt s.firing e = none →
      let pts := s.tsOver (regKey (ttentOff e 0)) 16
      let now := (s.reg (ttentOff e 0), s.reg (ttentOff e 1), pts)
      let s1 := { s.setReg (ttentOff e 3) (BitVec.ofNat 64 k) with firing := putAt s.firing e now }
      let x := fieldOf (s.reg (ttentOff e 0)) 61 56
      let rd := fun (s : State) va n => s.hubWords x va n
      ∀ s2 s3 d cbs w, readLaunch rd rd (va57 (low57 (s.reg (ttentOff e 1)))) s1 = (s2, .ok d cbs w) →
        admission s2 x none (some e) (max pts w) d cbs = .ok s3 → s3.dev = s1.dev →
        exec (.ttSlotStart k) s = .next (State.push { s3 with
          firing := delAt s3.firing e, ttLaunch := putAt s3.ttLaunch e (lowestFree 0 s2.launches) } (.ttSlotStart (k + 1))))) ∧
  (∀ (s : State) (t : Nat),
    (t ≤ s.hubNs → exec (.ttClockStep t) s = .next { s with hubNs := t }) ∧
    (s.ttNow < State.ttNow { s with hubNs := t } → (∀ k, .ttSlotStart k ∈ s.agenda → s.ttNow < k) →
      let m := State.ttNow { s with hubNs := t }
      ∃ u, exec (.ttClockStep t) s = .next u ∧ u.hubNs = t ∧ u.mem = s.mem ∧ u.slots = s.slots ∧
        (∀ k, .ttSlotStart k ∈ u.agenda → m < k) ∧
        ∀ e, e < 256 →
          let gone := (List.range (m + 1)).filter fun k =>
            decide (s.ttNow < k) && decide ((s.reg (ttentOff e 3)).toNat < k) && ttFires (s.reg (ttentOff e 0)) k
          u.reg (ttentOff e 3) = s.reg (ttentOff e 3) ∧
          fieldOf (u.reg (ttentOff e 2)) 63 32 = (if (s.reg ttctlOff).getLsbD 0 then
            min (fieldOf (s.reg (ttentOff e 2)) 63 32 + gone.length) (2 ^ 32 - 1)
            else fieldOf (s.reg (ttentOff e 2)) 63 32) ∧
          ((s.reg ttctlOff).getLsbD 0 = true → gone ≠ [] →
            (u.reg (ttovrOff (e / 64))).getLsbD (e % 64) = true))) ∧
  ∀ (s : State) (l : Nat) (r : Launch), findAt s.launches l = some r → r.remaining = 0 → r.running = 0 →
    r.abandoned = false → r.complete = false → r.far = none → r.pair = none →
    let s1 := s.modLaunch l fun r => { r with complete := true }
    exec (.launchCompletion l) s = .next ((s1.addDone r).reapLaunch l) ∧
    (descDelta r.desc = 0 → s1.addDone r = s1) ∧
    ∀ s2 p, descDelta r.desc ≠ 0 → counterLoc s1 (homeWho r.ctx r.desc) (descDone r.desc) .write = (s2, .ok p) →
      .counterAddAtHome ⟨s2.nextId, none, none, p.key, descDone r.desc, BitVec.ofNat 64 (descDelta r.desc), [],
        r.pts, r.ctx, [], .plain⟩ ∈ (s1.addDone r).agenda

/-- CBWP, CBWC, CBAP, CBAC, CBSTAT, MARK, MWAIT and MROUND wait for, move and read the buffer that the handle names
(R64, R65, R191, R267, R356, R371, R372, R373, R375, R418, spec/14_task_instructions.md). -/
def Obligations.CircularBufferInstructionsWaitAdvanceAndRead : Prop :=
  (∀ (s : State) (q : Nat) (a : BitVec 5) (h : BitVec 4) (n : BitVec 9),
    let x := s.slot q
    let k := if a = 0 then n.toNat else (x.sreg a).toNat
    x.satisfied (x.smask a) = true →
    (s.cbFor q h.toNat = none → ∀ i : Instr,
      i = .cbwp a h n ∨ i = .cbwc a h n ∨ i = .cbap a h n ∨ i = .cbac a h n → Ready i q s →
      exec i s = .next (s.openWord.1.trapAt q i 0x08 0 s.openWord.2)) ∧
    ∀ c, s.cbFor q h.toNat = some c →
      let prod := c.hasProducer && c.pstage == stageOf q
      let cons := c.hasConsumer && c.cstage == stageOf q
      let bad (i : Instr) : Prop := exec i s = .next (s.openWord.1.trapAt q i 0x08 0 s.openWord.2)
      let past : State := s.modSlot q fun x => { x with state := .running, wait := none, pts := max x.pts c.pts }.advance
      (Ready (.cbwp a h n) q s →
        (prod = false ∨ k = 0 ∨ c.nslots < k → bad (.cbwp a h n)) ∧
        (prod = true → k ≠ 0 → k ≤ c.nslots → s.peerFenced c = false →
          exec (.cbwp a h n) s = .next (if k ≤ c.free then past else s.modSlot q fun x =>
            { x with state := .waiting, wait := some (.cbProducer h.toNat k) }))) ∧
      (Ready (.cbwc a h n) q s →
        (cons = false ∨ k = 0 ∨ c.nslots < k → bad (.cbwc a h n)) ∧
        (cons = true → k ≠ 0 → k ≤ c.nslots → s.peerFenced c = false →
          exec (.cbwc a h n) s = .next (if k ≤ c.filled then past else s.modSlot q fun x =>
            { x with state := .waiting, wait := some (.cbConsumer h.toNat k) }))) ∧
      (∀ (i : Instr) (p : Bool), (i = .cbap a h n ∧ p = true) ∨ (i = .cbac a h n ∧ p = false) → Ready i q s →
        let s1 := s.drainThread q
        let ok := s1.relReady q c.scope (s1.slot q).relNext s1.nextId
        let held := (s1.slot q).cbHeld c.key.handle p
        (k = 0 ∨ (if p then prod = false else cons = false) → bad i) ∧
        (k ≠ 0 → (if p then prod = true else cons = true) → s.peerFenced c = false →
          (held = true ∨ ok = false → exec i s = .next s1) ∧
          (held = false → ok = true → (s1.slot q).nak = none →
            let s2 := s1.modSlot q fun x => x.clearTouched.advance
            let s3 := s1.modSlot q Slot.clearTouched
            exec i s = .next (if (if p then c.free else c.filled) < k then s3.openWord.1.trapAt q i 0x08 0 s3.openWord.2
              else if p then s2.cbProduce c k (s1.slot q).pts else s2.cbConsume c k (s1.slot q).pts))))) ∧
  (∀ (s : State) (q : Nat) (d : BitVec 5) (h : BitVec 4) (c : CbInst), s.cbFor q h.toNat = some c →
    s.peerFenced c = false →
    (Ready (.cbstat d h) q s → exec (.cbstat d h) s = .next (s.modSlot q fun x => (x.setS d
      (BitVec.ofNat 64 (c.pend * 2 ^ 54 + (if c.receiving then 2 ^ 53 else 0) + (if c.chan then 2 ^ 52 else 0) +
        c.marks * 2 ^ 48 + c.wptr * 2 ^ 40 + c.rptr * 2 ^ 32 + c.free * 2 ^ 16 + c.filled)) Taint.none).advance)) ∧
    (Ready (.mark h) q s → c.hasProducer = true → c.pstage = stageOf q →
      exec (.mark h) s = .next (if c.marksOut < 15 then ((s.markCb c).modSlot q Slot.advance).wakeCbs c.key.tile
        else s.modSlot q fun x => { x with state := .waiting, wait := some (.marker h.toNat) })) ∧
    (Ready (.mark h) q s → c.hasProducer = false ∨ c.pstage ≠ stageOf q →
      exec (.mark h) s = .next (s.openWord.1.trapAt q (.mark h) 0x08 0 s.openWord.2))) ∧
  (∀ (s : State) (q : Nat) (a : BitVec 5), Ready (.mwait a) q s → (s.slot q).satisfied ((s.slot q).smask a) = true →
    let mask := ((s.slot q).sreg a).toNat
    let entered (pts : Nat) (x : Slot) : Slot := { x.pastWait pts with round := x.round + 1, passedMwait := true }
    (2 ^ 16 ≤ mask ∨ (∃ h, h < 16 ∧ mask.testBit h = true ∧ s.mwaitEnd q h = false) →
      exec (.mwait a) s = .next (s.openWord.1.trapAt q (.mwait a) 0x08 0 s.openWord.2)) ∧
    (mask = 0 → exec (.mwait a) s = .next ((s.modSlot q (entered 0)).wakeCbs (tileOf q))) ∧
    (mask < 2 ^ 16 → (∀ h, h < 16 → mask.testBit h = true → s.mwaitEnd q h = true) →
      (∀ h c, h < 16 → mask.testBit h = true → s.cbFor q h = some c → s.peerFenced c = false) →
      ((∃ h c, h < 16 ∧ mask.testBit h = true ∧ s.cbFor q h = some c ∧ c.marks = 0) → exec (.mwait a) s =
        .next (s.modSlot q fun x => { x with state := .waiting, wait := some (.markers mask) })) ∧
      ((∀ h c, h < 16 → mask.testBit h = true → s.cbFor q h = some c → 0 < c.marks) →
        ∃ (t : State) (pts : Nat), exec (.mwait a) s = .next (t.wakeCbs (tileOf q)) ∧ t.slot q = entered pts (s.slot q) ∧ t.mem = s.mem ∧
          (∀ r, r ≠ q → t.slot r = s.slot r) ∧
          (∀ k, (∀ h c, h < 16 → mask.testBit h = true → s.cbFor q h = some c → c.key ≠ k) → t.cbAt k = s.cbAt k) ∧
          ∀ h c f b rest, h < 16 → mask.testBit h = true → s.cbFor q h = some c → c.pts ≤ pts ∧
            (c.receiving = false → c.segs = f :: b :: rest →
              t.cbAt c.key = some { c with segs := (b + f) :: rest, marksOut := c.marksOut - 1 })))) ∧
  ∀ (d : BitVec 5), WritesS (.mround d) d (fun x => x.round.setWidth 64) (fun _ => Taint.none)

/-- An advance, a fill, a slot's arrival and a credit move FREE, FILLED and the pointers of a buffer as R64 says,
and wake who waits for it (R63, R64, R65, R66, R310, R356, R361, R375, spec/02_execution_model.md,
spec/12_fabric_order.md). -/
def Obligations.BuffersAndChannelsCountInOrder : Prop :=
  (∀ (s : State) (tile : Nat),
    let t := s.wakeCbs tile
    t.mem = s.mem ∧ (∀ r, r / 12 ≠ tile → t.slot r = s.slot r) ∧
    (∀ r, r / 12 = tile → (s.slot r).state ≠ .waiting ∨ (s.slot r).wait = none → t.slot r = s.slot r) ∧
    (∀ r h k c, r / 12 = tile → (s.slot r).state = .waiting → s.cbFor r h = some c →
      ((s.slot r).wait = some (.cbProducer h k) →
        t.slot r = if k ≤ c.free then (s.slot r).pastWait c.pts else s.slot r) ∧
      ((s.slot r).wait = some (.cbConsumer h k) → k ≤ c.filled → t.slot r = (s.slot r).pastWait c.pts)) ∧
    ∀ r w, r / 12 = tile → (s.slot r).state = .waiting → (s.slot r).wait = some w →
      (∀ p, p / 12 = tile → p ≠ r → (s.slot p).wait = none) → t = if s.cbMet r w then s.endCbWait r w else s) ∧
  ∀ (s : State) (c : CbInst), s.cbAt c.key = some c →
    let noMark (tile : Nat) : Prop :=
      ∀ r, r / 12 = tile → (∀ h, (s.slot r).wait ≠ some (.marker h)) ∧ ∀ m, (s.slot r).wait ≠ some (.markers m)
    let only (d : CbInst) (t : State) : Prop :=
      t.cbAt c.key = some d ∧ (∀ k, k ≠ c.key → t.cbAt k = s.cbAt k) ∧
      (∀ r h n, r / 12 = c.key.tile → (s.slot r).state = .waiting → s.cbFor r h = some c →
        ((s.slot r).wait = some (.cbProducer h n) →
          t.slot r = if n ≤ d.free then (s.slot r).pastWait d.pts else s.slot r) ∧
        ((s.slot r).wait = some (.cbConsumer h n) →
          t.slot r = if n ≤ d.filled then (s.slot r).pastWait d.pts else s.slot r)) ∧
      ∀ r, r / 12 ≠ c.key.tile → t.slot r = s.slot r
    (noMark c.key.tile →
      (c.chan = false → ∀ f, c.segs = [f] → 0 < c.nslots →
        (∀ n pts, n ≤ c.free → ∃ t, s.cbProduce c n pts = t ∧ t.mem = s.mem ∧ only { c with
          free := c.free - n, wptr := (c.wptr + n) % c.nslots, pts := max c.pts pts, segs := [f + n] } t) ∧
        (∀ n pts, n ≤ f → ∃ t, s.cbConsume c n pts = t ∧ t.mem = s.mem ∧ only { c with
          free := c.free + n, rptr := (c.rptr + n) % c.nslots, pts := max c.pts pts, segs := [f - n] } t) ∧
        (∀ ix rest, c.permits = .slot ix false :: rest → (∀ p u, rest = p :: u → ∃ jx, p = .slot jx false) →
          ∃ t, exec (.cbFillComplete c.key ix) s = .next t ∧ t.mem = s.mem ∧
            only { c with permits := rest, segs := [f + 1] } t) ∧
        (∀ ix jx rest, ix ≠ jx → c.permits = .slot ix false :: .slot jx false :: rest →
          ∃ t, exec (.cbFillComplete c.key jx) s = .next t ∧ t.mem = s.mem ∧
            only { c with permits := .slot ix false :: .slot jx true :: rest } t) ∧
        (∀ ix jx, c.permits = [.slot ix false, .slot jx true] →
          ∃ t, exec (.cbFillComplete c.key ix) s = .next t ∧ t.mem = s.mem ∧
            only { c with permits := [], segs := [f + 2] } t)) ∧
      (c.sending = true → ∀ pts p, s.cbPeer c = some p → ∃ t, s.cbProduce c 1 pts = t ∧ t.mem = s.mem ∧
        .channelSlotArrival p.key (.slot c.txNum (s.mem.readBytes (c.slotKey (c.wptr % c.nslots)) c.slotBytes)
          (max c.pts pts)) ∈ t.agenda ∧
        only { c with free := c.free - 1, wptr := (c.wptr + 1) % c.nslots, pts := max c.pts pts,
                      txNum := (c.txNum + 1) % 65536, unsent := c.unsent + 1 } t) ∧
      (c.receiving = true → c.early = [] → s.homeFenced c.ctx (padKey c.key.tile 0) = false →
        (∀ data pts n, s.cbPeer c = none → n ≠ c.rxNum → ∃ t,
          exec (.channelSlotArrival c.key (.slot n data pts)) s = .next t ∧ t.mem = s.mem ∧
          only { c with early := [.slot n data pts] } t) ∧
        (∀ data pts, ∃ t, exec (.channelSlotArrival c.key (.slot c.rxNum data pts)) s = .next t ∧
          t.mem = (s.bulkWrite (c.slotKey c.wptr) (data.take c.slotBytes) 15 pts).1.mem ∧
          let d := { c with
            free := c.free - 1, segs := c.segs.dropLast ++ [c.segs.getLastD 0 + 1], wptr := (c.wptr + 1) % c.nslots,
            pts := max c.pts pts, rxNum := (c.rxNum + 1) % 65536 }
          (s.cbPeer c = none → only d t) ∧
          ∀ p, s.cbPeer c = some p → p.key ≠ c.key → t.cbAt c.key = some d ∧
            t.cbAt p.key = some { p with unsent := p.unsent - 1 } ∧
            ∀ k, k ≠ c.key → k ≠ p.key → t.cbAt k = s.cbAt k) ∧
        (s.cbPeer c = none → ∃ t, exec (.channelSlotArrival c.key (.marker c.rxNum)) s = .next t ∧ t.mem = s.mem ∧
          only { c with rxNum := (c.rxNum + 1) % 65536, segs := c.segs ++ [0] } t) ∧
        (∀ n pts p, s.cbPeer c = some p → .channelCreditArrival p.key n ∈ (s.cbConsume c n pts).agenda)) ∧
      (∀ n, 0 < n → ∃ t, exec (.channelCreditArrival c.key n) s = .next t ∧ t.mem = s.mem ∧
        only { c with free := c.free + min n c.nslots } t)) ∧
    ((∀ r, r / 12 = c.key.tile → (s.slot r).wait = none) → exec (.channelCreditArrival c.key 0) s =
      .next (s.setCb { c with marksOut := c.marksOut - 1 })) ∧
    (∀ k l n, k.lrec ≠ c.key.lrec → (∀ d ∈ s.cbs, d.key.lrec ≠ k.lrec) → findAt s.launches k.lrec = some l →
      l.complete = false → l.abandoned = false →
      exec (.channelCreditArrival k n) s = .next (s.push (.channelCreditArrival k n)))

/-- PRESSURE_PUBLISH to HANDLER_START: pressure, distance, reports, hops and dispatch take the steps of chapter 13
(R40, R48, R49, R50, R336, R339, R342, R343, R346, R347, R469, spec/13_tephra_scheduling.md). THE MODEL'S CHOICES in
it: the bound 0xFFE and the unreachable 0xFFF rest on entry 90, when an entry is tested and what stands for a
refused group on entry 35, a tile that another context holds on entry 37, that a handler's start counts in no n on
entry 102 (all DEDUCED); where the round robin starts rests on entry 15, where a carve-out lies on entry 20 and the
wait of a slot for 32 cycles at a dispatch on entry 75 (all DESIGN CHOICE). -/
def Obligations.TephraPublishesMovesAndDispatches : Prop :=
  (∀ (s : State) (c : Nat),
    ∃ t, exec (.pressurePublish c) s = .next t ∧ t.agenda = s.agenda ++ [.pressurePublish c] ∧
      t.mem = s.mem ∧ t.slots = s.slots ∧ t.published = (if s.period < s.cycle / 64 then s.pubNext else s.published) ∧
      (s.cycle < getAt 0 s.timers c → t.pubNext = s.pubNext) ∧
      (getAt 0 s.timers c ≤ s.cycle →
        getAt 0 t.pubNext c = (if s.fencedCluster c then 0xFFFF else min 0xFFFE (s.pressureSum c)) ∧
        ∀ d, d ≠ c → getAt 0 t.pubNext d = getAt 0 s.pubNext d)) ∧
  (∀ (s : State) (c : Nat), let u := if s.period < s.cycle / 64 then
        { s with published := s.pubNext, dist := s.distNext, period := s.cycle / 64 } else s
    ∃ t, exec (.distanceRecompute c) s = .next t ∧ t.agenda = s.agenda ++ [.distanceRecompute c] ∧ t.mem = s.mem ∧
      t.dist = u.dist ∧ (s.cycle < getAt 0 s.timers (65536 + c) → t.distNext = s.distNext) ∧
      (getAt 0 s.timers (65536 + c) ≤ s.cycle → ∀ x, x < 64 → s.inCalderas x c = true → c < 1024 →
        let low := fieldOf (s.reg (grctlOff x)) 15 0
        let v := getAt 0xFFF t.distNext (distKey x c)
        (s.usable x c = false → v = 0xFFF) ∧
        (s.usable x c = true → getAt 0 u.published c < low → v = 0) ∧
        (s.usable x c = true → low ≤ getAt 0 u.published c →
          ((∀ l ∈ u.links x c, u.distance x l.1 = 0xFFF) → (∀ i, i < 4 → u.peerDistance x i = 0xFFF) → v = 0xFFF) ∧
          (∀ l ∈ u.links x c, u.distance x l.1 ≠ 0xFFF → v ≤ min (u.distance x l.1 + l.2) 0xFFE) ∧
          (∀ i, i < 4 → u.peerDistance x i ≠ 0xFFF → v ≤ min (u.peerDistance x i + 40) 0xFFE) ∧
          (v ≠ 0xFFF → (∃ l ∈ u.links x c, u.distance x l.1 ≠ 0xFFF ∧ v = min (u.distance x l.1 + l.2) 0xFFE) ∨
            ∃ i, i < 4 ∧ u.peerDistance x i ≠ 0xFFF ∧ v = min (u.peerDistance x i + 40) 0xFFE)))) ∧
  (∀ (s : State) (x i d c : Nat), i < 4 → exec (.peerReport x i d c) s =
    .next { s with peers := putAt s.peers (4 * x + i) (min d 0xFFF, c, s.hubNs) }) ∧
  (∀ (s : State) (x i d c : Nat), 4 ≤ i → ∃ t, exec (.peerReport x i d c) s = .next t ∧
    .peerReport x i d c ∈ t.agenda) ∧
  (∀ (s : State) (x : Nat) (v : Word),
    (fieldOf v 31 16 < fieldOf v 15 0 → exec (.grctlWrite x v) s = .next s) ∧
    (fieldOf v 15 0 ≤ fieldOf v 31 16 → exec (.grctlWrite x v) s =
      .next (s.setReg (grctlOff x) (BitVec.ofNat 64 (v.toNat % 2 ^ 38))))) ∧
  (∀ (s : State) (h : Hop),
    let s1 := { s with hopping := s.hopping.erase h }
    let cls := s.entryClass h.entry
    (h ∉ s.hopping → exec (.hopAccept h) s = .next s) ∧
    (h ∈ s.hopping → s.usable (entryCtx h.entry) h.target = true → s.arrivals h.target < 512 →
      exec (.hopAccept h) s = .next ((s1.setRun h.target cls (s1.runList h.target cls ++ [entryHopped h.entry])).arrived
        h.target)) ∧
    (h ∈ s.hopping → s.usable (entryCtx h.entry) h.target = false ∨ 512 ≤ s.arrivals h.target →
      exec (.hopAccept h) s = .next ((s1.setRun h.source cls (putBack h.ahead (entryStay h.entry) (s1.runList h.source cls))).pushAll
        ((List.range 16).map fun t => .dispatchDecision (16 * h.source + t))))) ∧
  (∀ (ahead rest : List RunEntry) (e : RunEntry), (∀ f ∈ rest, ∀ g ∈ ahead, sameEntry f g = false) →
     putBack ahead e (ahead ++ rest) = ahead ++ e :: rest) ∧
  (∀ (s : State) (tile : Nat),
    let again (t : State) : State :=
      if t.untested.isSome then t.pushNext (.dispatchDecision tile) else t.push (.dispatchDecision tile)
    (∀ c cls i e, s.untested = some (c, cls, i, e) →
      exec (.dispatchDecision tile) s = .next (again (s.testEntry c cls i e))) ∧
    (∀ s1, s.untested = none → s.tileHandler tile = some s1 → exec (.dispatchDecision tile) s = .next (again s1)) ∧
    (s.hqueues = [] → s.untested = none → (s.tile tile).drain = none →
      (s.entriesAt (tile / 16) = [] → exec (.dispatchDecision tile) s = .next s) ∧
      ∀ s1, s.decideTile tile = some s1 → exec (.dispatchDecision tile) s = .next (again s1)) ∧
    (s.untested = none → s.tileHandler tile = none → (s.tile tile).drain = none → (s.tile tile).kept = [] →
      let c := tile / 16
      let n := (s.tile tile).decisions
      let fits (p : RunEntry × Nat) : Bool := !s.boundElsewhere tile p.1 && (s.startEntry tile p.1).isSome
      ((∀ k, k < 4 → ∀ p ∈ (s.classView c k).take 9, fits p = false) → exec (.dispatchDecision tile) s =
        .next (if s.entriesAt (tile / 16) = [] then s else again s)) ∧
      ∀ pre cls post v e i w s1, classOrder n = pre ++ cls :: post →
        (∀ k ∈ pre, ∀ p ∈ (s.classView c k).take 9, fits p = false) →
        (s.classView c cls).take 9 = v ++ (e, i) :: w → (∀ p ∈ v, fits p = false) →
        s.boundElsewhere tile e = false → s.startEntry tile e = some s1 →
        ∃ t, exec (.dispatchDecision tile) s = .next t ∧ t.slots = s1.slots ∧ t.mem = s1.mem ∧ t.cbs = s1.cbs ∧
          t.launches = s1.launches ∧ (t.tile tile).decisions = n + 1 ∧
          getAt 0 t.rrCtx (runKey c cls) = entryCtx e + 1)) ∧
  (∀ n, classOrder n = if n % 8 = 7 then [1, 0, 2, 3] else if n % 16 = 3 then [2, 0, 1, 3]
    else if n % 32 = 13 then [3, 0, 1, 2] else [0, 1, 2, 3]) ∧
  (∀ (s : State) (c cls : Nat) (e : RunEntry) (i : Nat) (w : List (RunEntry × Nat)),
    s.classView c cls = (e, i) :: w →
    let x := entryCtx e
    let last := getAt 0 s.rrCtx (runKey c cls)
    (s.runList c cls)[i]? = some e ∧ (∀ (j : Nat) f, j < i → (s.runList c cls)[j]? = some f → entryCtx f ≠ x) ∧
    (last ≤ x → ∀ f ∈ s.runList c cls, last ≤ entryCtx f → x ≤ entryCtx f) ∧
    (x < last → ∀ f ∈ s.runList c cls, entryCtx f < last ∧ x ≤ entryCtx f)) ∧
  (∀ (s : State) (tile l : Nat) (r : Launch), findAt s.launches l = some r → s.tileFree tile r.ctx = true →
    let fresh (q : Nat) (k : ActKind) (stage o : Nat) (t : State) : Prop :=
      let y := t.slot q
      y.state = .running ∧ y.kind = k ∧ y.ctx = r.ctx ∧ y.level = 0 ∧ y.lrec = some l ∧ y.queue = r.queue ∧
      y.gen = (s.slot q).gen + 1 ∧ y.wait = none ∧ y.ring = [] ∧ y.fflags = 0 ∧ y.rm = 0 ∧
      y.p = [] ∧ y.pstep = [] ∧ y.v = [] ∧ y.vMask = [] ∧ y.acc = [] ∧ y.poison = [] ∧
      (∀ k, y.smask k = Taint.none) ∧ y.spillKB = descSpillKB r.desc ∧ y.carve = o ∧
      (stage = 2 → y.nsreg = descNsreg r.desc ∧ y.nvreg = descNvreg r.desc)
    let room (o : Nat) : Prop := 0x18000 ≤ o ∧ o + 1024 * descSpillKB r.desc ≤ 0x20000 ∧
      ∀ i, i < 12 → (s.slot (12 * tile + i)).state ≠ .free → (s.slot (12 * tile + i)).spillKB ≠ 0 →
        o + 1024 * descSpillKB r.desc ≤ (s.slot (12 * tile + i)).carve ∨
        (s.slot (12 * tile + i)).carve + 1024 * (s.slot (12 * tile + i)).spillKB ≤ o
    (∀ x h p ws b pts st hops q o, s.usable r.ctx (tile / 16) = true → x = r.ctx →
      s.openSlot tile (taskStage ws) = some q → s.carveAt tile (descSpillKB r.desc) = some o →
      (taskStage ws = 2 → (s.dealt tile).1 + descNsreg r.desc ≤ 12 ∧ (s.dealt tile).2 + descNvreg r.desc ≤ 8) →
      ∃ t, s.startEntry tile (.task x l h p ws b pts st hops) = some t ∧ t.mem = (s.takeTile tile r.ctx).mem ∧
        fresh q .task (taskStage ws) o t ∧ room o ∧ (t.slot q).pc = low57 (ws.getD 0 0) ∧
        ∀ k : BitVec 5, (t.slot q).sreg k = if k = 1 then ws.getD 1 0 else if k = 2 then ws.getD 2 0
          else if k = 3 then tilesAddress h (0x14000 + 64 * (p % 256)) else 0) ∧
    (∀ g t, s.startGroup tile l g = some t → ∀ st ∈ descStageList r.desc, ∃ q o, s.openSlot tile st = some q ∧
      t.mem = (s.takeTile tile r.ctx).mem ∧ fresh q (.group g) st o t ∧ room o ∧ (t.slot q).pc = descEntry r.desc ∧
      ∀ k : BitVec 5, (t.slot q).sreg k = if k = 1 then r.desc.getD 1 0 else if k = 2 then descDone r.desc
        else if k = 3 then BitVec.ofNat 64 g else if k = 4 then BitVec.ofNat 64 (descGroups r.desc) else 0) ∧
    (∀ g, descSpillKB r.desc = 0 → (∀ i, i < 12 → (s.slot (12 * tile + i)).spillKB = 0) →
      (∀ st ∈ descStageList r.desc, (s.openSlot tile st).isSome = true) →
      (2 ∈ descStageList r.desc → (s.dealt tile).1 + descNsreg r.desc ≤ 12 ∧ (s.dealt tile).2 + descNvreg r.desc ≤ 8) →
      (s.startGroup tile l g).isSome = true)) ∧
  ∀ (s : State) (x n : Nat) (h : HandlerQueue) (m : Msg) (ms : List Msg) (q o : Nat),
    findAt s.hqueues (256 * x + n) = some h → h.msgs = m :: ms → h.running = false → h.unbinding = false →
    let tile := placeTile h.place
    let stage := placeStage h.place
    let used := s.dealt tile
    s.draining tile = false → s.calderaFenced x (tile / 16) = false → s.fencedCluster (tile / 16) = false →
    s.openSlot tile stage = some q → s.carveAt tile 0 = some o →
    (stage = 2 → used.1 + h.nsreg ≤ 12 ∧ used.2 + h.nvreg ≤ 8) →
    ∃ t, exec (.handlerStart x n) s = .next t ∧
      findAt t.hqueues (256 * x + n) = some { h with msgs := ms, running := true } ∧
      (t.slot q).state = .running ∧ (t.slot q).kind = .handler n ∧ (t.slot q).ctx = x ∧ (t.slot q).level = h.level ∧
      (t.slot q).pc = h.entry ∧ (t.slot q).gen = (s.slot q).gen + 1 ∧ (t.slot q).lrec = none ∧
      (∀ k : Fin 8, (t.slot q).sreg (BitVec.ofNat 5 (k.val + 1)) = m.payload.getD k.val 0) ∧
      (t.slot q).sreg 9 = BitVec.ofNat 64 (m.senderGen.toNat * 65536 + m.sender.toNat) ∧
      (∀ r, (t.slot q).smask r = Taint.none) ∧ (t.slot q).fflags = 0 ∧ t.mem = s.mem

/-- Every CMD word takes the next ring entry with its operands and goes on by itself; ESET, EGET, TIDLD, TIDINV and
TCLS are done at once (R87, R88, R89, R90, R135, R226, R227, R228, R229, R267, R278,
spec/03_instruction_formats.md). THE MODEL'S CHOICES in it: that the reserved bits of a register are kept for the
command's own test rests on entry 88 and what a shape that cannot be read reserves on entry 87 (both DESIGN CHOICE);
that a command goes on by itself from its own step rests on entry 26 (DEDUCED). -/
def Obligations.CoprocessorWordsTakeTheirRingEntry : Prop :=
  let first (i : Instr) (q n : Nat) (s : State) : State :=
    match i with
    | .wstart _ _ _ => s.queueWalk q n
    | .wstop _ => s.queueWalk q n
    | _ => s.push (.cbPermit q n)
  let goes (i : Instr) (a b : BitVec 5) (steps : Bool) : Prop := ∀ (s : State) (q : Nat), Ready i q s →
    let x := s.slot q
    (x.ringFull = true ∨ x.satisfied (x.smask a) = false ∨ x.satisfied (x.smask b) = false → exec i s = .next s) ∧
    (x.ringFull = false → x.satisfied (x.smask a) = true → x.satisfied (x.smask b) = true →
      ∃ (e : RingEntry) (n : Nat), e.seq = x.seqnext.toNat ∧ e.word = (encode i).getD 0 ∧ e.phase = 0 ∧ e.fault = none ∧
        e.valA = x.sreg a ∧ e.valB = x.sreg b ∧ e.pc = x.pc ∧ e.level = x.level.toNat ∧ e.rm = x.rm ∧ e.flush = x.flush ∧
        e.seed = x.srseed ∧ e.pts = x.pts ∧ e.permits = [] ∧ e.staged = [] ∧
        e.eset = (List.range (engRegs (wordEng e.word))).map (fun r => x.ereg (wordEng e.word) (wordSet e.word) r) ∧
        (steps = false → n = 0) ∧
        e.before = s.nextId ∧
        (steps = false → s.shapeLines q e = []) ∧
        (s.shapeLines q e = [] →
          let s1 := { s with hubLines := s.hubLines.filter fun (l : Nat × Nat × List Byte) => l.1 / 2 ^ 50 ≠ q + 1 }
          exec i s = .next (first i q e.seq (s1.useId.modSlot q fun x =>
            { x with
              ring := putAt x.ring (e.seq % 64) e, seqnext := x.seqnext + 1,
              srseed := if n = 0 then x.srseed else seedAfter n x.srseed }.advance))) ∧
        ∀ k ks, s.shapeLines q e = k :: ks →
          exec i s = .next (if s.ownAsked q then s else s.askLine q ownRead x.pts k))
  (∀ (a b : BitVec 5) (k4 : BitVec 4) (m : BitVec 1) (c : BitVec 2) (r : BitVec 3),
    goes (.mma a b k4) a b false ∧
    goes (.mmag a b m c) a b false ∧
    goes (.mmas a b k4) a b false ∧
    goes (.mrot a b k4) a b false ∧
    goes (.mzero c) 0 0 false ∧
    goes (.mld a m c) a 0 false ∧
    goes (.mst a c) a 0 true ∧
    goes (.cvt a b m r) a b true ∧
    goes (.cvb a b m r) a b true ∧
    goes (.cvq a b m r) a b true ∧
    goes (.cvqn a b m r) a b true ∧
    goes (.cvqnq a b m r) a b true ∧
    goes (.cvtr a b m r) a b true ∧
    goes (.twld a b c) a b false ∧
    goes (.twmc a b c) a b false ∧
    goes (.twst a b c) a b false ∧
    goes (.kbnd a b c) a b false ∧
    goes (.ksel a b c) a b false ∧
    goes (.krst c) 0 0 false ∧
    goes (.sgg a b c) a b false ∧
    goes (.bcopy a b c) a b false ∧
    goes (.bfill a b c) a b false ∧
    goes (.wstart a b c) a b false ∧
    goes (.wstop c) 0 0 false) ∧
  (∀ (d a : BitVec 5) (e : BitVec 4) (r : BitVec 8) (k : BitVec 4) (s : State) (q : Nat),
    let x := s.slot q
    (Ready (.eset a e r k) q s → (x.ringFull = true → exec (.eset a e r k) s = .next s) ∧
      (x.ringFull = false → ∃ y : Slot, exec (.eset a e r k) s = .next (s.setSlot q y.advance) ∧
        y.seqnext = x.seqnext + 1 ∧ y.s = x.s ∧ y.sMask = x.sMask ∧ y.v = x.v ∧ y.p = x.p ∧ y.pc = x.pc ∧
        (∀ j, j ≠ esetKey e.toNat k.toNat r.toNat → getAt 0 y.eset j = getAt 0 x.eset j) ∧
        y.ereg e.toNat k.toNat r.toNat =
          (if roEngReg e.toNat r.toNat then x.ereg e.toNat k.toNat r.toNat
            else x.sreg a &&& engRegMask e.toNat r.toNat))) ∧
    (Ready (.eget d e r k) q s → (Instr.eget d e r k).wellFormed = true →
      (x.ringFull = true → exec (.eget d e r k) s = .next s) ∧
      (x.ringFull = false → ∃ f : RingEntry, f.seq = x.seqnext.toNat ∧ f.word = (encode (.eget d e r k)).getD 0 ∧
        f.valA = x.sreg d ∧ f.phase = 0 ∧
        let s1 := s.useId.modSlot q fun x => { x with
          ring := putAt x.ring (f.seq % 64) f, seqnext := x.seqnext + 1 }.advance
        let busy := ((s1.slot q).olderThan f).any fun g => wordIsCmd g.word && g.eng == e.toNat && !g.isDone
        (busy = true → exec (.eget d e r k) s = .next (s1.push (.engineDone q f.seq))) ∧
        (busy = false → exec (.eget d e r k) s = .next (s1.modSlot q fun x => ((x.setS d
          (if e.toNat = 5 ∧ r.toNat = 1 then
            (s.tcdEntry (tileOf q) (fieldOf (x.ereg 5 0 0) 6 0)).setWidth 64
            else if roEngReg e.toNat r.toNat then x.ereg e.toNat k.toNat r.toNat
            else x.ereg e.toNat k.toNat r.toNat &&& engReadMask e.toNat r.toNat)
          Taint.none).setEntry { f with phase := 3 }).reapRing))))) ∧
  ∀ (a : BitVec 5) (s : State) (q : Nat),
    let x := s.slot q
    let v := x.sreg a
    x.ringFull = false → x.satisfied (x.smask a) = true →
    let done (i : Instr) (u : State) : Prop := exec i s = .next ((u.modSlot q fun x =>
      x.passEntry ((encode i).getD 0) (x.sreg a)).modSlot q Slot.advance)
    (Ready (.tidinv a) q s → v.toNat < 4096 → s.tidInWindow q v.toNat = true →
      done (.tidinv a) { s.tidChanged x.ctx with
        tids := s.tids.filter (fun e => !(e.ctx == x.ctx && e.tid == v.toNat)),
        keyRanges := s.keyRanges.filter (fun r => !(r.ctx == x.ctx && r.tid == v.toNat)) }) ∧
    (Ready (.tidinv a) q s → v.toNat < 4096 → s.tidInWindow q v.toNat = false →
      exec (.tidinv a) s = .next ((s.openWord.1.modSlot q fun x =>
        x.passEntry ((encode (.tidinv a)).getD 0) (x.sreg a)).trapAt q (.tidinv a) 0x05 0x05 s.openWord.2)) ∧
    (Ready (.tidld a) q s → v.toNat < 4096 → s.tidInWindow q v.toNat = true → s.dirty = [] → s.outWrites = [] →
      s.farReqs = [] → ∀ s1 l, resolve s (s.who q) (s.reg (ttbaseOff x.ctx) + BitVec.ofNat 64 (32 * v.toNat)) 32 .read =
        (s1, .ok l) → s1.homeFenced (s1.slot q).ctx l.key = false → s1.anyBad l.key 32 = false → l.key < 2 ^ 46 →
        (s1.slot q).ctx = x.ctx →
        ∃ u, done (.tidld a) u ∧ u.mem = s1.mem ∧
          u.tidCached (clusterOf q) x.ctx v.toNat = some (s1.mem.words l.key 4)) ∧
    (Ready (.tcls a) q s → s.dirty = [] → s.outWrites = [] → ∀ f n tag, f < 128 → 0 < n → f + n ≤ 128 → tag < 12 ∨ tag = 15 →
      v = BitVec.ofNat 64 (f + (n - 1) * 2 ^ 8 + tag * 2 ^ 16) →
      ∃ u, done (.tcls a) u ∧ u.mem = s.mem ∧ ∀ g, u.tcdEntry (tileOf q) g =
        if f ≤ g ∧ g < f + n then classifyFull (s.mem.readBytes (padKey (tileOf q) (1024 * g)) 1024) tag g
        else s.tcdEntry (tileOf q) g)

/-- CB_PERMIT to ENGINE_FAULT move a command through its life, and each engine stages and writes the result that its
chapter gives (R64, R90, R139, R184, R186, R203, R206, R221, R223, R297, R304, R430). THE MODEL'S CHOICES in it: the
order in which commands of one slot, of one core and of one fetch are accepted and captured rests on entries 27 and
71, what each engine tests at acceptance on entries 21 to 23, the steps from CAPTURED to DONE on entries 27, 28 and
93, the registration of a key tensor on entry 89 (all DEDUCED); the bound of a page with a NaN term and the place of
a NaN among bounds rest on entry 25, and MROT's forwarding on entry 24 (both DESIGN CHOICE). -/
def Obligations.CommandsGoFromPermitToDone : Prop :=
  (∀ (s : State) (q n : Nat), (s.slot q).entry n = none →
    ∀ i : Instr, i = .cbPermit q n ∨ i = .engineCapture q n ∨ i = .engineResultPhase q n ∨ i = .engineDone q n ∨
      (∃ c r t, i = .engineFault q n c r t) → exec i s = .next s) ∧
  (∀ (s : State) (q n : Nat) (e : RingEntry), (s.slot q).entry n = some e → e.suspended = false →
    (e.fault = none →
      (e.phase = 0 → e.eng ≠ 6 →
        (s.engTurn q e = false → exec (.cbPermit q n) s = .next (s.push (.cbPermit q n))) ∧
        (s.engTurn q e = true → s.olderOut q e.before = true →
          exec (.cbPermit q n) s = .next ((s.drainThread q).push (.cbPermit q n))) ∧
        (s.engTurn q e = true → s.olderOut q e.before = false → ∀ s1 e1 c, engAccept q e s = (s1, .ok (e1, ⟨[], c⟩)) →
          let s2 := s1.modSlot q fun x => x.setEntry
            { e1 with parked := false, pts := max e1.pts (((x.entry n).map (·.pts)).getD 0) }
          exec (.cbPermit q n) s = .next (s2.push (if e1.eng = 2 ∧ e1.fn = 0 ∧ (e1.reg 1).getLsbD 1 = false
            then .combiningRequest (twRequest s2 q e1) else .engineCapture q n))) ∧
        (s.engTurn q e = true → s.olderOut q e.before = false → ∀ s1 e1 k b c,
          engAccept q e s = (s1, .ok (e1, ⟨[k], c⟩)) → e1.permits = [] → s1.cbAt k = some b →
          let entry (s : State) (e2 : RingEntry) : State := s.modSlot q fun x =>
            x.setEntry { e2 with pts := max e2.pts (((x.entry n).map (·.pts)).getD 0) }
          let s2 := entry (s1.cbPermitTake b).1 { e1 with permits := [(k, b.wptr)], parked := false }
          (b.free = 0 →
            exec (.cbPermit q n) s = .next ((entry s1 { e1 with parked := true }).push (.cbPermit q n))) ∧
          (b.free ≠ 0 → exec (.cbPermit q n) s = .next (s2.push
            (if e1.eng = 2 ∧ e1.fn = 0 ∧ (e1.reg 1).getLsbD 1 = false
              then .combiningRequest (twRequest s2 q { e1 with permits := [(k, b.wptr)] }) else .engineCapture q n))))) ∧
      (e.phase = 0 → (egetDest e.word).isSome = true →
        (s.egetWaits q e = true → exec (.engineDone q n) s = .next (s.push (.engineDone q n))) ∧
        (s.egetWaits q e = false → exec (.engineDone q n) s = .next (s.egetDone q e))) ∧
      (e.phase = 0 → ∀ r : CombineReq, r.thread = q → r.seq = n →
        ((s.slot q).engBarred 2 = true → exec (.combiningRequest r) s = .next (s.push (.combiningRequest r))) ∧
        ((s.slot q).engBarred 2 = false →
          (s.fetches = [] → exec (.combiningRequest r) s = .next (State.push { s with
            fetches := [{ cluster := clusterOf q, reqs := [r], issued := false }] } (.engineCapture q n))) ∧
          ∀ f g, s.fetches = [f] → f.cluster = clusterOf q → f.reqs = [g] → f.issued = false →
            exec (.combiningRequest r) s = .next (if g.ctx = r.ctx ∧ g.tid = r.tid ∧ g.coord = r.coord ∧ g.round = r.round
              then { s with fetches := [{ f with reqs := [g, r] }] }
              else State.push { s with fetches := [f, { cluster := clusterOf q, reqs := [r], issued := false }] }
                (.engineCapture q n)))) ∧
      (e.phase = 0 → s.dirty = [] → s.outWrites = [] → s.fetches = [] → (s.slot q).ring = [(n % 64, e)] →
        ((s.slot q).fatal.contains e.eng = true →
          exec (.engineCapture q n) s = .next ((s.drainThread q).push (.engineCapture q n))) ∧
        ((s.slot q).fatal = [] → ∀ s1 o, engCapture q e s = (s1, .ok o) → s1.slots = s.slots → e.fn ≠ 3 →
          exec (.engineCapture q n) s = .next ((s1.modSlot q fun x => x.setEntry { e with
            phase := 1, staged := o.writes, stagedAcc := o.acc, stagedRegs := o.regs, flags := o.flags,
            lines := [] }).push (.engineResultPhase q n)))) ∧
      (e.phase = 1 → exec (.engineResultPhase q n) s = .next ((s.modSlot q fun x =>
        (x.setEntry { e with phase := 2 }).orFlags e.flags).push (.engineDone q n))) ∧
      (e.phase = 2 → e.eng ≤ 3 → (egetDest e.word).isSome = false → (s.slot q).ring = [(n % 64, e)] →
        s.lockstep (s.slot q).ctx = false → ∀ key va bs tag tile off, e.staged = [stagedAt key va bs tag] →
        key ≠ 0 → homeOf key = .pad tile off → bs ≠ [] → key % 1024 = off % 1024 → off % 1024 + bs.length ≤ 1024 →
        s.anyBad key bs.length = false →
        (e.progress = 0 → ∃ t f, exec (.engineDone q n) s = .next t ∧
          t.mem = (s.bulkWrite key bs tag e.pts).1.mem ∧ .engineDone q n ∈ t.agenda ∧
          (t.slot q).entry n = some f ∧ f.progress = 1 ∧ f.staged = e.staged) ∧
        (e.progress = 1 → exec (.engineDone q n) s =
          .next ((s.modSlot q fun x => x.setEntry { e with staged := [] }).push (.engineDone q n)))) ∧
      (e.phase = 2 → e.eng = 0 → e.staged = [] → e.sent = [] → e.permits = [] → e.count = none →
        (s.slot q).ring = [(n % 64, e)] → wordIsCmd e.word = true →
        ∃ t, exec (.engineDone q n) s = .next t ∧ t.mem = s.mem ∧ (t.slot q).ring = [] ∧
          (t.slot q).pts = max (s.slot q).pts e.pts ∧ (t.slot q).s = (s.slot q).s ∧ (t.slot q).pc = (s.slot q).pc ∧
          (t.slot q).ereg 0 0 3 = (s.slot q).ereg 0 0 3 + 1 ∧
          (∀ a, e.stagedAcc = some a → getAt [] (t.slot q).acc (e.sel % 4) = a) ∧
          (∀ k, k ≠ e.sel % 4 → getAt [] (t.slot q).acc k = getAt [] (s.slot q).acc k)) ∧
      (e.phase = 2 → e.eng = 4 → (egetDest e.word).isSome = false → (s.slot q).ring = [(n % 64, e)] → e.staged = [] →
        ∀ r rest k ix s1 bs d, e.stagedRegs = r :: rest → e.permits = [(k, ix)] →
        engRead q e (tConstant (sgEntry e)) s (sgPage (sgEntry e) r.2.toNat) (4096 * tStr1 (sgEntry e)) = (s1, .ok bs) →
        s1.cbAt k = some d → s1.anyBad (d.slotKey ix) bs.length = false →
        let w := s1.bulkWrite (d.slotKey ix) bs (tFmt (sgEntry e)) e.pts
        exec (.engineDone q n) s = .next (((w.1.cbFill k ix w.2).modSlot q fun x => match x.entry n with
          | some f => x.setEntry { f with permits := [], stagedRegs := rest, lines := [] }
          | none => x).push (.engineDone q n))) ∧
      (e.phase = 2 → copyByLines q e = true → (egetDest e.word).isSome = false → e.progress < (e.reg 0).toNat → (s.slot q).ring = [(n % 64, e)] → e.staged = [] →
        let off := BitVec.ofNat 64 e.progress
        let u := unitAt (stagedAt 0 (e.valA + off) [] 15)
        let k := min ((e.reg 0).toNat - e.progress) (u - (e.valA + off).toNat % u)
        ∀ s1 bs s2, engRead q e false s (e.valB + off) k = (s1, .ok bs) →
          engWrite q n e s1 (stagedAt 0 (e.valA + off) bs 15) = (s2, .ok ()) →
          exec (.engineDone q n) s = .next ((s2.modSlot q fun x => match x.entry n with
            | some f => x.setEntry { f with progress := f.progress + k, lines := [] }
            | none => x).push (.engineDone q n))) ∧
      (e.eng ≠ 6 → (s.walks.find? fun w => w.2.thread == q && w.2.seq == n) = none →
        ∀ cause reason tval, ¬(cause = 0x06 ∧ reason = 0x02) →
        exec (.engineFault q n cause reason tval) s = .next ((s.modSlot q fun x =>
          x.setEntry { e with fault := some cause }).push (.trapDelivery q
            ⟨cause, reason, (s.slot q).pc, e.word, tval, some (BitVec.ofNat 12 e.seq), false⟩)))) ∧
    (e.fault ≠ none → ∀ cause reason tval, exec (.engineFault q n cause reason tval) s = .next s)) ∧
  (∀ (s : State) (q : Nat) (e : RingEntry),
    (e.eng = 0 → s.accBad q e = false →
      (e.fn = 4 → engCapture q e s = (s, .ok ⟨[], some [], [], 0⟩)) ∧
      (e.fn < 4 → mmMarkA e = false → mmMarkB e = false → ∀ s1 a b s2 ca s3 cb va fa vb fb,
        mmArgs q e s = (s1, .ok (a, b)) →
        (if e.fn = 1 then mmGathered q e a s1 else a.capture q e s1) = (s2, .ok ca) → b.capture q e s2 = (s3, .ok cb) →
        ca.indexOk = true → cb.indexOk = true → ca.values = .ok (va, fa) → cb.values = .ok (vb, fb) →
        0 < ca.form.cols → 0 < cb.form.cols → va.length = 32 * ca.form.cols → vb.length = 32 * cb.form.cols →
        let s4 := if e.fn = 3 then mmForward q e cb s3 else s3
        ∃ o acc, engCapture q e s = (s4, .ok o) ∧ o.writes = [] ∧ o.regs = [] ∧ o.acc = some acc ∧
          ∀ r n, r < 32 → n < 32 → getAt 0 acc (32 * r + n) = BitVec.ofNat 32
            (mmaElement (getAt 0 (s4.accFor q e) (32 * r + n)).toNat ((va.drop (r * ca.form.cols)).take ca.form.cols)
              ((vb.drop (n * cb.form.cols)).take cb.form.cols)).1) ∧
      (∀ w t0 t1 t2 t3 t s1 g s2 l, mmGather q e s = (s1, .ok g) → g.capture q e s1 = (s2, .ok l) → l.elems.length = 128 →
        mmGathered q e (.tensor w t0 t1 t2 t3 t) s = captureTensor q e w t t0 0 0 ((List.range 32).map fun r =>
          l.elems.getD (4 * r) 0 + 256 * (l.elems.getD (4 * r + 1) 0 + 256 * (l.elems.getD (4 * r + 2) 0 +
            256 * l.elems.getD (4 * r + 3) 0))) s2) ∧
      (e.fn = 5 → mmMarkA e = false → ∀ s1 a s2 c,
        sourceArg q e e.valA false (mmAccForm e) s = (s1, .ok a) → a.capture q e s1 = (s2, .ok c) →
        ∃ o acc, engCapture q e s = (s2, .ok o) ∧ o.writes = [] ∧ o.acc = some acc ∧ ∀ i n, c.elems[i]? = some n →
          getAt 0 acc i = BitVec.ofNat 32 (if c.form.fmt = 0 then n
            else (FpFmt.f32.round rne (plainVal c.form.fmt n)).1)) ∧
      (e.fn = 6 → ∀ s1 a, destArg q e e.valA (mmAccForm e) s = (s1, .ok a) →
        ∃ o ns, engCapture q e s = (s1, .ok o) ∧ o.writes = a.writes e ns ∧ o.acc = none ∧ ns.length = 1024 ∧
          ∀ i md, (engRoundings e e.rm 1024)[i]? = some md →
            let w := (getAt 0 (s1.accFor q e) i).toNat
            let g := fmtOfTy (BitVec.ofNat 4 a.form.fmt)
            ns[i]? = some (if a.form.fmt = 0 then w else (g.flush e.flush (g.round md (FpFmt.f32.decode w))).1))) ∧
    (e.eng = 1 → cvMark e = false → ∀ s1 a b s2 c, cvArgs q e s = (s1, .ok (a, b)) → a.capture q e s1 = (s2, .ok c) →
      let rs := engRoundings e (cvMode e) (a.form.rows * a.form.cols)
      let vs := c.elems.map (plainVal c.form.fmt)
      let turn (ns : List Nat) : List Nat := if e.fn = 5 then turned c.form.rows c.form.cols ns else ns
      (e.fn = 0 ∨ e.fn = 5 → cvMul e = false ∨ scaleOperandOk (e.reg 3).toNat = true →
        let es := List.zipWith (fun md n => cvtElement e a.form.fmt b.form.fmt md n) rs c.elems
        engCapture q e s = (s2, .ok ⟨b.writes e (turn (es.map (·.1))), none, [], es.foldl (fun f x => f ||| x.2) 0⟩)) ∧
      (e.fn = 1 ∨ e.fn = 3 → ∀ ws f, c.values = .ok (ws, f) → ∃ o, engCapture q e s = (s2, .ok o) ∧ o.acc = none ∧
        o.writes = b.writes e (List.zipWith (fun md v =>
          (cvRound b.form.fmt md e.flush false (v.getD (.fin false 0))).1) rs ws)) ∧
      (e.fn = 2 → cvAuto e = true →
        let scales := (chunks 32 512 vs).map (autoScale b.form.fmt)
        ∃ o, engCapture q e s = (s2, .ok o) ∧
          o.writes = b.writes e ((cvqElements e b vs scales).map (·.1)) ++ b.scaleWrites e scales none) ∧
      (e.fn = 2 → cvAuto e = false → ∀ s3 held, heldScales q e b s2 = (s3, .ok held) → (∀ n ∈ held, n ≠ 0 ∧ n ≠ 0xFF) →
        ∃ o, engCapture q e s = (s3, .ok o) ∧ o.writes = b.writes e ((cvqElements e b vs held).map (·.1))) ∧
      (e.fn = 4 →
        let sig := (e.reg 3).toNat % 2 ^ 32
        let betas := (chunks 64 256 vs).map (betaOf sig)
        (∀ n ∈ betas, (qn4Scale sig n).isSome = true) → ∃ o, engCapture q e s = (s2, .ok o) ∧
          o.writes = b.writes e ((((chunks 64 256 vs).zip betas).flatMap fun x =>
            x.1.map (cvqnqElement x.2 ((qn4Scale sig x.2).getD (.fin false 0)))).map (·.1)) ++
              b.scaleWrites e betas (some sig))) ∧
    (e.eng = 3 →
      (e.fn = 0 → ∀ s1 a s2 c s3 ws, kQuery q e s = (s1, .ok a) → a.capture q e s1 = (s2, .ok c) →
        engEach (kbndOne q e (c.elems.map (plainVal c.form.fmt))) (kPages e) s2 = (s3, .ok ws) →
        engCapture q e s = (s3, .ok ⟨permitWrite s3 e (ws.flatMap fun w => natBytes w 4), none, [], 0⟩)) ∧
      (e.fn = 1 → kCount e ≤ 4096 → ∀ s1 a s2 d k t s3 c, slotRefSource q e.valA (bytesForm (4 * kCount e)) s = (s1, .ok a) →
        slotRefDest q e.valB 4 s1 = (s2, .ok (.slot d k t)) → a.capture q e s2 = (s3, .ok c) → c.elems.length = 4 * kCount e →
        let word (i : Nat) : Nat := c.elems.getD (4 * i) 0 + 256 * (c.elems.getD (4 * i + 1) 0 +
          256 * (c.elems.getD (4 * i + 2) 0 + 256 * c.elems.getD (4 * i + 3) 0))
        let thr := FpFmt.f32.decode (e.reg 4).toNat
        let ahead (i j : Nat) : Bool :=
          decide (kselKey (word i) < kselKey (word j)) || (kselKey (word j) == kselKey (word i) && decide (j < i))
        let chosen := (List.range (kCount e)).filter fun i =>
          if kThreshold e then thr.lt (FpFmt.f32.decode (word i)) || thr.eq (FpFmt.f32.decode (word i))
          else decide (((List.range (kCount e)).filter (ahead i)).length < kN e)
        let l := chosen.take (d.slotBytes / 4 - 1)
        let count := l.length + (if d.slotBytes / 4 - 1 < chosen.length then 2 ^ 31 else 0)
        engCapture q e s = (s3, .ok ⟨permitWrite s3 e (natBytes count 4 ++ l.flatMap fun i => natBytes (kFirst e + i) 4),
          none, [(6, BitVec.ofNat 64 count)], 0⟩)) ∧
      (e.fn = 2 → ∀ s1 rss s2, engEach (fun s pg => pageRows q e pg s) (kPages e) s = (s1, .ok rss) →
        keyRegister (s1.slot q).ctx (fieldOf (e.reg 0) 11 0) (kEntry e) s1 = (s2, .ok ()) →
        engCapture q e s = (s2, .ok ⟨joinWrites (((kPages e).zip rss).map fun p =>
          stagedAt 0 (summaryVa (kEntry e) p.1) (summaryOf (tFmt (kEntry e)) p.2) 15), none, [], 0⟩))) ∧
    (e.eng = 2 → ∀ s1 a, twTile e s = (s1, .ok a) →
      (e.fn ≠ 2 → ∀ s2 c, a.capture q e s1 = (s2, .ok c) → engCapture q e s = (s2, .ok ⟨slotWrites s2 e c, none, [], 0⟩) ∧
        (c.form.sparse = false → c.form.hasScales = false → (∀ p ∈ e.permits, (s2.cbAt p.1).isSome = true) →
          slotWrites s2 e c = e.permits.filterMap fun p => (s2.cbAt p.1).map fun d =>
            stagedAt (d.slotKey p.2) 0 (packElems c.form.fmt c.elems) c.form.fmt)) ∧
      (e.fn = 2 → (e.reg 1).getLsbD 0 = false → ∀ s2 b s3 c,
        slotSource q (fieldOf e.valB 3 0) (fieldOf e.valB 11 4) false a.form s1 = (s2, .ok b) → b.capture q e s2 = (s3, .ok c) →
        engCapture q e s = (s3, .ok ⟨tensorWrites e a c, none, [], 0⟩))) ∧
    (e.eng = 4 → ∀ s1 c k t b d ix s2 bs s3 us, sgArgs q e s = (s1, .ok (.slot c k t, b)) → s1.cbAt c.key = some d →
      k < d.filled → ix = (d.rptr + k) % d.nslots → slotRead q e s1 d ix 0 d.slotBytes = (s2, .ok bs) →
      let n := leNat (bs.take 4) % 2 ^ 31
      let pages := (List.range n).map fun i => leNat ((bs.drop (4 + 4 * i)).take 4)
      n ≤ d.slotBytes / 4 - 1 →
      engEach (sgCheck q e) (pages.takeWhile fun pg => decide (pg < keyPages (sgEntry e))) s2 = (s3, .ok us) →
      engCapture q e s = (s3, .ok ⟨[], none, pages.map fun pg => (16, BitVec.ofNat 64 pg), 0⟩)) ∧
    (e.eng = 7 → (e.reg 0).toNat ≠ 0 →
      (e.fn = 0 → copyByLines q e = true → engCapture q e s = (s, .ok ⟨[], none, [], 0⟩)) ∧
      (e.fn = 0 → copyByLines q e = false → ∀ s1 bs, engRead q e false s e.valB (e.reg 0).toNat = (s1, .ok bs) →
        engCapture q e s = (s1, .ok ⟨[stagedAt 0 e.valA bs 15], none, [], 0⟩)) ∧
      (e.fn = 1 → engCapture q e s = (s, .ok ⟨[stagedAt 0 e.valA ((List.range (e.reg 0).toNat).map fun i =>
        (wordBytes e.valB).getD ((e.valA.toNat + i) % 8) 0) 15], none, [], 0⟩)))) ∧
  (∀ (c : Nat) (as bs : List (Bool × Nat)), as.length = 8 → bs.length = 8 →
    let v (p : Bool × Nat) : Option Val := some (.fin p.1 p.2)
    let neg (p : (Bool × Nat) × (Bool × Nat)) : Bool := p.1.1 != p.2.1
    let mag (p : (Bool × Nat) × (Bool × Nat)) : Nat := p.1.2 * p.2.2 / unitOne
    let sum := (as.zip bs).foldl (fun (z : Int) p => z + signedMag (neg p) (mag p)) 0
    let exact : Val := if sum = 0 then .fin ((as.zip bs).all fun p => neg p && mag p == 0) 0
      else .fin (decide (sum < 0)) sum.natAbs
    (mmaElement c (as.map v) (bs.map v)).1 = (FpFmt.f32.round rne (Val.add rne (FpFmt.f32.decode c) exact).1).1) ∧
  (∀ (cs : List ((Bool × Nat) × (Bool × Nat) × (Bool × Nat))),
    let v (p : Bool × Nat) : Val := .fin p.1 p.2
    let prod (a b : Bool × Nat) : Int := signedMag (a.1 != b.1) (a.2 * b.2 / unitOne)
    let sum := cs.foldl (fun (z : Int) c => z + max (prod c.1 c.2.1) (prod c.1 c.2.2)) 0
    kbndPage (cs.map (v ·.1)) (cs.map (v ·.2.1)) (cs.map (v ·.2.2)) =
      (FpFmt.f32.round ⟨3, 0⟩ (.fin (decide (sum < 0)) sum.natAbs)).1) ∧
  (∀ (r c : Nat) (es : List Nat) (i j : Nat), i < r → j < c → (turned r c es).getD (j * r + i) 0 = es.getD (i * c + j) 0) ∧
  ∀ (f : Nat) (vs : List Val), 3 ≤ f → f ≤ 6 → blockMax vs ≠ 0 →
    let fits (sc : Nat) : Prop := ∃ n x m y, FpFmt.xs8.decode sc = .fin n x ∧
      (fmtOfTy (BitVec.ofNat 4 f)).decode (fmtOfTy (BitVec.ofNat 4 f)).maxFin = .fin m y ∧ blockMax vs * unitOne ≤ y * x
    1 ≤ autoScale f vs ∧ autoScale f vs ≤ 0xFE ∧ (fits (autoScale f vs) ∨ autoScale f vs = 0xFE) ∧
      ∀ sc, 1 ≤ sc → sc < autoScale f vs → ¬fits sc

/-- The register, branch, WTILE, WLD, WSIG, WEND and illegal words of a walk act as R237 to R245 say (R234, R235,
R236, R237, R238, R242, R245, spec/09_format_walker.md). THE MODEL'S CHOICES in it: that one walker word is one step
rests on entry 29, the REASON of a walk's fault on entry 30, what WLD may read on entry 31 (all DEDUCED), and the
words that no turn is given to on entry 85 (DESIGN CHOICE). -/
def Obligations.WalkerRegisterWordsComplete : Prop :=
  ∀ (s : State) (k : Nat) (w : Walk) (e : RingEntry), s.curWalk = some k → findAt s.walks k = some w →
    (s.slot w.thread).entry w.seq = some e →
    let keep (s : State) (w1 : Walk) : State := { s with walks := putAt s.walks k w1 }.modSlot w.thread fun x =>
      match x.entry w.seq with
      | some e => x.setEntry { e with lines := [] }
      | none => x
    let runs (i : Instr) (w1 : Walk) : Prop := exec i s = .next (keep s { w1 with pc := w.pc + 4 })
    let u (r : BitVec 4) : Word := if r = 0 then 0 else getAt 0 w.w r.toNat
    let sets (i : Instr) (d : BitVec 4) (v : Word) : Prop :=
      runs i (if d = 0 then w else { w with w := putAt w.w d.toNat v })
    let gone : State := { s with walks := delAt s.walks k }.push (.walkContextGrant (k / 8))
    (∀ (d a b : BitVec 4) (i24 : BitVec 24) (i20 : BitVec 20),
      sets (.wli d i24) d (BitVec.ofInt 64 i24.toInt) ∧
      sets (.waddi d a i20) d (BitVec.ofInt 64 ((u a).toInt + i20.toInt)) ∧
      sets (.wadd d a b) d (BitVec.ofNat 64 ((u a).toNat + (u b).toNat)) ∧
      sets (.wsub d a b) d (BitVec.ofInt 64 ((u a).toInt - (u b).toInt)) ∧
      sets (.wmul d a b) d (BitVec.ofNat 64 ((u a).toNat * (u b).toNat)) ∧
      sets (.wand d a b) d (u a &&& u b) ∧ sets (.wor d a b) d (u a ||| u b) ∧
      sets (.wshl d a b) d (BitVec.ofNat 64 ((u a).toNat * 2 ^ ((u b).toNat % 64))) ∧
      sets (.wshr d a b) d (BitVec.ofNat 64 ((u a).toNat / 2 ^ ((u b).toNat % 64))) ∧
      sets (.wminu d a b) d (BitVec.ofNat 64 (min (u a).toNat (u b).toNat)) ∧
      sets (.wsltu d a b) d (if (u a).toNat < (u b).toNat then 1 else 0) ∧
      runs (.wtile a b) { w with row0 := (u a).toNat % 2 ^ 32, col0 := (u b).toNat % 2 ^ 32 }) ∧
    (∀ (a b : BitVec 4) (o : BitVec 17) (i : Instr) (c : Bool),
      (i = .wbeq a b o ∧ c = decide (u a = u b)) ∨ (i = .wbne a b o ∧ c = decide (u a ≠ u b)) ∨
        (i = .wbltu a b o ∧ c = decide ((u a).toNat < (u b).toNat)) ∨
        (i = .wbgeu a b o ∧ c = decide ((u b).toNat ≤ (u a).toNat)) ∨
        (i = .wblts a b o ∧ c = decide ((u a).toInt < (u b).toInt)) ∨
        (i = .wbges a b o ∧ c = decide ((u b).toInt ≤ (u a).toInt)) →
      exec i s = .next (keep s { w with pc := if c then w.pc + BitVec.ofInt 57 (4 * o.toInt) else w.pc + 4 })) ∧
    (∀ (d a : BitVec 4) (y : BitVec 3) (o : BitVec 16),
      let va := va57 (low57 (u a) + o.signExtend 57)
      let n := 2 ^ (y.toNat % 4)
      (va.toNat % n ≠ 0 → exec (.wld d a y o) s = .next (s.walkFails k w 5 none 0x03 0x05 va)) ∧
      (∀ s1 l, va.toNat % n = 0 → resolve s (s.engWho w.thread e) va n .read = (s1, .ok l) →
        (∃ t o, homeOf l.key = .pad t o) ∨ (∃ c b o, homeOf l.key = .bank c b o) → l.const = false →
        s1.homeFenced (s1.slot w.thread).ctx l.key = false → s1.anyBad l.key n = false →
        let v := leNat (s1.mem.readBytes l.key n)
        let x : Word := if y.toNat < 4 ∧ 2 ^ (8 * n - 1) ≤ v then BitVec.ofInt 64 (v - 2 ^ (8 * n)) else BitVec.ofNat 64 v
        exec (.wld d a y o) s =
          .next (keep (s1.engSaw w.thread w.seq (s1.ts l.key).1) { (if d = 0 then w else { w with w := putAt w.w d.toNat x }) with pc := w.pc + 4 }))) ∧
    (∀ (a b : BitVec 4) (s1 : State) (l : Loc), counterLoc s (s.engWho w.thread e) (u a) .write = (s1, .ok l) →
      s1.homeFenced (s1.slot w.thread).ctx l.key = false → s1.anyBad l.key 16 = false →
      let wide := s1.widenFor (s1.engWho w.thread e) (u a)
      let s2 := wide.1
      (e.sent ≠ [] → exec (.wsig a b) s = .next s) ∧
      (e.sent = [] → exec (.wsig a b) s = .next (keep (((s2.engSent w.thread w.seq l.key).modSlot w.thread fun x =>
        match x.entry w.seq with
        | some e => x.setEntry { e with progress := w.pc.toNat }
        | none => x).push (.counterAddAtHome
        ⟨s2.nextId, some w.thread, none, l.key, u a, u b, [], e.pts, (s2.slot w.thread).ctx, wide.2, .plain⟩))
        { w with pc := w.pc + 4 }))) ∧
    exec .wend s = .next (((gone.modSlot w.thread fun x =>
      match x.entry w.seq with
      | some e => x.setEntry { e with
          phase := 2, lines := [], suspended := false, stagedRegs := [(3, 0), (4, va57 w.pc), (5, BitVec.ofNat 64 w.emits)] }
      | none => x).modSlot w.thread fun x => x.orFlags w.flags).push (.engineDone w.thread w.seq)) ∧
    ∀ v, ∃ t tval, exec (.walkerIllegalWord v) s = .next t ∧ findAt t.walks k = none ∧ t.mem = s.mem ∧
      .engineFault w.thread w.seq 0x09 0x01 tval ∈ t.agenda ∧
      t.slot w.thread = (s.slot w.thread).setEntry { e with
        phase := 2, lines := [], suspended := false, stagedRegs := [(3, 1), (4, va57 w.pc), (5, BitVec.ofNat 64 w.emits)] }

/-- WSTRM, WSKIP, WPEEK, WSCAT, WMRG and WEMIT act on streams and buffers; a waiting WSTART is granted a free
context (R230, R233, R234, R239, R240, R241, R242, R243, R244, spec/09_format_walker.md). THE MODEL'S CHOICES in it:
that one walker word is one step rests on entry 29, the REASON of a walk's fault on entry 30, how START, END and
alignment are ordered on entry 31, what a WSTOP does to walks and starts on entry 32 (all DEDUCED). -/
def Obligations.WalkerStreamWordsPlaceAndEmit : Prop :=
  (∀ (s : State) (k : Nat) (w : Walk) (e : RingEntry), s.curWalk = some k → findAt s.walks k = some w →
    (s.slot w.thread).entry w.seq = some e →
    let keep (s : State) (w1 : Walk) : State := { s with walks := putAt s.walks k w1 }.modSlot w.thread fun x =>
      match x.entry w.seq with
      | some e => x.setEntry { e with lines := [] }
      | none => x
    let u (r : BitVec 4) : Word := if r = 0 then 0 else getAt 0 w.w r.toNat
    let goesOn (i : Instr) (s1 : State) (w1 : Walk) : Prop := exec i s = .next (keep s1 { w1 with pc := w.pc + 4 })
    let put (w1 : Walk) (d : BitVec 4) (v : Nat) : Walk :=
      if d = 0 then w1 else { w1 with w := putAt w1.w d.toNat (BitVec.ofNat 64 v) }
    (∀ (c v n : BitVec 4) (t d : BitVec 1),
      let x : Stream := ⟨u c, u v, decide (v = 0), (u n).toNat % 2 ^ 32, (u n).toNat % 2 ^ 32, (u n).toNat / 2 ^ 32, d == 1⟩
      (x.fin < x.start → ∃ y tval, exec (.wstrm c v n t d) s = .next y ∧ findAt y.walks k = none ∧
        .engineFault w.thread w.seq 0x09 0x03 tval ∈ y.agenda) ∧
      (x.start ≤ x.fin → (u c).toNat % 4 = 0 → v = 0 ∨ (u v).toNat % shapeElem w.shape = 0 →
        goesOn (.wstrm c v n t d) s (if t = 0 then { w with str0 := x } else { w with str1 := x }))) ∧
    (∀ (d : BitVec 4) (t : BitVec 1),
      let x := if t = 0 then w.str0 else w.str1
      goesOn (.wpeek d t 1) s (put w d x.pos) ∧ goesOn (.wpeek d t 2) s (put w d (x.fin - x.pos)) ∧
      (x.fin ≤ x.pos → goesOn (.wpeek d t 0) s (put w d 0xFFFFFFFF)) ∧
      (x.fin ≤ x.pos → ∀ a, goesOn (.wskip a t) s w)) ∧
    (∀ (t buf : BitVec 1) (a : BitVec 4) (s1 : State) (c : Nat),
      let x := if t = 0 then w.str0 else w.str1
      x.start = x.pos → x.fin = x.pos + 1 → x.dup = false → x.ones = true → c < 0xFFFFFFFF →
      walkRead w.thread e s (x.cbase + BitVec.ofNat 64 (4 * x.pos)) 4 (some (t.toNat, x.pos)) = (s1, .ok c) →
      let past (w1 : Walk) : Walk := if t = 0 then { w1 with str0 := { x with pos := x.pos + 1 } }
        else { w1 with str1 := { x with pos := x.pos + 1 } }
      let lim := w.col0 + shapeCols w.shape
      let one := identOne (shapeFmt w.shape)
      (∀ d, goesOn (.wpeek d t 0) s1 (put w d c)) ∧
      goesOn (.wskip a t) s1 (if c < (u a).toNat % 2 ^ 32 then past w else w) ∧
      (w.row0 ≤ (u a).toNat → (u a).toNat - w.row0 < shapeRows w.shape →
        let row := (u a).toNat - w.row0
        goesOn (.wscat a t buf) s1 (if lim ≤ c then w else if w.col0 ≤ c then past (w.place buf.toNat row (c - w.col0) one)
          else past w) ∧
        (t = 0 → w.str1.fin ≤ w.str1.pos → ∀ d,
          goesOn (.wmrgUn d a) s1 (put (if lim ≤ c then w else if w.col0 ≤ c then past (w.place 0 row (c - w.col0) one)
            else past w) d (if c < lim ∧ w.col0 ≤ c then 1 else 0)) ∧
          goesOn (.wmrgIs d a) s1 (put w d 0)))) ∧
    (∀ (t buf : BitVec 1) (d a : BitVec 4) (l : List (Nat × Nat)), StreamReads s w e t.toNat l →
      let lim := w.col0 + shapeCols w.shape
      let past (w1 : Walk) (t n : Nat) : Walk := w1.setStream t { w1.stream t with pos := (w1.stream t).pos + n }
      goesOn (.wskip a t) s (past w t.toNat (l.takeWhile fun x => decide (x.1 < (u a).toNat % 2 ^ 32)).length) ∧
      (w.row0 ≤ (u a).toNat → (u a).toNat - w.row0 < shapeRows w.shape →
        let row := (u a).toNat - w.row0
        let below (l : List (Nat × Nat)) : List (Nat × Nat) := l.takeWhile fun x => decide (x.1 < lim)
        goesOn (.wscat a t buf) s (past (laidAll w buf.toNat row (runsOf (below l))) t.toNat (below l).length) ∧
        (t = 0 → ∀ m, StreamReads s w e 1 m →
          let both := laidAll (laidAll w 0 row (runsOf (below l))) 1 row (runsOf (below m))
          goesOn (.wmrgUn d a) s (put (past (past both 0 (below l).length) 1 (below m).length) d
            ((((below l ++ below m).map (·.1)).eraseDups.filter fun c => decide (w.col0 ≤ c)).length)) ∧
          let p := matched lim w.col0 (shapeCols w.shape) (l.length + m.length + 1) 0 (runsOf l) (runsOf m)
          let packed := p.1.zipIdx.foldl (fun w (p : (List (Nat × Nat) × List (Nat × Nat)) × Nat) =>
            laid (laid w 0 row p.2 p.1.1) 1 row p.2 p.1.2) w
          goesOn (.wmrgIs d a) s (put (past (past packed 0 (l.length - p.2.1.flatten.length)) 1
            (m.length - p.2.2.flatten.length)) d p.1.length)))) ∧
    (∀ (t buf : BitVec 1) (d a : BitVec 4) (i : Instr), i = .wscat a t buf ∨ i = .wmrgUn d a ∨ i = .wmrgIs d a →
      (u a).toNat < w.row0 ∨ shapeRows w.shape ≤ (u a).toNat - w.row0 → ∃ y tval, exec i s = .next y ∧
        findAt y.walks k = none ∧ .engineFault w.thread w.seq 0x09 0x03 tval ∈ y.agenda) ∧
    (∀ (t : BitVec 1) (a : BitVec 4) (c p : Nat),
      let x := w.stream t.toNat
      x.start < x.pos → x.pos < x.fin → rawCoord w.thread e t.toNat x.pos x s = (s, .ok c) →
      rawCoord w.thread e t.toNat (x.pos - 1) x s = (s, .ok p) → c < p ∨ (c = p ∧ x.dup = false) →
      ∃ y tval, exec (.wskip a t) s = .next y ∧ findAt y.walks k = none ∧
        .engineFault w.thread w.seq 0x09 0x02 tval ∈ y.agenda) ∧
    (∀ (h : BitVec 4) (buf : BitVec 1) (c : CbInst), s.cbFor w.thread h.toNat = some c → c.hasProducer = true →
      c.pstage = 1 → shapeBytes w.shape ≤ c.slotBytes → s.peerFenced c = false →
      (c.free = 0 → exec (.wemit h buf) s = .next s) ∧
      (0 < c.free →
        let (s1, ix) := s.cbPermitTake c
        let bs := w.bytes buf.toNat
        s.anyBad (c.slotKey ix) bs.length = false →
        let (s2, t) := s1.bulkWrite (c.slotKey ix) bs (shapeFmt w.shape) e.pts
        let s3 := s2.modSlot w.thread fun x =>
          match x.entry w.seq with
          | some e => x.setEntry { e with pts := max e.pts t, permits := e.permits ++ [(c.key, ix)] }
          | none => x
        goesOn (.wemit h buf) (s3.cbFill c.key ix (max e.pts t))
        { (if buf = 0 then { w with t0 := [] } else { w with t1 := [] }) with emits := w.emits + 1 }))) ∧
  ∀ (s : State) (c q n : Nat) (e : RingEntry), (s.slot q).entry n = some e → e.eng = 6 → e.phase = 0 → e.fault = none →
    e.suspended = false → s.walkQueue = [(c, q, n)] →
    (e.fn = 0 → ∀ k, s.freeWalk c = some k → tileOf q / 16 = c → s.tileWalks (tileOf q) < 2 →
      walkOk (e.reg 0) (e.reg 1) = true → ∃ t, exec (.walkContextGrant c) s = .next t ∧
        t.walks = putAt s.walks k (Walk.start q e) ∧ t.walkQueue = [] ∧ t.mem = s.mem ∧
        t.slot q = (s.slot q).setEntry { e with phase := 1 }) ∧
    (e.fn = 1 → exec (.walkContextGrant c) s =
      .next (({ s with walkQueue := [] }.push (.walkContextGrant c)).stopWalks q e))

/-- A write to register space sets exactly the writable bits of its register, or the step that the register starts
is the next one (R5, R353, R378, R414, R437, R438, R442, R468, spec/17_boundary.md, spec/15_isolation.md). THE
MODEL'S CHOICES in it: that the write started is the very next step, with the half not written of a write-only
register as zero, the fences of one FCMD in any order and a SIZE out of range kept, rests on entry 64, and what a
register access outside the rules does on entry 65 (both DEDUCED). -/
def Obligations.RegisterWritesSetTheirFieldsOrStartTheirStep : Prop :=
  ∀ (s : State) (r : RegWrite),
    let p := max r.pts (s.ts (regKey r.offset)).1
    let v := r.value
    let s1 := s.stampLocs (regKey r.offset) 8 r.pts
    let t : State := match r.agent with
      | .slot q => s1.push (.writeAck q r.id r.pts)
      | _ => s1
    let starts (e : Event) : Prop := exec (.registerWrite r) s = .next (t.pushNext e)
    (r.offset % 8 = 0 → s1 = { s with lineTs := putAt s.lineTs (tsKey (regKey r.offset)) (p, p) }) ∧
    (r.offset < 0x1000 → exec (.registerWrite r) s = .next t) ∧
    (∀ e w, e < 256 → w < 4 → r.offset = ttentOff e w →
      (∀ n, s.slotBegun = some n →
        exec (.registerWrite r) s = .next { s.push (.registerWrite r) with focus := some (.event n) }) ∧
      (s.slotBegun = none → r.half = .both →
        (w = 0 → r.level = 2 → exec (.registerWrite r) s = .next (t.setReg (ttentOff e 0)
          ((s.reg (ttentOff e 0) &&& ~~~0xBF00FFFF0000FFFF) ||| (v &&& 0xBF00FFFF0000FFFF)))) ∧
        (w = 0 → r.level ≠ 2 → exec (.registerWrite r) s = .next (t.setReg (ttentOff e 0)
          ((s.reg (ttentOff e 0) &&& ~~~0x8000FFFF0000FFFF) ||| (v &&& 0x8000FFFF0000FFFF)))) ∧
        (w = 1 → exec (.registerWrite r) s = .next (t.setReg (ttentOff e 1)
          ((s.reg (ttentOff e 1) &&& ~~~0x01FFFFFFFFFFFFC0) ||| (v &&& 0x01FFFFFFFFFFFFC0)))) ∧
        (2 ≤ w → exec (.registerWrite r) s = .next (t.setReg (ttentOff e w) (s.reg (ttentOff e w)))))) ∧
    (r.offset = errhealOff → r.level = 2 →
      let full := mergeHalf (s.reg errhealOff) v r.half
      exec (.registerWrite r) s = .next ((t.setReg errhealOff (full &&& 0x00FFFFFFFFFFFF80)).pushNext (.errheal full))) ∧
    (r.half = .both →
      (∀ x, x < 64 → r.offset = svecOff x → exec (.registerWrite r) s = .next (t.setReg (svecOff x)
        ((s.reg (svecOff x) &&& ~~~0x01FFFFFFFFFFFFFC) ||| (v &&& 0x01FFFFFFFFFFFFFC)))) ∧
      (r.offset = hostevOff → exec (.registerWrite r) s =
        .next (t.setReg hostevOff (s.reg hostevOff &&& ~~~(v &&& 0x1F)))) ∧
      (∀ x, x < 64 → (r.offset = cctlOff x → starts (.cctlWrite x v .both r.level)) ∧
        (∀ i, i < 8 → r.offset = caldOff x i → starts (.caldWrite x i v .both)) ∧
        (r.offset = grctlOff x → starts (.grctlWrite x v)) ∧
        (r.offset = attgoOff x → v.getLsbD 0 = true → starts (.attestGo x)) ∧
        (r.offset = fcmdOff x → exec (.registerWrite r) s = .next (t.pushAll
          (((List.range 8).filter fun i => v.getLsbD i).map (Event.fcmdFence x) ++
            ((List.range 8).filter fun i => v.getLsbD (8 + i)).map (Event.fcmdRestart x))))) ∧
      (∀ w i, w < 16 → i < 4 → r.offset = rwinOff w i → starts (.rwinWrite w i v .both r.level r.ctx)) ∧
      (∀ n, n < 256 → (r.offset = qctlOff n → starts (.queueControlWrite n v .both r.level)) ∧
        (r.offset = qtailOff n ∨ r.offset = geyserBase + 0x10000 * n →
          starts (.doorbell n (BitVec.ofNat 32 v.toNat) r.pts))) ∧
      (∀ d j, d < 8 → j < 8 → r.offset = isoBase + 0x10000 + 8 * (8 * d + j) →
        let x := if r.level = 2 then v.toNat / 2 ^ 24 % 64 else r.ctx
        (v.getLsbD 16 = false → starts (.fresRetry d j x (v.toNat % 65536))) ∧
          (v.getLsbD 16 = true → starts (.fresFail d j x (v.toNat % 65536)))) ∧
      (r.offset = mgmtBase + 0x08 → v.getLsbD 0 = true → starts .packageReset) ∧
      (∀ k, k < 49 → r.offset = rtctlOff k → v.getLsbD 1 = true → v.getLsbD 2 = false → starts (.routingSwap k)) ∧
      (r.offset = fnackOff → starts (.fnackWrite (BitVec.ofNat 16 v.toNat)))) ∧
    ∀ k b n, k < 49 → b < 2 → n < 16384 → n % 2 = 0 → r.offset = rteOff k b n → r.half = .lo →
      starts (.routingEntryWrite k b n (BitVec.ofNat 32 v.toNat))

/-- A BANKCTL write is refused with its RESULT or starts the switch; a switch zero-fills the bank; CCDRAIN ends when
all is drained (R254, R255, R256, R257, R263, spec/10_ordering_model.md). THE MODEL'S CHOICES in it: the order of
the refusals, a change of OWNER alone and which dirty bytes a switch waits for rest on entry 49 (DEDUCED), and which
line a full set gives up on entry 9 (DESIGN CHOICE). -/
def Obligations.BanksSwitchAndCachesDrain : Prop :=
  (∀ (s : State) (c b level x : Nat) (v : Word),
    let k := s.bank c b
    let owner := BitVec.ofNat 6 (v.toNat / 2 ^ 18)
    let answers (z : BitVec 2) : Prop :=
      exec (.bankctlWrite c b v level x) s = .next (s.setBank c b { k with result := z })
    (level ≠ 2 → (k.mode ≠ .cache ∧ k.owner.toNat ≠ x) ∨ v.toNat / 2 ^ 18 % 64 ≠ x →
      exec (.bankctlWrite c b v level x) s = .next s) ∧
    (level = 2 ∨ ((k.mode = .cache ∨ k.owner.toNat = x) ∧ v.toNat / 2 ^ 18 % 64 = x) →
      (k.busy = true → answers 3) ∧
      (k.busy = false → v.toNat % 4 = 3 → answers 2) ∧
      ∀ m, k.busy = false → (v.toNat % 4 = 0 ∧ m = BankMode.cache) ∨ (v.toNat % 4 = 1 ∧ m = .scratch) ∨
          (v.toNat % 4 = 2 ∧ m = .fifo) →
        (m = k.mode → owner = k.owner → answers 0) ∧
        (m ≠ k.mode ∨ owner ≠ k.owner → s.bankNamed c b = true → answers 1) ∧
        (m ≠ k.mode ∨ owner ≠ k.owner → s.bankNamed c b = false → exec (.bankctlWrite c b v level x) s =
          .next ((s.setBank c b { k with busy := true, result := 0, nextMode := m, nextOwner := owner, mark := s.nextId }).push
            (.bankSwitchComplete c b))))) ∧
  (∀ (s : State) (c b : Nat),
    ((s.bank c b).busy = false → exec (.bankSwitchComplete c b) s = .next s) ∧
    ((s.bank c b).busy = true →
      let cache := (s.bank c b).mode = .cache
      let s1 := if cache then (s.trimCache c).leave c (fun _ => false) else s
      let out := if cache then s1.leavingOut c (s.bank c b).mark else s1.bankInUse c b
      (out = true → exec (.bankSwitchComplete c b) s = .next (s1.push (.bankSwitchComplete c b))) ∧
      (out = false → ∃ t, exec (.bankSwitchComplete c b) s = .next t ∧ (t.bank c b).mode = (s.bank c b).nextMode ∧
        (t.bank c b).owner = (s.bank c b).nextOwner ∧ (t.bank c b).busy = false ∧
        (∀ o, o < 2 ^ 17 → t.mem.read (bankKey c b 0 + o) = 0) ∧
        (¬cache ∨ (∀ w ∈ s.dirty, w.cluster ≠ c) →
          ∀ a, a < bankKey c b 0 ∨ bankKey c b 0 + 2 ^ 17 ≤ a → t.mem.read a = s.mem.read a)))) ∧
  (∀ (s : State) (c : Nat), let s1 := s.leave c fun _ => true
    s1.leavingOut c s1.nextId = true →
      exec (.ccdrain c) s = .next (State.push { s1 with ccdrain := putAt s1.ccdrain c true } (.ccdrain c))) ∧
  ∀ (s : State) (c : Nat), (∀ w ∈ s.dirty, w.cluster ≠ c) → (∀ w ∈ s.outWrites, clusterOf w.thread ≠ c) →
    exec (.ccdrain c) s = .next { s with ccdrain := delAt s.ccdrain c }

/-- CCTL, CALD and RWIN change only where R379 to R381 and R328 let them (R328, R335, R379, R380, R381, R421, R443,
spec/12_fabric_order.md, spec/15_isolation.md). THE MODEL'S CHOICES in it: what a write to CCTL does beside R379 to
R381 rests on entry 51, a CALD write that breaks a pair in lockstep on entry 52, the key that a write to RWIN is
tested by on entry 48 (all DEDUCED). -/
def Obligations.IsolationRegistersChangeAsTheirRulesAllow : Prop :=
  (∀ (s : State) (x : Nat) (v : Word),
    let o := cctlOff x
    (∀ level, level ≠ 2 → exec (.cctlWrite x v .both level) s =
      .next (s.setReg o (withField (s.reg o) 1 1 (v.toNat / 2 % 2)))) ∧
    ((s.reg o).getLsbD 0 = true → v.getLsbD 0 = false → s.ctxBusy x = true → exec (.cctlWrite x v .both 2) s = .next s) ∧
    ((s.reg o).getLsbD 0 = false → v.getLsbD 0 = true → (s.reg bootstatOff).getLsbD 0 = false →
      ∃ t, exec (.cctlWrite x v .both 2) s = .next t ∧ (t.reg o).getLsbD 0 = false) ∧
    ((s.reg o).getLsbD 0 = false → v.getLsbD 0 = true → (s.reg bootstatOff).getLsbD 0 = true →
      ∃ t, exec (.cctlWrite x v .both 2) s = .next t ∧ (t.reg o).getLsbD 0 = true ∧
        fieldOf (t.reg o) 31 22 = (fieldOf (s.reg o) 31 22 + 1) % 1024 ∧ fieldOf (t.reg o) 47 32 = fieldOf v 47 32 ∧
        (∀ e ∈ t.tlb, e.asid % 64 ≠ x) ∧ (∀ e ∈ t.walkCache, e.asid % 64 ≠ x) ∧
        (∀ a, t.mem.read a = s.mem.read a) ∧ ∀ n, n / 8 ≠ o / 8 → t.reg n = s.reg n)) ∧
  (∀ (s : State) (x i : Nat) (v : Word), i < 8 →
    let new := v &&& 0x800000000007FF77
    let same : Prop := exec (.caldWrite x i v .both) s = .next s
    (v.getLsbD 63 = true → fieldOf v 6 4 < fieldOf v 2 0 ∨ fieldOf v 15 12 < fieldOf v 11 8 → same) ∧
    (∀ j c, j < 8 → j ≠ i → caldCovers new c = true → caldCovers (s.reg (caldOff x j)) c = true → same) ∧
    ((s.reg (cctlOff x)).getLsbD 0 = true → v.getLsbD 63 = false ∨ (s.reg (caldOff x i)).getLsbD 63 = true → same) ∧
    ((s.reg (cctlOff x)).getLsbD 0 = false → (s.reg (cctlOff x)).getLsbD 2 = false →
      v.getLsbD 63 = false ∨ (fieldOf v 2 0 ≤ fieldOf v 6 4 ∧ fieldOf v 11 8 ≤ fieldOf v 15 12 ∧
        ∀ j, j < 8 → j ≠ i → (s.reg (caldOff x j)).getLsbD 63 = true → caldOverlap new (s.reg (caldOff x j)) = false) →
      exec (.caldWrite x i v .both) s = .next (s.setReg (caldOff x i) new))) ∧
  ∀ (s : State) (w i : Nat) (v : Word) (x : Nat),
    let m : Word := if i = 0 then 0xFFF000000000FFFF else if i = 1 then 0x000FFFFFFFFFFFFF else 0x000003FFFFFFFFFF
    let valid := (s.reg (rwinOff w 0)).getLsbD 63
    (∀ level, valid = true → i ≠ 0 ∨ v.getLsbD 63 = true → exec (.rwinWrite w i v .both level x) s = .next s) ∧
    (fieldOf (if i = 0 then v else s.reg (rwinOff w 0)) 15 0 ≠ s.pkey x → exec (.rwinWrite w i v .both 1 x) s = .next s) ∧
    (∀ level, i < 3 → valid = false →
      level = 2 ∨ fieldOf (if i = 0 then v else s.reg (rwinOff w 0)) 15 0 = s.pkey x →
      exec (.rwinWrite w i v .both level x) s = .next (s.setReg (rwinOff w i) (v &&& m))) ∧
    (valid = true → v.getLsbD 63 = false → ∃ t, exec (.rwinWrite w 0 v .both 2 x) s = .next t ∧
      t.reg (rwinOff w 0) = v &&& 0xFFF000000000FFFF ∧ (∀ g ∈ t.held, g.window = w → g.tag ≠ none) ∧ t.mem = s.mem)

/-- Flits are checked, served, forwarded or refused; links, routes, reductions, proxies, packets of the manager and
notices take their steps (R309, R314, R315, R318, R319, R320, R326, R329, R332, R335, R433,
spec/12_fabric_order.md). THE MODEL'S CHOICES in it: the layout of payloads rests on entry 44, what a failed port's
peer has taken on entry 46 and the program of a proxy on entry 58 (all DESIGN CHOICE); what a flit's key is tested
for on entry 47, merged packets on entry 45, the escape ring on entry 78, the resending of notices and what the
manager writes on entry 80, a routing entry refused on entry 83 (all DEDUCED). -/
def Obligations.FabricStepsCarryRouteMergeAndManage : Prop :=
  ∀ s : State,
    (∀ n, findAt s.net n = none → exec (.escapeTimeout n) s = .next s) ∧
    (∀ n p, findAt s.net n = some p →
      let goes (p : NetPacket) : Prop := exec (.escapeTimeout n) s =
        .next (State.push { s with net := putAt s.net n p } (.escapeTimeout n))
      (p.escape = none → p.vclass < 2 → 2048 ≤ s.cycle - p.since →
        goes { p with escape := some false, since := s.cycle }) ∧
      (p.escape = none → ¬(p.vclass < 2 ∧ 2048 ≤ s.cycle - p.since) →
        exec (.escapeTimeout n) s = .next (s.push (.escapeTimeout n))) ∧
      ∀ b, p.escape = some b →
        (p.site = p.goal → exec (.escapeTimeout n) s = .next { s with net := delAt s.net n }) ∧
        (p.site ≠ p.goal → let r := (p.site + 1) % 512
          goes { p with site := r, escape := some (b || r == 0), since := s.cycle })) ∧
    (∀ (p seq : Nat) (f : Flit), p < 48 →
      let t : State := { s with rxSeq := putAt s.rxSeq p (seq + 1), rxAsk := delAt s.rxAsk p }
      let due := getAt 0 s.rxSeq p
      let is (u : State) : Prop := exec (.flitReceive p seq f) s = .next u
      (f.crc ≠ Config.crc32 (flitCovered f) ∨ seq ≠ due →
        (seq < due → is s) ∧ (due ≤ seq → findAt s.rxAsk p = none → is { s with rxAsk := putAt s.rxAsk p 0 }) ∧
        ∀ n, findAt s.rxAsk p = some n → (due < seq → is s) ∧
          (seq = due → n < 3 → is { s with rxAsk := putAt s.rxAsk p (n + 1) }) ∧
          (seq = due → 3 ≤ n → is (s.pushNext (.portFailure p 3)))) ∧
      (f.crc = Config.crc32 (flitCovered f) → seq = getAt 0 s.rxSeq p →
        (f.type = 0xF → exec (.flitReceive p seq f) s = .next t) ∧
        (f.type.toNat < 8 → s.keyAccepted f.pkey = false →
          exec (.flitReceive p seq f) s = .next ((t.keyViolation p).nakFlit f 3)) ∧
        (f.type.toNat < 8 → s.keyAccepted f.pkey = true → f.dst.toNat ≠ s.nodeId →
          (f.hops = 7 → exec (.flitReceive p seq f) s = .next (t.nakFlit f 2)) ∧
          (f.hops ≠ 7 → s.routeOn p f.dst.toNat f.path.toNat = none →
            exec (.flitReceive p seq f) s = .next (t.nakFlit { f with hops := f.hops + 1 } 1)) ∧
          ∀ x port, f.hops ≠ 7 → f.type ≠ tyReduce → s.routeOn p f.dst.toNat f.path.toNat = some (x, port) →
            exec (.flitReceive p seq f) s =
              .next (t.emit p port { f with hops := f.hops + 1, path := BitVec.ofNat 2 x })) ∧
        (f.type = tyWrite → s.keyAccepted f.pkey = true → f.dst.toNat = s.nodeId →
          let n := (f.payload.getD 0 0).toNat
          let d := t.homeApply (flitKey f) (f.payload.getD 1 0).toNat (flitBytes f 2 n)
          s.anyBad (flitKey f) n = false →
            exec (.flitReceive p seq f) s = .next (d.1.answer f tyAck [BitVec.ofNat 64 d.2])))) ∧
    (∀ p n, ∃ t, exec (.linkReplay p n) s = .next t ∧
      t.flitsOut = s.flitsOut ++ ((getAt [] s.replay p).drop (n - (getAt 0 s.txSeq p - (getAt [] s.replay p).length))).map
        (fun e => (p, e.2)) ∧
      fieldOf (t.reg (portstatOff p)) 63 40 = min (fieldOf (s.reg (portstatOff p)) 63 40 + 1) 0xFFFFFF ∧
      (∀ k, findAt s.txAsk p = some (n, k) → 4 ≤ k → .portFailure p 3 ∈ t.agenda)) ∧
    (∀ p cause, p < 48 → let v := s.reg (portstatOff p)
      (v.getLsbD 0 = false → exec (.portFailure p cause) s = .next s) ∧
      (v.getLsbD 0 = true → ∃ t, exec (.portFailure p cause) s = .next t ∧ fieldOf (t.reg (portstatOff p)) 1 0 = 2 ∧
        fieldOf (t.reg (portstatOff p)) 3 2 = cause % 4 ∧ findAt t.replay p = none ∧
        (∀ g ∈ t.held, g.port = p → g.tag ≠ none) ∧ (∀ g ∈ s.held, g.port ≠ p ∨ g.tag ≠ none → g ∈ t.held) ∧
        ∀ g f x r, getAt [] s.replay p = [] → s.held = [g] → g.port = p → g.tag = none → g.flits = [f] →
          let s1 := State.setReg { s with choices := s.choices + 1 } (portstatOff p) (withField (withField v 1 0 2) 3 2 cause)
          s1.routeOn g.table f.dst.toNat f.path.toNat = some (x, r) → s1.portOpen r = true →
          r ≠ 0x3F → (r, flitSealed { f with path := BitVec.ofNat 2 x }) ∈ t.flitsOut)) ∧
    (∀ node id path dests, ((node, 4 * id + path) ∈ s.floods → exec (.exclusionPacket node id path dests) s = .next s) ∧
      ((node, 4 * id + path) ∉ s.floods → ∃ t, exec (.exclusionPacket node id path dests) s = .next t ∧
        (node, 4 * id + path) ∈ t.floods ∧ (∀ d ∈ dests, t.isExcluded d path = true) ∧
        (∀ d x, 16384 * x + d ∉ dests.map (16384 * path + ·) → t.isExcluded d x = s.isExcluded d x) ∧ t.mem = s.mem)) ∧
    (∀ p node port, ((s.reg (portstatOff p)).getLsbD 0 = true → exec (.portUp p node port) s = .next s) ∧
      ((s.reg (portstatOff p)).getLsbD 0 = false → fieldOf (s.reg (portstatOff p)) 3 2 = 0 →
        ∃ t, exec (.portUp p node port) s = .next t ∧ (t.reg (portstatOff p)).getLsbD 0 = true ∧
          fieldOf (t.reg (portstatOff p)) 29 16 = node.toNat ∧ fieldOf (t.reg (portstatOff p)) 35 30 = port.toNat ∧
          findAt t.replay p = none ∧ t.mem = s.mem)) ∧
    (∀ (k b n : Nat) (v : BitVec 32), let o := rtctlOff k
      (((∃ p, p < 4 ∧ v.getLsbD (28 + p) = true ∧ 0x30 ≤ v.toNat / 2 ^ (6 * p) % 64 ∧ v.toNat / 2 ^ (6 * p) % 64 ≠ 0x3F) ∨
          (s.reg o).toNat % 2 = b) → exec (.routingEntryWrite k b n v) s = .next (s.setReg o (s.reg o ||| 4))) ∧
      ((∀ p, p < 4 → v.getLsbD (28 + p) = true → v.toNat / 2 ^ (6 * p) % 64 < 0x30 ∨ v.toNat / 2 ^ (6 * p) % 64 = 0x3F) →
        (s.reg o).toNat % 2 ≠ b → exec (.routingEntryWrite k b n v) s = .next (s.setRte k b n (v &&& 0xF0FFFFFF)) ∧
          (s.setRte k b n (v &&& 0xF0FFFFFF)).rte k b n = v &&& 0xF0FFFFFF) ∧
      ((s.reg o).getLsbD 1 = true → exec (.routingSwap k) s = .next s) ∧
      ((s.reg o).getLsbD 1 = false → ∃ t, exec (.routingSwap k) s = .next t ∧ t.reg o = (s.reg o ^^^ 1) ||| 2 ∧
        .routingSwapComplete k ∈ t.agenda ∧ t.excluded = if k = 48 then [] else s.excluded) ∧
      exec (.routingSwapComplete k) s = .next (s.setReg o (s.reg o &&& ~~~2))) ∧
    (∀ (p : Nat × Nat) (f : Flit),
      (f.ord = true ∨ s.windowFor f = none → exec (.reducePacketAtPort p f) s = .next (s.emit p.1 p.2 f)) ∧
      ∀ w op, f.ord = false → s.windowFor f = some w → reduceOp f = some op →
        let mine := s.held.filter fun g => g.port == p.2 && g.tag.isNone
        let granule := f.addr.toNat / 8 * 8
        let same := mine.find? fun g => g.number == groupNumber granule op f
        (same = none → 256 ≤ mine.length → exec (.reducePacketAtPort p f) s = .next (s.emit p.1 p.2 f)) ∧
        (same = none → mine.length < 256 → exec (.reducePacketAtPort p f) s = .next (State.push
          { s with held := s.held ++ [⟨p.2, p.1, w, granule, op, [f], s.cycle, none⟩] }
          (.reductionHoldExpiry p.2 (groupNumber granule op f)))) ∧
        ∀ g, same = some g → g.flits.length + 1 < 64 → ∃ t, exec (.reducePacketAtPort p f) s = .next t ∧
          t.reg (rwinOff w 3) = s.reg (rwinOff w 3) + 1 ∧ { g with flits := g.flits ++ [f] } ∈ t.held ∧ t.mem = s.mem) ∧
    (∀ (p n : Nat) (g : HeldGroup),
      (s.held.find? fun g => g.port == p && g.tag.isNone && g.number == n) = some g →
      let hold := 16 * fieldOf (s.reg (rwinOff g.window 0)) 60 52
      (s.cycle - g.since < hold → exec (.reductionHoldExpiry p n) s = .next (s.push (.reductionHoldExpiry p n))) ∧
      (∀ f, hold ≤ s.cycle - g.since → g.flits = [f] →
        exec (.reductionHoldExpiry p n) s = .next (State.emit { s with held := s.held.erase g } g.table p f)) ∧
      (∀ f h, hold ≤ s.cycle - g.since → g.flits = [f, h] → isGroup f = false → isGroup h = false → g.op < 2 → p ≠ 0x3F →
        ∃ t m, exec (.reductionHoldExpiry p n) s = .next t ∧ t.flitsOut = s.flitsOut ++ [(p, m)] ∧
          m.addr = BitVec.ofNat 52 g.addr ∧ m.dst = f.dst ∧ ∀ i, i < 2 →
            let part (f : Flit) : Nat := if f.addr.toNat / 4 % 2 = i then (f.payload.getD 1 0).toNat else 0
            (m.payload.getD (5 + 9 * i) 0).toNat = (part f + part h) % 2 ^ (if g.op = 1 then 64 else 32))) ∧
    (∀ d k r rest, getAt [] s.proxies (16 * d + k) = r :: rest →
      let t : State := { s with proxies := (
        if rest = [] then delAt s.proxies (16 * d + k) else putAt s.proxies (16 * d + k) rest) }
      t.isOut r.thread r.id = true →
        (s.proxyAt d = none → exec (.proxyAtomic d k) s = .next (t.proxyRefused r)) ∧
        ∀ v, s.proxyAt d = some v →
          let m := t.rmwAt r.key r.pts r.fn r.wide r.signed r.b.toNat r.t.toNat
          exec (.proxyAtomic d k) s =
            .next (m.1.rmwDone r.thread r.serial r.id r.key (if r.wide then 8 else 4) r.widen m.2.1 m.2.2.1 (if r.fn = 8 then m.2.2.2 else 0))) ∧
    (∀ (p : Nat) (f : Flit),
      let fm := s.reg fmnodeOff
      let mine := fm.getLsbD 31 = true ∧ fm.toNat % 2 ^ 14 = f.src.toNat ∧ (s.reg fmkeyOff).toNat % 65536 = f.pkey.toNat
      let o := (f.payload.getD 1 0).toNat / 8 * 8
      (¬ mine → exec (.managementPacket p f) s = .next (if p < 48 then s.keyViolation p else s)) ∧
      (mine → f.payload.getD 0 0 = 0 → ∃ t, exec (.managementPacket p f) s = .next t ∧ t.dev = (s.regRead o .both).1.dev) ∧
      (mine → f.payload.getD 0 0 = 1 → regExists o = true → (∀ k, regBlock o = some (.recov, k) → k = 0x30) →
        ∃ t, exec (.managementPacket p f) s = .next t ∧
          t.dev = s.dev ∧ .registerWrite ⟨0, .manager, 2, 0, o, .both, f.payload.getD 2 0, 0⟩ ∈ t.agenda) ∧
      (mine → f.payload.getD 0 0 ≠ 0 → ∀ k, regBlock o = some (.recov, k) → k ≠ 0x30 →
        ∃ t, exec (.managementPacket p f) s = .next t ∧ t.dev = s.dev ∧
          ∀ r, .registerWrite r ∈ t.agenda → .registerWrite r ∈ s.agenda)) ∧
    (∀ n, (∀ m ∈ s.notices, m.seq.toNat ≠ n) → exec (.noticeResend n) s = .next s) ∧
    (∀ n m, (s.notices.find? fun m => m.seq.toNat == n) = some m →
      (16 ≤ m.sends → exec (.noticeResend n) s = .next { s with notices := s.notices.filter (· ≠ m) }) ∧
      (m.sends < 16 → s.hubNs < (m.words.getD 2 0).toNat + 64000 * m.sends →
        exec (.noticeResend n) s = .next (s.push (.noticeResend n))) ∧
      (m.sends < 16 → (m.words.getD 2 0).toNat + 64000 * m.sends ≤ s.hubNs → ∃ t, exec (.noticeResend n) s = .next t ∧
        { m with sends := m.sends + 1 } ∈ t.notices ∧ .noticeResend n ∈ t.agenda)) ∧
    ∀ n, exec (.fnackWrite n) s = .next { s with notices := s.notices.filter fun m => m.seq ≠ n }

/-- Walks fill the caches, faults join and leave their records, reports end; errors, fences, pairs and shadow copies
take their steps (R393, R395, R396, R402, R409, R410, R412, R417, R419, R420, R422, R424). THE MODEL'S CHOICES in
it: the eviction of translations rests on entry 9 (DESIGN CHOICE) and what a walk keeps on entry 84; the joining of
faults, a full ring and a SIZE of 0 on entry 53 and the REASON of a LAUNCH that ends on entry 34; reports on entry
54; the site and consumer of an error on entries 55 (DESIGN CHOICE) and 56; the two steps of a fence and what is
performed before it on entry 57; lockstep items on entry 59, shadow commits on entry 60, ERRHEAL on entry 64,
retention on entry 62 and scrubs on entry 95 (DESIGN CHOICE); each one not marked otherwise is DEDUCED. -/
def Obligations.IsolationAndRecoveryStepsTakeEffect : Prop :=
  ∀ s : State,
    (∀ c x va, ∃ t, exec (.translationWalk c x va) s = .next t ∧ t.dev = s.dev ∧ t.mem = s.mem ∧
      (∀ e ∈ t.tlb, e ∉ s.tlb → e.entry.getLsbD 0 = true ∧ e.entry.getLsbD 1 = true ∧ e.cluster = c ∧
        e.asid = s.asid x ∧ ∃ a, e.entry = s.mem.word a) ∧
      ∀ e ∈ t.walkCache, e ∉ s.walkCache → e.entry.getLsbD 0 = true ∧ e.entry.getLsbD 1 = false) ∧
    (∀ c x va, (∀ e ∈ s.tlb, e.cluster = c → e.asid = s.asid x → e.index ≠ vaIndex va e.level) →
      ∃ t, exec (.translationWalk c x va) s = .next t ∧ t.tlb = s.tlb ∧ t.agenda = s.agenda ∧
        ∀ e, e ∈ t.walkCache ↔ e ∈ s.walkCache ∧ ¬(e.cluster = c ∧ e.asid = s.asid x ∧ e.index = vaIndex va e.level)) ∧
    (∀ (c x : Nat) (va : BitVec 57) (e : Nat → Word) (old : Word), ⟨c, s.asid x, 0, vaIndex va 0, old⟩ ∈ s.tlb →
      let table (l : Nat) : Nat := if l = 4 then fieldOf (s.reg (ptrootOff x)) 55 16 * 65536 else pteAddr (e (l + 1))
      (∀ l, l < 5 → let a := table l + 8 * (vaIndex va l % 2 ^ levelBits l)
        a < 2 ^ 42 ∧ getAt false s.bad (a / 8) = false ∧ s.mem.word (dramKey a) = e l ∧ (e l).getLsbD 0 = true ∧
          pteMalformed (e l) l = false ∧ (e l).getLsbD 1 = decide (l = 0)) →
      ∃ t, exec (.translationWalk c x va) s = .next t ∧ ⟨c, s.asid x, 0, vaIndex va 0, e 0⟩ ∈ t.tlb ∧
        ⟨c, s.asid x, 1, vaIndex va 1, e 1⟩ ∈ t.walkCache) ∧
    (∀ (m : FaultMsg),
      let row := rowNumber m.cluster
      let k := s.collector row
      let ctl := s.reg (fltctlOff m.ctx)
      let tail := fieldOf (s.reg (flttailOff m.ctx)) 31 0
      let mine := k.recs.find? fun r => r.ctx == m.ctx && r.page == m.page && r.kind == m.kind
      (∀ r, mine = some r → ∃ t, exec (.trapMessageAtCollector m) s = .next t ∧
        (t.collector row).recs.length = k.recs.length ∧
        { r with bitmap := r.bitmap ||| BitVec.twoPow 768 m.bit, waiters := r.waiters ++ [m] } ∈ (t.collector row).recs) ∧
      (mine = none → s.orphanOut = [] → fieldOf ctl 4 0 = 0 ∨ 64 ≤ k.recs.length ∨
          (tail + 2 ^ 32 - fieldOf ctl 63 32) % 2 ^ 32 = 2 ^ fieldOf ctl 4 0 →
        exec (.trapMessageAtCollector m) s = .next (s.faultTraps false m)) ∧
      ∀ s1, mine = none → s.orphanOut = [] → fieldOf ctl 4 0 ≠ 0 → k.recs.length < 64 →
        (tail + 2 ^ 32 - fieldOf ctl 63 32) % 2 ^ 32 ≠ 2 ^ fieldOf ctl 4 0 →
        let r : FaultRec := ⟨k.nextId, m.ctx, m.page, m.kind, m.perm, tail, BitVec.twoPow 768 m.bit, [m]⟩
        s.putFault row m.cluster r = (s1, true) → s1.nextTag = s.nextTag → ∃ t, exec (.trapMessageAtCollector m) s = .next t ∧
          (t.collector row).recs = k.recs ++ [r] ∧ (t.reg (flttailOff m.ctx)).toNat = (tail + 1) % 2 ^ 32) ∧
    (∀ d j x id (r : FaultRec) (m : FaultMsg) (launch : Option (List Word)),
      let k := s.collector (8 * d + j)
      let y := s.slot m.thread
      k.recs.find? (fun f => f.id == id && f.ctx == x) = some r → r.waiters = [m] → m.seq = none →
        y.state = .waiting → y.wait = some (.collected m.tval launch) →
        (∃ t, exec (.fresRetry d j x id) s = .next t ∧ t.slot m.thread = { y with state := .running, wait := none } ∧
          (t.collector (8 * d + j)).recs = k.recs.filter (·.id ≠ id)) ∧
        ∃ t, exec (.fresFail d j x id) s = .next t ∧ (t.collector (8 * d + j)).recs = k.recs.filter (·.id ≠ id) ∧
          let trap : Trap := ⟨if m.perm then eProt else eXlat, if m.perm then 0x01 else 0x02, y.pc, m.word, m.tval, none, true⟩
          (launch = none → t.agenda = s.agenda ++ [.trapDelivery m.thread trap]) ∧
          (launch.isSome = true → .trapDelivery m.thread { trap with reason := 0x08 } ∈ t.agenda)) ∧
    (∀ d j x id, (s.collector (8 * d + j)).recs.find? (fun f => f.id == id && f.ctx == x) = none →
      exec (.fresRetry d j x id) s = .next s ∧ exec (.fresFail d j x id) s = .next s) ∧
    (∀ x, ((s.reg (attgoOff x)).getLsbD 0 = true → exec (.attestGo x) s = .next s) ∧
      ((s.reg (attgoOff x)).getLsbD 0 = false → ∃ t, exec (.attestGo x) s = .next t ∧
        t.reg (attgoOff x) = s.reg (attgoOff x) ||| 1 ∧ t.agenda = s.agenda ++ [.attestReportDone x] ∧ t.mem = s.mem) ∧
      ∃ t, exec (.attestReportDone x) s = .next t ∧ (t.reg (attgoOff x) = 0 ∨ t.reg (attgoOff x) = 2) ∧
        getAt [] t.attest x = []) ∧
    (∀ e : ErrorSite, e.die < 8 → ∃ t, exec (.correctableError e) s = .next t ∧ t.mem = s.mem ∧ t.dev = s.dev ∧
      (∀ q, t.slot q = s.slot q) ∧ let k := (0x0500 + 0x80 * e.die + 8 * (e.unit % 16)) / 8
      getAt 0 t.mram.life k = satInc (getAt 0 s.mram.life k)) ∧
    (∀ (e : ErrorSite) (k : Nat), e.unit = 0x01 → e.key = some k → e.consumer = none → e.scrub = false →
      ∃ t, exec (.uncorrectableError e) s = .next t ∧ getAt false t.bad (k / 8) = true) ∧
    (∀ (e : ErrorSite) (q c : Nat),
      (0x07 ≤ e.unit → e.unit ≤ 0x0A → e.consumer = some q →
        ∃ t, exec (.uncorrectableError e) s = .next t ∧ .clusterFence (clusterOf q) ∈ t.agenda) ∧
      (e.unit = 0x0B → e.cluster = some c → exec (.uncorrectableError e) s =
        .next (s.pushAll [.clusterFence c, .clusterFence (if c % 128 / 16 % 2 = 0 then c + 16 else c - 16)])) ∧
      (e.unit = 0x0C → exec (.uncorrectableError e) s = .next (s.push (.portFailure e.index 2)))) ∧
    (∀ key, let l := key / 128 * 128
      let next : Event := .scrubPass ((l + 128) % 2 ^ 42)
      (s.anyBad l 128 = false → exec (.scrubPass key) s = .next (s.push next)) ∧
      (l < 2 ^ 42 → s.anyBad l 128 = true → ∃ e : ErrorSite, exec (.scrubPass key) s =
        .next ((s.push (.uncorrectableError e)).push next) ∧ e.scrub = true ∧ e.unit = 0x01)) ∧
    (∀ v : Word, let o := v.toNat / 128 % 2 ^ 49 * 128
      (2 ^ 42 ≤ o → exec (.errheal v) s = .next s) ∧
      (o < 2 ^ 42 → ∃ t, exec (.errheal v) s = .next t ∧
        (∀ a, o ≤ a → a < o + 128 → t.mem.read a = 0 ∧ getAt false t.bad (a / 8) = false) ∧
        ∀ a, a < o ∨ o + 128 ≤ a → t.mem.read a = s.mem.read a)) ∧
    (∀ x i, x < 64 → i < 8 →
      (∀ kind, kind < 256 → (s.fstat x i ≠ 0 ∨ (s.reg (caldOff x i)).getLsbD 63 = false →
          exec (.calderaFence x i kind) s = .next s) ∧
        (s.fstat x i = 0 → (s.reg (caldOff x i)).getLsbD 63 = true → exec (.calderaFence x i kind) s = .next (State.push
          ((s.finishInside x (caldCovers (s.reg (caldOff x i)))).setFstat x i 1) (.calderaFence x i (256 + kind)))) ∧
        (s.fstat x i = 0 → (s.reg (caldOff x i)).getLsbD 63 = true →
          (∀ e ∈ s.agenda, s.entersRect x (caldCovers (s.reg (caldOff x i))) e = false) →
          ∃ t, exec (.calderaFence x i kind) s = .next t ∧
            t.fstat x i = 1 ∧ t.agenda = s.agenda ++ [.calderaFence x i (256 + kind)] ∧ t.mem = s.mem) ∧
        (s.fstat x i = 1 → ∃ t, exec (.calderaFence x i (256 + kind)) s = .next t ∧ t.fstat x i = 2)) ∧
      exec (.fcmdFence x i) s = exec (.calderaFence x i 0) s ∧
      (s.fstat x i = 0 → (s.reg (caldOff x i)).getLsbD 63 = true → exec (.fcmdFence x i) s = .next (State.push
        ((s.finishInside x (caldCovers (s.reg (caldOff x i)))).setFstat x i 1) (.calderaFence x i 256))) ∧
      (s.fstat x i ≠ 2 → exec (.fcmdRestart x i) s = .next s) ∧
      (s.fstat x i = 2 → ∃ t, exec (.fcmdRestart x i) s = .next t ∧ t.fstat x i = 0)) ∧
    (∀ c, c < clusterCount → (s.recFenced c = true → exec (.clusterFence c) s = .next s) ∧
      (s.recFenced c = false → (∀ k, k < 16 → getAt [] s.proxies (16 * dieOf c + k) = []) → ∃ t, exec (.clusterFence c) s = .next t ∧ t.recFenced c = true ∧
        ∀ x i, x < 64 → s.holdsIn x c = true → s.calderaOf x c = some i → .calderaFence x i 0x03 ∈ t.agenda)) ∧
    (∀ q, let p := getAt ⟨[], []⟩ s.lock q
      (p.leader = [] ∨ p.follower = [] → exec (.lockstepCompare q) s = .next s) ∧
      ∀ a b l f, p.leader = a :: l → p.follower = b :: f →
        (a = b → ∃ t, exec (.lockstepCompare q) s = .next t ∧ getAt ⟨[], []⟩ t.lock q = ⟨l, f⟩ ∧ t.agenda = s.agenda) ∧
        (a ≠ b → ∃ t, exec (.lockstepCompare q) s = .next t ∧ getAt ⟨[], []⟩ t.lock q = ⟨a :: l, []⟩ ∧
          (t.slot q).halted = true ∧
          ∀ i, s.calderaOf (s.slot q).ctx (clusterOf q) = some i → .calderaFence (s.slot q).ctx i 0x06 ∈ t.agenda)) ∧
    (∀ x, x < 64 → ((∃ e ∈ s.launches, e.2.ctx = x ∧ e.2.pair.isSome = true ∧ e.2.complete = false) →
      (∀ e ∈ s.launches, e.2.ctx = x → e.2.pair.isSome = true → e.2.remaining = 0 ∧ e.2.running = 0 ∧ e.2.tasks = 0) →
      ∃ t, exec (.shadowCommit x) s = .next t ∧ t.reg (shsigOff x 0) = s.signature x 0 ∧
        t.reg (shsigOff x 1) = s.signature x 1 ∧ findAt t.shadow (2 * x) = none ∧ findAt t.shadow (2 * x + 1) = none)) ∧
    ∀ k, (∀ i, i < 4 → (s.slot (4 * k + i)).state = .free ∨ (s.slot (4 * k + i)).state = .waiting) →
      exec (.retentionEntry k) s = .next (if s.cycle < getAt 0 s.timers (restAt k) then s.push (.retentionEntry k)
        else s.setCore k { s.core k with retained := true })

/-- Power-on and reset leave the stated state, the boot goes stage by stage, the host's requests are performed, and
the monitors take their steps (R31, R353, R402, R435, R436, R439, R440, R442, R443, R444, R445,
spec/17_boundary.md). THE MODEL'S CHOICES in it: what a reset leaves where the manual gives no value rests on
entries 1, 2 and 6, the inputs of the boot stages on entry 19, the steps of the thermal limit and the sensor values
on entry 61 (all DESIGN CHOICE); what a package reset keeps on entry 63 and the order of the host's requests on
entry 66 (both DEDUCED). -/
def Obligations.BootHostAndHealthStepsTakeEffect : Prop :=
  ∀ s : State,
    let fresh (t : State) : Prop := (∀ q, t.slot q = Slot.empty) ∧ (∀ o, t.reg o = devReset o) ∧
      (∀ a, t.mem.read a = 0) ∧ t.agenda = [.bootStage 1]
    let stage (t : State) : Nat := fieldOf (t.reg bootstatOff) 63 56
    let fail (t : State) : Nat := fieldOf (t.reg bootstatOff) 55 48
    (∃ t, exec .powerOn s = .next t ∧ fresh t ∧ getAt 0 t.mram.life 0 = satInc (getAt 0 s.mram.life 0)) ∧
    (∃ t, exec .packageReset s = .next t ∧ fresh t ∧ t.mram = s.mram) ∧
    (∀ n, stage s + 1 ≠ n ∨ fail s ≠ 0 → exec (.bootStage n) s = .next s) ∧
    (fail s = 0 →
      (∀ n, (n = 1 ∧ s.boot.calibrationOk = true) ∨ n = 2 ∨ n = 5 ∨ n = 6 → stage s + 1 = n →
        ∃ t, exec (.bootStage n) s = .next t ∧ stage t = n ∧ fail t = 0 ∧ .bootStage (n + 1) ∈ t.agenda) ∧
      (stage s = 0 → s.boot.calibrationOk = false →
        ∃ t, exec (.bootStage 1) s = .next t ∧ stage t = 1 ∧ fail t = 0x05) ∧
      (stage s = 2 → s.boot.firmware = none → ∃ t, exec (.bootStage 3) s = .next t ∧ stage t = 3 ∧ fail t = 0x06) ∧
      (∀ im, stage s = 2 → s.boot.firmware = some im →
        imageRefused im 0x57464847 Config.firmwareKey s.mram.minFirmware = 0 →
        let v := imageField (imageBody im) 0 8
        v ≠ 0 → v % 4 = 0 → ∃ t, exec (.bootStage 3) s = .next t ∧ stage t = 3 ∧ fail t = 0 ∧
          t.fwVector = BitVec.ofNat 57 v ∧ t.agenda = s.agenda ++ [.bootStage 4]) ∧
      (stage s = 3 → s.boot.config = none → ∃ t, exec (.bootStage 4) s = .next t ∧ stage t = 4 ∧ fail t = 0x06) ∧
      (stage s = 5 → ∃ t, exec (.bootStage 6) s = .next t ∧ ∀ a, t.mem.read a = if a < 2 ^ 42 then 0 else s.mem.read a) ∧
      (stage s = 6 → ∃ t, exec (.bootStage 7) s = .next t ∧ stage t = 7 ∧ .bootStage 8 ∈ t.agenda ∧
        ∀ e ∈ s.boot.trainedPorts, e.1 < 48 → (t.reg (portstatOff e.1)).getLsbD 0 = true) ∧
      (stage s = 7 → ∃ t, exec (.bootStage 8) s = .next t ∧ stage t = 8 ∧ (t.reg bootstatOff).getLsbD 0 = true)) ∧
    (∀ r : HostReq, (s.reg (ucstatOff r.module)).getLsbD 0 = false → exec (.hostRequest r) s = .next s) ∧
    (∀ (r : HostReq) (pa n : Nat), (s.reg (ucstatOff r.module)).getLsbD 0 = true → s.hostBehind r = false →
      (pa / 2 ^ 54 = 1 ∨ pa / 2 ^ 54 = 2 → r.op = .read pa n → exec (.hostRequest r) s = .next (s.reply (.unsupported r.module))) ∧
      (pa + n ≤ 2 ^ 42 → fail s = 0 → s.anyBad pa n = false → s.dirty = [] →
        (r.op = .read pa n →
          exec (.hostRequest r) s = .next (s.reply (.data r.module (s.mem.readBytes pa n)))) ∧
        (∀ bs, bs.length = n → r.op = .write pa bs → 0 < n → ∃ t, exec (.hostRequest r) s = .next t ∧
          t.mem = s.mem.writeBytes pa bs ∧ t.hostOut = s.hostOut ++ [.done r.module]) ∧
        ∀ v w : Word, n = 8 → pa % 8 = 0 →
          (r.op = .swap pa v → ∃ t, exec (.hostRequest r) s = .next t ∧ t.mem.word pa = v ∧
            t.hostOut = s.hostOut ++ [.data r.module (s.mem.readBytes pa 8)]) ∧
          (r.op = .cas pa w v → ∃ t, exec (.hostRequest r) s = .next t ∧
            t.mem.word pa = (if s.mem.word pa = w then v else s.mem.word pa) ∧
            t.hostOut = s.hostOut ++ [.data r.module (s.mem.readBytes pa 8)]) ∧
          (r.op = .add pa v → ∃ t, exec (.hostRequest r) s = .next t ∧ t.mem.word pa = s.mem.word pa + v ∧
            t.hostOut = s.hostOut ++ [.data r.module (s.mem.readBytes pa 8)])) ∧
      ∀ o bs, r.op = .write (3 * 2 ^ 54 + o) bs → o < 2 ^ 54 → regExists o = true → o % 8 = 0 → bs.length = 8 →
        exec (.hostRequest r) s = .next ((s.reply (.done r.module)).pushNext (.registerWrite
          ⟨0, .host r.module, 2, 0, o, .both, BitVec.ofNat 64 (leNat bs), getAt 0 s.hostTs r.module⟩))) ∧
    (∀ m, (∃ t, exec (.ucieLinkDown m) s = .next t ∧ (t.reg (ucstatOff m)).getLsbD 0 = false ∧
        ∀ r, .hostRequest r ∈ t.agenda → r.module ≠ m) ∧
      ∃ t, exec (.ucieLinkUp m) s = .next t ∧ (t.reg (ucstatOff m)).getLsbD 0 = true ∧ t.agenda = s.agenda) ∧
    (∀ on, ∃ t, exec (.servoLockChange on) s = .next t ∧ (t.reg ttctlOff).getLsbD 1 = on ∧
      (t.reg ttctlOff).getLsbD 0 = (s.reg ttctlOff).getLsbD 0) ∧
    (∀ d temp, d < 8 → temp < 65536 →
      (s.cycle < getAt 0 s.thermal (16 + d) →
        exec (.thermalStep d temp) s = .next (s.push (.thermalStep d temp))) ∧
      (getAt 0 s.thermal (16 + d) ≤ s.cycle → ∃ t, exec (.thermalStep d temp) s = .next t ∧
        fieldOf (t.reg (dstatOff d)) 47 32 = temp ∧
        (840 ≤ temp → (t.reg (dstatOff d)).getLsbD 1 = true ∧ t.thermalLimit d = s.thermalLimit d - 50) ∧
        (temp < 800 → (t.reg (dstatOff d)).getLsbD 1 = false ∧ t.thermalLimit d = min 500 (s.thermalLimit d + 50)) ∧
        (800 ≤ temp → temp < 840 → (t.reg (dstatOff d)).getLsbD 1 = (s.reg (dstatOff d)).getLsbD 1 ∧
          t.thermalLimit d = s.thermalLimit d) ∧
        (920 ≤ temp → .thermalResetTrip d ∈ t.agenda)) ∧
      exec (.thermalResetTrip d) s = .next (s.push .packageReset)) ∧
    (∀ pkg dies, (s.cycle < getAt 0 s.thermal 32 →
        exec (.powerLimitWindow pkg dies) s = .next (s.push (.powerLimitWindow pkg dies))) ∧
      (getAt 0 s.thermal 32 ≤ s.cycle → ∃ t, exec (.powerLimitWindow pkg dies) s = .next t ∧
        (t.reg pkgpwrOff).toNat = pkg % 8192 ∧
        (∀ d, d < 8 → fieldOf (t.reg (dstatOff d)) 25 16 = dies.getD d 0 % 1024) ∧ t.mem = s.mem)) ∧
    ∀ temps volts, (s.cycle < s.lifeDue → exec (.lifeUpdate temps volts) s = .next (s.push (.lifeUpdate temps volts))) ∧
      (s.lifeDue ≤ s.cycle → ∃ t, exec (.lifeUpdate temps volts) s = .next t ∧
        getAt 0 t.mram.secs 0 = (if getAt 0 s.mram.secs 0 + 1 < 3600 then getAt 0 s.mram.secs 0 + 1 else 0) ∧
        getAt 0 t.mram.life 1 = (if getAt 0 s.mram.secs 0 + 1 < 3600 then getAt 0 s.mram.life 1
          else satInc (getAt 0 s.mram.life 1)))

/-- The register s0 reads as zero, and a write to it is discarded with its taint while the rest of its instruction
takes effect (R78). -/
def Obligations.RegisterZeroReadsAsZeroAndDiscardsWrites : Prop :=
  (∀ x : Slot, x.sreg 0 = 0 ∧ x.smask 0 = Taint.none ∧ ∀ v m, x.setS 0 v m = x) ∧
    ∀ (s : State) (q : Nat),
      (∀ a b, Ready (.add 0 a b) q s → exec (.add 0 a b) s = .next (s.modSlot q Slot.advance)) ∧
      (∀ p, Ready (.pget 0 p) q s → exec (.pget 0 p) s = .next (s.modSlot q Slot.advance)) ∧
      (∀ c, (c = 0x002 → (s.slot q).flagsPending = false ∧ (s.slot q).addPending = false) →
        (c = 0x013 → (s.slot q).statusPending = false) → Ready (.crrd 0 c) q s → exec (.crrd 0 c) s = .next (s.modSlot q Slot.advance)) ∧
      (∀ a b, Ready (.fdiv 0 a b) q s → exec (.fdiv 0 a b) s = .next (s.modSlot q fun x =>
        ((x.orFlags (FpFmt.f32.div ((x.roundings 1).headD rne) (x.f32Val a) (x.f32Val b)).2).takeSteps 1).advance)) ∧
      ∀ a b k s1 l, Ready (.aadd 0 a b k 1) q s → ((s.slot q).sreg a).toNat % 8 = 0 →
        resolve s (s.who q) ((s.slot q).sreg a) 8 .write = (s1, .ok l) → atomicPlace s1 l = none →
        ∃ t r, exec (.aadd 0 a b k 1) s = .next t ∧ .homeAtomic r ∈ t.agenda ∧ r.key = l.key ∧ r.fn = 2 ∧
          r.b = (s.slot q).sreg b
end

