-- ==== Sys2Proof/Laws/Store.lean ====
section
/-! SUPPORT. Laws of the two maps: what is read after a write to the same place and to another, and that
every operation on memory keeps its canonical form. -/

namespace Sys2Proof.Machine

/-! ### Numbered entries -/

@[simp] theorem getAt_putAt_same {α : Type} (d : α) (m : Store α) (k : Nat) (v : α) :
    getAt d (putAt m k v) k = v := by
  induction m with
  | nil => simp [putAt, getAt]
  | cons c t ih =>
    obtain ⟨a, x⟩ := c
    simp only [putAt]
    split
    · simp [getAt]
    · split
      · simp [getAt]
      · simp [getAt, *]

theorem getAt_putAt_other {α : Type} (d : α) (m : Store α) (k j : Nat) (v : α) (h : j ≠ k) :
    getAt d (putAt m k v) j = getAt d m j := by
  induction m with
  | nil => simp [putAt, getAt, h]
  | cons c t ih =>
    obtain ⟨a, x⟩ := c
    simp only [putAt]
    split
    · simp [getAt, h]
    · split
      · next hk => subst hk; simp [getAt, h]
      · simp [getAt, ih]

@[simp] theorem findAt_putAt_same {α : Type} (m : Store α) (k : Nat) (v : α) :
    findAt (putAt m k v) k = some v := by
  induction m with
  | nil => simp [putAt, findAt]
  | cons c t ih =>
    obtain ⟨a, x⟩ := c
    simp only [putAt]
    split
    · simp [findAt]
    · split
      · simp [findAt]
      · simp [findAt, *]

theorem findAt_putAt_other {α : Type} (m : Store α) (k j : Nat) (v : α) (h : j ≠ k) :
    findAt (putAt m k v) j = findAt m j := by
  induction m with
  | nil => simp [putAt, findAt, h]
  | cons c t ih =>
    obtain ⟨a, x⟩ := c
    simp only [putAt]
    split
    · simp [findAt, h]
    · split
      · next hk => subst hk; simp [findAt, h]
      · simp [findAt, ih]

@[simp] theorem findAt_delAt_same {α : Type} (m : Store α) (k : Nat) : findAt (delAt m k) k = none := by
  induction m with
  | nil => simp [delAt, findAt]
  | cons c t ih =>
    obtain ⟨a, x⟩ := c
    rw [delAt, List.filter_cons]
    split
    · next h =>
      have h : ¬ a = k := by simpa using h
      rw [findAt, if_neg fun e => h e.symm]
      exact ih
    · exact ih

theorem findAt_delAt_other {α : Type} (m : Store α) (k j : Nat) (h : j ≠ k) :
    findAt (delAt m k) j = findAt m j := by
  induction m with
  | nil => simp [delAt]
  | cons c t ih =>
    obtain ⟨a, x⟩ := c
    rw [delAt, List.filter_cons]
    split
    · simp only [findAt]
      split
      · rfl
      · exact ih
    · next hk =>
      have hk : a = k := by simpa using hk
      rw [findAt, if_neg (by omega)]
      exact ih

/-! ### Bytes -/

@[simp] theorem Memory.read_nil (k : Nat) : Memory.read [] k = 0 := rfl

theorem Memory.read_putAt (m : Memory) (k j : Nat) (v : Byte) :
    Memory.read (putAt m k v) j = if j = k then v else Memory.read m j := by
  induction m with
  | nil => simp [putAt, Memory.read]
  | cons c t ih =>
    obtain ⟨a, x⟩ := c
    simp only [putAt]
    split
    · simp [Memory.read]
    · split
      · next hk => subst hk; simp only [Memory.read]; split <;> rfl
      · simp only [Memory.read, ih]
        split
        · next h => subst h; split
                    · next h => subst h; contradiction
                    · rfl
        · rfl

theorem Memory.read_erase (m : Memory) (k j : Nat) :
    (Memory.erase m k).read j = if j = k then 0 else m.read j := by
  induction m with
  | nil => simp [Memory.erase]
  | cons c t ih =>
    obtain ⟨a, x⟩ := c
    simp only [Memory.erase]
    split
    · next h => subst h; rw [ih]; simp only [Memory.read]; split <;> rfl
    · next h =>
      simp only [Memory.read, ih]
      split
      · next hj => subst hj; rw [if_neg fun e => h e.symm]
      · rfl

/-- A read after a write of one byte: the byte at its address, elsewhere what stood there. -/
theorem Memory.read_write (m : Memory) (k j : Nat) (v : Byte) :
    (m.write k v).read j = if j = k then v else m.read j := by
  rw [Memory.write]
  split
  · next h => rw [Memory.read_erase, h]
  · rw [Memory.read_putAt, Memory.read_erase]; split <;> simp [*]

/-- A read after a write of a run of bytes. -/
theorem Memory.read_writeBytes (bs : List Byte) (m : Memory) (k j : Nat) :
    (m.writeBytes k bs).read j = if k ≤ j ∧ j < k + bs.length then bs.getD (j - k) 0 else m.read j := by
  induction bs generalizing m k with
  | nil =>
    rw [Memory.writeBytes, if_neg]
    simp only [List.length_nil]; omega
  | cons b bs ih =>
    rw [Memory.writeBytes, ih, Memory.read_write]
    by_cases h : j = k
    · subst h
      rw [if_neg (by omega), if_pos rfl, if_pos (by simp)]
      simp
    · rw [if_neg h]
      by_cases h1 : k ≤ j ∧ j < k + (b :: bs).length
      · rw [if_pos h1, if_pos (by simp at h1 ⊢; omega)]
        obtain ⟨i, rfl⟩ : ∃ i, j = k + 1 + i := ⟨j - (k + 1), by omega⟩
        rw [show k + 1 + i - (k + 1) = i by omega, show k + 1 + i - k = i + 1 by omega]
        simp
      · rw [if_neg h1, if_neg (by simp at h1 ⊢; omega)]

theorem Memory.read_filter (m : Memory) (f : Nat → Bool) (j : Nat) :
    Memory.read (m.filter fun c => f c.1) j = if f j then m.read j else 0 := by
  induction m with
  | nil => simp
  | cons c t ih =>
    obtain ⟨a, x⟩ := c
    rw [List.filter_cons]
    split
    · next h =>
      simp only [Memory.read, ih]
      split
      · next e => subst e; simp at h; simp [h]
      · rfl
    · next h =>
      rw [ih]
      simp only [Memory.read]
      split
      · next e => simp at h; split
                  · next e2 => subst e2; simp_all
                  · rfl
      · rfl

/-- A read after a run of addresses is cleared. -/
theorem Memory.read_zeroRange (m : Memory) (lo n j : Nat) :
    (m.zeroRange lo n).read j = if lo ≤ j ∧ j < lo + n then 0 else m.read j := by
  rw [Memory.zeroRange, Memory.read_filter m (fun a => a < lo || lo + n ≤ a)]
  by_cases h : lo ≤ j ∧ j < lo + n
  · rw [if_pos h, if_neg]; simp; omega
  · rw [if_neg h, if_pos]; simp; omega

/-! ### The canonical form -/

@[simp] theorem Memory.wf_nil : Memory.wf [] = true := rfl

theorem Memory.wfFrom_mono (m : Memory) (lo hi : Nat) (h : lo ≤ hi) (w : Memory.wfFrom hi m = true) :
    Memory.wfFrom lo m = true := by
  cases m with
  | nil => rfl
  | cons c t =>
    obtain ⟨a, x⟩ := c
    simp only [Memory.wfFrom, Bool.and_eq_true, decide_eq_true_eq] at *
    exact ⟨⟨by omega, w.1.2⟩, w.2⟩

theorem Memory.wfFrom_filter (m : Memory) (f : Host.Cell → Bool) (lo : Nat) (w : Memory.wfFrom lo m = true) :
    Memory.wfFrom lo (m.filter f) = true := by
  induction m generalizing lo with
  | nil => rfl
  | cons c t ih =>
    obtain ⟨a, x⟩ := c
    simp only [Memory.wfFrom, Bool.and_eq_true, decide_eq_true_eq] at w
    rw [List.filter_cons]
    split
    · simp only [Memory.wfFrom, Bool.and_eq_true, decide_eq_true_eq]
      exact ⟨w.1, ih _ w.2⟩
    · exact Memory.wfFrom_mono _ _ _ (by omega) (ih _ w.2)

theorem Memory.wfFrom_erase (m : Memory) (k lo : Nat) (w : Memory.wfFrom lo m = true) :
    Memory.wfFrom lo (Memory.erase m k) = true := by
  induction m generalizing lo with
  | nil => rfl
  | cons c t ih =>
    obtain ⟨a, x⟩ := c
    simp only [Memory.wfFrom, Bool.and_eq_true, decide_eq_true_eq] at w
    rw [Memory.erase]
    split
    · exact Memory.wfFrom_mono _ _ _ (by omega) (ih _ w.2)
    · simp only [Memory.wfFrom, Bool.and_eq_true, decide_eq_true_eq]
      exact ⟨w.1, ih _ w.2⟩

theorem Memory.wfFrom_putAt (m : Memory) (k lo : Nat) (v : Byte) (hv : v ≠ 0) (hk : lo ≤ k)
    (w : Memory.wfFrom lo m = true) : Memory.wfFrom lo (putAt m k v) = true := by
  induction m generalizing lo with
  | nil => simp only [putAt, Memory.wfFrom, Bool.and_eq_true, decide_eq_true_eq, bne_iff_ne]; exact ⟨⟨hk, hv⟩, trivial⟩
  | cons c t ih =>
    obtain ⟨a, x⟩ := c
    simp only [Memory.wfFrom, Bool.and_eq_true, decide_eq_true_eq] at w
    simp only [putAt]
    split
    · next h =>
      simp only [Memory.wfFrom, Bool.and_eq_true, decide_eq_true_eq, bne_iff_ne, ne_eq]
      exact ⟨⟨hk, hv⟩, ⟨by omega, by simpa using w.1.2⟩, w.2⟩
    · split
      · next h => subst h; simp only [Memory.wfFrom, Bool.and_eq_true, decide_eq_true_eq]
                  exact ⟨⟨hk, by simpa using hv⟩, w.2⟩
      · simp only [Memory.wfFrom, Bool.and_eq_true, decide_eq_true_eq]
        exact ⟨w.1, ih _ (by omega) w.2⟩

/-- A write of one byte keeps the canonical form. -/
theorem Memory.wf_write (m : Memory) (k : Nat) (v : Byte) (w : m.wf = true) : (m.write k v).wf = true := by
  rw [Memory.write]
  split
  · exact Memory.wfFrom_erase m k 0 w
  · next h => exact Memory.wfFrom_putAt _ k 0 v h (Nat.zero_le k) (Memory.wfFrom_erase m k 0 w)

/-- A write of a run of bytes keeps the canonical form. -/
theorem Memory.wf_writeBytes (bs : List Byte) (m : Memory) (k : Nat) (w : m.wf = true) :
    (m.writeBytes k bs).wf = true := by
  induction bs generalizing m k with
  | nil => exact w
  | cons b bs ih => exact ih _ _ (Memory.wf_write m k b w)

/-- Removing entries keeps the canonical form. -/
theorem Memory.wf_filter (m : Memory) (f : Host.Cell → Bool) (w : m.wf = true) :
    Memory.wf (m.filter f) = true :=
  Memory.wfFrom_filter m f 0 w

/-- Clearing a run of addresses keeps the canonical form. -/
theorem Memory.wf_zeroRange (m : Memory) (lo n : Nat) (w : m.wf = true) : (m.zeroRange lo n).wf = true :=
  Memory.wf_filter m _ w

theorem Memory.read_low (m : Memory) (lo k : Nat) (w : Memory.wfFrom lo m = true) (h : k < lo) :
    m.read k = 0 := by
  induction m generalizing lo with
  | nil => rfl
  | cons c t ih =>
    obtain ⟨a, x⟩ := c
    simp only [Memory.wfFrom, Bool.and_eq_true, decide_eq_true_eq] at w
    rw [Memory.read, if_neg (by omega)]
    exact ih _ w.2 (by omega)

theorem Memory.ext_from (m n : Memory) (lo : Nat) (hm : Memory.wfFrom lo m = true)
    (hn : Memory.wfFrom lo n = true) (h : ∀ k, m.read k = n.read k) : m = n := by
  induction m generalizing n lo with
  | nil =>
    cases n with
    | nil => rfl
    | cons c t =>
      obtain ⟨a, x⟩ := c
      simp only [Memory.wfFrom, Bool.and_eq_true, decide_eq_true_eq, bne_iff_ne] at hn
      have := h a
      simp [Memory.read] at this
      exact absurd this.symm hn.1.2
  | cons c t ih =>
    obtain ⟨a, x⟩ := c
    simp only [Memory.wfFrom, Bool.and_eq_true, decide_eq_true_eq, bne_iff_ne] at hm
    cases n with
    | nil => exact absurd (by simpa [Memory.read] using h a) hm.1.2
    | cons d u =>
      obtain ⟨b, y⟩ := d
      simp only [Memory.wfFrom, Bool.and_eq_true, decide_eq_true_eq, bne_iff_ne] at hn
      have hab : a = b := by
        rcases Nat.lt_trichotomy a b with l | e | l
        · have := h a
          rw [Memory.read, if_pos rfl, Memory.read, if_neg (by omega),
            Memory.read_low u (b + 1) a hn.2 (by omega)] at this
          exact absurd this hm.1.2
        · exact e
        · have := h b
          rw [Memory.read, if_neg (by omega), Memory.read_low t (a + 1) b hm.2 (by omega),
            Memory.read, if_pos rfl] at this
          exact absurd this.symm hn.1.2
      subst hab
      have hxy : x = y := by simpa [Memory.read] using h a
      subst hxy
      congr 1
      refine ih u (a + 1) hm.2 hn.2 fun k => ?_
      by_cases hk : k = a
      · subst hk
        rw [Memory.read_low t (k + 1) k hm.2 (by omega), Memory.read_low u (k + 1) k hn.2 (by omega)]
      · simpa [Memory.read, hk] using h k

/-- Two memories in canonical form that read alike are equal. -/
theorem Memory.ext (m n : Memory) (hm : m.wf = true) (hn : n.wf = true) (h : ∀ k, m.read k = n.read k) :
    m = n :=
  Memory.ext_from m n 0 hm hn h

end Sys2Proof.Machine
end

