-- ==== Sys2Proof/Laws/State.lean ====
section
/-! SUPPORT. What each update of the state and of a thread slot leaves alone, one field at a time, and what
it sets. No later proof unfolds a record update. -/

namespace Sys2Proof.Machine

/-! ### State.setSlot -/

@[simp] theorem State.setSlot_focus (s : State) (q : Nat) (x : Slot) : (s.setSlot q x).focus = s.focus := rfl
@[simp] theorem State.setSlot_agenda (s : State) (q : Nat) (x : Slot) : (s.setSlot q x).agenda = s.agenda := rfl
@[simp] theorem State.setSlot_choices (s : State) (q : Nat) (x : Slot) : (s.setSlot q x).choices = s.choices := rfl
@[simp] theorem State.setSlot_cur (s : State) (q : Nat) (x : Slot) : (s.setSlot q x).cur = s.cur := rfl
@[simp] theorem State.setSlot_curWalk (s : State) (q : Nat) (x : Slot) : (s.setSlot q x).curWalk = s.curWalk := rfl
@[simp] theorem State.setSlot_nextId (s : State) (q : Nat) (x : Slot) : (s.setSlot q x).nextId = s.nextId := rfl
@[simp] theorem State.setSlot_cycle (s : State) (q : Nat) (x : Slot) : (s.setSlot q x).cycle = s.cycle := rfl
@[simp] theorem State.setSlot_ticks (s : State) (q : Nat) (x : Slot) : (s.setSlot q x).ticks = s.ticks := rfl
@[simp] theorem State.setSlot_hubNs (s : State) (q : Nat) (x : Slot) : (s.setSlot q x).hubNs = s.hubNs := rfl
@[simp] theorem State.setSlot_slots (s : State) (q : Nat) (x : Slot) : (s.setSlot q x).slots = putAt s.slots q x := rfl
@[simp] theorem State.setSlot_cores (s : State) (q : Nat) (x : Slot) : (s.setSlot q x).cores = s.cores := rfl
@[simp] theorem State.setSlot_tiles (s : State) (q : Nat) (x : Slot) : (s.setSlot q x).tiles = s.tiles := rfl
@[simp] theorem State.setSlot_mem (s : State) (q : Nat) (x : Slot) : (s.setSlot q x).mem = s.mem := rfl
@[simp] theorem State.setSlot_bad (s : State) (q : Nat) (x : Slot) : (s.setSlot q x).bad = s.bad := rfl
@[simp] theorem State.setSlot_lineTs (s : State) (q : Nat) (x : Slot) : (s.setSlot q x).lineTs = s.lineTs := rfl
@[simp] theorem State.setSlot_evictTs (s : State) (q : Nat) (x : Slot) : (s.setSlot q x).evictTs = s.evictTs := rfl
@[simp] theorem State.setSlot_counterTs (s : State) (q : Nat) (x : Slot) : (s.setSlot q x).counterTs = s.counterTs := rfl
@[simp] theorem State.setSlot_dirty (s : State) (q : Nat) (x : Slot) : (s.setSlot q x).dirty = s.dirty := rfl
@[simp] theorem State.setSlot_outWrites (s : State) (q : Nat) (x : Slot) : (s.setSlot q x).outWrites = s.outWrites := rfl
@[simp] theorem State.setSlot_copies (s : State) (q : Nat) (x : Slot) : (s.setSlot q x).copies = s.copies := rfl
@[simp] theorem State.setSlot_constLines (s : State) (q : Nat) (x : Slot) : (s.setSlot q x).constLines = s.constLines := rfl
@[simp] theorem State.setSlot_tlb (s : State) (q : Nat) (x : Slot) : (s.setSlot q x).tlb = s.tlb := rfl
@[simp] theorem State.setSlot_walkCache (s : State) (q : Nat) (x : Slot) : (s.setSlot q x).walkCache = s.walkCache := rfl
@[simp] theorem State.setSlot_tids (s : State) (q : Nat) (x : Slot) : (s.setSlot q x).tids = s.tids := rfl
@[simp] theorem State.setSlot_keyRanges (s : State) (q : Nat) (x : Slot) : (s.setSlot q x).keyRanges = s.keyRanges := rfl
@[simp] theorem State.setSlot_banks (s : State) (q : Nat) (x : Slot) : (s.setSlot q x).banks = s.banks := rfl
@[simp] theorem State.setSlot_ccdrain (s : State) (q : Nat) (x : Slot) : (s.setSlot q x).ccdrain = s.ccdrain := rfl
@[simp] theorem State.setSlot_published (s : State) (q : Nat) (x : Slot) : (s.setSlot q x).published = s.published := rfl
@[simp] theorem State.setSlot_dist (s : State) (q : Nat) (x : Slot) : (s.setSlot q x).dist = s.dist := rfl
@[simp] theorem State.setSlot_peers (s : State) (q : Nat) (x : Slot) : (s.setSlot q x).peers = s.peers := rfl
@[simp] theorem State.setSlot_runs (s : State) (q : Nat) (x : Slot) : (s.setSlot q x).runs = s.runs := rfl
@[simp] theorem State.setSlot_rrCtx (s : State) (q : Nat) (x : Slot) : (s.setSlot q x).rrCtx = s.rrCtx := rfl
@[simp] theorem State.setSlot_hopping (s : State) (q : Nat) (x : Slot) : (s.setSlot q x).hopping = s.hopping := rfl
@[simp] theorem State.setSlot_launches (s : State) (q : Nat) (x : Slot) : (s.setSlot q x).launches = s.launches := rfl
@[simp] theorem State.setSlot_cbs (s : State) (q : Nat) (x : Slot) : (s.setSlot q x).cbs = s.cbs := rfl
@[simp] theorem State.setSlot_waits (s : State) (q : Nat) (x : Slot) : (s.setSlot q x).waits = s.waits := rfl
@[simp] theorem State.setSlot_pools (s : State) (q : Nat) (x : Slot) : (s.setSlot q x).pools = s.pools := rfl
@[simp] theorem State.setSlot_poolWaiters (s : State) (q : Nat) (x : Slot) : (s.setSlot q x).poolWaiters = s.poolWaiters := rfl
@[simp] theorem State.setSlot_hqueues (s : State) (q : Nat) (x : Slot) : (s.setSlot q x).hqueues = s.hqueues := rfl
@[simp] theorem State.setSlot_spilled (s : State) (q : Nat) (x : Slot) : (s.setSlot q x).spilled = s.spilled := rfl
@[simp] theorem State.setSlot_operands (s : State) (q : Nat) (x : Slot) : (s.setSlot q x).operands = s.operands := rfl
@[simp] theorem State.setSlot_walks (s : State) (q : Nat) (x : Slot) : (s.setSlot q x).walks = s.walks := rfl
@[simp] theorem State.setSlot_walkQueue (s : State) (q : Nat) (x : Slot) : (s.setSlot q x).walkQueue = s.walkQueue := rfl
@[simp] theorem State.setSlot_walkRr (s : State) (q : Nat) (x : Slot) : (s.setSlot q x).walkRr = s.walkRr := rfl
@[simp] theorem State.setSlot_fetches (s : State) (q : Nat) (x : Slot) : (s.setSlot q x).fetches = s.fetches := rfl
@[simp] theorem State.setSlot_collectors (s : State) (q : Nat) (x : Slot) : (s.setSlot q x).collectors = s.collectors := rfl
@[simp] theorem State.setSlot_dev (s : State) (q : Nat) (x : Slot) : (s.setSlot q x).dev = s.dev := rfl
@[simp] theorem State.setSlot_ttLaunch (s : State) (q : Nat) (x : Slot) : (s.setSlot q x).ttLaunch = s.ttLaunch := rfl
@[simp] theorem State.setSlot_excluded (s : State) (q : Nat) (x : Slot) : (s.setSlot q x).excluded = s.excluded := rfl
@[simp] theorem State.setSlot_floods (s : State) (q : Nat) (x : Slot) : (s.setSlot q x).floods = s.floods := rfl
@[simp] theorem State.setSlot_nextTag (s : State) (q : Nat) (x : Slot) : (s.setSlot q x).nextTag = s.nextTag := rfl
@[simp] theorem State.setSlot_farReqs (s : State) (q : Nat) (x : Slot) : (s.setSlot q x).farReqs = s.farReqs := rfl
@[simp] theorem State.setSlot_hubLines (s : State) (q : Nat) (x : Slot) : (s.setSlot q x).hubLines = s.hubLines := rfl
@[simp] theorem State.setSlot_flitsOut (s : State) (q : Nat) (x : Slot) : (s.setSlot q x).flitsOut = s.flitsOut := rfl
@[simp] theorem State.setSlot_replay (s : State) (q : Nat) (x : Slot) : (s.setSlot q x).replay = s.replay := rfl
@[simp] theorem State.setSlot_txSeq (s : State) (q : Nat) (x : Slot) : (s.setSlot q x).txSeq = s.txSeq := rfl
@[simp] theorem State.setSlot_rxSeq (s : State) (q : Nat) (x : Slot) : (s.setSlot q x).rxSeq = s.rxSeq := rfl
@[simp] theorem State.setSlot_ordQueue (s : State) (q : Nat) (x : Slot) : (s.setSlot q x).ordQueue = s.ordQueue := rfl
@[simp] theorem State.setSlot_held (s : State) (q : Nat) (x : Slot) : (s.setSlot q x).held = s.held := rfl
@[simp] theorem State.setSlot_proxies (s : State) (q : Nat) (x : Slot) : (s.setSlot q x).proxies = s.proxies := rfl
@[simp] theorem State.setSlot_net (s : State) (q : Nat) (x : Slot) : (s.setSlot q x).net = s.net := rfl
@[simp] theorem State.setSlot_errorId (s : State) (q : Nat) (x : Slot) : (s.setSlot q x).errorId = s.errorId := rfl
@[simp] theorem State.setSlot_notices (s : State) (q : Nat) (x : Slot) : (s.setSlot q x).notices = s.notices := rfl
@[simp] theorem State.setSlot_sramErrors (s : State) (q : Nat) (x : Slot) : (s.setSlot q x).sramErrors = s.sramErrors := rfl
@[simp] theorem State.setSlot_shadow (s : State) (q : Nat) (x : Slot) : (s.setSlot q x).shadow = s.shadow := rfl
@[simp] theorem State.setSlot_lock (s : State) (q : Nat) (x : Slot) : (s.setSlot q x).lock = s.lock := rfl
@[simp] theorem State.setSlot_thermal (s : State) (q : Nat) (x : Slot) : (s.setSlot q x).thermal = s.thermal := rfl
@[simp] theorem State.setSlot_mram (s : State) (q : Nat) (x : Slot) : (s.setSlot q x).mram = s.mram := rfl
@[simp] theorem State.setSlot_boot (s : State) (q : Nat) (x : Slot) : (s.setSlot q x).boot = s.boot := rfl
@[simp] theorem State.setSlot_fwVector (s : State) (q : Nat) (x : Slot) : (s.setSlot q x).fwVector = s.fwVector := rfl
@[simp] theorem State.setSlot_fwMeasure (s : State) (q : Nat) (x : Slot) : (s.setSlot q x).fwMeasure = s.fwMeasure := rfl
@[simp] theorem State.setSlot_cfgMeasure (s : State) (q : Nat) (x : Slot) : (s.setSlot q x).cfgMeasure = s.cfgMeasure := rfl
@[simp] theorem State.setSlot_hostOut (s : State) (q : Nat) (x : Slot) : (s.setSlot q x).hostOut = s.hostOut := rfl
@[simp] theorem State.setSlot_hostTs (s : State) (q : Nat) (x : Slot) : (s.setSlot q x).hostTs = s.hostTs := rfl
@[simp] theorem State.setSlot_attest (s : State) (q : Nat) (x : Slot) : (s.setSlot q x).attest = s.attest := rfl
@[simp] theorem State.setSlot_lifeDue (s : State) (q : Nat) (x : Slot) : (s.setSlot q x).lifeDue = s.lifeDue := rfl
@[simp] theorem State.setSlot_draws (s : State) (q : Nat) (x : Slot) : (s.setSlot q x).draws = s.draws := rfl
@[simp] theorem State.setSlot_timers (s : State) (q : Nat) (x : Slot) : (s.setSlot q x).timers = s.timers := rfl
@[simp] theorem State.setSlot_rxAsk (s : State) (q : Nat) (x : Slot) : (s.setSlot q x).rxAsk = s.rxAsk := rfl
@[simp] theorem State.setSlot_txAsk (s : State) (q : Nat) (x : Slot) : (s.setSlot q x).txAsk = s.txAsk := rfl
@[simp] theorem State.setSlot_portQueue (s : State) (q : Nat) (x : Slot) : (s.setSlot q x).portQueue = s.portQueue := rfl
@[simp] theorem State.setSlot_pubNext (s : State) (q : Nat) (x : Slot) : (s.setSlot q x).pubNext = s.pubNext := rfl
@[simp] theorem State.setSlot_distNext (s : State) (q : Nat) (x : Slot) : (s.setSlot q x).distNext = s.distNext := rfl
@[simp] theorem State.setSlot_period (s : State) (q : Nat) (x : Slot) : (s.setSlot q x).period = s.period := rfl
@[simp] theorem State.setSlot_firing (s : State) (q : Nat) (x : Slot) : (s.setSlot q x).firing = s.firing := rfl
@[simp] theorem State.setSlot_orphanOut (s : State) (q : Nat) (x : Slot) : (s.setSlot q x).orphanOut = s.orphanOut := rfl

/-! ### State.modSlot -/

@[simp] theorem State.modSlot_focus (s : State) (q : Nat) (f : Slot → Slot) : (s.modSlot q f).focus = s.focus := rfl
@[simp] theorem State.modSlot_agenda (s : State) (q : Nat) (f : Slot → Slot) : (s.modSlot q f).agenda = s.agenda := rfl
@[simp] theorem State.modSlot_choices (s : State) (q : Nat) (f : Slot → Slot) : (s.modSlot q f).choices = s.choices := rfl
@[simp] theorem State.modSlot_cur (s : State) (q : Nat) (f : Slot → Slot) : (s.modSlot q f).cur = s.cur := rfl
@[simp] theorem State.modSlot_curWalk (s : State) (q : Nat) (f : Slot → Slot) : (s.modSlot q f).curWalk = s.curWalk := rfl
@[simp] theorem State.modSlot_nextId (s : State) (q : Nat) (f : Slot → Slot) : (s.modSlot q f).nextId = s.nextId := rfl
@[simp] theorem State.modSlot_cycle (s : State) (q : Nat) (f : Slot → Slot) : (s.modSlot q f).cycle = s.cycle := rfl
@[simp] theorem State.modSlot_ticks (s : State) (q : Nat) (f : Slot → Slot) : (s.modSlot q f).ticks = s.ticks := rfl
@[simp] theorem State.modSlot_hubNs (s : State) (q : Nat) (f : Slot → Slot) : (s.modSlot q f).hubNs = s.hubNs := rfl
@[simp] theorem State.modSlot_slots (s : State) (q : Nat) (f : Slot → Slot) : (s.modSlot q f).slots = putAt s.slots q (f (s.slot q)) := rfl
@[simp] theorem State.modSlot_cores (s : State) (q : Nat) (f : Slot → Slot) : (s.modSlot q f).cores = s.cores := rfl
@[simp] theorem State.modSlot_tiles (s : State) (q : Nat) (f : Slot → Slot) : (s.modSlot q f).tiles = s.tiles := rfl
@[simp] theorem State.modSlot_mem (s : State) (q : Nat) (f : Slot → Slot) : (s.modSlot q f).mem = s.mem := rfl
@[simp] theorem State.modSlot_bad (s : State) (q : Nat) (f : Slot → Slot) : (s.modSlot q f).bad = s.bad := rfl
@[simp] theorem State.modSlot_lineTs (s : State) (q : Nat) (f : Slot → Slot) : (s.modSlot q f).lineTs = s.lineTs := rfl
@[simp] theorem State.modSlot_evictTs (s : State) (q : Nat) (f : Slot → Slot) : (s.modSlot q f).evictTs = s.evictTs := rfl
@[simp] theorem State.modSlot_counterTs (s : State) (q : Nat) (f : Slot → Slot) : (s.modSlot q f).counterTs = s.counterTs := rfl
@[simp] theorem State.modSlot_dirty (s : State) (q : Nat) (f : Slot → Slot) : (s.modSlot q f).dirty = s.dirty := rfl
@[simp] theorem State.modSlot_outWrites (s : State) (q : Nat) (f : Slot → Slot) : (s.modSlot q f).outWrites = s.outWrites := rfl
@[simp] theorem State.modSlot_copies (s : State) (q : Nat) (f : Slot → Slot) : (s.modSlot q f).copies = s.copies := rfl
@[simp] theorem State.modSlot_constLines (s : State) (q : Nat) (f : Slot → Slot) : (s.modSlot q f).constLines = s.constLines := rfl
@[simp] theorem State.modSlot_tlb (s : State) (q : Nat) (f : Slot → Slot) : (s.modSlot q f).tlb = s.tlb := rfl
@[simp] theorem State.modSlot_walkCache (s : State) (q : Nat) (f : Slot → Slot) : (s.modSlot q f).walkCache = s.walkCache := rfl
@[simp] theorem State.modSlot_tids (s : State) (q : Nat) (f : Slot → Slot) : (s.modSlot q f).tids = s.tids := rfl
@[simp] theorem State.modSlot_keyRanges (s : State) (q : Nat) (f : Slot → Slot) : (s.modSlot q f).keyRanges = s.keyRanges := rfl
@[simp] theorem State.modSlot_banks (s : State) (q : Nat) (f : Slot → Slot) : (s.modSlot q f).banks = s.banks := rfl
@[simp] theorem State.modSlot_ccdrain (s : State) (q : Nat) (f : Slot → Slot) : (s.modSlot q f).ccdrain = s.ccdrain := rfl
@[simp] theorem State.modSlot_published (s : State) (q : Nat) (f : Slot → Slot) : (s.modSlot q f).published = s.published := rfl
@[simp] theorem State.modSlot_dist (s : State) (q : Nat) (f : Slot → Slot) : (s.modSlot q f).dist = s.dist := rfl
@[simp] theorem State.modSlot_peers (s : State) (q : Nat) (f : Slot → Slot) : (s.modSlot q f).peers = s.peers := rfl
@[simp] theorem State.modSlot_runs (s : State) (q : Nat) (f : Slot → Slot) : (s.modSlot q f).runs = s.runs := rfl
@[simp] theorem State.modSlot_rrCtx (s : State) (q : Nat) (f : Slot → Slot) : (s.modSlot q f).rrCtx = s.rrCtx := rfl
@[simp] theorem State.modSlot_hopping (s : State) (q : Nat) (f : Slot → Slot) : (s.modSlot q f).hopping = s.hopping := rfl
@[simp] theorem State.modSlot_launches (s : State) (q : Nat) (f : Slot → Slot) : (s.modSlot q f).launches = s.launches := rfl
@[simp] theorem State.modSlot_cbs (s : State) (q : Nat) (f : Slot → Slot) : (s.modSlot q f).cbs = s.cbs := rfl
@[simp] theorem State.modSlot_waits (s : State) (q : Nat) (f : Slot → Slot) : (s.modSlot q f).waits = s.waits := rfl
@[simp] theorem State.modSlot_pools (s : State) (q : Nat) (f : Slot → Slot) : (s.modSlot q f).pools = s.pools := rfl
@[simp] theorem State.modSlot_poolWaiters (s : State) (q : Nat) (f : Slot → Slot) : (s.modSlot q f).poolWaiters = s.poolWaiters := rfl
@[simp] theorem State.modSlot_hqueues (s : State) (q : Nat) (f : Slot → Slot) : (s.modSlot q f).hqueues = s.hqueues := rfl
@[simp] theorem State.modSlot_spilled (s : State) (q : Nat) (f : Slot → Slot) : (s.modSlot q f).spilled = s.spilled := rfl
@[simp] theorem State.modSlot_operands (s : State) (q : Nat) (f : Slot → Slot) : (s.modSlot q f).operands = s.operands := rfl
@[simp] theorem State.modSlot_walks (s : State) (q : Nat) (f : Slot → Slot) : (s.modSlot q f).walks = s.walks := rfl
@[simp] theorem State.modSlot_walkQueue (s : State) (q : Nat) (f : Slot → Slot) : (s.modSlot q f).walkQueue = s.walkQueue := rfl
@[simp] theorem State.modSlot_walkRr (s : State) (q : Nat) (f : Slot → Slot) : (s.modSlot q f).walkRr = s.walkRr := rfl
@[simp] theorem State.modSlot_fetches (s : State) (q : Nat) (f : Slot → Slot) : (s.modSlot q f).fetches = s.fetches := rfl
@[simp] theorem State.modSlot_collectors (s : State) (q : Nat) (f : Slot → Slot) : (s.modSlot q f).collectors = s.collectors := rfl
@[simp] theorem State.modSlot_dev (s : State) (q : Nat) (f : Slot → Slot) : (s.modSlot q f).dev = s.dev := rfl
@[simp] theorem State.modSlot_ttLaunch (s : State) (q : Nat) (f : Slot → Slot) : (s.modSlot q f).ttLaunch = s.ttLaunch := rfl
@[simp] theorem State.modSlot_excluded (s : State) (q : Nat) (f : Slot → Slot) : (s.modSlot q f).excluded = s.excluded := rfl
@[simp] theorem State.modSlot_floods (s : State) (q : Nat) (f : Slot → Slot) : (s.modSlot q f).floods = s.floods := rfl
@[simp] theorem State.modSlot_nextTag (s : State) (q : Nat) (f : Slot → Slot) : (s.modSlot q f).nextTag = s.nextTag := rfl
@[simp] theorem State.modSlot_farReqs (s : State) (q : Nat) (f : Slot → Slot) : (s.modSlot q f).farReqs = s.farReqs := rfl
@[simp] theorem State.modSlot_hubLines (s : State) (q : Nat) (f : Slot → Slot) : (s.modSlot q f).hubLines = s.hubLines := rfl
@[simp] theorem State.modSlot_flitsOut (s : State) (q : Nat) (f : Slot → Slot) : (s.modSlot q f).flitsOut = s.flitsOut := rfl
@[simp] theorem State.modSlot_replay (s : State) (q : Nat) (f : Slot → Slot) : (s.modSlot q f).replay = s.replay := rfl
@[simp] theorem State.modSlot_txSeq (s : State) (q : Nat) (f : Slot → Slot) : (s.modSlot q f).txSeq = s.txSeq := rfl
@[simp] theorem State.modSlot_rxSeq (s : State) (q : Nat) (f : Slot → Slot) : (s.modSlot q f).rxSeq = s.rxSeq := rfl
@[simp] theorem State.modSlot_ordQueue (s : State) (q : Nat) (f : Slot → Slot) : (s.modSlot q f).ordQueue = s.ordQueue := rfl
@[simp] theorem State.modSlot_held (s : State) (q : Nat) (f : Slot → Slot) : (s.modSlot q f).held = s.held := rfl
@[simp] theorem State.modSlot_proxies (s : State) (q : Nat) (f : Slot → Slot) : (s.modSlot q f).proxies = s.proxies := rfl
@[simp] theorem State.modSlot_net (s : State) (q : Nat) (f : Slot → Slot) : (s.modSlot q f).net = s.net := rfl
@[simp] theorem State.modSlot_errorId (s : State) (q : Nat) (f : Slot → Slot) : (s.modSlot q f).errorId = s.errorId := rfl
@[simp] theorem State.modSlot_notices (s : State) (q : Nat) (f : Slot → Slot) : (s.modSlot q f).notices = s.notices := rfl
@[simp] theorem State.modSlot_sramErrors (s : State) (q : Nat) (f : Slot → Slot) : (s.modSlot q f).sramErrors = s.sramErrors := rfl
@[simp] theorem State.modSlot_shadow (s : State) (q : Nat) (f : Slot → Slot) : (s.modSlot q f).shadow = s.shadow := rfl
@[simp] theorem State.modSlot_lock (s : State) (q : Nat) (f : Slot → Slot) : (s.modSlot q f).lock = s.lock := rfl
@[simp] theorem State.modSlot_thermal (s : State) (q : Nat) (f : Slot → Slot) : (s.modSlot q f).thermal = s.thermal := rfl
@[simp] theorem State.modSlot_mram (s : State) (q : Nat) (f : Slot → Slot) : (s.modSlot q f).mram = s.mram := rfl
@[simp] theorem State.modSlot_boot (s : State) (q : Nat) (f : Slot → Slot) : (s.modSlot q f).boot = s.boot := rfl
@[simp] theorem State.modSlot_fwVector (s : State) (q : Nat) (f : Slot → Slot) : (s.modSlot q f).fwVector = s.fwVector := rfl
@[simp] theorem State.modSlot_fwMeasure (s : State) (q : Nat) (f : Slot → Slot) : (s.modSlot q f).fwMeasure = s.fwMeasure := rfl
@[simp] theorem State.modSlot_cfgMeasure (s : State) (q : Nat) (f : Slot → Slot) : (s.modSlot q f).cfgMeasure = s.cfgMeasure := rfl
@[simp] theorem State.modSlot_hostOut (s : State) (q : Nat) (f : Slot → Slot) : (s.modSlot q f).hostOut = s.hostOut := rfl
@[simp] theorem State.modSlot_hostTs (s : State) (q : Nat) (f : Slot → Slot) : (s.modSlot q f).hostTs = s.hostTs := rfl
@[simp] theorem State.modSlot_attest (s : State) (q : Nat) (f : Slot → Slot) : (s.modSlot q f).attest = s.attest := rfl
@[simp] theorem State.modSlot_lifeDue (s : State) (q : Nat) (f : Slot → Slot) : (s.modSlot q f).lifeDue = s.lifeDue := rfl
@[simp] theorem State.modSlot_draws (s : State) (q : Nat) (f : Slot → Slot) : (s.modSlot q f).draws = s.draws := rfl
@[simp] theorem State.modSlot_timers (s : State) (q : Nat) (f : Slot → Slot) : (s.modSlot q f).timers = s.timers := rfl
@[simp] theorem State.modSlot_rxAsk (s : State) (q : Nat) (f : Slot → Slot) : (s.modSlot q f).rxAsk = s.rxAsk := rfl
@[simp] theorem State.modSlot_txAsk (s : State) (q : Nat) (f : Slot → Slot) : (s.modSlot q f).txAsk = s.txAsk := rfl
@[simp] theorem State.modSlot_portQueue (s : State) (q : Nat) (f : Slot → Slot) : (s.modSlot q f).portQueue = s.portQueue := rfl
@[simp] theorem State.modSlot_pubNext (s : State) (q : Nat) (f : Slot → Slot) : (s.modSlot q f).pubNext = s.pubNext := rfl
@[simp] theorem State.modSlot_distNext (s : State) (q : Nat) (f : Slot → Slot) : (s.modSlot q f).distNext = s.distNext := rfl
@[simp] theorem State.modSlot_period (s : State) (q : Nat) (f : Slot → Slot) : (s.modSlot q f).period = s.period := rfl
@[simp] theorem State.modSlot_firing (s : State) (q : Nat) (f : Slot → Slot) : (s.modSlot q f).firing = s.firing := rfl
@[simp] theorem State.modSlot_orphanOut (s : State) (q : Nat) (f : Slot → Slot) : (s.modSlot q f).orphanOut = s.orphanOut := rfl

/-! ### State.setCore -/

@[simp] theorem State.setCore_focus (s : State) (k : Nat) (x : CoreRec) : (s.setCore k x).focus = s.focus := rfl
@[simp] theorem State.setCore_agenda (s : State) (k : Nat) (x : CoreRec) : (s.setCore k x).agenda = s.agenda := rfl
@[simp] theorem State.setCore_choices (s : State) (k : Nat) (x : CoreRec) : (s.setCore k x).choices = s.choices := rfl
@[simp] theorem State.setCore_cur (s : State) (k : Nat) (x : CoreRec) : (s.setCore k x).cur = s.cur := rfl
@[simp] theorem State.setCore_curWalk (s : State) (k : Nat) (x : CoreRec) : (s.setCore k x).curWalk = s.curWalk := rfl
@[simp] theorem State.setCore_nextId (s : State) (k : Nat) (x : CoreRec) : (s.setCore k x).nextId = s.nextId := rfl
@[simp] theorem State.setCore_cycle (s : State) (k : Nat) (x : CoreRec) : (s.setCore k x).cycle = s.cycle := rfl
@[simp] theorem State.setCore_ticks (s : State) (k : Nat) (x : CoreRec) : (s.setCore k x).ticks = s.ticks := rfl
@[simp] theorem State.setCore_hubNs (s : State) (k : Nat) (x : CoreRec) : (s.setCore k x).hubNs = s.hubNs := rfl
@[simp] theorem State.setCore_slots (s : State) (k : Nat) (x : CoreRec) : (s.setCore k x).slots = s.slots := rfl
@[simp] theorem State.setCore_cores (s : State) (k : Nat) (x : CoreRec) : (s.setCore k x).cores = putAt s.cores k x := rfl
@[simp] theorem State.setCore_tiles (s : State) (k : Nat) (x : CoreRec) : (s.setCore k x).tiles = s.tiles := rfl
@[simp] theorem State.setCore_mem (s : State) (k : Nat) (x : CoreRec) : (s.setCore k x).mem = s.mem := rfl
@[simp] theorem State.setCore_bad (s : State) (k : Nat) (x : CoreRec) : (s.setCore k x).bad = s.bad := rfl
@[simp] theorem State.setCore_lineTs (s : State) (k : Nat) (x : CoreRec) : (s.setCore k x).lineTs = s.lineTs := rfl
@[simp] theorem State.setCore_evictTs (s : State) (k : Nat) (x : CoreRec) : (s.setCore k x).evictTs = s.evictTs := rfl
@[simp] theorem State.setCore_counterTs (s : State) (k : Nat) (x : CoreRec) : (s.setCore k x).counterTs = s.counterTs := rfl
@[simp] theorem State.setCore_dirty (s : State) (k : Nat) (x : CoreRec) : (s.setCore k x).dirty = s.dirty := rfl
@[simp] theorem State.setCore_outWrites (s : State) (k : Nat) (x : CoreRec) : (s.setCore k x).outWrites = s.outWrites := rfl
@[simp] theorem State.setCore_copies (s : State) (k : Nat) (x : CoreRec) : (s.setCore k x).copies = s.copies := rfl
@[simp] theorem State.setCore_constLines (s : State) (k : Nat) (x : CoreRec) : (s.setCore k x).constLines = s.constLines := rfl
@[simp] theorem State.setCore_tlb (s : State) (k : Nat) (x : CoreRec) : (s.setCore k x).tlb = s.tlb := rfl
@[simp] theorem State.setCore_walkCache (s : State) (k : Nat) (x : CoreRec) : (s.setCore k x).walkCache = s.walkCache := rfl
@[simp] theorem State.setCore_tids (s : State) (k : Nat) (x : CoreRec) : (s.setCore k x).tids = s.tids := rfl
@[simp] theorem State.setCore_keyRanges (s : State) (k : Nat) (x : CoreRec) : (s.setCore k x).keyRanges = s.keyRanges := rfl
@[simp] theorem State.setCore_banks (s : State) (k : Nat) (x : CoreRec) : (s.setCore k x).banks = s.banks := rfl
@[simp] theorem State.setCore_ccdrain (s : State) (k : Nat) (x : CoreRec) : (s.setCore k x).ccdrain = s.ccdrain := rfl
@[simp] theorem State.setCore_published (s : State) (k : Nat) (x : CoreRec) : (s.setCore k x).published = s.published := rfl
@[simp] theorem State.setCore_dist (s : State) (k : Nat) (x : CoreRec) : (s.setCore k x).dist = s.dist := rfl
@[simp] theorem State.setCore_peers (s : State) (k : Nat) (x : CoreRec) : (s.setCore k x).peers = s.peers := rfl
@[simp] theorem State.setCore_runs (s : State) (k : Nat) (x : CoreRec) : (s.setCore k x).runs = s.runs := rfl
@[simp] theorem State.setCore_rrCtx (s : State) (k : Nat) (x : CoreRec) : (s.setCore k x).rrCtx = s.rrCtx := rfl
@[simp] theorem State.setCore_hopping (s : State) (k : Nat) (x : CoreRec) : (s.setCore k x).hopping = s.hopping := rfl
@[simp] theorem State.setCore_launches (s : State) (k : Nat) (x : CoreRec) : (s.setCore k x).launches = s.launches := rfl
@[simp] theorem State.setCore_cbs (s : State) (k : Nat) (x : CoreRec) : (s.setCore k x).cbs = s.cbs := rfl
@[simp] theorem State.setCore_waits (s : State) (k : Nat) (x : CoreRec) : (s.setCore k x).waits = s.waits := rfl
@[simp] theorem State.setCore_pools (s : State) (k : Nat) (x : CoreRec) : (s.setCore k x).pools = s.pools := rfl
@[simp] theorem State.setCore_poolWaiters (s : State) (k : Nat) (x : CoreRec) : (s.setCore k x).poolWaiters = s.poolWaiters := rfl
@[simp] theorem State.setCore_hqueues (s : State) (k : Nat) (x : CoreRec) : (s.setCore k x).hqueues = s.hqueues := rfl
@[simp] theorem State.setCore_spilled (s : State) (k : Nat) (x : CoreRec) : (s.setCore k x).spilled = s.spilled := rfl
@[simp] theorem State.setCore_operands (s : State) (k : Nat) (x : CoreRec) : (s.setCore k x).operands = s.operands := rfl
@[simp] theorem State.setCore_walks (s : State) (k : Nat) (x : CoreRec) : (s.setCore k x).walks = s.walks := rfl
@[simp] theorem State.setCore_walkQueue (s : State) (k : Nat) (x : CoreRec) : (s.setCore k x).walkQueue = s.walkQueue := rfl
@[simp] theorem State.setCore_walkRr (s : State) (k : Nat) (x : CoreRec) : (s.setCore k x).walkRr = s.walkRr := rfl
@[simp] theorem State.setCore_fetches (s : State) (k : Nat) (x : CoreRec) : (s.setCore k x).fetches = s.fetches := rfl
@[simp] theorem State.setCore_collectors (s : State) (k : Nat) (x : CoreRec) : (s.setCore k x).collectors = s.collectors := rfl
@[simp] theorem State.setCore_dev (s : State) (k : Nat) (x : CoreRec) : (s.setCore k x).dev = s.dev := rfl
@[simp] theorem State.setCore_ttLaunch (s : State) (k : Nat) (x : CoreRec) : (s.setCore k x).ttLaunch = s.ttLaunch := rfl
@[simp] theorem State.setCore_excluded (s : State) (k : Nat) (x : CoreRec) : (s.setCore k x).excluded = s.excluded := rfl
@[simp] theorem State.setCore_floods (s : State) (k : Nat) (x : CoreRec) : (s.setCore k x).floods = s.floods := rfl
@[simp] theorem State.setCore_nextTag (s : State) (k : Nat) (x : CoreRec) : (s.setCore k x).nextTag = s.nextTag := rfl
@[simp] theorem State.setCore_farReqs (s : State) (k : Nat) (x : CoreRec) : (s.setCore k x).farReqs = s.farReqs := rfl
@[simp] theorem State.setCore_hubLines (s : State) (k : Nat) (x : CoreRec) : (s.setCore k x).hubLines = s.hubLines := rfl
@[simp] theorem State.setCore_flitsOut (s : State) (k : Nat) (x : CoreRec) : (s.setCore k x).flitsOut = s.flitsOut := rfl
@[simp] theorem State.setCore_replay (s : State) (k : Nat) (x : CoreRec) : (s.setCore k x).replay = s.replay := rfl
@[simp] theorem State.setCore_txSeq (s : State) (k : Nat) (x : CoreRec) : (s.setCore k x).txSeq = s.txSeq := rfl
@[simp] theorem State.setCore_rxSeq (s : State) (k : Nat) (x : CoreRec) : (s.setCore k x).rxSeq = s.rxSeq := rfl
@[simp] theorem State.setCore_ordQueue (s : State) (k : Nat) (x : CoreRec) : (s.setCore k x).ordQueue = s.ordQueue := rfl
@[simp] theorem State.setCore_held (s : State) (k : Nat) (x : CoreRec) : (s.setCore k x).held = s.held := rfl
@[simp] theorem State.setCore_proxies (s : State) (k : Nat) (x : CoreRec) : (s.setCore k x).proxies = s.proxies := rfl
@[simp] theorem State.setCore_net (s : State) (k : Nat) (x : CoreRec) : (s.setCore k x).net = s.net := rfl
@[simp] theorem State.setCore_errorId (s : State) (k : Nat) (x : CoreRec) : (s.setCore k x).errorId = s.errorId := rfl
@[simp] theorem State.setCore_notices (s : State) (k : Nat) (x : CoreRec) : (s.setCore k x).notices = s.notices := rfl
@[simp] theorem State.setCore_sramErrors (s : State) (k : Nat) (x : CoreRec) : (s.setCore k x).sramErrors = s.sramErrors := rfl
@[simp] theorem State.setCore_shadow (s : State) (k : Nat) (x : CoreRec) : (s.setCore k x).shadow = s.shadow := rfl
@[simp] theorem State.setCore_lock (s : State) (k : Nat) (x : CoreRec) : (s.setCore k x).lock = s.lock := rfl
@[simp] theorem State.setCore_thermal (s : State) (k : Nat) (x : CoreRec) : (s.setCore k x).thermal = s.thermal := rfl
@[simp] theorem State.setCore_mram (s : State) (k : Nat) (x : CoreRec) : (s.setCore k x).mram = s.mram := rfl
@[simp] theorem State.setCore_boot (s : State) (k : Nat) (x : CoreRec) : (s.setCore k x).boot = s.boot := rfl
@[simp] theorem State.setCore_fwVector (s : State) (k : Nat) (x : CoreRec) : (s.setCore k x).fwVector = s.fwVector := rfl
@[simp] theorem State.setCore_fwMeasure (s : State) (k : Nat) (x : CoreRec) : (s.setCore k x).fwMeasure = s.fwMeasure := rfl
@[simp] theorem State.setCore_cfgMeasure (s : State) (k : Nat) (x : CoreRec) : (s.setCore k x).cfgMeasure = s.cfgMeasure := rfl
@[simp] theorem State.setCore_hostOut (s : State) (k : Nat) (x : CoreRec) : (s.setCore k x).hostOut = s.hostOut := rfl
@[simp] theorem State.setCore_hostTs (s : State) (k : Nat) (x : CoreRec) : (s.setCore k x).hostTs = s.hostTs := rfl
@[simp] theorem State.setCore_attest (s : State) (k : Nat) (x : CoreRec) : (s.setCore k x).attest = s.attest := rfl
@[simp] theorem State.setCore_lifeDue (s : State) (k : Nat) (x : CoreRec) : (s.setCore k x).lifeDue = s.lifeDue := rfl
@[simp] theorem State.setCore_draws (s : State) (k : Nat) (x : CoreRec) : (s.setCore k x).draws = s.draws := rfl
@[simp] theorem State.setCore_timers (s : State) (k : Nat) (x : CoreRec) : (s.setCore k x).timers = s.timers := rfl
@[simp] theorem State.setCore_rxAsk (s : State) (k : Nat) (x : CoreRec) : (s.setCore k x).rxAsk = s.rxAsk := rfl
@[simp] theorem State.setCore_txAsk (s : State) (k : Nat) (x : CoreRec) : (s.setCore k x).txAsk = s.txAsk := rfl
@[simp] theorem State.setCore_portQueue (s : State) (k : Nat) (x : CoreRec) : (s.setCore k x).portQueue = s.portQueue := rfl
@[simp] theorem State.setCore_pubNext (s : State) (k : Nat) (x : CoreRec) : (s.setCore k x).pubNext = s.pubNext := rfl
@[simp] theorem State.setCore_distNext (s : State) (k : Nat) (x : CoreRec) : (s.setCore k x).distNext = s.distNext := rfl
@[simp] theorem State.setCore_period (s : State) (k : Nat) (x : CoreRec) : (s.setCore k x).period = s.period := rfl
@[simp] theorem State.setCore_firing (s : State) (k : Nat) (x : CoreRec) : (s.setCore k x).firing = s.firing := rfl
@[simp] theorem State.setCore_orphanOut (s : State) (k : Nat) (x : CoreRec) : (s.setCore k x).orphanOut = s.orphanOut := rfl

/-! ### State.setTile -/

@[simp] theorem State.setTile_focus (s : State) (t : Nat) (x : Tile) : (s.setTile t x).focus = s.focus := rfl
@[simp] theorem State.setTile_agenda (s : State) (t : Nat) (x : Tile) : (s.setTile t x).agenda = s.agenda := rfl
@[simp] theorem State.setTile_choices (s : State) (t : Nat) (x : Tile) : (s.setTile t x).choices = s.choices := rfl
@[simp] theorem State.setTile_cur (s : State) (t : Nat) (x : Tile) : (s.setTile t x).cur = s.cur := rfl
@[simp] theorem State.setTile_curWalk (s : State) (t : Nat) (x : Tile) : (s.setTile t x).curWalk = s.curWalk := rfl
@[simp] theorem State.setTile_nextId (s : State) (t : Nat) (x : Tile) : (s.setTile t x).nextId = s.nextId := rfl
@[simp] theorem State.setTile_cycle (s : State) (t : Nat) (x : Tile) : (s.setTile t x).cycle = s.cycle := rfl
@[simp] theorem State.setTile_ticks (s : State) (t : Nat) (x : Tile) : (s.setTile t x).ticks = s.ticks := rfl
@[simp] theorem State.setTile_hubNs (s : State) (t : Nat) (x : Tile) : (s.setTile t x).hubNs = s.hubNs := rfl
@[simp] theorem State.setTile_slots (s : State) (t : Nat) (x : Tile) : (s.setTile t x).slots = s.slots := rfl
@[simp] theorem State.setTile_cores (s : State) (t : Nat) (x : Tile) : (s.setTile t x).cores = s.cores := rfl
@[simp] theorem State.setTile_tiles (s : State) (t : Nat) (x : Tile) : (s.setTile t x).tiles = putAt s.tiles t x := rfl
@[simp] theorem State.setTile_mem (s : State) (t : Nat) (x : Tile) : (s.setTile t x).mem = s.mem := rfl
@[simp] theorem State.setTile_bad (s : State) (t : Nat) (x : Tile) : (s.setTile t x).bad = s.bad := rfl
@[simp] theorem State.setTile_lineTs (s : State) (t : Nat) (x : Tile) : (s.setTile t x).lineTs = s.lineTs := rfl
@[simp] theorem State.setTile_evictTs (s : State) (t : Nat) (x : Tile) : (s.setTile t x).evictTs = s.evictTs := rfl
@[simp] theorem State.setTile_counterTs (s : State) (t : Nat) (x : Tile) : (s.setTile t x).counterTs = s.counterTs := rfl
@[simp] theorem State.setTile_dirty (s : State) (t : Nat) (x : Tile) : (s.setTile t x).dirty = s.dirty := rfl
@[simp] theorem State.setTile_outWrites (s : State) (t : Nat) (x : Tile) : (s.setTile t x).outWrites = s.outWrites := rfl
@[simp] theorem State.setTile_copies (s : State) (t : Nat) (x : Tile) : (s.setTile t x).copies = s.copies := rfl
@[simp] theorem State.setTile_constLines (s : State) (t : Nat) (x : Tile) : (s.setTile t x).constLines = s.constLines := rfl
@[simp] theorem State.setTile_tlb (s : State) (t : Nat) (x : Tile) : (s.setTile t x).tlb = s.tlb := rfl
@[simp] theorem State.setTile_walkCache (s : State) (t : Nat) (x : Tile) : (s.setTile t x).walkCache = s.walkCache := rfl
@[simp] theorem State.setTile_tids (s : State) (t : Nat) (x : Tile) : (s.setTile t x).tids = s.tids := rfl
@[simp] theorem State.setTile_keyRanges (s : State) (t : Nat) (x : Tile) : (s.setTile t x).keyRanges = s.keyRanges := rfl
@[simp] theorem State.setTile_banks (s : State) (t : Nat) (x : Tile) : (s.setTile t x).banks = s.banks := rfl
@[simp] theorem State.setTile_ccdrain (s : State) (t : Nat) (x : Tile) : (s.setTile t x).ccdrain = s.ccdrain := rfl
@[simp] theorem State.setTile_published (s : State) (t : Nat) (x : Tile) : (s.setTile t x).published = s.published := rfl
@[simp] theorem State.setTile_dist (s : State) (t : Nat) (x : Tile) : (s.setTile t x).dist = s.dist := rfl
@[simp] theorem State.setTile_peers (s : State) (t : Nat) (x : Tile) : (s.setTile t x).peers = s.peers := rfl
@[simp] theorem State.setTile_runs (s : State) (t : Nat) (x : Tile) : (s.setTile t x).runs = s.runs := rfl
@[simp] theorem State.setTile_rrCtx (s : State) (t : Nat) (x : Tile) : (s.setTile t x).rrCtx = s.rrCtx := rfl
@[simp] theorem State.setTile_hopping (s : State) (t : Nat) (x : Tile) : (s.setTile t x).hopping = s.hopping := rfl
@[simp] theorem State.setTile_launches (s : State) (t : Nat) (x : Tile) : (s.setTile t x).launches = s.launches := rfl
@[simp] theorem State.setTile_cbs (s : State) (t : Nat) (x : Tile) : (s.setTile t x).cbs = s.cbs := rfl
@[simp] theorem State.setTile_waits (s : State) (t : Nat) (x : Tile) : (s.setTile t x).waits = s.waits := rfl
@[simp] theorem State.setTile_pools (s : State) (t : Nat) (x : Tile) : (s.setTile t x).pools = s.pools := rfl
@[simp] theorem State.setTile_poolWaiters (s : State) (t : Nat) (x : Tile) : (s.setTile t x).poolWaiters = s.poolWaiters := rfl
@[simp] theorem State.setTile_hqueues (s : State) (t : Nat) (x : Tile) : (s.setTile t x).hqueues = s.hqueues := rfl
@[simp] theorem State.setTile_spilled (s : State) (t : Nat) (x : Tile) : (s.setTile t x).spilled = s.spilled := rfl
@[simp] theorem State.setTile_operands (s : State) (t : Nat) (x : Tile) : (s.setTile t x).operands = s.operands := rfl
@[simp] theorem State.setTile_walks (s : State) (t : Nat) (x : Tile) : (s.setTile t x).walks = s.walks := rfl
@[simp] theorem State.setTile_walkQueue (s : State) (t : Nat) (x : Tile) : (s.setTile t x).walkQueue = s.walkQueue := rfl
@[simp] theorem State.setTile_walkRr (s : State) (t : Nat) (x : Tile) : (s.setTile t x).walkRr = s.walkRr := rfl
@[simp] theorem State.setTile_fetches (s : State) (t : Nat) (x : Tile) : (s.setTile t x).fetches = s.fetches := rfl
@[simp] theorem State.setTile_collectors (s : State) (t : Nat) (x : Tile) : (s.setTile t x).collectors = s.collectors := rfl
@[simp] theorem State.setTile_dev (s : State) (t : Nat) (x : Tile) : (s.setTile t x).dev = s.dev := rfl
@[simp] theorem State.setTile_ttLaunch (s : State) (t : Nat) (x : Tile) : (s.setTile t x).ttLaunch = s.ttLaunch := rfl
@[simp] theorem State.setTile_excluded (s : State) (t : Nat) (x : Tile) : (s.setTile t x).excluded = s.excluded := rfl
@[simp] theorem State.setTile_floods (s : State) (t : Nat) (x : Tile) : (s.setTile t x).floods = s.floods := rfl
@[simp] theorem State.setTile_nextTag (s : State) (t : Nat) (x : Tile) : (s.setTile t x).nextTag = s.nextTag := rfl
@[simp] theorem State.setTile_farReqs (s : State) (t : Nat) (x : Tile) : (s.setTile t x).farReqs = s.farReqs := rfl
@[simp] theorem State.setTile_hubLines (s : State) (t : Nat) (x : Tile) : (s.setTile t x).hubLines = s.hubLines := rfl
@[simp] theorem State.setTile_flitsOut (s : State) (t : Nat) (x : Tile) : (s.setTile t x).flitsOut = s.flitsOut := rfl
@[simp] theorem State.setTile_replay (s : State) (t : Nat) (x : Tile) : (s.setTile t x).replay = s.replay := rfl
@[simp] theorem State.setTile_txSeq (s : State) (t : Nat) (x : Tile) : (s.setTile t x).txSeq = s.txSeq := rfl
@[simp] theorem State.setTile_rxSeq (s : State) (t : Nat) (x : Tile) : (s.setTile t x).rxSeq = s.rxSeq := rfl
@[simp] theorem State.setTile_ordQueue (s : State) (t : Nat) (x : Tile) : (s.setTile t x).ordQueue = s.ordQueue := rfl
@[simp] theorem State.setTile_held (s : State) (t : Nat) (x : Tile) : (s.setTile t x).held = s.held := rfl
@[simp] theorem State.setTile_proxies (s : State) (t : Nat) (x : Tile) : (s.setTile t x).proxies = s.proxies := rfl
@[simp] theorem State.setTile_net (s : State) (t : Nat) (x : Tile) : (s.setTile t x).net = s.net := rfl
@[simp] theorem State.setTile_errorId (s : State) (t : Nat) (x : Tile) : (s.setTile t x).errorId = s.errorId := rfl
@[simp] theorem State.setTile_notices (s : State) (t : Nat) (x : Tile) : (s.setTile t x).notices = s.notices := rfl
@[simp] theorem State.setTile_sramErrors (s : State) (t : Nat) (x : Tile) : (s.setTile t x).sramErrors = s.sramErrors := rfl
@[simp] theorem State.setTile_shadow (s : State) (t : Nat) (x : Tile) : (s.setTile t x).shadow = s.shadow := rfl
@[simp] theorem State.setTile_lock (s : State) (t : Nat) (x : Tile) : (s.setTile t x).lock = s.lock := rfl
@[simp] theorem State.setTile_thermal (s : State) (t : Nat) (x : Tile) : (s.setTile t x).thermal = s.thermal := rfl
@[simp] theorem State.setTile_mram (s : State) (t : Nat) (x : Tile) : (s.setTile t x).mram = s.mram := rfl
@[simp] theorem State.setTile_boot (s : State) (t : Nat) (x : Tile) : (s.setTile t x).boot = s.boot := rfl
@[simp] theorem State.setTile_fwVector (s : State) (t : Nat) (x : Tile) : (s.setTile t x).fwVector = s.fwVector := rfl
@[simp] theorem State.setTile_fwMeasure (s : State) (t : Nat) (x : Tile) : (s.setTile t x).fwMeasure = s.fwMeasure := rfl
@[simp] theorem State.setTile_cfgMeasure (s : State) (t : Nat) (x : Tile) : (s.setTile t x).cfgMeasure = s.cfgMeasure := rfl
@[simp] theorem State.setTile_hostOut (s : State) (t : Nat) (x : Tile) : (s.setTile t x).hostOut = s.hostOut := rfl
@[simp] theorem State.setTile_hostTs (s : State) (t : Nat) (x : Tile) : (s.setTile t x).hostTs = s.hostTs := rfl
@[simp] theorem State.setTile_attest (s : State) (t : Nat) (x : Tile) : (s.setTile t x).attest = s.attest := rfl
@[simp] theorem State.setTile_lifeDue (s : State) (t : Nat) (x : Tile) : (s.setTile t x).lifeDue = s.lifeDue := rfl
@[simp] theorem State.setTile_draws (s : State) (t : Nat) (x : Tile) : (s.setTile t x).draws = s.draws := rfl
@[simp] theorem State.setTile_timers (s : State) (t : Nat) (x : Tile) : (s.setTile t x).timers = s.timers := rfl
@[simp] theorem State.setTile_rxAsk (s : State) (t : Nat) (x : Tile) : (s.setTile t x).rxAsk = s.rxAsk := rfl
@[simp] theorem State.setTile_txAsk (s : State) (t : Nat) (x : Tile) : (s.setTile t x).txAsk = s.txAsk := rfl
@[simp] theorem State.setTile_portQueue (s : State) (t : Nat) (x : Tile) : (s.setTile t x).portQueue = s.portQueue := rfl
@[simp] theorem State.setTile_pubNext (s : State) (t : Nat) (x : Tile) : (s.setTile t x).pubNext = s.pubNext := rfl
@[simp] theorem State.setTile_distNext (s : State) (t : Nat) (x : Tile) : (s.setTile t x).distNext = s.distNext := rfl
@[simp] theorem State.setTile_period (s : State) (t : Nat) (x : Tile) : (s.setTile t x).period = s.period := rfl
@[simp] theorem State.setTile_firing (s : State) (t : Nat) (x : Tile) : (s.setTile t x).firing = s.firing := rfl
@[simp] theorem State.setTile_orphanOut (s : State) (t : Nat) (x : Tile) : (s.setTile t x).orphanOut = s.orphanOut := rfl

/-! ### State.setBank -/

@[simp] theorem State.setBank_focus (s : State) (c b : Nat) (x : Bank) : (s.setBank c b x).focus = s.focus := rfl
@[simp] theorem State.setBank_agenda (s : State) (c b : Nat) (x : Bank) : (s.setBank c b x).agenda = s.agenda := rfl
@[simp] theorem State.setBank_choices (s : State) (c b : Nat) (x : Bank) : (s.setBank c b x).choices = s.choices := rfl
@[simp] theorem State.setBank_cur (s : State) (c b : Nat) (x : Bank) : (s.setBank c b x).cur = s.cur := rfl
@[simp] theorem State.setBank_curWalk (s : State) (c b : Nat) (x : Bank) : (s.setBank c b x).curWalk = s.curWalk := rfl
@[simp] theorem State.setBank_nextId (s : State) (c b : Nat) (x : Bank) : (s.setBank c b x).nextId = s.nextId := rfl
@[simp] theorem State.setBank_cycle (s : State) (c b : Nat) (x : Bank) : (s.setBank c b x).cycle = s.cycle := rfl
@[simp] theorem State.setBank_ticks (s : State) (c b : Nat) (x : Bank) : (s.setBank c b x).ticks = s.ticks := rfl
@[simp] theorem State.setBank_hubNs (s : State) (c b : Nat) (x : Bank) : (s.setBank c b x).hubNs = s.hubNs := rfl
@[simp] theorem State.setBank_slots (s : State) (c b : Nat) (x : Bank) : (s.setBank c b x).slots = s.slots := rfl
@[simp] theorem State.setBank_cores (s : State) (c b : Nat) (x : Bank) : (s.setBank c b x).cores = s.cores := rfl
@[simp] theorem State.setBank_tiles (s : State) (c b : Nat) (x : Bank) : (s.setBank c b x).tiles = s.tiles := rfl
@[simp] theorem State.setBank_mem (s : State) (c b : Nat) (x : Bank) : (s.setBank c b x).mem = s.mem := rfl
@[simp] theorem State.setBank_bad (s : State) (c b : Nat) (x : Bank) : (s.setBank c b x).bad = s.bad := rfl
@[simp] theorem State.setBank_lineTs (s : State) (c b : Nat) (x : Bank) : (s.setBank c b x).lineTs = s.lineTs := rfl
@[simp] theorem State.setBank_evictTs (s : State) (c b : Nat) (x : Bank) : (s.setBank c b x).evictTs = s.evictTs := rfl
@[simp] theorem State.setBank_counterTs (s : State) (c b : Nat) (x : Bank) : (s.setBank c b x).counterTs = s.counterTs := rfl
@[simp] theorem State.setBank_dirty (s : State) (c b : Nat) (x : Bank) : (s.setBank c b x).dirty = s.dirty := rfl
@[simp] theorem State.setBank_outWrites (s : State) (c b : Nat) (x : Bank) : (s.setBank c b x).outWrites = s.outWrites := rfl
@[simp] theorem State.setBank_copies (s : State) (c b : Nat) (x : Bank) : (s.setBank c b x).copies = s.copies := rfl
@[simp] theorem State.setBank_constLines (s : State) (c b : Nat) (x : Bank) : (s.setBank c b x).constLines = s.constLines := rfl
@[simp] theorem State.setBank_tlb (s : State) (c b : Nat) (x : Bank) : (s.setBank c b x).tlb = s.tlb := rfl
@[simp] theorem State.setBank_walkCache (s : State) (c b : Nat) (x : Bank) : (s.setBank c b x).walkCache = s.walkCache := rfl
@[simp] theorem State.setBank_tids (s : State) (c b : Nat) (x : Bank) : (s.setBank c b x).tids = s.tids := rfl
@[simp] theorem State.setBank_keyRanges (s : State) (c b : Nat) (x : Bank) : (s.setBank c b x).keyRanges = s.keyRanges := rfl
@[simp] theorem State.setBank_banks (s : State) (c b : Nat) (x : Bank) : (s.setBank c b x).banks = putAt s.banks (16 * c + b) x := rfl
@[simp] theorem State.setBank_ccdrain (s : State) (c b : Nat) (x : Bank) : (s.setBank c b x).ccdrain = s.ccdrain := rfl
@[simp] theorem State.setBank_published (s : State) (c b : Nat) (x : Bank) : (s.setBank c b x).published = s.published := rfl
@[simp] theorem State.setBank_dist (s : State) (c b : Nat) (x : Bank) : (s.setBank c b x).dist = s.dist := rfl
@[simp] theorem State.setBank_peers (s : State) (c b : Nat) (x : Bank) : (s.setBank c b x).peers = s.peers := rfl
@[simp] theorem State.setBank_runs (s : State) (c b : Nat) (x : Bank) : (s.setBank c b x).runs = s.runs := rfl
@[simp] theorem State.setBank_rrCtx (s : State) (c b : Nat) (x : Bank) : (s.setBank c b x).rrCtx = s.rrCtx := rfl
@[simp] theorem State.setBank_hopping (s : State) (c b : Nat) (x : Bank) : (s.setBank c b x).hopping = s.hopping := rfl
@[simp] theorem State.setBank_launches (s : State) (c b : Nat) (x : Bank) : (s.setBank c b x).launches = s.launches := rfl
@[simp] theorem State.setBank_cbs (s : State) (c b : Nat) (x : Bank) : (s.setBank c b x).cbs = s.cbs := rfl
@[simp] theorem State.setBank_waits (s : State) (c b : Nat) (x : Bank) : (s.setBank c b x).waits = s.waits := rfl
@[simp] theorem State.setBank_pools (s : State) (c b : Nat) (x : Bank) : (s.setBank c b x).pools = s.pools := rfl
@[simp] theorem State.setBank_poolWaiters (s : State) (c b : Nat) (x : Bank) : (s.setBank c b x).poolWaiters = s.poolWaiters := rfl
@[simp] theorem State.setBank_hqueues (s : State) (c b : Nat) (x : Bank) : (s.setBank c b x).hqueues = s.hqueues := rfl
@[simp] theorem State.setBank_spilled (s : State) (c b : Nat) (x : Bank) : (s.setBank c b x).spilled = s.spilled := rfl
@[simp] theorem State.setBank_operands (s : State) (c b : Nat) (x : Bank) : (s.setBank c b x).operands = s.operands := rfl
@[simp] theorem State.setBank_walks (s : State) (c b : Nat) (x : Bank) : (s.setBank c b x).walks = s.walks := rfl
@[simp] theorem State.setBank_walkQueue (s : State) (c b : Nat) (x : Bank) : (s.setBank c b x).walkQueue = s.walkQueue := rfl
@[simp] theorem State.setBank_walkRr (s : State) (c b : Nat) (x : Bank) : (s.setBank c b x).walkRr = s.walkRr := rfl
@[simp] theorem State.setBank_fetches (s : State) (c b : Nat) (x : Bank) : (s.setBank c b x).fetches = s.fetches := rfl
@[simp] theorem State.setBank_collectors (s : State) (c b : Nat) (x : Bank) : (s.setBank c b x).collectors = s.collectors := rfl
@[simp] theorem State.setBank_dev (s : State) (c b : Nat) (x : Bank) : (s.setBank c b x).dev = s.dev := rfl
@[simp] theorem State.setBank_ttLaunch (s : State) (c b : Nat) (x : Bank) : (s.setBank c b x).ttLaunch = s.ttLaunch := rfl
@[simp] theorem State.setBank_excluded (s : State) (c b : Nat) (x : Bank) : (s.setBank c b x).excluded = s.excluded := rfl
@[simp] theorem State.setBank_floods (s : State) (c b : Nat) (x : Bank) : (s.setBank c b x).floods = s.floods := rfl
@[simp] theorem State.setBank_nextTag (s : State) (c b : Nat) (x : Bank) : (s.setBank c b x).nextTag = s.nextTag := rfl
@[simp] theorem State.setBank_farReqs (s : State) (c b : Nat) (x : Bank) : (s.setBank c b x).farReqs = s.farReqs := rfl
@[simp] theorem State.setBank_hubLines (s : State) (c b : Nat) (x : Bank) : (s.setBank c b x).hubLines = s.hubLines := rfl
@[simp] theorem State.setBank_flitsOut (s : State) (c b : Nat) (x : Bank) : (s.setBank c b x).flitsOut = s.flitsOut := rfl
@[simp] theorem State.setBank_replay (s : State) (c b : Nat) (x : Bank) : (s.setBank c b x).replay = s.replay := rfl
@[simp] theorem State.setBank_txSeq (s : State) (c b : Nat) (x : Bank) : (s.setBank c b x).txSeq = s.txSeq := rfl
@[simp] theorem State.setBank_rxSeq (s : State) (c b : Nat) (x : Bank) : (s.setBank c b x).rxSeq = s.rxSeq := rfl
@[simp] theorem State.setBank_ordQueue (s : State) (c b : Nat) (x : Bank) : (s.setBank c b x).ordQueue = s.ordQueue := rfl
@[simp] theorem State.setBank_held (s : State) (c b : Nat) (x : Bank) : (s.setBank c b x).held = s.held := rfl
@[simp] theorem State.setBank_proxies (s : State) (c b : Nat) (x : Bank) : (s.setBank c b x).proxies = s.proxies := rfl
@[simp] theorem State.setBank_net (s : State) (c b : Nat) (x : Bank) : (s.setBank c b x).net = s.net := rfl
@[simp] theorem State.setBank_errorId (s : State) (c b : Nat) (x : Bank) : (s.setBank c b x).errorId = s.errorId := rfl
@[simp] theorem State.setBank_notices (s : State) (c b : Nat) (x : Bank) : (s.setBank c b x).notices = s.notices := rfl
@[simp] theorem State.setBank_sramErrors (s : State) (c b : Nat) (x : Bank) : (s.setBank c b x).sramErrors = s.sramErrors := rfl
@[simp] theorem State.setBank_shadow (s : State) (c b : Nat) (x : Bank) : (s.setBank c b x).shadow = s.shadow := rfl
@[simp] theorem State.setBank_lock (s : State) (c b : Nat) (x : Bank) : (s.setBank c b x).lock = s.lock := rfl
@[simp] theorem State.setBank_thermal (s : State) (c b : Nat) (x : Bank) : (s.setBank c b x).thermal = s.thermal := rfl
@[simp] theorem State.setBank_mram (s : State) (c b : Nat) (x : Bank) : (s.setBank c b x).mram = s.mram := rfl
@[simp] theorem State.setBank_boot (s : State) (c b : Nat) (x : Bank) : (s.setBank c b x).boot = s.boot := rfl
@[simp] theorem State.setBank_fwVector (s : State) (c b : Nat) (x : Bank) : (s.setBank c b x).fwVector = s.fwVector := rfl
@[simp] theorem State.setBank_fwMeasure (s : State) (c b : Nat) (x : Bank) : (s.setBank c b x).fwMeasure = s.fwMeasure := rfl
@[simp] theorem State.setBank_cfgMeasure (s : State) (c b : Nat) (x : Bank) : (s.setBank c b x).cfgMeasure = s.cfgMeasure := rfl
@[simp] theorem State.setBank_hostOut (s : State) (c b : Nat) (x : Bank) : (s.setBank c b x).hostOut = s.hostOut := rfl
@[simp] theorem State.setBank_hostTs (s : State) (c b : Nat) (x : Bank) : (s.setBank c b x).hostTs = s.hostTs := rfl
@[simp] theorem State.setBank_attest (s : State) (c b : Nat) (x : Bank) : (s.setBank c b x).attest = s.attest := rfl
@[simp] theorem State.setBank_lifeDue (s : State) (c b : Nat) (x : Bank) : (s.setBank c b x).lifeDue = s.lifeDue := rfl
@[simp] theorem State.setBank_draws (s : State) (c b : Nat) (x : Bank) : (s.setBank c b x).draws = s.draws := rfl
@[simp] theorem State.setBank_timers (s : State) (c b : Nat) (x : Bank) : (s.setBank c b x).timers = s.timers := rfl
@[simp] theorem State.setBank_rxAsk (s : State) (c b : Nat) (x : Bank) : (s.setBank c b x).rxAsk = s.rxAsk := rfl
@[simp] theorem State.setBank_txAsk (s : State) (c b : Nat) (x : Bank) : (s.setBank c b x).txAsk = s.txAsk := rfl
@[simp] theorem State.setBank_portQueue (s : State) (c b : Nat) (x : Bank) : (s.setBank c b x).portQueue = s.portQueue := rfl
@[simp] theorem State.setBank_pubNext (s : State) (c b : Nat) (x : Bank) : (s.setBank c b x).pubNext = s.pubNext := rfl
@[simp] theorem State.setBank_distNext (s : State) (c b : Nat) (x : Bank) : (s.setBank c b x).distNext = s.distNext := rfl
@[simp] theorem State.setBank_period (s : State) (c b : Nat) (x : Bank) : (s.setBank c b x).period = s.period := rfl
@[simp] theorem State.setBank_firing (s : State) (c b : Nat) (x : Bank) : (s.setBank c b x).firing = s.firing := rfl
@[simp] theorem State.setBank_orphanOut (s : State) (c b : Nat) (x : Bank) : (s.setBank c b x).orphanOut = s.orphanOut := rfl

/-! ### State.push -/

@[simp] theorem State.push_focus (s : State) (e : Event) : (s.push e).focus = s.focus := rfl
@[simp] theorem State.push_agenda (s : State) (e : Event) : (s.push e).agenda = s.agenda ++ [e] := rfl
@[simp] theorem State.push_choices (s : State) (e : Event) : (s.push e).choices = s.choices := rfl
@[simp] theorem State.push_cur (s : State) (e : Event) : (s.push e).cur = s.cur := rfl
@[simp] theorem State.push_curWalk (s : State) (e : Event) : (s.push e).curWalk = s.curWalk := rfl
@[simp] theorem State.push_nextId (s : State) (e : Event) : (s.push e).nextId = s.nextId := rfl
@[simp] theorem State.push_cycle (s : State) (e : Event) : (s.push e).cycle = s.cycle := rfl
@[simp] theorem State.push_ticks (s : State) (e : Event) : (s.push e).ticks = s.ticks := rfl
@[simp] theorem State.push_hubNs (s : State) (e : Event) : (s.push e).hubNs = s.hubNs := rfl
@[simp] theorem State.push_slots (s : State) (e : Event) : (s.push e).slots = s.slots := rfl
@[simp] theorem State.push_cores (s : State) (e : Event) : (s.push e).cores = s.cores := rfl
@[simp] theorem State.push_tiles (s : State) (e : Event) : (s.push e).tiles = s.tiles := rfl
@[simp] theorem State.push_mem (s : State) (e : Event) : (s.push e).mem = s.mem := rfl
@[simp] theorem State.push_bad (s : State) (e : Event) : (s.push e).bad = s.bad := rfl
@[simp] theorem State.push_lineTs (s : State) (e : Event) : (s.push e).lineTs = s.lineTs := rfl
@[simp] theorem State.push_evictTs (s : State) (e : Event) : (s.push e).evictTs = s.evictTs := rfl
@[simp] theorem State.push_counterTs (s : State) (e : Event) : (s.push e).counterTs = s.counterTs := rfl
@[simp] theorem State.push_dirty (s : State) (e : Event) : (s.push e).dirty = s.dirty := rfl
@[simp] theorem State.push_outWrites (s : State) (e : Event) : (s.push e).outWrites = s.outWrites := rfl
@[simp] theorem State.push_copies (s : State) (e : Event) : (s.push e).copies = s.copies := rfl
@[simp] theorem State.push_constLines (s : State) (e : Event) : (s.push e).constLines = s.constLines := rfl
@[simp] theorem State.push_tlb (s : State) (e : Event) : (s.push e).tlb = s.tlb := rfl
@[simp] theorem State.push_walkCache (s : State) (e : Event) : (s.push e).walkCache = s.walkCache := rfl
@[simp] theorem State.push_tids (s : State) (e : Event) : (s.push e).tids = s.tids := rfl
@[simp] theorem State.push_keyRanges (s : State) (e : Event) : (s.push e).keyRanges = s.keyRanges := rfl
@[simp] theorem State.push_banks (s : State) (e : Event) : (s.push e).banks = s.banks := rfl
@[simp] theorem State.push_ccdrain (s : State) (e : Event) : (s.push e).ccdrain = s.ccdrain := rfl
@[simp] theorem State.push_published (s : State) (e : Event) : (s.push e).published = s.published := rfl
@[simp] theorem State.push_dist (s : State) (e : Event) : (s.push e).dist = s.dist := rfl
@[simp] theorem State.push_peers (s : State) (e : Event) : (s.push e).peers = s.peers := rfl
@[simp] theorem State.push_runs (s : State) (e : Event) : (s.push e).runs = s.runs := rfl
@[simp] theorem State.push_rrCtx (s : State) (e : Event) : (s.push e).rrCtx = s.rrCtx := rfl
@[simp] theorem State.push_hopping (s : State) (e : Event) : (s.push e).hopping = s.hopping := rfl
@[simp] theorem State.push_launches (s : State) (e : Event) : (s.push e).launches = s.launches := rfl
@[simp] theorem State.push_cbs (s : State) (e : Event) : (s.push e).cbs = s.cbs := rfl
@[simp] theorem State.push_waits (s : State) (e : Event) : (s.push e).waits = s.waits := rfl
@[simp] theorem State.push_pools (s : State) (e : Event) : (s.push e).pools = s.pools := rfl
@[simp] theorem State.push_poolWaiters (s : State) (e : Event) : (s.push e).poolWaiters = s.poolWaiters := rfl
@[simp] theorem State.push_hqueues (s : State) (e : Event) : (s.push e).hqueues = s.hqueues := rfl
@[simp] theorem State.push_spilled (s : State) (e : Event) : (s.push e).spilled = s.spilled := rfl
@[simp] theorem State.push_operands (s : State) (e : Event) : (s.push e).operands = s.operands := rfl
@[simp] theorem State.push_walks (s : State) (e : Event) : (s.push e).walks = s.walks := rfl
@[simp] theorem State.push_walkQueue (s : State) (e : Event) : (s.push e).walkQueue = s.walkQueue := rfl
@[simp] theorem State.push_walkRr (s : State) (e : Event) : (s.push e).walkRr = s.walkRr := rfl
@[simp] theorem State.push_fetches (s : State) (e : Event) : (s.push e).fetches = s.fetches := rfl
@[simp] theorem State.push_collectors (s : State) (e : Event) : (s.push e).collectors = s.collectors := rfl
@[simp] theorem State.push_dev (s : State) (e : Event) : (s.push e).dev = s.dev := rfl
@[simp] theorem State.push_ttLaunch (s : State) (e : Event) : (s.push e).ttLaunch = s.ttLaunch := rfl
@[simp] theorem State.push_excluded (s : State) (e : Event) : (s.push e).excluded = s.excluded := rfl
@[simp] theorem State.push_floods (s : State) (e : Event) : (s.push e).floods = s.floods := rfl
@[simp] theorem State.push_nextTag (s : State) (e : Event) : (s.push e).nextTag = s.nextTag := rfl
@[simp] theorem State.push_farReqs (s : State) (e : Event) : (s.push e).farReqs = s.farReqs := rfl
@[simp] theorem State.push_hubLines (s : State) (e : Event) : (s.push e).hubLines = s.hubLines := rfl
@[simp] theorem State.push_flitsOut (s : State) (e : Event) : (s.push e).flitsOut = s.flitsOut := rfl
@[simp] theorem State.push_replay (s : State) (e : Event) : (s.push e).replay = s.replay := rfl
@[simp] theorem State.push_txSeq (s : State) (e : Event) : (s.push e).txSeq = s.txSeq := rfl
@[simp] theorem State.push_rxSeq (s : State) (e : Event) : (s.push e).rxSeq = s.rxSeq := rfl
@[simp] theorem State.push_ordQueue (s : State) (e : Event) : (s.push e).ordQueue = s.ordQueue := rfl
@[simp] theorem State.push_held (s : State) (e : Event) : (s.push e).held = s.held := rfl
@[simp] theorem State.push_proxies (s : State) (e : Event) : (s.push e).proxies = s.proxies := rfl
@[simp] theorem State.push_net (s : State) (e : Event) : (s.push e).net = s.net := rfl
@[simp] theorem State.push_errorId (s : State) (e : Event) : (s.push e).errorId = s.errorId := rfl
@[simp] theorem State.push_notices (s : State) (e : Event) : (s.push e).notices = s.notices := rfl
@[simp] theorem State.push_sramErrors (s : State) (e : Event) : (s.push e).sramErrors = s.sramErrors := rfl
@[simp] theorem State.push_shadow (s : State) (e : Event) : (s.push e).shadow = s.shadow := rfl
@[simp] theorem State.push_lock (s : State) (e : Event) : (s.push e).lock = s.lock := rfl
@[simp] theorem State.push_thermal (s : State) (e : Event) : (s.push e).thermal = s.thermal := rfl
@[simp] theorem State.push_mram (s : State) (e : Event) : (s.push e).mram = s.mram := rfl
@[simp] theorem State.push_boot (s : State) (e : Event) : (s.push e).boot = s.boot := rfl
@[simp] theorem State.push_fwVector (s : State) (e : Event) : (s.push e).fwVector = s.fwVector := rfl
@[simp] theorem State.push_fwMeasure (s : State) (e : Event) : (s.push e).fwMeasure = s.fwMeasure := rfl
@[simp] theorem State.push_cfgMeasure (s : State) (e : Event) : (s.push e).cfgMeasure = s.cfgMeasure := rfl
@[simp] theorem State.push_hostOut (s : State) (e : Event) : (s.push e).hostOut = s.hostOut := rfl
@[simp] theorem State.push_hostTs (s : State) (e : Event) : (s.push e).hostTs = s.hostTs := rfl
@[simp] theorem State.push_attest (s : State) (e : Event) : (s.push e).attest = s.attest := rfl
@[simp] theorem State.push_lifeDue (s : State) (e : Event) : (s.push e).lifeDue = s.lifeDue := rfl
@[simp] theorem State.push_draws (s : State) (e : Event) : (s.push e).draws = s.draws := rfl
@[simp] theorem State.push_timers (s : State) (e : Event) : (s.push e).timers = s.timers := rfl
@[simp] theorem State.push_rxAsk (s : State) (e : Event) : (s.push e).rxAsk = s.rxAsk := rfl
@[simp] theorem State.push_txAsk (s : State) (e : Event) : (s.push e).txAsk = s.txAsk := rfl
@[simp] theorem State.push_portQueue (s : State) (e : Event) : (s.push e).portQueue = s.portQueue := rfl
@[simp] theorem State.push_pubNext (s : State) (e : Event) : (s.push e).pubNext = s.pubNext := rfl
@[simp] theorem State.push_distNext (s : State) (e : Event) : (s.push e).distNext = s.distNext := rfl
@[simp] theorem State.push_period (s : State) (e : Event) : (s.push e).period = s.period := rfl
@[simp] theorem State.push_firing (s : State) (e : Event) : (s.push e).firing = s.firing := rfl
@[simp] theorem State.push_orphanOut (s : State) (e : Event) : (s.push e).orphanOut = s.orphanOut := rfl

/-! ### State.pushAll -/

@[simp] theorem State.pushAll_focus (s : State) (es : List Event) : (s.pushAll es).focus = s.focus := rfl
@[simp] theorem State.pushAll_agenda (s : State) (es : List Event) : (s.pushAll es).agenda = s.agenda ++ es := rfl
@[simp] theorem State.pushAll_choices (s : State) (es : List Event) : (s.pushAll es).choices = s.choices := rfl
@[simp] theorem State.pushAll_cur (s : State) (es : List Event) : (s.pushAll es).cur = s.cur := rfl
@[simp] theorem State.pushAll_curWalk (s : State) (es : List Event) : (s.pushAll es).curWalk = s.curWalk := rfl
@[simp] theorem State.pushAll_nextId (s : State) (es : List Event) : (s.pushAll es).nextId = s.nextId := rfl
@[simp] theorem State.pushAll_cycle (s : State) (es : List Event) : (s.pushAll es).cycle = s.cycle := rfl
@[simp] theorem State.pushAll_ticks (s : State) (es : List Event) : (s.pushAll es).ticks = s.ticks := rfl
@[simp] theorem State.pushAll_hubNs (s : State) (es : List Event) : (s.pushAll es).hubNs = s.hubNs := rfl
@[simp] theorem State.pushAll_slots (s : State) (es : List Event) : (s.pushAll es).slots = s.slots := rfl
@[simp] theorem State.pushAll_cores (s : State) (es : List Event) : (s.pushAll es).cores = s.cores := rfl
@[simp] theorem State.pushAll_tiles (s : State) (es : List Event) : (s.pushAll es).tiles = s.tiles := rfl
@[simp] theorem State.pushAll_mem (s : State) (es : List Event) : (s.pushAll es).mem = s.mem := rfl
@[simp] theorem State.pushAll_bad (s : State) (es : List Event) : (s.pushAll es).bad = s.bad := rfl
@[simp] theorem State.pushAll_lineTs (s : State) (es : List Event) : (s.pushAll es).lineTs = s.lineTs := rfl
@[simp] theorem State.pushAll_evictTs (s : State) (es : List Event) : (s.pushAll es).evictTs = s.evictTs := rfl
@[simp] theorem State.pushAll_counterTs (s : State) (es : List Event) : (s.pushAll es).counterTs = s.counterTs := rfl
@[simp] theorem State.pushAll_dirty (s : State) (es : List Event) : (s.pushAll es).dirty = s.dirty := rfl
@[simp] theorem State.pushAll_outWrites (s : State) (es : List Event) : (s.pushAll es).outWrites = s.outWrites := rfl
@[simp] theorem State.pushAll_copies (s : State) (es : List Event) : (s.pushAll es).copies = s.copies := rfl
@[simp] theorem State.pushAll_constLines (s : State) (es : List Event) : (s.pushAll es).constLines = s.constLines := rfl
@[simp] theorem State.pushAll_tlb (s : State) (es : List Event) : (s.pushAll es).tlb = s.tlb := rfl
@[simp] theorem State.pushAll_walkCache (s : State) (es : List Event) : (s.pushAll es).walkCache = s.walkCache := rfl
@[simp] theorem State.pushAll_tids (s : State) (es : List Event) : (s.pushAll es).tids = s.tids := rfl
@[simp] theorem State.pushAll_keyRanges (s : State) (es : List Event) : (s.pushAll es).keyRanges = s.keyRanges := rfl
@[simp] theorem State.pushAll_banks (s : State) (es : List Event) : (s.pushAll es).banks = s.banks := rfl
@[simp] theorem State.pushAll_ccdrain (s : State) (es : List Event) : (s.pushAll es).ccdrain = s.ccdrain := rfl
@[simp] theorem State.pushAll_published (s : State) (es : List Event) : (s.pushAll es).published = s.published := rfl
@[simp] theorem State.pushAll_dist (s : State) (es : List Event) : (s.pushAll es).dist = s.dist := rfl
@[simp] theorem State.pushAll_peers (s : State) (es : List Event) : (s.pushAll es).peers = s.peers := rfl
@[simp] theorem State.pushAll_runs (s : State) (es : List Event) : (s.pushAll es).runs = s.runs := rfl
@[simp] theorem State.pushAll_rrCtx (s : State) (es : List Event) : (s.pushAll es).rrCtx = s.rrCtx := rfl
@[simp] theorem State.pushAll_hopping (s : State) (es : List Event) : (s.pushAll es).hopping = s.hopping := rfl
@[simp] theorem State.pushAll_launches (s : State) (es : List Event) : (s.pushAll es).launches = s.launches := rfl
@[simp] theorem State.pushAll_cbs (s : State) (es : List Event) : (s.pushAll es).cbs = s.cbs := rfl
@[simp] theorem State.pushAll_waits (s : State) (es : List Event) : (s.pushAll es).waits = s.waits := rfl
@[simp] theorem State.pushAll_pools (s : State) (es : List Event) : (s.pushAll es).pools = s.pools := rfl
@[simp] theorem State.pushAll_poolWaiters (s : State) (es : List Event) : (s.pushAll es).poolWaiters = s.poolWaiters := rfl
@[simp] theorem State.pushAll_hqueues (s : State) (es : List Event) : (s.pushAll es).hqueues = s.hqueues := rfl
@[simp] theorem State.pushAll_spilled (s : State) (es : List Event) : (s.pushAll es).spilled = s.spilled := rfl
@[simp] theorem State.pushAll_operands (s : State) (es : List Event) : (s.pushAll es).operands = s.operands := rfl
@[simp] theorem State.pushAll_walks (s : State) (es : List Event) : (s.pushAll es).walks = s.walks := rfl
@[simp] theorem State.pushAll_walkQueue (s : State) (es : List Event) : (s.pushAll es).walkQueue = s.walkQueue := rfl
@[simp] theorem State.pushAll_walkRr (s : State) (es : List Event) : (s.pushAll es).walkRr = s.walkRr := rfl
@[simp] theorem State.pushAll_fetches (s : State) (es : List Event) : (s.pushAll es).fetches = s.fetches := rfl
@[simp] theorem State.pushAll_collectors (s : State) (es : List Event) : (s.pushAll es).collectors = s.collectors := rfl
@[simp] theorem State.pushAll_dev (s : State) (es : List Event) : (s.pushAll es).dev = s.dev := rfl
@[simp] theorem State.pushAll_ttLaunch (s : State) (es : List Event) : (s.pushAll es).ttLaunch = s.ttLaunch := rfl
@[simp] theorem State.pushAll_excluded (s : State) (es : List Event) : (s.pushAll es).excluded = s.excluded := rfl
@[simp] theorem State.pushAll_floods (s : State) (es : List Event) : (s.pushAll es).floods = s.floods := rfl
@[simp] theorem State.pushAll_nextTag (s : State) (es : List Event) : (s.pushAll es).nextTag = s.nextTag := rfl
@[simp] theorem State.pushAll_farReqs (s : State) (es : List Event) : (s.pushAll es).farReqs = s.farReqs := rfl
@[simp] theorem State.pushAll_hubLines (s : State) (es : List Event) : (s.pushAll es).hubLines = s.hubLines := rfl
@[simp] theorem State.pushAll_flitsOut (s : State) (es : List Event) : (s.pushAll es).flitsOut = s.flitsOut := rfl
@[simp] theorem State.pushAll_replay (s : State) (es : List Event) : (s.pushAll es).replay = s.replay := rfl
@[simp] theorem State.pushAll_txSeq (s : State) (es : List Event) : (s.pushAll es).txSeq = s.txSeq := rfl
@[simp] theorem State.pushAll_rxSeq (s : State) (es : List Event) : (s.pushAll es).rxSeq = s.rxSeq := rfl
@[simp] theorem State.pushAll_ordQueue (s : State) (es : List Event) : (s.pushAll es).ordQueue = s.ordQueue := rfl
@[simp] theorem State.pushAll_held (s : State) (es : List Event) : (s.pushAll es).held = s.held := rfl
@[simp] theorem State.pushAll_proxies (s : State) (es : List Event) : (s.pushAll es).proxies = s.proxies := rfl
@[simp] theorem State.pushAll_net (s : State) (es : List Event) : (s.pushAll es).net = s.net := rfl
@[simp] theorem State.pushAll_errorId (s : State) (es : List Event) : (s.pushAll es).errorId = s.errorId := rfl
@[simp] theorem State.pushAll_notices (s : State) (es : List Event) : (s.pushAll es).notices = s.notices := rfl
@[simp] theorem State.pushAll_sramErrors (s : State) (es : List Event) : (s.pushAll es).sramErrors = s.sramErrors := rfl
@[simp] theorem State.pushAll_shadow (s : State) (es : List Event) : (s.pushAll es).shadow = s.shadow := rfl
@[simp] theorem State.pushAll_lock (s : State) (es : List Event) : (s.pushAll es).lock = s.lock := rfl
@[simp] theorem State.pushAll_thermal (s : State) (es : List Event) : (s.pushAll es).thermal = s.thermal := rfl
@[simp] theorem State.pushAll_mram (s : State) (es : List Event) : (s.pushAll es).mram = s.mram := rfl
@[simp] theorem State.pushAll_boot (s : State) (es : List Event) : (s.pushAll es).boot = s.boot := rfl
@[simp] theorem State.pushAll_fwVector (s : State) (es : List Event) : (s.pushAll es).fwVector = s.fwVector := rfl
@[simp] theorem State.pushAll_fwMeasure (s : State) (es : List Event) : (s.pushAll es).fwMeasure = s.fwMeasure := rfl
@[simp] theorem State.pushAll_cfgMeasure (s : State) (es : List Event) : (s.pushAll es).cfgMeasure = s.cfgMeasure := rfl
@[simp] theorem State.pushAll_hostOut (s : State) (es : List Event) : (s.pushAll es).hostOut = s.hostOut := rfl
@[simp] theorem State.pushAll_hostTs (s : State) (es : List Event) : (s.pushAll es).hostTs = s.hostTs := rfl
@[simp] theorem State.pushAll_attest (s : State) (es : List Event) : (s.pushAll es).attest = s.attest := rfl
@[simp] theorem State.pushAll_lifeDue (s : State) (es : List Event) : (s.pushAll es).lifeDue = s.lifeDue := rfl
@[simp] theorem State.pushAll_draws (s : State) (es : List Event) : (s.pushAll es).draws = s.draws := rfl
@[simp] theorem State.pushAll_timers (s : State) (es : List Event) : (s.pushAll es).timers = s.timers := rfl
@[simp] theorem State.pushAll_rxAsk (s : State) (es : List Event) : (s.pushAll es).rxAsk = s.rxAsk := rfl
@[simp] theorem State.pushAll_txAsk (s : State) (es : List Event) : (s.pushAll es).txAsk = s.txAsk := rfl
@[simp] theorem State.pushAll_portQueue (s : State) (es : List Event) : (s.pushAll es).portQueue = s.portQueue := rfl
@[simp] theorem State.pushAll_pubNext (s : State) (es : List Event) : (s.pushAll es).pubNext = s.pubNext := rfl
@[simp] theorem State.pushAll_distNext (s : State) (es : List Event) : (s.pushAll es).distNext = s.distNext := rfl
@[simp] theorem State.pushAll_period (s : State) (es : List Event) : (s.pushAll es).period = s.period := rfl
@[simp] theorem State.pushAll_firing (s : State) (es : List Event) : (s.pushAll es).firing = s.firing := rfl
@[simp] theorem State.pushAll_orphanOut (s : State) (es : List Event) : (s.pushAll es).orphanOut = s.orphanOut := rfl

/-! ### State.setReg -/

@[simp] theorem State.setReg_focus (s : State) (o : Nat) (v : Word) : (s.setReg o v).focus = s.focus := rfl
@[simp] theorem State.setReg_agenda (s : State) (o : Nat) (v : Word) : (s.setReg o v).agenda = s.agenda := rfl
@[simp] theorem State.setReg_choices (s : State) (o : Nat) (v : Word) : (s.setReg o v).choices = s.choices := rfl
@[simp] theorem State.setReg_cur (s : State) (o : Nat) (v : Word) : (s.setReg o v).cur = s.cur := rfl
@[simp] theorem State.setReg_curWalk (s : State) (o : Nat) (v : Word) : (s.setReg o v).curWalk = s.curWalk := rfl
@[simp] theorem State.setReg_nextId (s : State) (o : Nat) (v : Word) : (s.setReg o v).nextId = s.nextId := rfl
@[simp] theorem State.setReg_cycle (s : State) (o : Nat) (v : Word) : (s.setReg o v).cycle = s.cycle := rfl
@[simp] theorem State.setReg_ticks (s : State) (o : Nat) (v : Word) : (s.setReg o v).ticks = s.ticks := rfl
@[simp] theorem State.setReg_hubNs (s : State) (o : Nat) (v : Word) : (s.setReg o v).hubNs = s.hubNs := rfl
@[simp] theorem State.setReg_slots (s : State) (o : Nat) (v : Word) : (s.setReg o v).slots = s.slots := rfl
@[simp] theorem State.setReg_cores (s : State) (o : Nat) (v : Word) : (s.setReg o v).cores = s.cores := rfl
@[simp] theorem State.setReg_tiles (s : State) (o : Nat) (v : Word) : (s.setReg o v).tiles = s.tiles := rfl
@[simp] theorem State.setReg_mem (s : State) (o : Nat) (v : Word) : (s.setReg o v).mem = s.mem := rfl
@[simp] theorem State.setReg_bad (s : State) (o : Nat) (v : Word) : (s.setReg o v).bad = s.bad := rfl
@[simp] theorem State.setReg_lineTs (s : State) (o : Nat) (v : Word) : (s.setReg o v).lineTs = s.lineTs := rfl
@[simp] theorem State.setReg_evictTs (s : State) (o : Nat) (v : Word) : (s.setReg o v).evictTs = s.evictTs := rfl
@[simp] theorem State.setReg_counterTs (s : State) (o : Nat) (v : Word) : (s.setReg o v).counterTs = s.counterTs := rfl
@[simp] theorem State.setReg_dirty (s : State) (o : Nat) (v : Word) : (s.setReg o v).dirty = s.dirty := rfl
@[simp] theorem State.setReg_outWrites (s : State) (o : Nat) (v : Word) : (s.setReg o v).outWrites = s.outWrites := rfl
@[simp] theorem State.setReg_copies (s : State) (o : Nat) (v : Word) : (s.setReg o v).copies = s.copies := rfl
@[simp] theorem State.setReg_constLines (s : State) (o : Nat) (v : Word) : (s.setReg o v).constLines = s.constLines := rfl
@[simp] theorem State.setReg_tlb (s : State) (o : Nat) (v : Word) : (s.setReg o v).tlb = s.tlb := rfl
@[simp] theorem State.setReg_walkCache (s : State) (o : Nat) (v : Word) : (s.setReg o v).walkCache = s.walkCache := rfl
@[simp] theorem State.setReg_tids (s : State) (o : Nat) (v : Word) : (s.setReg o v).tids = s.tids := rfl
@[simp] theorem State.setReg_keyRanges (s : State) (o : Nat) (v : Word) : (s.setReg o v).keyRanges = s.keyRanges := rfl
@[simp] theorem State.setReg_banks (s : State) (o : Nat) (v : Word) : (s.setReg o v).banks = s.banks := rfl
@[simp] theorem State.setReg_ccdrain (s : State) (o : Nat) (v : Word) : (s.setReg o v).ccdrain = s.ccdrain := rfl
@[simp] theorem State.setReg_published (s : State) (o : Nat) (v : Word) : (s.setReg o v).published = s.published := rfl
@[simp] theorem State.setReg_dist (s : State) (o : Nat) (v : Word) : (s.setReg o v).dist = s.dist := rfl
@[simp] theorem State.setReg_peers (s : State) (o : Nat) (v : Word) : (s.setReg o v).peers = s.peers := rfl
@[simp] theorem State.setReg_runs (s : State) (o : Nat) (v : Word) : (s.setReg o v).runs = s.runs := rfl
@[simp] theorem State.setReg_rrCtx (s : State) (o : Nat) (v : Word) : (s.setReg o v).rrCtx = s.rrCtx := rfl
@[simp] theorem State.setReg_hopping (s : State) (o : Nat) (v : Word) : (s.setReg o v).hopping = s.hopping := rfl
@[simp] theorem State.setReg_launches (s : State) (o : Nat) (v : Word) : (s.setReg o v).launches = s.launches := rfl
@[simp] theorem State.setReg_cbs (s : State) (o : Nat) (v : Word) : (s.setReg o v).cbs = s.cbs := rfl
@[simp] theorem State.setReg_waits (s : State) (o : Nat) (v : Word) : (s.setReg o v).waits = s.waits := rfl
@[simp] theorem State.setReg_pools (s : State) (o : Nat) (v : Word) : (s.setReg o v).pools = s.pools := rfl
@[simp] theorem State.setReg_poolWaiters (s : State) (o : Nat) (v : Word) : (s.setReg o v).poolWaiters = s.poolWaiters := rfl
@[simp] theorem State.setReg_hqueues (s : State) (o : Nat) (v : Word) : (s.setReg o v).hqueues = s.hqueues := rfl
@[simp] theorem State.setReg_spilled (s : State) (o : Nat) (v : Word) : (s.setReg o v).spilled = s.spilled := rfl
@[simp] theorem State.setReg_operands (s : State) (o : Nat) (v : Word) : (s.setReg o v).operands = s.operands := rfl
@[simp] theorem State.setReg_walks (s : State) (o : Nat) (v : Word) : (s.setReg o v).walks = s.walks := rfl
@[simp] theorem State.setReg_walkQueue (s : State) (o : Nat) (v : Word) : (s.setReg o v).walkQueue = s.walkQueue := rfl
@[simp] theorem State.setReg_walkRr (s : State) (o : Nat) (v : Word) : (s.setReg o v).walkRr = s.walkRr := rfl
@[simp] theorem State.setReg_fetches (s : State) (o : Nat) (v : Word) : (s.setReg o v).fetches = s.fetches := rfl
@[simp] theorem State.setReg_collectors (s : State) (o : Nat) (v : Word) : (s.setReg o v).collectors = s.collectors := rfl
@[simp] theorem State.setReg_dev (s : State) (o : Nat) (v : Word) : (s.setReg o v).dev = putAt s.dev (o / 8) v := rfl
@[simp] theorem State.setReg_ttLaunch (s : State) (o : Nat) (v : Word) : (s.setReg o v).ttLaunch = s.ttLaunch := rfl
@[simp] theorem State.setReg_excluded (s : State) (o : Nat) (v : Word) : (s.setReg o v).excluded = s.excluded := rfl
@[simp] theorem State.setReg_floods (s : State) (o : Nat) (v : Word) : (s.setReg o v).floods = s.floods := rfl
@[simp] theorem State.setReg_nextTag (s : State) (o : Nat) (v : Word) : (s.setReg o v).nextTag = s.nextTag := rfl
@[simp] theorem State.setReg_farReqs (s : State) (o : Nat) (v : Word) : (s.setReg o v).farReqs = s.farReqs := rfl
@[simp] theorem State.setReg_hubLines (s : State) (o : Nat) (v : Word) : (s.setReg o v).hubLines = s.hubLines := rfl
@[simp] theorem State.setReg_flitsOut (s : State) (o : Nat) (v : Word) : (s.setReg o v).flitsOut = s.flitsOut := rfl
@[simp] theorem State.setReg_replay (s : State) (o : Nat) (v : Word) : (s.setReg o v).replay = s.replay := rfl
@[simp] theorem State.setReg_txSeq (s : State) (o : Nat) (v : Word) : (s.setReg o v).txSeq = s.txSeq := rfl
@[simp] theorem State.setReg_rxSeq (s : State) (o : Nat) (v : Word) : (s.setReg o v).rxSeq = s.rxSeq := rfl
@[simp] theorem State.setReg_ordQueue (s : State) (o : Nat) (v : Word) : (s.setReg o v).ordQueue = s.ordQueue := rfl
@[simp] theorem State.setReg_held (s : State) (o : Nat) (v : Word) : (s.setReg o v).held = s.held := rfl
@[simp] theorem State.setReg_proxies (s : State) (o : Nat) (v : Word) : (s.setReg o v).proxies = s.proxies := rfl
@[simp] theorem State.setReg_net (s : State) (o : Nat) (v : Word) : (s.setReg o v).net = s.net := rfl
@[simp] theorem State.setReg_errorId (s : State) (o : Nat) (v : Word) : (s.setReg o v).errorId = s.errorId := rfl
@[simp] theorem State.setReg_notices (s : State) (o : Nat) (v : Word) : (s.setReg o v).notices = s.notices := rfl
@[simp] theorem State.setReg_sramErrors (s : State) (o : Nat) (v : Word) : (s.setReg o v).sramErrors = s.sramErrors := rfl
@[simp] theorem State.setReg_shadow (s : State) (o : Nat) (v : Word) : (s.setReg o v).shadow = s.shadow := rfl
@[simp] theorem State.setReg_lock (s : State) (o : Nat) (v : Word) : (s.setReg o v).lock = s.lock := rfl
@[simp] theorem State.setReg_thermal (s : State) (o : Nat) (v : Word) : (s.setReg o v).thermal = s.thermal := rfl
@[simp] theorem State.setReg_mram (s : State) (o : Nat) (v : Word) : (s.setReg o v).mram = s.mram := rfl
@[simp] theorem State.setReg_boot (s : State) (o : Nat) (v : Word) : (s.setReg o v).boot = s.boot := rfl
@[simp] theorem State.setReg_fwVector (s : State) (o : Nat) (v : Word) : (s.setReg o v).fwVector = s.fwVector := rfl
@[simp] theorem State.setReg_fwMeasure (s : State) (o : Nat) (v : Word) : (s.setReg o v).fwMeasure = s.fwMeasure := rfl
@[simp] theorem State.setReg_cfgMeasure (s : State) (o : Nat) (v : Word) : (s.setReg o v).cfgMeasure = s.cfgMeasure := rfl
@[simp] theorem State.setReg_hostOut (s : State) (o : Nat) (v : Word) : (s.setReg o v).hostOut = s.hostOut := rfl
@[simp] theorem State.setReg_hostTs (s : State) (o : Nat) (v : Word) : (s.setReg o v).hostTs = s.hostTs := rfl
@[simp] theorem State.setReg_attest (s : State) (o : Nat) (v : Word) : (s.setReg o v).attest = s.attest := rfl
@[simp] theorem State.setReg_lifeDue (s : State) (o : Nat) (v : Word) : (s.setReg o v).lifeDue = s.lifeDue := rfl
@[simp] theorem State.setReg_draws (s : State) (o : Nat) (v : Word) : (s.setReg o v).draws = s.draws := rfl
@[simp] theorem State.setReg_timers (s : State) (o : Nat) (v : Word) : (s.setReg o v).timers = s.timers := rfl
@[simp] theorem State.setReg_rxAsk (s : State) (o : Nat) (v : Word) : (s.setReg o v).rxAsk = s.rxAsk := rfl
@[simp] theorem State.setReg_txAsk (s : State) (o : Nat) (v : Word) : (s.setReg o v).txAsk = s.txAsk := rfl
@[simp] theorem State.setReg_portQueue (s : State) (o : Nat) (v : Word) : (s.setReg o v).portQueue = s.portQueue := rfl
@[simp] theorem State.setReg_pubNext (s : State) (o : Nat) (v : Word) : (s.setReg o v).pubNext = s.pubNext := rfl
@[simp] theorem State.setReg_distNext (s : State) (o : Nat) (v : Word) : (s.setReg o v).distNext = s.distNext := rfl
@[simp] theorem State.setReg_period (s : State) (o : Nat) (v : Word) : (s.setReg o v).period = s.period := rfl
@[simp] theorem State.setReg_firing (s : State) (o : Nat) (v : Word) : (s.setReg o v).firing = s.firing := rfl
@[simp] theorem State.setReg_orphanOut (s : State) (o : Nat) (v : Word) : (s.setReg o v).orphanOut = s.orphanOut := rfl

/-! ### Slot.setP -/

@[simp] theorem Slot.setP_state (x : Slot) (p : BitVec 3) (v : Word) (m : Taint) : (x.setP p v m).state = x.state := rfl
@[simp] theorem Slot.setP_gen (x : Slot) (p : BitVec 3) (v : Word) (m : Taint) : (x.setP p v m).gen = x.gen := rfl
@[simp] theorem Slot.setP_reserved (x : Slot) (p : BitVec 3) (v : Word) (m : Taint) : (x.setP p v m).reserved = x.reserved := rfl
@[simp] theorem Slot.setP_kind (x : Slot) (p : BitVec 3) (v : Word) (m : Taint) : (x.setP p v m).kind = x.kind := rfl
@[simp] theorem Slot.setP_ctx (x : Slot) (p : BitVec 3) (v : Word) (m : Taint) : (x.setP p v m).ctx = x.ctx := rfl
@[simp] theorem Slot.setP_level (x : Slot) (p : BitVec 3) (v : Word) (m : Taint) : (x.setP p v m).level = x.level := rfl
@[simp] theorem Slot.setP_lrec (x : Slot) (p : BitVec 3) (v : Word) (m : Taint) : (x.setP p v m).lrec = x.lrec := rfl
@[simp] theorem Slot.setP_queue (x : Slot) (p : BitVec 3) (v : Word) (m : Taint) : (x.setP p v m).queue = x.queue := rfl
@[simp] theorem Slot.setP_notify (x : Slot) (p : BitVec 3) (v : Word) (m : Taint) : (x.setP p v m).notify = x.notify := rfl
@[simp] theorem Slot.setP_home (x : Slot) (p : BitVec 3) (v : Word) (m : Taint) : (x.setP p v m).home = x.home := rfl
@[simp] theorem Slot.setP_poolIx (x : Slot) (p : BitVec 3) (v : Word) (m : Taint) : (x.setP p v m).poolIx = x.poolIx := rfl
@[simp] theorem Slot.setP_nsreg (x : Slot) (p : BitVec 3) (v : Word) (m : Taint) : (x.setP p v m).nsreg = x.nsreg := rfl
@[simp] theorem Slot.setP_nvreg (x : Slot) (p : BitVec 3) (v : Word) (m : Taint) : (x.setP p v m).nvreg = x.nvreg := rfl
@[simp] theorem Slot.setP_spillKB (x : Slot) (p : BitVec 3) (v : Word) (m : Taint) : (x.setP p v m).spillKB = x.spillKB := rfl
@[simp] theorem Slot.setP_carve (x : Slot) (p : BitVec 3) (v : Word) (m : Taint) : (x.setP p v m).carve = x.carve := rfl
@[simp] theorem Slot.setP_pc (x : Slot) (p : BitVec 3) (v : Word) (m : Taint) : (x.setP p v m).pc = x.pc := rfl
@[simp] theorem Slot.setP_s (x : Slot) (p : BitVec 3) (v : Word) (m : Taint) : (x.setP p v m).s = x.s := rfl
@[simp] theorem Slot.setP_sMask (x : Slot) (p : BitVec 3) (v : Word) (m : Taint) : (x.setP p v m).sMask = x.sMask := rfl
@[simp] theorem Slot.setP_pstep (x : Slot) (p : BitVec 3) (v : Word) (m : Taint) : (x.setP p v m).pstep = x.pstep := rfl
@[simp] theorem Slot.setP_v (x : Slot) (p : BitVec 3) (v : Word) (m : Taint) : (x.setP p v m).v = x.v := rfl
@[simp] theorem Slot.setP_vMask (x : Slot) (p : BitVec 3) (v : Word) (m : Taint) : (x.setP p v m).vMask = x.vMask := rfl
@[simp] theorem Slot.setP_acc (x : Slot) (p : BitVec 3) (v : Word) (m : Taint) : (x.setP p v m).acc = x.acc := rfl
@[simp] theorem Slot.setP_ctm (x : Slot) (p : BitVec 3) (v : Word) (m : Taint) : (x.setP p v m).ctm = x.ctm := rfl
@[simp] theorem Slot.setP_fflags (x : Slot) (p : BitVec 3) (v : Word) (m : Taint) : (x.setP p v m).fflags = x.fflags := rfl
@[simp] theorem Slot.setP_rm (x : Slot) (p : BitVec 3) (v : Word) (m : Taint) : (x.setP p v m).rm = x.rm := rfl
@[simp] theorem Slot.setP_flush (x : Slot) (p : BitVec 3) (v : Word) (m : Taint) : (x.setP p v m).flush = x.flush := rfl
@[simp] theorem Slot.setP_srseed (x : Slot) (p : BitVec 3) (v : Word) (m : Taint) : (x.setP p v m).srseed = x.srseed := rfl
@[simp] theorem Slot.setP_seqnext (x : Slot) (p : BitVec 3) (v : Word) (m : Taint) : (x.setP p v m).seqnext = x.seqnext := rfl
@[simp] theorem Slot.setP_repst (x : Slot) (p : BitVec 3) (v : Word) (m : Taint) : (x.setP p v m).repst = x.repst := rfl
@[simp] theorem Slot.setP_repcnt (x : Slot) (p : BitVec 3) (v : Word) (m : Taint) : (x.setP p v m).repcnt = x.repcnt := rfl
@[simp] theorem Slot.setP_repBody (x : Slot) (p : BitVec 3) (v : Word) (m : Taint) : (x.setP p v m).repBody = x.repBody := rfl
@[simp] theorem Slot.setP_ahead (x : Slot) (p : BitVec 3) (v : Word) (m : Taint) : (x.setP p v m).ahead = x.ahead := rfl
@[simp] theorem Slot.setP_lastspawn (x : Slot) (p : BitVec 3) (v : Word) (m : Taint) : (x.setP p v m).lastspawn = x.lastspawn := rfl
@[simp] theorem Slot.setP_cstat (x : Slot) (p : BitVec 3) (v : Word) (m : Taint) : (x.setP p v m).cstat = x.cstat := rfl
@[simp] theorem Slot.setP_strap (x : Slot) (p : BitVec 3) (v : Word) (m : Taint) : (x.setP p v m).strap = x.strap := rfl
@[simp] theorem Slot.setP_mtrap (x : Slot) (p : BitVec 3) (v : Word) (m : Taint) : (x.setP p v m).mtrap = x.mtrap := rfl
@[simp] theorem Slot.setP_plevel (x : Slot) (p : BitVec 3) (v : Word) (m : Taint) : (x.setP p v m).plevel = x.plevel := rfl
@[simp] theorem Slot.setP_slres (x : Slot) (p : BitVec 3) (v : Word) (m : Taint) : (x.setP p v m).slres = x.slres := rfl
@[simp] theorem Slot.setP_drop (x : Slot) (p : BitVec 3) (v : Word) (m : Taint) : (x.setP p v m).drop = x.drop := rfl
@[simp] theorem Slot.setP_round (x : Slot) (p : BitVec 3) (v : Word) (m : Taint) : (x.setP p v m).round = x.round := rfl
@[simp] theorem Slot.setP_passedMwait (x : Slot) (p : BitVec 3) (v : Word) (m : Taint) : (x.setP p v m).passedMwait = x.passedMwait := rfl
@[simp] theorem Slot.setP_ring (x : Slot) (p : BitVec 3) (v : Word) (m : Taint) : (x.setP p v m).ring = x.ring := rfl
@[simp] theorem Slot.setP_eset (x : Slot) (p : BitVec 3) (v : Word) (m : Taint) : (x.setP p v m).eset = x.eset := rfl
@[simp] theorem Slot.setP_loads (x : Slot) (p : BitVec 3) (v : Word) (m : Taint) : (x.setP p v m).loads = x.loads := rfl
@[simp] theorem Slot.setP_nextSerial (x : Slot) (p : BitVec 3) (v : Word) (m : Taint) : (x.setP p v m).nextSerial = x.nextSerial := rfl
@[simp] theorem Slot.setP_pts (x : Slot) (p : BitVec 3) (v : Word) (m : Taint) : (x.setP p v m).pts = x.pts := rfl
@[simp] theorem Slot.setP_touched (x : Slot) (p : BitVec 3) (v : Word) (m : Taint) : (x.setP p v m).touched = x.touched := rfl
@[simp] theorem Slot.setP_ackOwn (x : Slot) (p : BitVec 3) (v : Word) (m : Taint) : (x.setP p v m).ackOwn = x.ackOwn := rfl
@[simp] theorem Slot.setP_ackFar (x : Slot) (p : BitVec 3) (v : Word) (m : Taint) : (x.setP p v m).ackFar = x.ackFar := rfl
@[simp] theorem Slot.setP_near (x : Slot) (p : BitVec 3) (v : Word) (m : Taint) : (x.setP p v m).near = x.near := rfl
@[simp] theorem Slot.setP_dcount (x : Slot) (p : BitVec 3) (v : Word) (m : Taint) : (x.setP p v m).dcount = x.dcount := rfl
@[simp] theorem Slot.setP_relNext (x : Slot) (p : BitVec 3) (v : Word) (m : Taint) : (x.setP p v m).relNext = x.relNext := rfl
@[simp] theorem Slot.setP_relDone (x : Slot) (p : BitVec 3) (v : Word) (m : Taint) : (x.setP p v m).relDone = x.relDone := rfl
@[simp] theorem Slot.setP_wait (x : Slot) (p : BitVec 3) (v : Word) (m : Taint) : (x.setP p v m).wait = x.wait := rfl
@[simp] theorem Slot.setP_heldTraps (x : Slot) (p : BitVec 3) (v : Word) (m : Taint) : (x.setP p v m).heldTraps = x.heldTraps := rfl
@[simp] theorem Slot.setP_nak (x : Slot) (p : BitVec 3) (v : Word) (m : Taint) : (x.setP p v m).nak = x.nak := rfl
@[simp] theorem Slot.setP_yielding (x : Slot) (p : BitVec 3) (v : Word) (m : Taint) : (x.setP p v m).yielding = x.yielding := rfl
@[simp] theorem Slot.setP_yieldEnd (x : Slot) (p : BitVec 3) (v : Word) (m : Taint) : (x.setP p v m).yieldEnd = x.yieldEnd := rfl
@[simp] theorem Slot.setP_retiring (x : Slot) (p : BitVec 3) (v : Word) (m : Taint) : (x.setP p v m).retiring = x.retiring := rfl
@[simp] theorem Slot.setP_saving (x : Slot) (p : BitVec 3) (v : Word) (m : Taint) : (x.setP p v m).saving = x.saving := rfl
@[simp] theorem Slot.setP_xmark (x : Slot) (p : BitVec 3) (v : Word) (m : Taint) : (x.setP p v m).xmark = x.xmark := rfl
@[simp] theorem Slot.setP_observed (x : Slot) (p : BitVec 3) (v : Word) (m : Taint) : (x.setP p v m).observed = x.observed := rfl
@[simp] theorem Slot.setP_cstatOf (x : Slot) (p : BitVec 3) (v : Word) (m : Taint) : (x.setP p v m).cstatOf = x.cstatOf := rfl
@[simp] theorem Slot.setP_born (x : Slot) (p : BitVec 3) (v : Word) (m : Taint) : (x.setP p v m).born = x.born := rfl
@[simp] theorem Slot.setP_halted (x : Slot) (p : BitVec 3) (v : Word) (m : Taint) : (x.setP p v m).halted = x.halted := rfl
@[simp] theorem Slot.setP_fatal (x : Slot) (p : BitVec 3) (v : Word) (m : Taint) : (x.setP p v m).fatal = x.fatal := rfl
@[simp] theorem Slot.setP_dying (x : Slot) (p : BitVec 3) (v : Word) (m : Taint) : (x.setP p v m).dying = x.dying := rfl

/-! ### Slot.setPmask -/

@[simp] theorem Slot.setPmask_state (x : Slot) (p : BitVec 3) (m : Taint) : (x.setPmask p m).state = x.state := rfl
@[simp] theorem Slot.setPmask_gen (x : Slot) (p : BitVec 3) (m : Taint) : (x.setPmask p m).gen = x.gen := rfl
@[simp] theorem Slot.setPmask_reserved (x : Slot) (p : BitVec 3) (m : Taint) : (x.setPmask p m).reserved = x.reserved := rfl
@[simp] theorem Slot.setPmask_kind (x : Slot) (p : BitVec 3) (m : Taint) : (x.setPmask p m).kind = x.kind := rfl
@[simp] theorem Slot.setPmask_ctx (x : Slot) (p : BitVec 3) (m : Taint) : (x.setPmask p m).ctx = x.ctx := rfl
@[simp] theorem Slot.setPmask_level (x : Slot) (p : BitVec 3) (m : Taint) : (x.setPmask p m).level = x.level := rfl
@[simp] theorem Slot.setPmask_lrec (x : Slot) (p : BitVec 3) (m : Taint) : (x.setPmask p m).lrec = x.lrec := rfl
@[simp] theorem Slot.setPmask_queue (x : Slot) (p : BitVec 3) (m : Taint) : (x.setPmask p m).queue = x.queue := rfl
@[simp] theorem Slot.setPmask_notify (x : Slot) (p : BitVec 3) (m : Taint) : (x.setPmask p m).notify = x.notify := rfl
@[simp] theorem Slot.setPmask_home (x : Slot) (p : BitVec 3) (m : Taint) : (x.setPmask p m).home = x.home := rfl
@[simp] theorem Slot.setPmask_poolIx (x : Slot) (p : BitVec 3) (m : Taint) : (x.setPmask p m).poolIx = x.poolIx := rfl
@[simp] theorem Slot.setPmask_nsreg (x : Slot) (p : BitVec 3) (m : Taint) : (x.setPmask p m).nsreg = x.nsreg := rfl
@[simp] theorem Slot.setPmask_nvreg (x : Slot) (p : BitVec 3) (m : Taint) : (x.setPmask p m).nvreg = x.nvreg := rfl
@[simp] theorem Slot.setPmask_spillKB (x : Slot) (p : BitVec 3) (m : Taint) : (x.setPmask p m).spillKB = x.spillKB := rfl
@[simp] theorem Slot.setPmask_carve (x : Slot) (p : BitVec 3) (m : Taint) : (x.setPmask p m).carve = x.carve := rfl
@[simp] theorem Slot.setPmask_pc (x : Slot) (p : BitVec 3) (m : Taint) : (x.setPmask p m).pc = x.pc := rfl
@[simp] theorem Slot.setPmask_s (x : Slot) (p : BitVec 3) (m : Taint) : (x.setPmask p m).s = x.s := rfl
@[simp] theorem Slot.setPmask_sMask (x : Slot) (p : BitVec 3) (m : Taint) : (x.setPmask p m).sMask = x.sMask := rfl
@[simp] theorem Slot.setPmask_p (x : Slot) (p : BitVec 3) (m : Taint) : (x.setPmask p m).p = x.p := rfl
@[simp] theorem Slot.setPmask_pstep (x : Slot) (p : BitVec 3) (m : Taint) : (x.setPmask p m).pstep = x.pstep := rfl
@[simp] theorem Slot.setPmask_v (x : Slot) (p : BitVec 3) (m : Taint) : (x.setPmask p m).v = x.v := rfl
@[simp] theorem Slot.setPmask_vMask (x : Slot) (p : BitVec 3) (m : Taint) : (x.setPmask p m).vMask = x.vMask := rfl
@[simp] theorem Slot.setPmask_acc (x : Slot) (p : BitVec 3) (m : Taint) : (x.setPmask p m).acc = x.acc := rfl
@[simp] theorem Slot.setPmask_poison (x : Slot) (p : BitVec 3) (m : Taint) : (x.setPmask p m).poison = x.poison := rfl
@[simp] theorem Slot.setPmask_ctm (x : Slot) (p : BitVec 3) (m : Taint) : (x.setPmask p m).ctm = x.ctm := rfl
@[simp] theorem Slot.setPmask_fflags (x : Slot) (p : BitVec 3) (m : Taint) : (x.setPmask p m).fflags = x.fflags := rfl
@[simp] theorem Slot.setPmask_rm (x : Slot) (p : BitVec 3) (m : Taint) : (x.setPmask p m).rm = x.rm := rfl
@[simp] theorem Slot.setPmask_flush (x : Slot) (p : BitVec 3) (m : Taint) : (x.setPmask p m).flush = x.flush := rfl
@[simp] theorem Slot.setPmask_srseed (x : Slot) (p : BitVec 3) (m : Taint) : (x.setPmask p m).srseed = x.srseed := rfl
@[simp] theorem Slot.setPmask_seqnext (x : Slot) (p : BitVec 3) (m : Taint) : (x.setPmask p m).seqnext = x.seqnext := rfl
@[simp] theorem Slot.setPmask_repst (x : Slot) (p : BitVec 3) (m : Taint) : (x.setPmask p m).repst = x.repst := rfl
@[simp] theorem Slot.setPmask_repcnt (x : Slot) (p : BitVec 3) (m : Taint) : (x.setPmask p m).repcnt = x.repcnt := rfl
@[simp] theorem Slot.setPmask_repBody (x : Slot) (p : BitVec 3) (m : Taint) : (x.setPmask p m).repBody = x.repBody := rfl
@[simp] theorem Slot.setPmask_ahead (x : Slot) (p : BitVec 3) (m : Taint) : (x.setPmask p m).ahead = x.ahead := rfl
@[simp] theorem Slot.setPmask_lastspawn (x : Slot) (p : BitVec 3) (m : Taint) : (x.setPmask p m).lastspawn = x.lastspawn := rfl
@[simp] theorem Slot.setPmask_cstat (x : Slot) (p : BitVec 3) (m : Taint) : (x.setPmask p m).cstat = x.cstat := rfl
@[simp] theorem Slot.setPmask_strap (x : Slot) (p : BitVec 3) (m : Taint) : (x.setPmask p m).strap = x.strap := rfl
@[simp] theorem Slot.setPmask_mtrap (x : Slot) (p : BitVec 3) (m : Taint) : (x.setPmask p m).mtrap = x.mtrap := rfl
@[simp] theorem Slot.setPmask_plevel (x : Slot) (p : BitVec 3) (m : Taint) : (x.setPmask p m).plevel = x.plevel := rfl
@[simp] theorem Slot.setPmask_slres (x : Slot) (p : BitVec 3) (m : Taint) : (x.setPmask p m).slres = x.slres := rfl
@[simp] theorem Slot.setPmask_drop (x : Slot) (p : BitVec 3) (m : Taint) : (x.setPmask p m).drop = x.drop := rfl
@[simp] theorem Slot.setPmask_round (x : Slot) (p : BitVec 3) (m : Taint) : (x.setPmask p m).round = x.round := rfl
@[simp] theorem Slot.setPmask_passedMwait (x : Slot) (p : BitVec 3) (m : Taint) : (x.setPmask p m).passedMwait = x.passedMwait := rfl
@[simp] theorem Slot.setPmask_ring (x : Slot) (p : BitVec 3) (m : Taint) : (x.setPmask p m).ring = x.ring := rfl
@[simp] theorem Slot.setPmask_eset (x : Slot) (p : BitVec 3) (m : Taint) : (x.setPmask p m).eset = x.eset := rfl
@[simp] theorem Slot.setPmask_loads (x : Slot) (p : BitVec 3) (m : Taint) : (x.setPmask p m).loads = x.loads := rfl
@[simp] theorem Slot.setPmask_nextSerial (x : Slot) (p : BitVec 3) (m : Taint) : (x.setPmask p m).nextSerial = x.nextSerial := rfl
@[simp] theorem Slot.setPmask_pts (x : Slot) (p : BitVec 3) (m : Taint) : (x.setPmask p m).pts = x.pts := rfl
@[simp] theorem Slot.setPmask_touched (x : Slot) (p : BitVec 3) (m : Taint) : (x.setPmask p m).touched = x.touched := rfl
@[simp] theorem Slot.setPmask_ackOwn (x : Slot) (p : BitVec 3) (m : Taint) : (x.setPmask p m).ackOwn = x.ackOwn := rfl
@[simp] theorem Slot.setPmask_ackFar (x : Slot) (p : BitVec 3) (m : Taint) : (x.setPmask p m).ackFar = x.ackFar := rfl
@[simp] theorem Slot.setPmask_near (x : Slot) (p : BitVec 3) (m : Taint) : (x.setPmask p m).near = x.near := rfl
@[simp] theorem Slot.setPmask_dcount (x : Slot) (p : BitVec 3) (m : Taint) : (x.setPmask p m).dcount = x.dcount := rfl
@[simp] theorem Slot.setPmask_relNext (x : Slot) (p : BitVec 3) (m : Taint) : (x.setPmask p m).relNext = x.relNext := rfl
@[simp] theorem Slot.setPmask_relDone (x : Slot) (p : BitVec 3) (m : Taint) : (x.setPmask p m).relDone = x.relDone := rfl
@[simp] theorem Slot.setPmask_wait (x : Slot) (p : BitVec 3) (m : Taint) : (x.setPmask p m).wait = x.wait := rfl
@[simp] theorem Slot.setPmask_heldTraps (x : Slot) (p : BitVec 3) (m : Taint) : (x.setPmask p m).heldTraps = x.heldTraps := rfl
@[simp] theorem Slot.setPmask_nak (x : Slot) (p : BitVec 3) (m : Taint) : (x.setPmask p m).nak = x.nak := rfl
@[simp] theorem Slot.setPmask_yielding (x : Slot) (p : BitVec 3) (m : Taint) : (x.setPmask p m).yielding = x.yielding := rfl
@[simp] theorem Slot.setPmask_yieldEnd (x : Slot) (p : BitVec 3) (m : Taint) : (x.setPmask p m).yieldEnd = x.yieldEnd := rfl
@[simp] theorem Slot.setPmask_retiring (x : Slot) (p : BitVec 3) (m : Taint) : (x.setPmask p m).retiring = x.retiring := rfl
@[simp] theorem Slot.setPmask_saving (x : Slot) (p : BitVec 3) (m : Taint) : (x.setPmask p m).saving = x.saving := rfl
@[simp] theorem Slot.setPmask_xmark (x : Slot) (p : BitVec 3) (m : Taint) : (x.setPmask p m).xmark = x.xmark := rfl
@[simp] theorem Slot.setPmask_observed (x : Slot) (p : BitVec 3) (m : Taint) : (x.setPmask p m).observed = x.observed := rfl
@[simp] theorem Slot.setPmask_cstatOf (x : Slot) (p : BitVec 3) (m : Taint) : (x.setPmask p m).cstatOf = x.cstatOf := rfl
@[simp] theorem Slot.setPmask_born (x : Slot) (p : BitVec 3) (m : Taint) : (x.setPmask p m).born = x.born := rfl
@[simp] theorem Slot.setPmask_halted (x : Slot) (p : BitVec 3) (m : Taint) : (x.setPmask p m).halted = x.halted := rfl
@[simp] theorem Slot.setPmask_fatal (x : Slot) (p : BitVec 3) (m : Taint) : (x.setPmask p m).fatal = x.fatal := rfl
@[simp] theorem Slot.setPmask_dying (x : Slot) (p : BitVec 3) (m : Taint) : (x.setPmask p m).dying = x.dying := rfl

/-! ### Slot.setStep -/

@[simp] theorem Slot.setStep_state (x : Slot) (p : BitVec 3) (v : Word) : (x.setStep p v).state = x.state := rfl
@[simp] theorem Slot.setStep_gen (x : Slot) (p : BitVec 3) (v : Word) : (x.setStep p v).gen = x.gen := rfl
@[simp] theorem Slot.setStep_reserved (x : Slot) (p : BitVec 3) (v : Word) : (x.setStep p v).reserved = x.reserved := rfl
@[simp] theorem Slot.setStep_kind (x : Slot) (p : BitVec 3) (v : Word) : (x.setStep p v).kind = x.kind := rfl
@[simp] theorem Slot.setStep_ctx (x : Slot) (p : BitVec 3) (v : Word) : (x.setStep p v).ctx = x.ctx := rfl
@[simp] theorem Slot.setStep_level (x : Slot) (p : BitVec 3) (v : Word) : (x.setStep p v).level = x.level := rfl
@[simp] theorem Slot.setStep_lrec (x : Slot) (p : BitVec 3) (v : Word) : (x.setStep p v).lrec = x.lrec := rfl
@[simp] theorem Slot.setStep_queue (x : Slot) (p : BitVec 3) (v : Word) : (x.setStep p v).queue = x.queue := rfl
@[simp] theorem Slot.setStep_notify (x : Slot) (p : BitVec 3) (v : Word) : (x.setStep p v).notify = x.notify := rfl
@[simp] theorem Slot.setStep_home (x : Slot) (p : BitVec 3) (v : Word) : (x.setStep p v).home = x.home := rfl
@[simp] theorem Slot.setStep_poolIx (x : Slot) (p : BitVec 3) (v : Word) : (x.setStep p v).poolIx = x.poolIx := rfl
@[simp] theorem Slot.setStep_nsreg (x : Slot) (p : BitVec 3) (v : Word) : (x.setStep p v).nsreg = x.nsreg := rfl
@[simp] theorem Slot.setStep_nvreg (x : Slot) (p : BitVec 3) (v : Word) : (x.setStep p v).nvreg = x.nvreg := rfl
@[simp] theorem Slot.setStep_spillKB (x : Slot) (p : BitVec 3) (v : Word) : (x.setStep p v).spillKB = x.spillKB := rfl
@[simp] theorem Slot.setStep_carve (x : Slot) (p : BitVec 3) (v : Word) : (x.setStep p v).carve = x.carve := rfl
@[simp] theorem Slot.setStep_pc (x : Slot) (p : BitVec 3) (v : Word) : (x.setStep p v).pc = x.pc := rfl
@[simp] theorem Slot.setStep_s (x : Slot) (p : BitVec 3) (v : Word) : (x.setStep p v).s = x.s := rfl
@[simp] theorem Slot.setStep_sMask (x : Slot) (p : BitVec 3) (v : Word) : (x.setStep p v).sMask = x.sMask := rfl
@[simp] theorem Slot.setStep_p (x : Slot) (p : BitVec 3) (v : Word) : (x.setStep p v).p = x.p := rfl
@[simp] theorem Slot.setStep_pMask (x : Slot) (p : BitVec 3) (v : Word) : (x.setStep p v).pMask = x.pMask := rfl
@[simp] theorem Slot.setStep_v (x : Slot) (p : BitVec 3) (v : Word) : (x.setStep p v).v = x.v := rfl
@[simp] theorem Slot.setStep_vMask (x : Slot) (p : BitVec 3) (v : Word) : (x.setStep p v).vMask = x.vMask := rfl
@[simp] theorem Slot.setStep_acc (x : Slot) (p : BitVec 3) (v : Word) : (x.setStep p v).acc = x.acc := rfl
@[simp] theorem Slot.setStep_ctm (x : Slot) (p : BitVec 3) (v : Word) : (x.setStep p v).ctm = x.ctm := rfl
@[simp] theorem Slot.setStep_fflags (x : Slot) (p : BitVec 3) (v : Word) : (x.setStep p v).fflags = x.fflags := rfl
@[simp] theorem Slot.setStep_rm (x : Slot) (p : BitVec 3) (v : Word) : (x.setStep p v).rm = x.rm := rfl
@[simp] theorem Slot.setStep_flush (x : Slot) (p : BitVec 3) (v : Word) : (x.setStep p v).flush = x.flush := rfl
@[simp] theorem Slot.setStep_srseed (x : Slot) (p : BitVec 3) (v : Word) : (x.setStep p v).srseed = x.srseed := rfl
@[simp] theorem Slot.setStep_seqnext (x : Slot) (p : BitVec 3) (v : Word) : (x.setStep p v).seqnext = x.seqnext := rfl
@[simp] theorem Slot.setStep_repst (x : Slot) (p : BitVec 3) (v : Word) : (x.setStep p v).repst = x.repst := rfl
@[simp] theorem Slot.setStep_repcnt (x : Slot) (p : BitVec 3) (v : Word) : (x.setStep p v).repcnt = x.repcnt := rfl
@[simp] theorem Slot.setStep_repBody (x : Slot) (p : BitVec 3) (v : Word) : (x.setStep p v).repBody = x.repBody := rfl
@[simp] theorem Slot.setStep_ahead (x : Slot) (p : BitVec 3) (v : Word) : (x.setStep p v).ahead = x.ahead := rfl
@[simp] theorem Slot.setStep_lastspawn (x : Slot) (p : BitVec 3) (v : Word) : (x.setStep p v).lastspawn = x.lastspawn := rfl
@[simp] theorem Slot.setStep_cstat (x : Slot) (p : BitVec 3) (v : Word) : (x.setStep p v).cstat = x.cstat := rfl
@[simp] theorem Slot.setStep_strap (x : Slot) (p : BitVec 3) (v : Word) : (x.setStep p v).strap = x.strap := rfl
@[simp] theorem Slot.setStep_mtrap (x : Slot) (p : BitVec 3) (v : Word) : (x.setStep p v).mtrap = x.mtrap := rfl
@[simp] theorem Slot.setStep_plevel (x : Slot) (p : BitVec 3) (v : Word) : (x.setStep p v).plevel = x.plevel := rfl
@[simp] theorem Slot.setStep_slres (x : Slot) (p : BitVec 3) (v : Word) : (x.setStep p v).slres = x.slres := rfl
@[simp] theorem Slot.setStep_drop (x : Slot) (p : BitVec 3) (v : Word) : (x.setStep p v).drop = x.drop := rfl
@[simp] theorem Slot.setStep_round (x : Slot) (p : BitVec 3) (v : Word) : (x.setStep p v).round = x.round := rfl
@[simp] theorem Slot.setStep_passedMwait (x : Slot) (p : BitVec 3) (v : Word) : (x.setStep p v).passedMwait = x.passedMwait := rfl
@[simp] theorem Slot.setStep_ring (x : Slot) (p : BitVec 3) (v : Word) : (x.setStep p v).ring = x.ring := rfl
@[simp] theorem Slot.setStep_eset (x : Slot) (p : BitVec 3) (v : Word) : (x.setStep p v).eset = x.eset := rfl
@[simp] theorem Slot.setStep_loads (x : Slot) (p : BitVec 3) (v : Word) : (x.setStep p v).loads = x.loads := rfl
@[simp] theorem Slot.setStep_nextSerial (x : Slot) (p : BitVec 3) (v : Word) : (x.setStep p v).nextSerial = x.nextSerial := rfl
@[simp] theorem Slot.setStep_pts (x : Slot) (p : BitVec 3) (v : Word) : (x.setStep p v).pts = x.pts := rfl
@[simp] theorem Slot.setStep_touched (x : Slot) (p : BitVec 3) (v : Word) : (x.setStep p v).touched = x.touched := rfl
@[simp] theorem Slot.setStep_ackOwn (x : Slot) (p : BitVec 3) (v : Word) : (x.setStep p v).ackOwn = x.ackOwn := rfl
@[simp] theorem Slot.setStep_ackFar (x : Slot) (p : BitVec 3) (v : Word) : (x.setStep p v).ackFar = x.ackFar := rfl
@[simp] theorem Slot.setStep_near (x : Slot) (p : BitVec 3) (v : Word) : (x.setStep p v).near = x.near := rfl
@[simp] theorem Slot.setStep_dcount (x : Slot) (p : BitVec 3) (v : Word) : (x.setStep p v).dcount = x.dcount := rfl
@[simp] theorem Slot.setStep_relNext (x : Slot) (p : BitVec 3) (v : Word) : (x.setStep p v).relNext = x.relNext := rfl
@[simp] theorem Slot.setStep_relDone (x : Slot) (p : BitVec 3) (v : Word) : (x.setStep p v).relDone = x.relDone := rfl
@[simp] theorem Slot.setStep_wait (x : Slot) (p : BitVec 3) (v : Word) : (x.setStep p v).wait = x.wait := rfl
@[simp] theorem Slot.setStep_heldTraps (x : Slot) (p : BitVec 3) (v : Word) : (x.setStep p v).heldTraps = x.heldTraps := rfl
@[simp] theorem Slot.setStep_nak (x : Slot) (p : BitVec 3) (v : Word) : (x.setStep p v).nak = x.nak := rfl
@[simp] theorem Slot.setStep_yielding (x : Slot) (p : BitVec 3) (v : Word) : (x.setStep p v).yielding = x.yielding := rfl
@[simp] theorem Slot.setStep_yieldEnd (x : Slot) (p : BitVec 3) (v : Word) : (x.setStep p v).yieldEnd = x.yieldEnd := rfl
@[simp] theorem Slot.setStep_retiring (x : Slot) (p : BitVec 3) (v : Word) : (x.setStep p v).retiring = x.retiring := rfl
@[simp] theorem Slot.setStep_saving (x : Slot) (p : BitVec 3) (v : Word) : (x.setStep p v).saving = x.saving := rfl
@[simp] theorem Slot.setStep_xmark (x : Slot) (p : BitVec 3) (v : Word) : (x.setStep p v).xmark = x.xmark := rfl
@[simp] theorem Slot.setStep_observed (x : Slot) (p : BitVec 3) (v : Word) : (x.setStep p v).observed = x.observed := rfl
@[simp] theorem Slot.setStep_cstatOf (x : Slot) (p : BitVec 3) (v : Word) : (x.setStep p v).cstatOf = x.cstatOf := rfl
@[simp] theorem Slot.setStep_born (x : Slot) (p : BitVec 3) (v : Word) : (x.setStep p v).born = x.born := rfl
@[simp] theorem Slot.setStep_halted (x : Slot) (p : BitVec 3) (v : Word) : (x.setStep p v).halted = x.halted := rfl
@[simp] theorem Slot.setStep_fatal (x : Slot) (p : BitVec 3) (v : Word) : (x.setStep p v).fatal = x.fatal := rfl
@[simp] theorem Slot.setStep_dying (x : Slot) (p : BitVec 3) (v : Word) : (x.setStep p v).dying = x.dying := rfl

/-! ### Slot.setV -/

@[simp] theorem Slot.setV_state (x : Slot) (r : BitVec 5) (v : Line) (m : Taint) : (x.setV r v m).state = x.state := rfl
@[simp] theorem Slot.setV_gen (x : Slot) (r : BitVec 5) (v : Line) (m : Taint) : (x.setV r v m).gen = x.gen := rfl
@[simp] theorem Slot.setV_reserved (x : Slot) (r : BitVec 5) (v : Line) (m : Taint) : (x.setV r v m).reserved = x.reserved := rfl
@[simp] theorem Slot.setV_kind (x : Slot) (r : BitVec 5) (v : Line) (m : Taint) : (x.setV r v m).kind = x.kind := rfl
@[simp] theorem Slot.setV_ctx (x : Slot) (r : BitVec 5) (v : Line) (m : Taint) : (x.setV r v m).ctx = x.ctx := rfl
@[simp] theorem Slot.setV_level (x : Slot) (r : BitVec 5) (v : Line) (m : Taint) : (x.setV r v m).level = x.level := rfl
@[simp] theorem Slot.setV_lrec (x : Slot) (r : BitVec 5) (v : Line) (m : Taint) : (x.setV r v m).lrec = x.lrec := rfl
@[simp] theorem Slot.setV_queue (x : Slot) (r : BitVec 5) (v : Line) (m : Taint) : (x.setV r v m).queue = x.queue := rfl
@[simp] theorem Slot.setV_notify (x : Slot) (r : BitVec 5) (v : Line) (m : Taint) : (x.setV r v m).notify = x.notify := rfl
@[simp] theorem Slot.setV_home (x : Slot) (r : BitVec 5) (v : Line) (m : Taint) : (x.setV r v m).home = x.home := rfl
@[simp] theorem Slot.setV_poolIx (x : Slot) (r : BitVec 5) (v : Line) (m : Taint) : (x.setV r v m).poolIx = x.poolIx := rfl
@[simp] theorem Slot.setV_nsreg (x : Slot) (r : BitVec 5) (v : Line) (m : Taint) : (x.setV r v m).nsreg = x.nsreg := rfl
@[simp] theorem Slot.setV_nvreg (x : Slot) (r : BitVec 5) (v : Line) (m : Taint) : (x.setV r v m).nvreg = x.nvreg := rfl
@[simp] theorem Slot.setV_spillKB (x : Slot) (r : BitVec 5) (v : Line) (m : Taint) : (x.setV r v m).spillKB = x.spillKB := rfl
@[simp] theorem Slot.setV_carve (x : Slot) (r : BitVec 5) (v : Line) (m : Taint) : (x.setV r v m).carve = x.carve := rfl
@[simp] theorem Slot.setV_pc (x : Slot) (r : BitVec 5) (v : Line) (m : Taint) : (x.setV r v m).pc = x.pc := rfl
@[simp] theorem Slot.setV_s (x : Slot) (r : BitVec 5) (v : Line) (m : Taint) : (x.setV r v m).s = x.s := rfl
@[simp] theorem Slot.setV_sMask (x : Slot) (r : BitVec 5) (v : Line) (m : Taint) : (x.setV r v m).sMask = x.sMask := rfl
@[simp] theorem Slot.setV_p (x : Slot) (r : BitVec 5) (v : Line) (m : Taint) : (x.setV r v m).p = x.p := rfl
@[simp] theorem Slot.setV_pMask (x : Slot) (r : BitVec 5) (v : Line) (m : Taint) : (x.setV r v m).pMask = x.pMask := rfl
@[simp] theorem Slot.setV_pstep (x : Slot) (r : BitVec 5) (v : Line) (m : Taint) : (x.setV r v m).pstep = x.pstep := rfl
@[simp] theorem Slot.setV_acc (x : Slot) (r : BitVec 5) (v : Line) (m : Taint) : (x.setV r v m).acc = x.acc := rfl
@[simp] theorem Slot.setV_ctm (x : Slot) (r : BitVec 5) (v : Line) (m : Taint) : (x.setV r v m).ctm = x.ctm := rfl
@[simp] theorem Slot.setV_fflags (x : Slot) (r : BitVec 5) (v : Line) (m : Taint) : (x.setV r v m).fflags = x.fflags := rfl
@[simp] theorem Slot.setV_rm (x : Slot) (r : BitVec 5) (v : Line) (m : Taint) : (x.setV r v m).rm = x.rm := rfl
@[simp] theorem Slot.setV_flush (x : Slot) (r : BitVec 5) (v : Line) (m : Taint) : (x.setV r v m).flush = x.flush := rfl
@[simp] theorem Slot.setV_srseed (x : Slot) (r : BitVec 5) (v : Line) (m : Taint) : (x.setV r v m).srseed = x.srseed := rfl
@[simp] theorem Slot.setV_seqnext (x : Slot) (r : BitVec 5) (v : Line) (m : Taint) : (x.setV r v m).seqnext = x.seqnext := rfl
@[simp] theorem Slot.setV_repst (x : Slot) (r : BitVec 5) (v : Line) (m : Taint) : (x.setV r v m).repst = x.repst := rfl
@[simp] theorem Slot.setV_repcnt (x : Slot) (r : BitVec 5) (v : Line) (m : Taint) : (x.setV r v m).repcnt = x.repcnt := rfl
@[simp] theorem Slot.setV_repBody (x : Slot) (r : BitVec 5) (v : Line) (m : Taint) : (x.setV r v m).repBody = x.repBody := rfl
@[simp] theorem Slot.setV_ahead (x : Slot) (r : BitVec 5) (v : Line) (m : Taint) : (x.setV r v m).ahead = x.ahead := rfl
@[simp] theorem Slot.setV_lastspawn (x : Slot) (r : BitVec 5) (v : Line) (m : Taint) : (x.setV r v m).lastspawn = x.lastspawn := rfl
@[simp] theorem Slot.setV_cstat (x : Slot) (r : BitVec 5) (v : Line) (m : Taint) : (x.setV r v m).cstat = x.cstat := rfl
@[simp] theorem Slot.setV_strap (x : Slot) (r : BitVec 5) (v : Line) (m : Taint) : (x.setV r v m).strap = x.strap := rfl
@[simp] theorem Slot.setV_mtrap (x : Slot) (r : BitVec 5) (v : Line) (m : Taint) : (x.setV r v m).mtrap = x.mtrap := rfl
@[simp] theorem Slot.setV_plevel (x : Slot) (r : BitVec 5) (v : Line) (m : Taint) : (x.setV r v m).plevel = x.plevel := rfl
@[simp] theorem Slot.setV_slres (x : Slot) (r : BitVec 5) (v : Line) (m : Taint) : (x.setV r v m).slres = x.slres := rfl
@[simp] theorem Slot.setV_drop (x : Slot) (r : BitVec 5) (v : Line) (m : Taint) : (x.setV r v m).drop = x.drop := rfl
@[simp] theorem Slot.setV_round (x : Slot) (r : BitVec 5) (v : Line) (m : Taint) : (x.setV r v m).round = x.round := rfl
@[simp] theorem Slot.setV_passedMwait (x : Slot) (r : BitVec 5) (v : Line) (m : Taint) : (x.setV r v m).passedMwait = x.passedMwait := rfl
@[simp] theorem Slot.setV_ring (x : Slot) (r : BitVec 5) (v : Line) (m : Taint) : (x.setV r v m).ring = x.ring := rfl
@[simp] theorem Slot.setV_eset (x : Slot) (r : BitVec 5) (v : Line) (m : Taint) : (x.setV r v m).eset = x.eset := rfl
@[simp] theorem Slot.setV_loads (x : Slot) (r : BitVec 5) (v : Line) (m : Taint) : (x.setV r v m).loads = x.loads := rfl
@[simp] theorem Slot.setV_nextSerial (x : Slot) (r : BitVec 5) (v : Line) (m : Taint) : (x.setV r v m).nextSerial = x.nextSerial := rfl
@[simp] theorem Slot.setV_pts (x : Slot) (r : BitVec 5) (v : Line) (m : Taint) : (x.setV r v m).pts = x.pts := rfl
@[simp] theorem Slot.setV_touched (x : Slot) (r : BitVec 5) (v : Line) (m : Taint) : (x.setV r v m).touched = x.touched := rfl
@[simp] theorem Slot.setV_ackOwn (x : Slot) (r : BitVec 5) (v : Line) (m : Taint) : (x.setV r v m).ackOwn = x.ackOwn := rfl
@[simp] theorem Slot.setV_ackFar (x : Slot) (r : BitVec 5) (v : Line) (m : Taint) : (x.setV r v m).ackFar = x.ackFar := rfl
@[simp] theorem Slot.setV_near (x : Slot) (r : BitVec 5) (v : Line) (m : Taint) : (x.setV r v m).near = x.near := rfl
@[simp] theorem Slot.setV_dcount (x : Slot) (r : BitVec 5) (v : Line) (m : Taint) : (x.setV r v m).dcount = x.dcount := rfl
@[simp] theorem Slot.setV_relNext (x : Slot) (r : BitVec 5) (v : Line) (m : Taint) : (x.setV r v m).relNext = x.relNext := rfl
@[simp] theorem Slot.setV_relDone (x : Slot) (r : BitVec 5) (v : Line) (m : Taint) : (x.setV r v m).relDone = x.relDone := rfl
@[simp] theorem Slot.setV_wait (x : Slot) (r : BitVec 5) (v : Line) (m : Taint) : (x.setV r v m).wait = x.wait := rfl
@[simp] theorem Slot.setV_heldTraps (x : Slot) (r : BitVec 5) (v : Line) (m : Taint) : (x.setV r v m).heldTraps = x.heldTraps := rfl
@[simp] theorem Slot.setV_nak (x : Slot) (r : BitVec 5) (v : Line) (m : Taint) : (x.setV r v m).nak = x.nak := rfl
@[simp] theorem Slot.setV_yielding (x : Slot) (r : BitVec 5) (v : Line) (m : Taint) : (x.setV r v m).yielding = x.yielding := rfl
@[simp] theorem Slot.setV_yieldEnd (x : Slot) (r : BitVec 5) (v : Line) (m : Taint) : (x.setV r v m).yieldEnd = x.yieldEnd := rfl
@[simp] theorem Slot.setV_retiring (x : Slot) (r : BitVec 5) (v : Line) (m : Taint) : (x.setV r v m).retiring = x.retiring := rfl
@[simp] theorem Slot.setV_saving (x : Slot) (r : BitVec 5) (v : Line) (m : Taint) : (x.setV r v m).saving = x.saving := rfl
@[simp] theorem Slot.setV_xmark (x : Slot) (r : BitVec 5) (v : Line) (m : Taint) : (x.setV r v m).xmark = x.xmark := rfl
@[simp] theorem Slot.setV_observed (x : Slot) (r : BitVec 5) (v : Line) (m : Taint) : (x.setV r v m).observed = x.observed := rfl
@[simp] theorem Slot.setV_cstatOf (x : Slot) (r : BitVec 5) (v : Line) (m : Taint) : (x.setV r v m).cstatOf = x.cstatOf := rfl
@[simp] theorem Slot.setV_born (x : Slot) (r : BitVec 5) (v : Line) (m : Taint) : (x.setV r v m).born = x.born := rfl
@[simp] theorem Slot.setV_halted (x : Slot) (r : BitVec 5) (v : Line) (m : Taint) : (x.setV r v m).halted = x.halted := rfl
@[simp] theorem Slot.setV_fatal (x : Slot) (r : BitVec 5) (v : Line) (m : Taint) : (x.setV r v m).fatal = x.fatal := rfl
@[simp] theorem Slot.setV_dying (x : Slot) (r : BitVec 5) (v : Line) (m : Taint) : (x.setV r v m).dying = x.dying := rfl

/-! ### Slot.setVmask -/

@[simp] theorem Slot.setVmask_state (x : Slot) (r : BitVec 5) (m : Taint) : (x.setVmask r m).state = x.state := rfl
@[simp] theorem Slot.setVmask_gen (x : Slot) (r : BitVec 5) (m : Taint) : (x.setVmask r m).gen = x.gen := rfl
@[simp] theorem Slot.setVmask_reserved (x : Slot) (r : BitVec 5) (m : Taint) : (x.setVmask r m).reserved = x.reserved := rfl
@[simp] theorem Slot.setVmask_kind (x : Slot) (r : BitVec 5) (m : Taint) : (x.setVmask r m).kind = x.kind := rfl
@[simp] theorem Slot.setVmask_ctx (x : Slot) (r : BitVec 5) (m : Taint) : (x.setVmask r m).ctx = x.ctx := rfl
@[simp] theorem Slot.setVmask_level (x : Slot) (r : BitVec 5) (m : Taint) : (x.setVmask r m).level = x.level := rfl
@[simp] theorem Slot.setVmask_lrec (x : Slot) (r : BitVec 5) (m : Taint) : (x.setVmask r m).lrec = x.lrec := rfl
@[simp] theorem Slot.setVmask_queue (x : Slot) (r : BitVec 5) (m : Taint) : (x.setVmask r m).queue = x.queue := rfl
@[simp] theorem Slot.setVmask_notify (x : Slot) (r : BitVec 5) (m : Taint) : (x.setVmask r m).notify = x.notify := rfl
@[simp] theorem Slot.setVmask_home (x : Slot) (r : BitVec 5) (m : Taint) : (x.setVmask r m).home = x.home := rfl
@[simp] theorem Slot.setVmask_poolIx (x : Slot) (r : BitVec 5) (m : Taint) : (x.setVmask r m).poolIx = x.poolIx := rfl
@[simp] theorem Slot.setVmask_nsreg (x : Slot) (r : BitVec 5) (m : Taint) : (x.setVmask r m).nsreg = x.nsreg := rfl
@[simp] theorem Slot.setVmask_nvreg (x : Slot) (r : BitVec 5) (m : Taint) : (x.setVmask r m).nvreg = x.nvreg := rfl
@[simp] theorem Slot.setVmask_spillKB (x : Slot) (r : BitVec 5) (m : Taint) : (x.setVmask r m).spillKB = x.spillKB := rfl
@[simp] theorem Slot.setVmask_carve (x : Slot) (r : BitVec 5) (m : Taint) : (x.setVmask r m).carve = x.carve := rfl
@[simp] theorem Slot.setVmask_pc (x : Slot) (r : BitVec 5) (m : Taint) : (x.setVmask r m).pc = x.pc := rfl
@[simp] theorem Slot.setVmask_s (x : Slot) (r : BitVec 5) (m : Taint) : (x.setVmask r m).s = x.s := rfl
@[simp] theorem Slot.setVmask_sMask (x : Slot) (r : BitVec 5) (m : Taint) : (x.setVmask r m).sMask = x.sMask := rfl
@[simp] theorem Slot.setVmask_p (x : Slot) (r : BitVec 5) (m : Taint) : (x.setVmask r m).p = x.p := rfl
@[simp] theorem Slot.setVmask_pMask (x : Slot) (r : BitVec 5) (m : Taint) : (x.setVmask r m).pMask = x.pMask := rfl
@[simp] theorem Slot.setVmask_pstep (x : Slot) (r : BitVec 5) (m : Taint) : (x.setVmask r m).pstep = x.pstep := rfl
@[simp] theorem Slot.setVmask_v (x : Slot) (r : BitVec 5) (m : Taint) : (x.setVmask r m).v = x.v := rfl
@[simp] theorem Slot.setVmask_acc (x : Slot) (r : BitVec 5) (m : Taint) : (x.setVmask r m).acc = x.acc := rfl
@[simp] theorem Slot.setVmask_poison (x : Slot) (r : BitVec 5) (m : Taint) : (x.setVmask r m).poison = x.poison := rfl
@[simp] theorem Slot.setVmask_ctm (x : Slot) (r : BitVec 5) (m : Taint) : (x.setVmask r m).ctm = x.ctm := rfl
@[simp] theorem Slot.setVmask_fflags (x : Slot) (r : BitVec 5) (m : Taint) : (x.setVmask r m).fflags = x.fflags := rfl
@[simp] theorem Slot.setVmask_rm (x : Slot) (r : BitVec 5) (m : Taint) : (x.setVmask r m).rm = x.rm := rfl
@[simp] theorem Slot.setVmask_flush (x : Slot) (r : BitVec 5) (m : Taint) : (x.setVmask r m).flush = x.flush := rfl
@[simp] theorem Slot.setVmask_srseed (x : Slot) (r : BitVec 5) (m : Taint) : (x.setVmask r m).srseed = x.srseed := rfl
@[simp] theorem Slot.setVmask_seqnext (x : Slot) (r : BitVec 5) (m : Taint) : (x.setVmask r m).seqnext = x.seqnext := rfl
@[simp] theorem Slot.setVmask_repst (x : Slot) (r : BitVec 5) (m : Taint) : (x.setVmask r m).repst = x.repst := rfl
@[simp] theorem Slot.setVmask_repcnt (x : Slot) (r : BitVec 5) (m : Taint) : (x.setVmask r m).repcnt = x.repcnt := rfl
@[simp] theorem Slot.setVmask_repBody (x : Slot) (r : BitVec 5) (m : Taint) : (x.setVmask r m).repBody = x.repBody := rfl
@[simp] theorem Slot.setVmask_ahead (x : Slot) (r : BitVec 5) (m : Taint) : (x.setVmask r m).ahead = x.ahead := rfl
@[simp] theorem Slot.setVmask_lastspawn (x : Slot) (r : BitVec 5) (m : Taint) : (x.setVmask r m).lastspawn = x.lastspawn := rfl
@[simp] theorem Slot.setVmask_cstat (x : Slot) (r : BitVec 5) (m : Taint) : (x.setVmask r m).cstat = x.cstat := rfl
@[simp] theorem Slot.setVmask_strap (x : Slot) (r : BitVec 5) (m : Taint) : (x.setVmask r m).strap = x.strap := rfl
@[simp] theorem Slot.setVmask_mtrap (x : Slot) (r : BitVec 5) (m : Taint) : (x.setVmask r m).mtrap = x.mtrap := rfl
@[simp] theorem Slot.setVmask_plevel (x : Slot) (r : BitVec 5) (m : Taint) : (x.setVmask r m).plevel = x.plevel := rfl
@[simp] theorem Slot.setVmask_slres (x : Slot) (r : BitVec 5) (m : Taint) : (x.setVmask r m).slres = x.slres := rfl
@[simp] theorem Slot.setVmask_drop (x : Slot) (r : BitVec 5) (m : Taint) : (x.setVmask r m).drop = x.drop := rfl
@[simp] theorem Slot.setVmask_round (x : Slot) (r : BitVec 5) (m : Taint) : (x.setVmask r m).round = x.round := rfl
@[simp] theorem Slot.setVmask_passedMwait (x : Slot) (r : BitVec 5) (m : Taint) : (x.setVmask r m).passedMwait = x.passedMwait := rfl
@[simp] theorem Slot.setVmask_ring (x : Slot) (r : BitVec 5) (m : Taint) : (x.setVmask r m).ring = x.ring := rfl
@[simp] theorem Slot.setVmask_eset (x : Slot) (r : BitVec 5) (m : Taint) : (x.setVmask r m).eset = x.eset := rfl
@[simp] theorem Slot.setVmask_loads (x : Slot) (r : BitVec 5) (m : Taint) : (x.setVmask r m).loads = x.loads := rfl
@[simp] theorem Slot.setVmask_nextSerial (x : Slot) (r : BitVec 5) (m : Taint) : (x.setVmask r m).nextSerial = x.nextSerial := rfl
@[simp] theorem Slot.setVmask_pts (x : Slot) (r : BitVec 5) (m : Taint) : (x.setVmask r m).pts = x.pts := rfl
@[simp] theorem Slot.setVmask_touched (x : Slot) (r : BitVec 5) (m : Taint) : (x.setVmask r m).touched = x.touched := rfl
@[simp] theorem Slot.setVmask_ackOwn (x : Slot) (r : BitVec 5) (m : Taint) : (x.setVmask r m).ackOwn = x.ackOwn := rfl
@[simp] theorem Slot.setVmask_ackFar (x : Slot) (r : BitVec 5) (m : Taint) : (x.setVmask r m).ackFar = x.ackFar := rfl
@[simp] theorem Slot.setVmask_near (x : Slot) (r : BitVec 5) (m : Taint) : (x.setVmask r m).near = x.near := rfl
@[simp] theorem Slot.setVmask_dcount (x : Slot) (r : BitVec 5) (m : Taint) : (x.setVmask r m).dcount = x.dcount := rfl
@[simp] theorem Slot.setVmask_relNext (x : Slot) (r : BitVec 5) (m : Taint) : (x.setVmask r m).relNext = x.relNext := rfl
@[simp] theorem Slot.setVmask_relDone (x : Slot) (r : BitVec 5) (m : Taint) : (x.setVmask r m).relDone = x.relDone := rfl
@[simp] theorem Slot.setVmask_wait (x : Slot) (r : BitVec 5) (m : Taint) : (x.setVmask r m).wait = x.wait := rfl
@[simp] theorem Slot.setVmask_heldTraps (x : Slot) (r : BitVec 5) (m : Taint) : (x.setVmask r m).heldTraps = x.heldTraps := rfl
@[simp] theorem Slot.setVmask_nak (x : Slot) (r : BitVec 5) (m : Taint) : (x.setVmask r m).nak = x.nak := rfl
@[simp] theorem Slot.setVmask_yielding (x : Slot) (r : BitVec 5) (m : Taint) : (x.setVmask r m).yielding = x.yielding := rfl
@[simp] theorem Slot.setVmask_yieldEnd (x : Slot) (r : BitVec 5) (m : Taint) : (x.setVmask r m).yieldEnd = x.yieldEnd := rfl
@[simp] theorem Slot.setVmask_retiring (x : Slot) (r : BitVec 5) (m : Taint) : (x.setVmask r m).retiring = x.retiring := rfl
@[simp] theorem Slot.setVmask_saving (x : Slot) (r : BitVec 5) (m : Taint) : (x.setVmask r m).saving = x.saving := rfl
@[simp] theorem Slot.setVmask_xmark (x : Slot) (r : BitVec 5) (m : Taint) : (x.setVmask r m).xmark = x.xmark := rfl
@[simp] theorem Slot.setVmask_observed (x : Slot) (r : BitVec 5) (m : Taint) : (x.setVmask r m).observed = x.observed := rfl
@[simp] theorem Slot.setVmask_cstatOf (x : Slot) (r : BitVec 5) (m : Taint) : (x.setVmask r m).cstatOf = x.cstatOf := rfl
@[simp] theorem Slot.setVmask_born (x : Slot) (r : BitVec 5) (m : Taint) : (x.setVmask r m).born = x.born := rfl
@[simp] theorem Slot.setVmask_halted (x : Slot) (r : BitVec 5) (m : Taint) : (x.setVmask r m).halted = x.halted := rfl
@[simp] theorem Slot.setVmask_fatal (x : Slot) (r : BitVec 5) (m : Taint) : (x.setVmask r m).fatal = x.fatal := rfl
@[simp] theorem Slot.setVmask_dying (x : Slot) (r : BitVec 5) (m : Taint) : (x.setVmask r m).dying = x.dying := rfl

/-! ### Slot.setS -/

@[simp] theorem Slot.setS_state (x : Slot) (r : BitVec 5) (v : Word) (m : Taint) : (x.setS r v m).state = x.state := by
  unfold Slot.setS; split <;> rfl
@[simp] theorem Slot.setS_gen (x : Slot) (r : BitVec 5) (v : Word) (m : Taint) : (x.setS r v m).gen = x.gen := by
  unfold Slot.setS; split <;> rfl
@[simp] theorem Slot.setS_reserved (x : Slot) (r : BitVec 5) (v : Word) (m : Taint) : (x.setS r v m).reserved = x.reserved := by
  unfold Slot.setS; split <;> rfl
@[simp] theorem Slot.setS_kind (x : Slot) (r : BitVec 5) (v : Word) (m : Taint) : (x.setS r v m).kind = x.kind := by
  unfold Slot.setS; split <;> rfl
@[simp] theorem Slot.setS_ctx (x : Slot) (r : BitVec 5) (v : Word) (m : Taint) : (x.setS r v m).ctx = x.ctx := by
  unfold Slot.setS; split <;> rfl
@[simp] theorem Slot.setS_level (x : Slot) (r : BitVec 5) (v : Word) (m : Taint) : (x.setS r v m).level = x.level := by
  unfold Slot.setS; split <;> rfl
@[simp] theorem Slot.setS_lrec (x : Slot) (r : BitVec 5) (v : Word) (m : Taint) : (x.setS r v m).lrec = x.lrec := by
  unfold Slot.setS; split <;> rfl
@[simp] theorem Slot.setS_queue (x : Slot) (r : BitVec 5) (v : Word) (m : Taint) : (x.setS r v m).queue = x.queue := by
  unfold Slot.setS; split <;> rfl
@[simp] theorem Slot.setS_notify (x : Slot) (r : BitVec 5) (v : Word) (m : Taint) : (x.setS r v m).notify = x.notify := by
  unfold Slot.setS; split <;> rfl
@[simp] theorem Slot.setS_home (x : Slot) (r : BitVec 5) (v : Word) (m : Taint) : (x.setS r v m).home = x.home := by
  unfold Slot.setS; split <;> rfl
@[simp] theorem Slot.setS_poolIx (x : Slot) (r : BitVec 5) (v : Word) (m : Taint) : (x.setS r v m).poolIx = x.poolIx := by
  unfold Slot.setS; split <;> rfl
@[simp] theorem Slot.setS_nsreg (x : Slot) (r : BitVec 5) (v : Word) (m : Taint) : (x.setS r v m).nsreg = x.nsreg := by
  unfold Slot.setS; split <;> rfl
@[simp] theorem Slot.setS_nvreg (x : Slot) (r : BitVec 5) (v : Word) (m : Taint) : (x.setS r v m).nvreg = x.nvreg := by
  unfold Slot.setS; split <;> rfl
@[simp] theorem Slot.setS_spillKB (x : Slot) (r : BitVec 5) (v : Word) (m : Taint) : (x.setS r v m).spillKB = x.spillKB := by
  unfold Slot.setS; split <;> rfl
@[simp] theorem Slot.setS_carve (x : Slot) (r : BitVec 5) (v : Word) (m : Taint) : (x.setS r v m).carve = x.carve := by
  unfold Slot.setS; split <;> rfl
@[simp] theorem Slot.setS_pc (x : Slot) (r : BitVec 5) (v : Word) (m : Taint) : (x.setS r v m).pc = x.pc := by
  unfold Slot.setS; split <;> rfl
@[simp] theorem Slot.setS_p (x : Slot) (r : BitVec 5) (v : Word) (m : Taint) : (x.setS r v m).p = x.p := by
  unfold Slot.setS; split <;> rfl
@[simp] theorem Slot.setS_pMask (x : Slot) (r : BitVec 5) (v : Word) (m : Taint) : (x.setS r v m).pMask = x.pMask := by
  unfold Slot.setS; split <;> rfl
@[simp] theorem Slot.setS_pstep (x : Slot) (r : BitVec 5) (v : Word) (m : Taint) : (x.setS r v m).pstep = x.pstep := by
  unfold Slot.setS; split <;> rfl
@[simp] theorem Slot.setS_v (x : Slot) (r : BitVec 5) (v : Word) (m : Taint) : (x.setS r v m).v = x.v := by
  unfold Slot.setS; split <;> rfl
@[simp] theorem Slot.setS_vMask (x : Slot) (r : BitVec 5) (v : Word) (m : Taint) : (x.setS r v m).vMask = x.vMask := by
  unfold Slot.setS; split <;> rfl
@[simp] theorem Slot.setS_acc (x : Slot) (r : BitVec 5) (v : Word) (m : Taint) : (x.setS r v m).acc = x.acc := by
  unfold Slot.setS; split <;> rfl
@[simp] theorem Slot.setS_ctm (x : Slot) (r : BitVec 5) (v : Word) (m : Taint) : (x.setS r v m).ctm = x.ctm := by
  unfold Slot.setS; split <;> rfl
@[simp] theorem Slot.setS_fflags (x : Slot) (r : BitVec 5) (v : Word) (m : Taint) : (x.setS r v m).fflags = x.fflags := by
  unfold Slot.setS; split <;> rfl
@[simp] theorem Slot.setS_rm (x : Slot) (r : BitVec 5) (v : Word) (m : Taint) : (x.setS r v m).rm = x.rm := by
  unfold Slot.setS; split <;> rfl
@[simp] theorem Slot.setS_flush (x : Slot) (r : BitVec 5) (v : Word) (m : Taint) : (x.setS r v m).flush = x.flush := by
  unfold Slot.setS; split <;> rfl
@[simp] theorem Slot.setS_srseed (x : Slot) (r : BitVec 5) (v : Word) (m : Taint) : (x.setS r v m).srseed = x.srseed := by
  unfold Slot.setS; split <;> rfl
@[simp] theorem Slot.setS_seqnext (x : Slot) (r : BitVec 5) (v : Word) (m : Taint) : (x.setS r v m).seqnext = x.seqnext := by
  unfold Slot.setS; split <;> rfl
@[simp] theorem Slot.setS_repst (x : Slot) (r : BitVec 5) (v : Word) (m : Taint) : (x.setS r v m).repst = x.repst := by
  unfold Slot.setS; split <;> rfl
@[simp] theorem Slot.setS_repcnt (x : Slot) (r : BitVec 5) (v : Word) (m : Taint) : (x.setS r v m).repcnt = x.repcnt := by
  unfold Slot.setS; split <;> rfl
@[simp] theorem Slot.setS_repBody (x : Slot) (r : BitVec 5) (v : Word) (m : Taint) : (x.setS r v m).repBody = x.repBody := by
  unfold Slot.setS; split <;> rfl
@[simp] theorem Slot.setS_ahead (x : Slot) (r : BitVec 5) (v : Word) (m : Taint) : (x.setS r v m).ahead = x.ahead := by
  unfold Slot.setS; split <;> rfl
@[simp] theorem Slot.setS_lastspawn (x : Slot) (r : BitVec 5) (v : Word) (m : Taint) : (x.setS r v m).lastspawn = x.lastspawn := by
  unfold Slot.setS; split <;> rfl
@[simp] theorem Slot.setS_cstat (x : Slot) (r : BitVec 5) (v : Word) (m : Taint) : (x.setS r v m).cstat = x.cstat := by
  unfold Slot.setS; split <;> rfl
@[simp] theorem Slot.setS_strap (x : Slot) (r : BitVec 5) (v : Word) (m : Taint) : (x.setS r v m).strap = x.strap := by
  unfold Slot.setS; split <;> rfl
@[simp] theorem Slot.setS_mtrap (x : Slot) (r : BitVec 5) (v : Word) (m : Taint) : (x.setS r v m).mtrap = x.mtrap := by
  unfold Slot.setS; split <;> rfl
@[simp] theorem Slot.setS_plevel (x : Slot) (r : BitVec 5) (v : Word) (m : Taint) : (x.setS r v m).plevel = x.plevel := by
  unfold Slot.setS; split <;> rfl
@[simp] theorem Slot.setS_slres (x : Slot) (r : BitVec 5) (v : Word) (m : Taint) : (x.setS r v m).slres = x.slres := by
  unfold Slot.setS; split <;> rfl
@[simp] theorem Slot.setS_drop (x : Slot) (r : BitVec 5) (v : Word) (m : Taint) : (x.setS r v m).drop = x.drop := by
  unfold Slot.setS; split <;> rfl
@[simp] theorem Slot.setS_round (x : Slot) (r : BitVec 5) (v : Word) (m : Taint) : (x.setS r v m).round = x.round := by
  unfold Slot.setS; split <;> rfl
@[simp] theorem Slot.setS_passedMwait (x : Slot) (r : BitVec 5) (v : Word) (m : Taint) : (x.setS r v m).passedMwait = x.passedMwait := by
  unfold Slot.setS; split <;> rfl
@[simp] theorem Slot.setS_ring (x : Slot) (r : BitVec 5) (v : Word) (m : Taint) : (x.setS r v m).ring = x.ring := by
  unfold Slot.setS; split <;> rfl
@[simp] theorem Slot.setS_eset (x : Slot) (r : BitVec 5) (v : Word) (m : Taint) : (x.setS r v m).eset = x.eset := by
  unfold Slot.setS; split <;> rfl
@[simp] theorem Slot.setS_loads (x : Slot) (r : BitVec 5) (v : Word) (m : Taint) : (x.setS r v m).loads = x.loads := by
  unfold Slot.setS; split <;> rfl
@[simp] theorem Slot.setS_nextSerial (x : Slot) (r : BitVec 5) (v : Word) (m : Taint) : (x.setS r v m).nextSerial = x.nextSerial := by
  unfold Slot.setS; split <;> rfl
@[simp] theorem Slot.setS_pts (x : Slot) (r : BitVec 5) (v : Word) (m : Taint) : (x.setS r v m).pts = x.pts := by
  unfold Slot.setS; split <;> rfl
@[simp] theorem Slot.setS_touched (x : Slot) (r : BitVec 5) (v : Word) (m : Taint) : (x.setS r v m).touched = x.touched := by
  unfold Slot.setS; split <;> rfl
@[simp] theorem Slot.setS_ackOwn (x : Slot) (r : BitVec 5) (v : Word) (m : Taint) : (x.setS r v m).ackOwn = x.ackOwn := by
  unfold Slot.setS; split <;> rfl
@[simp] theorem Slot.setS_ackFar (x : Slot) (r : BitVec 5) (v : Word) (m : Taint) : (x.setS r v m).ackFar = x.ackFar := by
  unfold Slot.setS; split <;> rfl
@[simp] theorem Slot.setS_near (x : Slot) (r : BitVec 5) (v : Word) (m : Taint) : (x.setS r v m).near = x.near := by
  unfold Slot.setS; split <;> rfl
@[simp] theorem Slot.setS_dcount (x : Slot) (r : BitVec 5) (v : Word) (m : Taint) : (x.setS r v m).dcount = x.dcount := by
  unfold Slot.setS; split <;> rfl
@[simp] theorem Slot.setS_relNext (x : Slot) (r : BitVec 5) (v : Word) (m : Taint) : (x.setS r v m).relNext = x.relNext := by
  unfold Slot.setS; split <;> rfl
@[simp] theorem Slot.setS_relDone (x : Slot) (r : BitVec 5) (v : Word) (m : Taint) : (x.setS r v m).relDone = x.relDone := by
  unfold Slot.setS; split <;> rfl
@[simp] theorem Slot.setS_wait (x : Slot) (r : BitVec 5) (v : Word) (m : Taint) : (x.setS r v m).wait = x.wait := by
  unfold Slot.setS; split <;> rfl
@[simp] theorem Slot.setS_heldTraps (x : Slot) (r : BitVec 5) (v : Word) (m : Taint) : (x.setS r v m).heldTraps = x.heldTraps := by
  unfold Slot.setS; split <;> rfl
@[simp] theorem Slot.setS_nak (x : Slot) (r : BitVec 5) (v : Word) (m : Taint) : (x.setS r v m).nak = x.nak := by
  unfold Slot.setS; split <;> rfl
@[simp] theorem Slot.setS_yielding (x : Slot) (r : BitVec 5) (v : Word) (m : Taint) : (x.setS r v m).yielding = x.yielding := by
  unfold Slot.setS; split <;> rfl
@[simp] theorem Slot.setS_yieldEnd (x : Slot) (r : BitVec 5) (v : Word) (m : Taint) : (x.setS r v m).yieldEnd = x.yieldEnd := by
  unfold Slot.setS; split <;> rfl
@[simp] theorem Slot.setS_retiring (x : Slot) (r : BitVec 5) (v : Word) (m : Taint) : (x.setS r v m).retiring = x.retiring := by
  unfold Slot.setS; split <;> rfl
@[simp] theorem Slot.setS_saving (x : Slot) (r : BitVec 5) (v : Word) (m : Taint) : (x.setS r v m).saving = x.saving := by
  unfold Slot.setS; split <;> rfl
@[simp] theorem Slot.setS_xmark (x : Slot) (r : BitVec 5) (v : Word) (m : Taint) : (x.setS r v m).xmark = x.xmark := by
  unfold Slot.setS; split <;> rfl
@[simp] theorem Slot.setS_observed (x : Slot) (r : BitVec 5) (v : Word) (m : Taint) : (x.setS r v m).observed = x.observed := by
  unfold Slot.setS; split <;> rfl
@[simp] theorem Slot.setS_cstatOf (x : Slot) (r : BitVec 5) (v : Word) (m : Taint) : (x.setS r v m).cstatOf = x.cstatOf := by
  unfold Slot.setS; split <;> rfl
@[simp] theorem Slot.setS_born (x : Slot) (r : BitVec 5) (v : Word) (m : Taint) : (x.setS r v m).born = x.born := by
  unfold Slot.setS; split <;> rfl
@[simp] theorem Slot.setS_halted (x : Slot) (r : BitVec 5) (v : Word) (m : Taint) : (x.setS r v m).halted = x.halted := by
  unfold Slot.setS; split <;> rfl
@[simp] theorem Slot.setS_fatal (x : Slot) (r : BitVec 5) (v : Word) (m : Taint) : (x.setS r v m).fatal = x.fatal := by
  unfold Slot.setS; split <;> rfl
@[simp] theorem Slot.setS_dying (x : Slot) (r : BitVec 5) (v : Word) (m : Taint) : (x.setS r v m).dying = x.dying := by
  unfold Slot.setS; split <;> rfl

/-! ### Slot.setSmask -/

@[simp] theorem Slot.setSmask_state (x : Slot) (r : BitVec 5) (m : Taint) : (x.setSmask r m).state = x.state := by
  unfold Slot.setSmask; split <;> rfl
@[simp] theorem Slot.setSmask_gen (x : Slot) (r : BitVec 5) (m : Taint) : (x.setSmask r m).gen = x.gen := by
  unfold Slot.setSmask; split <;> rfl
@[simp] theorem Slot.setSmask_reserved (x : Slot) (r : BitVec 5) (m : Taint) : (x.setSmask r m).reserved = x.reserved := by
  unfold Slot.setSmask; split <;> rfl
@[simp] theorem Slot.setSmask_kind (x : Slot) (r : BitVec 5) (m : Taint) : (x.setSmask r m).kind = x.kind := by
  unfold Slot.setSmask; split <;> rfl
@[simp] theorem Slot.setSmask_ctx (x : Slot) (r : BitVec 5) (m : Taint) : (x.setSmask r m).ctx = x.ctx := by
  unfold Slot.setSmask; split <;> rfl
@[simp] theorem Slot.setSmask_level (x : Slot) (r : BitVec 5) (m : Taint) : (x.setSmask r m).level = x.level := by
  unfold Slot.setSmask; split <;> rfl
@[simp] theorem Slot.setSmask_lrec (x : Slot) (r : BitVec 5) (m : Taint) : (x.setSmask r m).lrec = x.lrec := by
  unfold Slot.setSmask; split <;> rfl
@[simp] theorem Slot.setSmask_queue (x : Slot) (r : BitVec 5) (m : Taint) : (x.setSmask r m).queue = x.queue := by
  unfold Slot.setSmask; split <;> rfl
@[simp] theorem Slot.setSmask_notify (x : Slot) (r : BitVec 5) (m : Taint) : (x.setSmask r m).notify = x.notify := by
  unfold Slot.setSmask; split <;> rfl
@[simp] theorem Slot.setSmask_home (x : Slot) (r : BitVec 5) (m : Taint) : (x.setSmask r m).home = x.home := by
  unfold Slot.setSmask; split <;> rfl
@[simp] theorem Slot.setSmask_poolIx (x : Slot) (r : BitVec 5) (m : Taint) : (x.setSmask r m).poolIx = x.poolIx := by
  unfold Slot.setSmask; split <;> rfl
@[simp] theorem Slot.setSmask_nsreg (x : Slot) (r : BitVec 5) (m : Taint) : (x.setSmask r m).nsreg = x.nsreg := by
  unfold Slot.setSmask; split <;> rfl
@[simp] theorem Slot.setSmask_nvreg (x : Slot) (r : BitVec 5) (m : Taint) : (x.setSmask r m).nvreg = x.nvreg := by
  unfold Slot.setSmask; split <;> rfl
@[simp] theorem Slot.setSmask_spillKB (x : Slot) (r : BitVec 5) (m : Taint) : (x.setSmask r m).spillKB = x.spillKB := by
  unfold Slot.setSmask; split <;> rfl
@[simp] theorem Slot.setSmask_carve (x : Slot) (r : BitVec 5) (m : Taint) : (x.setSmask r m).carve = x.carve := by
  unfold Slot.setSmask; split <;> rfl
@[simp] theorem Slot.setSmask_pc (x : Slot) (r : BitVec 5) (m : Taint) : (x.setSmask r m).pc = x.pc := by
  unfold Slot.setSmask; split <;> rfl
@[simp] theorem Slot.setSmask_s (x : Slot) (r : BitVec 5) (m : Taint) : (x.setSmask r m).s = x.s := by
  unfold Slot.setSmask; split <;> rfl
@[simp] theorem Slot.setSmask_p (x : Slot) (r : BitVec 5) (m : Taint) : (x.setSmask r m).p = x.p := by
  unfold Slot.setSmask; split <;> rfl
@[simp] theorem Slot.setSmask_pMask (x : Slot) (r : BitVec 5) (m : Taint) : (x.setSmask r m).pMask = x.pMask := by
  unfold Slot.setSmask; split <;> rfl
@[simp] theorem Slot.setSmask_pstep (x : Slot) (r : BitVec 5) (m : Taint) : (x.setSmask r m).pstep = x.pstep := by
  unfold Slot.setSmask; split <;> rfl
@[simp] theorem Slot.setSmask_v (x : Slot) (r : BitVec 5) (m : Taint) : (x.setSmask r m).v = x.v := by
  unfold Slot.setSmask; split <;> rfl
@[simp] theorem Slot.setSmask_vMask (x : Slot) (r : BitVec 5) (m : Taint) : (x.setSmask r m).vMask = x.vMask := by
  unfold Slot.setSmask; split <;> rfl
@[simp] theorem Slot.setSmask_acc (x : Slot) (r : BitVec 5) (m : Taint) : (x.setSmask r m).acc = x.acc := by
  unfold Slot.setSmask; split <;> rfl
@[simp] theorem Slot.setSmask_poison (x : Slot) (r : BitVec 5) (m : Taint) : (x.setSmask r m).poison = x.poison := by
  unfold Slot.setSmask; split <;> rfl
@[simp] theorem Slot.setSmask_ctm (x : Slot) (r : BitVec 5) (m : Taint) : (x.setSmask r m).ctm = x.ctm := by
  unfold Slot.setSmask; split <;> rfl
@[simp] theorem Slot.setSmask_fflags (x : Slot) (r : BitVec 5) (m : Taint) : (x.setSmask r m).fflags = x.fflags := by
  unfold Slot.setSmask; split <;> rfl
@[simp] theorem Slot.setSmask_rm (x : Slot) (r : BitVec 5) (m : Taint) : (x.setSmask r m).rm = x.rm := by
  unfold Slot.setSmask; split <;> rfl
@[simp] theorem Slot.setSmask_flush (x : Slot) (r : BitVec 5) (m : Taint) : (x.setSmask r m).flush = x.flush := by
  unfold Slot.setSmask; split <;> rfl
@[simp] theorem Slot.setSmask_srseed (x : Slot) (r : BitVec 5) (m : Taint) : (x.setSmask r m).srseed = x.srseed := by
  unfold Slot.setSmask; split <;> rfl
@[simp] theorem Slot.setSmask_seqnext (x : Slot) (r : BitVec 5) (m : Taint) : (x.setSmask r m).seqnext = x.seqnext := by
  unfold Slot.setSmask; split <;> rfl
@[simp] theorem Slot.setSmask_repst (x : Slot) (r : BitVec 5) (m : Taint) : (x.setSmask r m).repst = x.repst := by
  unfold Slot.setSmask; split <;> rfl
@[simp] theorem Slot.setSmask_repcnt (x : Slot) (r : BitVec 5) (m : Taint) : (x.setSmask r m).repcnt = x.repcnt := by
  unfold Slot.setSmask; split <;> rfl
@[simp] theorem Slot.setSmask_repBody (x : Slot) (r : BitVec 5) (m : Taint) : (x.setSmask r m).repBody = x.repBody := by
  unfold Slot.setSmask; split <;> rfl
@[simp] theorem Slot.setSmask_ahead (x : Slot) (r : BitVec 5) (m : Taint) : (x.setSmask r m).ahead = x.ahead := by
  unfold Slot.setSmask; split <;> rfl
@[simp] theorem Slot.setSmask_lastspawn (x : Slot) (r : BitVec 5) (m : Taint) : (x.setSmask r m).lastspawn = x.lastspawn := by
  unfold Slot.setSmask; split <;> rfl
@[simp] theorem Slot.setSmask_cstat (x : Slot) (r : BitVec 5) (m : Taint) : (x.setSmask r m).cstat = x.cstat := by
  unfold Slot.setSmask; split <;> rfl
@[simp] theorem Slot.setSmask_strap (x : Slot) (r : BitVec 5) (m : Taint) : (x.setSmask r m).strap = x.strap := by
  unfold Slot.setSmask; split <;> rfl
@[simp] theorem Slot.setSmask_mtrap (x : Slot) (r : BitVec 5) (m : Taint) : (x.setSmask r m).mtrap = x.mtrap := by
  unfold Slot.setSmask; split <;> rfl
@[simp] theorem Slot.setSmask_plevel (x : Slot) (r : BitVec 5) (m : Taint) : (x.setSmask r m).plevel = x.plevel := by
  unfold Slot.setSmask; split <;> rfl
@[simp] theorem Slot.setSmask_slres (x : Slot) (r : BitVec 5) (m : Taint) : (x.setSmask r m).slres = x.slres := by
  unfold Slot.setSmask; split <;> rfl
@[simp] theorem Slot.setSmask_drop (x : Slot) (r : BitVec 5) (m : Taint) : (x.setSmask r m).drop = x.drop := by
  unfold Slot.setSmask; split <;> rfl
@[simp] theorem Slot.setSmask_round (x : Slot) (r : BitVec 5) (m : Taint) : (x.setSmask r m).round = x.round := by
  unfold Slot.setSmask; split <;> rfl
@[simp] theorem Slot.setSmask_passedMwait (x : Slot) (r : BitVec 5) (m : Taint) : (x.setSmask r m).passedMwait = x.passedMwait := by
  unfold Slot.setSmask; split <;> rfl
@[simp] theorem Slot.setSmask_ring (x : Slot) (r : BitVec 5) (m : Taint) : (x.setSmask r m).ring = x.ring := by
  unfold Slot.setSmask; split <;> rfl
@[simp] theorem Slot.setSmask_eset (x : Slot) (r : BitVec 5) (m : Taint) : (x.setSmask r m).eset = x.eset := by
  unfold Slot.setSmask; split <;> rfl
@[simp] theorem Slot.setSmask_loads (x : Slot) (r : BitVec 5) (m : Taint) : (x.setSmask r m).loads = x.loads := by
  unfold Slot.setSmask; split <;> rfl
@[simp] theorem Slot.setSmask_nextSerial (x : Slot) (r : BitVec 5) (m : Taint) : (x.setSmask r m).nextSerial = x.nextSerial := by
  unfold Slot.setSmask; split <;> rfl
@[simp] theorem Slot.setSmask_pts (x : Slot) (r : BitVec 5) (m : Taint) : (x.setSmask r m).pts = x.pts := by
  unfold Slot.setSmask; split <;> rfl
@[simp] theorem Slot.setSmask_touched (x : Slot) (r : BitVec 5) (m : Taint) : (x.setSmask r m).touched = x.touched := by
  unfold Slot.setSmask; split <;> rfl
@[simp] theorem Slot.setSmask_ackOwn (x : Slot) (r : BitVec 5) (m : Taint) : (x.setSmask r m).ackOwn = x.ackOwn := by
  unfold Slot.setSmask; split <;> rfl
@[simp] theorem Slot.setSmask_ackFar (x : Slot) (r : BitVec 5) (m : Taint) : (x.setSmask r m).ackFar = x.ackFar := by
  unfold Slot.setSmask; split <;> rfl
@[simp] theorem Slot.setSmask_near (x : Slot) (r : BitVec 5) (m : Taint) : (x.setSmask r m).near = x.near := by
  unfold Slot.setSmask; split <;> rfl
@[simp] theorem Slot.setSmask_dcount (x : Slot) (r : BitVec 5) (m : Taint) : (x.setSmask r m).dcount = x.dcount := by
  unfold Slot.setSmask; split <;> rfl
@[simp] theorem Slot.setSmask_relNext (x : Slot) (r : BitVec 5) (m : Taint) : (x.setSmask r m).relNext = x.relNext := by
  unfold Slot.setSmask; split <;> rfl
@[simp] theorem Slot.setSmask_relDone (x : Slot) (r : BitVec 5) (m : Taint) : (x.setSmask r m).relDone = x.relDone := by
  unfold Slot.setSmask; split <;> rfl
@[simp] theorem Slot.setSmask_wait (x : Slot) (r : BitVec 5) (m : Taint) : (x.setSmask r m).wait = x.wait := by
  unfold Slot.setSmask; split <;> rfl
@[simp] theorem Slot.setSmask_heldTraps (x : Slot) (r : BitVec 5) (m : Taint) : (x.setSmask r m).heldTraps = x.heldTraps := by
  unfold Slot.setSmask; split <;> rfl
@[simp] theorem Slot.setSmask_nak (x : Slot) (r : BitVec 5) (m : Taint) : (x.setSmask r m).nak = x.nak := by
  unfold Slot.setSmask; split <;> rfl
@[simp] theorem Slot.setSmask_yielding (x : Slot) (r : BitVec 5) (m : Taint) : (x.setSmask r m).yielding = x.yielding := by
  unfold Slot.setSmask; split <;> rfl
@[simp] theorem Slot.setSmask_yieldEnd (x : Slot) (r : BitVec 5) (m : Taint) : (x.setSmask r m).yieldEnd = x.yieldEnd := by
  unfold Slot.setSmask; split <;> rfl
@[simp] theorem Slot.setSmask_retiring (x : Slot) (r : BitVec 5) (m : Taint) : (x.setSmask r m).retiring = x.retiring := by
  unfold Slot.setSmask; split <;> rfl
@[simp] theorem Slot.setSmask_saving (x : Slot) (r : BitVec 5) (m : Taint) : (x.setSmask r m).saving = x.saving := by
  unfold Slot.setSmask; split <;> rfl
@[simp] theorem Slot.setSmask_xmark (x : Slot) (r : BitVec 5) (m : Taint) : (x.setSmask r m).xmark = x.xmark := by
  unfold Slot.setSmask; split <;> rfl
@[simp] theorem Slot.setSmask_observed (x : Slot) (r : BitVec 5) (m : Taint) : (x.setSmask r m).observed = x.observed := by
  unfold Slot.setSmask; split <;> rfl
@[simp] theorem Slot.setSmask_cstatOf (x : Slot) (r : BitVec 5) (m : Taint) : (x.setSmask r m).cstatOf = x.cstatOf := by
  unfold Slot.setSmask; split <;> rfl
@[simp] theorem Slot.setSmask_born (x : Slot) (r : BitVec 5) (m : Taint) : (x.setSmask r m).born = x.born := by
  unfold Slot.setSmask; split <;> rfl
@[simp] theorem Slot.setSmask_halted (x : Slot) (r : BitVec 5) (m : Taint) : (x.setSmask r m).halted = x.halted := by
  unfold Slot.setSmask; split <;> rfl
@[simp] theorem Slot.setSmask_fatal (x : Slot) (r : BitVec 5) (m : Taint) : (x.setSmask r m).fatal = x.fatal := by
  unfold Slot.setSmask; split <;> rfl
@[simp] theorem Slot.setSmask_dying (x : Slot) (r : BitVec 5) (m : Taint) : (x.setSmask r m).dying = x.dying := by
  unfold Slot.setSmask; split <;> rfl

/-! ### Slot.advance -/

@[simp] theorem Slot.advance_state (x : Slot) : (x.advance).state = x.state := by
  unfold Slot.advance; (repeat' split) <;> rfl
@[simp] theorem Slot.advance_gen (x : Slot) : (x.advance).gen = x.gen := by
  unfold Slot.advance; (repeat' split) <;> rfl
@[simp] theorem Slot.advance_reserved (x : Slot) : (x.advance).reserved = x.reserved := by
  unfold Slot.advance; (repeat' split) <;> rfl
@[simp] theorem Slot.advance_kind (x : Slot) : (x.advance).kind = x.kind := by
  unfold Slot.advance; (repeat' split) <;> rfl
@[simp] theorem Slot.advance_ctx (x : Slot) : (x.advance).ctx = x.ctx := by
  unfold Slot.advance; (repeat' split) <;> rfl
@[simp] theorem Slot.advance_level (x : Slot) : (x.advance).level = x.level := by
  unfold Slot.advance; (repeat' split) <;> rfl
@[simp] theorem Slot.advance_lrec (x : Slot) : (x.advance).lrec = x.lrec := by
  unfold Slot.advance; (repeat' split) <;> rfl
@[simp] theorem Slot.advance_queue (x : Slot) : (x.advance).queue = x.queue := by
  unfold Slot.advance; (repeat' split) <;> rfl
@[simp] theorem Slot.advance_notify (x : Slot) : (x.advance).notify = x.notify := by
  unfold Slot.advance; (repeat' split) <;> rfl
@[simp] theorem Slot.advance_home (x : Slot) : (x.advance).home = x.home := by
  unfold Slot.advance; (repeat' split) <;> rfl
@[simp] theorem Slot.advance_poolIx (x : Slot) : (x.advance).poolIx = x.poolIx := by
  unfold Slot.advance; (repeat' split) <;> rfl
@[simp] theorem Slot.advance_nsreg (x : Slot) : (x.advance).nsreg = x.nsreg := by
  unfold Slot.advance; (repeat' split) <;> rfl
@[simp] theorem Slot.advance_nvreg (x : Slot) : (x.advance).nvreg = x.nvreg := by
  unfold Slot.advance; (repeat' split) <;> rfl
@[simp] theorem Slot.advance_spillKB (x : Slot) : (x.advance).spillKB = x.spillKB := by
  unfold Slot.advance; (repeat' split) <;> rfl
@[simp] theorem Slot.advance_carve (x : Slot) : (x.advance).carve = x.carve := by
  unfold Slot.advance; (repeat' split) <;> rfl
@[simp] theorem Slot.advance_s (x : Slot) : (x.advance).s = x.s := by
  unfold Slot.advance; (repeat' split) <;> rfl
@[simp] theorem Slot.advance_sMask (x : Slot) : (x.advance).sMask = x.sMask := by
  unfold Slot.advance; (repeat' split) <;> rfl
@[simp] theorem Slot.advance_p (x : Slot) : (x.advance).p = x.p := by
  unfold Slot.advance; (repeat' split) <;> rfl
@[simp] theorem Slot.advance_pMask (x : Slot) : (x.advance).pMask = x.pMask := by
  unfold Slot.advance; (repeat' split) <;> rfl
@[simp] theorem Slot.advance_pstep (x : Slot) : (x.advance).pstep = x.pstep := by
  unfold Slot.advance; (repeat' split) <;> rfl
@[simp] theorem Slot.advance_v (x : Slot) : (x.advance).v = x.v := by
  unfold Slot.advance; (repeat' split) <;> rfl
@[simp] theorem Slot.advance_vMask (x : Slot) : (x.advance).vMask = x.vMask := by
  unfold Slot.advance; (repeat' split) <;> rfl
@[simp] theorem Slot.advance_acc (x : Slot) : (x.advance).acc = x.acc := by
  unfold Slot.advance; (repeat' split) <;> rfl
@[simp] theorem Slot.advance_poison (x : Slot) : (x.advance).poison = x.poison := by
  unfold Slot.advance; (repeat' split) <;> rfl
@[simp] theorem Slot.advance_ctm (x : Slot) : (x.advance).ctm = x.ctm := by
  unfold Slot.advance; (repeat' split) <;> rfl
@[simp] theorem Slot.advance_fflags (x : Slot) : (x.advance).fflags = x.fflags := by
  unfold Slot.advance; (repeat' split) <;> rfl
@[simp] theorem Slot.advance_rm (x : Slot) : (x.advance).rm = x.rm := by
  unfold Slot.advance; (repeat' split) <;> rfl
@[simp] theorem Slot.advance_flush (x : Slot) : (x.advance).flush = x.flush := by
  unfold Slot.advance; (repeat' split) <;> rfl
@[simp] theorem Slot.advance_srseed (x : Slot) : (x.advance).srseed = x.srseed := by
  unfold Slot.advance; (repeat' split) <;> rfl
@[simp] theorem Slot.advance_seqnext (x : Slot) : (x.advance).seqnext = x.seqnext := by
  unfold Slot.advance; (repeat' split) <;> rfl
@[simp] theorem Slot.advance_repcnt (x : Slot) : (x.advance).repcnt = x.repcnt := by
  unfold Slot.advance; (repeat' split) <;> rfl
@[simp] theorem Slot.advance_ahead (x : Slot) : (x.advance).ahead = x.ahead := by
  unfold Slot.advance; (repeat' split) <;> rfl
@[simp] theorem Slot.advance_lastspawn (x : Slot) : (x.advance).lastspawn = x.lastspawn := by
  unfold Slot.advance; (repeat' split) <;> rfl
@[simp] theorem Slot.advance_cstat (x : Slot) : (x.advance).cstat = x.cstat := by
  unfold Slot.advance; (repeat' split) <;> rfl
@[simp] theorem Slot.advance_strap (x : Slot) : (x.advance).strap = x.strap := by
  unfold Slot.advance; (repeat' split) <;> rfl
@[simp] theorem Slot.advance_mtrap (x : Slot) : (x.advance).mtrap = x.mtrap := by
  unfold Slot.advance; (repeat' split) <;> rfl
@[simp] theorem Slot.advance_plevel (x : Slot) : (x.advance).plevel = x.plevel := by
  unfold Slot.advance; (repeat' split) <;> rfl
@[simp] theorem Slot.advance_slres (x : Slot) : (x.advance).slres = x.slres := by
  unfold Slot.advance; (repeat' split) <;> rfl
@[simp] theorem Slot.advance_drop (x : Slot) : (x.advance).drop = x.drop := by
  unfold Slot.advance; (repeat' split) <;> rfl
@[simp] theorem Slot.advance_round (x : Slot) : (x.advance).round = x.round := by
  unfold Slot.advance; (repeat' split) <;> rfl
@[simp] theorem Slot.advance_passedMwait (x : Slot) : (x.advance).passedMwait = x.passedMwait := by
  unfold Slot.advance; (repeat' split) <;> rfl
@[simp] theorem Slot.advance_ring (x : Slot) : (x.advance).ring = x.ring := by
  unfold Slot.advance; (repeat' split) <;> rfl
@[simp] theorem Slot.advance_eset (x : Slot) : (x.advance).eset = x.eset := by
  unfold Slot.advance; (repeat' split) <;> rfl
@[simp] theorem Slot.advance_loads (x : Slot) : (x.advance).loads = x.loads := by
  unfold Slot.advance; (repeat' split) <;> rfl
@[simp] theorem Slot.advance_nextSerial (x : Slot) : (x.advance).nextSerial = x.nextSerial := by
  unfold Slot.advance; (repeat' split) <;> rfl
@[simp] theorem Slot.advance_pts (x : Slot) : (x.advance).pts = x.pts := by
  unfold Slot.advance; (repeat' split) <;> rfl
@[simp] theorem Slot.advance_touched (x : Slot) : (x.advance).touched = x.touched := by
  unfold Slot.advance; (repeat' split) <;> rfl
@[simp] theorem Slot.advance_ackOwn (x : Slot) : (x.advance).ackOwn = x.ackOwn := by
  unfold Slot.advance; (repeat' split) <;> rfl
@[simp] theorem Slot.advance_ackFar (x : Slot) : (x.advance).ackFar = x.ackFar := by
  unfold Slot.advance; (repeat' split) <;> rfl
@[simp] theorem Slot.advance_near (x : Slot) : (x.advance).near = x.near := by
  unfold Slot.advance; (repeat' split) <;> rfl
@[simp] theorem Slot.advance_dcount (x : Slot) : (x.advance).dcount = x.dcount := by
  unfold Slot.advance; (repeat' split) <;> rfl
@[simp] theorem Slot.advance_relNext (x : Slot) : (x.advance).relNext = x.relNext := by
  unfold Slot.advance; (repeat' split) <;> rfl
@[simp] theorem Slot.advance_relDone (x : Slot) : (x.advance).relDone = x.relDone := by
  unfold Slot.advance; (repeat' split) <;> rfl
@[simp] theorem Slot.advance_wait (x : Slot) : (x.advance).wait = x.wait := by
  unfold Slot.advance; (repeat' split) <;> rfl
@[simp] theorem Slot.advance_heldTraps (x : Slot) : (x.advance).heldTraps = x.heldTraps := by
  unfold Slot.advance; (repeat' split) <;> rfl
@[simp] theorem Slot.advance_nak (x : Slot) : (x.advance).nak = x.nak := by
  unfold Slot.advance; (repeat' split) <;> rfl
@[simp] theorem Slot.advance_yielding (x : Slot) : (x.advance).yielding = x.yielding := by
  unfold Slot.advance; (repeat' split) <;> rfl
@[simp] theorem Slot.advance_yieldEnd (x : Slot) : (x.advance).yieldEnd = x.yieldEnd := by
  unfold Slot.advance; (repeat' split) <;> rfl
@[simp] theorem Slot.advance_retiring (x : Slot) : (x.advance).retiring = x.retiring := by
  unfold Slot.advance; (repeat' split) <;> rfl
@[simp] theorem Slot.advance_saving (x : Slot) : (x.advance).saving = x.saving := by
  unfold Slot.advance; (repeat' split) <;> rfl
@[simp] theorem Slot.advance_xmark (x : Slot) : (x.advance).xmark = x.xmark := by
  unfold Slot.advance; (repeat' split) <;> rfl
@[simp] theorem Slot.advance_observed (x : Slot) : (x.advance).observed = x.observed := by
  unfold Slot.advance; (repeat' split) <;> rfl
@[simp] theorem Slot.advance_cstatOf (x : Slot) : (x.advance).cstatOf = x.cstatOf := by
  unfold Slot.advance; (repeat' split) <;> rfl
@[simp] theorem Slot.advance_born (x : Slot) : (x.advance).born = x.born := by
  unfold Slot.advance; (repeat' split) <;> rfl
@[simp] theorem Slot.advance_halted (x : Slot) : (x.advance).halted = x.halted := by
  unfold Slot.advance; (repeat' split) <;> rfl
@[simp] theorem Slot.advance_fatal (x : Slot) : (x.advance).fatal = x.fatal := by
  unfold Slot.advance; (repeat' split) <;> rfl
@[simp] theorem Slot.advance_dying (x : Slot) : (x.advance).dying = x.dying := by
  unfold Slot.advance; (repeat' split) <;> rfl

/-! ### Slot.dropSatisfied -/

@[simp] theorem Slot.dropSatisfied_state (x : Slot) : (x.dropSatisfied).state = x.state := by
  rfl
@[simp] theorem Slot.dropSatisfied_gen (x : Slot) : (x.dropSatisfied).gen = x.gen := by
  rfl
@[simp] theorem Slot.dropSatisfied_reserved (x : Slot) : (x.dropSatisfied).reserved = x.reserved := by
  rfl
@[simp] theorem Slot.dropSatisfied_kind (x : Slot) : (x.dropSatisfied).kind = x.kind := by
  rfl
@[simp] theorem Slot.dropSatisfied_ctx (x : Slot) : (x.dropSatisfied).ctx = x.ctx := by
  rfl
@[simp] theorem Slot.dropSatisfied_level (x : Slot) : (x.dropSatisfied).level = x.level := by
  rfl
@[simp] theorem Slot.dropSatisfied_lrec (x : Slot) : (x.dropSatisfied).lrec = x.lrec := by
  rfl
@[simp] theorem Slot.dropSatisfied_queue (x : Slot) : (x.dropSatisfied).queue = x.queue := by
  rfl
@[simp] theorem Slot.dropSatisfied_notify (x : Slot) : (x.dropSatisfied).notify = x.notify := by
  rfl
@[simp] theorem Slot.dropSatisfied_home (x : Slot) : (x.dropSatisfied).home = x.home := by
  rfl
@[simp] theorem Slot.dropSatisfied_poolIx (x : Slot) : (x.dropSatisfied).poolIx = x.poolIx := by
  rfl
@[simp] theorem Slot.dropSatisfied_nsreg (x : Slot) : (x.dropSatisfied).nsreg = x.nsreg := by
  rfl
@[simp] theorem Slot.dropSatisfied_nvreg (x : Slot) : (x.dropSatisfied).nvreg = x.nvreg := by
  rfl
@[simp] theorem Slot.dropSatisfied_spillKB (x : Slot) : (x.dropSatisfied).spillKB = x.spillKB := by
  rfl
@[simp] theorem Slot.dropSatisfied_carve (x : Slot) : (x.dropSatisfied).carve = x.carve := by
  rfl
@[simp] theorem Slot.dropSatisfied_pc (x : Slot) : (x.dropSatisfied).pc = x.pc := by
  rfl
@[simp] theorem Slot.dropSatisfied_s (x : Slot) : (x.dropSatisfied).s = x.s := by
  rfl
@[simp] theorem Slot.dropSatisfied_sMask (x : Slot) : (x.dropSatisfied).sMask = x.sMask := by
  rfl
@[simp] theorem Slot.dropSatisfied_p (x : Slot) : (x.dropSatisfied).p = x.p := by
  rfl
@[simp] theorem Slot.dropSatisfied_pMask (x : Slot) : (x.dropSatisfied).pMask = x.pMask := by
  rfl
@[simp] theorem Slot.dropSatisfied_pstep (x : Slot) : (x.dropSatisfied).pstep = x.pstep := by
  rfl
@[simp] theorem Slot.dropSatisfied_v (x : Slot) : (x.dropSatisfied).v = x.v := by
  rfl
@[simp] theorem Slot.dropSatisfied_vMask (x : Slot) : (x.dropSatisfied).vMask = x.vMask := by
  rfl
@[simp] theorem Slot.dropSatisfied_acc (x : Slot) : (x.dropSatisfied).acc = x.acc := by
  rfl
@[simp] theorem Slot.dropSatisfied_poison (x : Slot) : (x.dropSatisfied).poison = x.poison := by
  rfl
@[simp] theorem Slot.dropSatisfied_fflags (x : Slot) : (x.dropSatisfied).fflags = x.fflags := by
  rfl
@[simp] theorem Slot.dropSatisfied_rm (x : Slot) : (x.dropSatisfied).rm = x.rm := by
  rfl
@[simp] theorem Slot.dropSatisfied_flush (x : Slot) : (x.dropSatisfied).flush = x.flush := by
  rfl
@[simp] theorem Slot.dropSatisfied_srseed (x : Slot) : (x.dropSatisfied).srseed = x.srseed := by
  rfl
@[simp] theorem Slot.dropSatisfied_seqnext (x : Slot) : (x.dropSatisfied).seqnext = x.seqnext := by
  rfl
@[simp] theorem Slot.dropSatisfied_repst (x : Slot) : (x.dropSatisfied).repst = x.repst := by
  rfl
@[simp] theorem Slot.dropSatisfied_repcnt (x : Slot) : (x.dropSatisfied).repcnt = x.repcnt := by
  rfl
@[simp] theorem Slot.dropSatisfied_repBody (x : Slot) : (x.dropSatisfied).repBody = x.repBody := by
  rfl
@[simp] theorem Slot.dropSatisfied_ahead (x : Slot) : (x.dropSatisfied).ahead = x.ahead := by
  rfl
@[simp] theorem Slot.dropSatisfied_lastspawn (x : Slot) : (x.dropSatisfied).lastspawn = x.lastspawn := by
  rfl
@[simp] theorem Slot.dropSatisfied_cstat (x : Slot) : (x.dropSatisfied).cstat = x.cstat := by
  rfl
@[simp] theorem Slot.dropSatisfied_strap (x : Slot) : (x.dropSatisfied).strap = x.strap := by
  rfl
@[simp] theorem Slot.dropSatisfied_mtrap (x : Slot) : (x.dropSatisfied).mtrap = x.mtrap := by
  rfl
@[simp] theorem Slot.dropSatisfied_plevel (x : Slot) : (x.dropSatisfied).plevel = x.plevel := by
  rfl
@[simp] theorem Slot.dropSatisfied_slres (x : Slot) : (x.dropSatisfied).slres = x.slres := by
  rfl
@[simp] theorem Slot.dropSatisfied_drop (x : Slot) : (x.dropSatisfied).drop = x.drop := by
  rfl
@[simp] theorem Slot.dropSatisfied_round (x : Slot) : (x.dropSatisfied).round = x.round := by
  rfl
@[simp] theorem Slot.dropSatisfied_passedMwait (x : Slot) : (x.dropSatisfied).passedMwait = x.passedMwait := by
  rfl
@[simp] theorem Slot.dropSatisfied_ring (x : Slot) : (x.dropSatisfied).ring = x.ring := by
  rfl
@[simp] theorem Slot.dropSatisfied_eset (x : Slot) : (x.dropSatisfied).eset = x.eset := by
  rfl
@[simp] theorem Slot.dropSatisfied_loads (x : Slot) : (x.dropSatisfied).loads = x.loads := by
  rfl
@[simp] theorem Slot.dropSatisfied_nextSerial (x : Slot) : (x.dropSatisfied).nextSerial = x.nextSerial := by
  rfl
@[simp] theorem Slot.dropSatisfied_pts (x : Slot) : (x.dropSatisfied).pts = x.pts := by
  rfl
@[simp] theorem Slot.dropSatisfied_touched (x : Slot) : (x.dropSatisfied).touched = x.touched := by
  rfl
@[simp] theorem Slot.dropSatisfied_ackOwn (x : Slot) : (x.dropSatisfied).ackOwn = x.ackOwn := by
  rfl
@[simp] theorem Slot.dropSatisfied_ackFar (x : Slot) : (x.dropSatisfied).ackFar = x.ackFar := by
  rfl
@[simp] theorem Slot.dropSatisfied_near (x : Slot) : (x.dropSatisfied).near = x.near := by
  rfl
@[simp] theorem Slot.dropSatisfied_dcount (x : Slot) : (x.dropSatisfied).dcount = x.dcount := by
  rfl
@[simp] theorem Slot.dropSatisfied_relNext (x : Slot) : (x.dropSatisfied).relNext = x.relNext := by
  rfl
@[simp] theorem Slot.dropSatisfied_relDone (x : Slot) : (x.dropSatisfied).relDone = x.relDone := by
  rfl
@[simp] theorem Slot.dropSatisfied_wait (x : Slot) : (x.dropSatisfied).wait = x.wait := by
  rfl
@[simp] theorem Slot.dropSatisfied_heldTraps (x : Slot) : (x.dropSatisfied).heldTraps = x.heldTraps := by
  rfl
@[simp] theorem Slot.dropSatisfied_nak (x : Slot) : (x.dropSatisfied).nak = x.nak := by
  rfl
@[simp] theorem Slot.dropSatisfied_yielding (x : Slot) : (x.dropSatisfied).yielding = x.yielding := by
  rfl
@[simp] theorem Slot.dropSatisfied_yieldEnd (x : Slot) : (x.dropSatisfied).yieldEnd = x.yieldEnd := by
  rfl
@[simp] theorem Slot.dropSatisfied_retiring (x : Slot) : (x.dropSatisfied).retiring = x.retiring := by
  rfl
@[simp] theorem Slot.dropSatisfied_saving (x : Slot) : (x.dropSatisfied).saving = x.saving := by
  rfl
@[simp] theorem Slot.dropSatisfied_xmark (x : Slot) : (x.dropSatisfied).xmark = x.xmark := by
  rfl
@[simp] theorem Slot.dropSatisfied_observed (x : Slot) : (x.dropSatisfied).observed = x.observed := by
  rfl
@[simp] theorem Slot.dropSatisfied_cstatOf (x : Slot) : (x.dropSatisfied).cstatOf = x.cstatOf := by
  rfl
@[simp] theorem Slot.dropSatisfied_born (x : Slot) : (x.dropSatisfied).born = x.born := by
  rfl
@[simp] theorem Slot.dropSatisfied_halted (x : Slot) : (x.dropSatisfied).halted = x.halted := by
  rfl
@[simp] theorem Slot.dropSatisfied_fatal (x : Slot) : (x.dropSatisfied).fatal = x.fatal := by
  rfl
@[simp] theorem Slot.dropSatisfied_dying (x : Slot) : (x.dropSatisfied).dying = x.dying := by
  rfl

/-! ### Slot.addCtm -/

@[simp] theorem Slot.addCtm_state (x : Slot) (m : Taint) : (x.addCtm m).state = x.state := by
  rfl
@[simp] theorem Slot.addCtm_gen (x : Slot) (m : Taint) : (x.addCtm m).gen = x.gen := by
  rfl
@[simp] theorem Slot.addCtm_reserved (x : Slot) (m : Taint) : (x.addCtm m).reserved = x.reserved := by
  rfl
@[simp] theorem Slot.addCtm_kind (x : Slot) (m : Taint) : (x.addCtm m).kind = x.kind := by
  rfl
@[simp] theorem Slot.addCtm_ctx (x : Slot) (m : Taint) : (x.addCtm m).ctx = x.ctx := by
  rfl
@[simp] theorem Slot.addCtm_level (x : Slot) (m : Taint) : (x.addCtm m).level = x.level := by
  rfl
@[simp] theorem Slot.addCtm_lrec (x : Slot) (m : Taint) : (x.addCtm m).lrec = x.lrec := by
  rfl
@[simp] theorem Slot.addCtm_queue (x : Slot) (m : Taint) : (x.addCtm m).queue = x.queue := by
  rfl
@[simp] theorem Slot.addCtm_notify (x : Slot) (m : Taint) : (x.addCtm m).notify = x.notify := by
  rfl
@[simp] theorem Slot.addCtm_home (x : Slot) (m : Taint) : (x.addCtm m).home = x.home := by
  rfl
@[simp] theorem Slot.addCtm_poolIx (x : Slot) (m : Taint) : (x.addCtm m).poolIx = x.poolIx := by
  rfl
@[simp] theorem Slot.addCtm_nsreg (x : Slot) (m : Taint) : (x.addCtm m).nsreg = x.nsreg := by
  rfl
@[simp] theorem Slot.addCtm_nvreg (x : Slot) (m : Taint) : (x.addCtm m).nvreg = x.nvreg := by
  rfl
@[simp] theorem Slot.addCtm_spillKB (x : Slot) (m : Taint) : (x.addCtm m).spillKB = x.spillKB := by
  rfl
@[simp] theorem Slot.addCtm_carve (x : Slot) (m : Taint) : (x.addCtm m).carve = x.carve := by
  rfl
@[simp] theorem Slot.addCtm_pc (x : Slot) (m : Taint) : (x.addCtm m).pc = x.pc := by
  rfl
@[simp] theorem Slot.addCtm_s (x : Slot) (m : Taint) : (x.addCtm m).s = x.s := by
  rfl
@[simp] theorem Slot.addCtm_sMask (x : Slot) (m : Taint) : (x.addCtm m).sMask = x.sMask := by
  rfl
@[simp] theorem Slot.addCtm_p (x : Slot) (m : Taint) : (x.addCtm m).p = x.p := by
  rfl
@[simp] theorem Slot.addCtm_pMask (x : Slot) (m : Taint) : (x.addCtm m).pMask = x.pMask := by
  rfl
@[simp] theorem Slot.addCtm_pstep (x : Slot) (m : Taint) : (x.addCtm m).pstep = x.pstep := by
  rfl
@[simp] theorem Slot.addCtm_v (x : Slot) (m : Taint) : (x.addCtm m).v = x.v := by
  rfl
@[simp] theorem Slot.addCtm_vMask (x : Slot) (m : Taint) : (x.addCtm m).vMask = x.vMask := by
  rfl
@[simp] theorem Slot.addCtm_acc (x : Slot) (m : Taint) : (x.addCtm m).acc = x.acc := by
  rfl
@[simp] theorem Slot.addCtm_poison (x : Slot) (m : Taint) : (x.addCtm m).poison = x.poison := by
  rfl
@[simp] theorem Slot.addCtm_fflags (x : Slot) (m : Taint) : (x.addCtm m).fflags = x.fflags := by
  rfl
@[simp] theorem Slot.addCtm_rm (x : Slot) (m : Taint) : (x.addCtm m).rm = x.rm := by
  rfl
@[simp] theorem Slot.addCtm_flush (x : Slot) (m : Taint) : (x.addCtm m).flush = x.flush := by
  rfl
@[simp] theorem Slot.addCtm_srseed (x : Slot) (m : Taint) : (x.addCtm m).srseed = x.srseed := by
  rfl
@[simp] theorem Slot.addCtm_seqnext (x : Slot) (m : Taint) : (x.addCtm m).seqnext = x.seqnext := by
  rfl
@[simp] theorem Slot.addCtm_repst (x : Slot) (m : Taint) : (x.addCtm m).repst = x.repst := by
  rfl
@[simp] theorem Slot.addCtm_repcnt (x : Slot) (m : Taint) : (x.addCtm m).repcnt = x.repcnt := by
  rfl
@[simp] theorem Slot.addCtm_repBody (x : Slot) (m : Taint) : (x.addCtm m).repBody = x.repBody := by
  rfl
@[simp] theorem Slot.addCtm_ahead (x : Slot) (m : Taint) : (x.addCtm m).ahead = x.ahead := by
  rfl
@[simp] theorem Slot.addCtm_lastspawn (x : Slot) (m : Taint) : (x.addCtm m).lastspawn = x.lastspawn := by
  rfl
@[simp] theorem Slot.addCtm_cstat (x : Slot) (m : Taint) : (x.addCtm m).cstat = x.cstat := by
  rfl
@[simp] theorem Slot.addCtm_strap (x : Slot) (m : Taint) : (x.addCtm m).strap = x.strap := by
  rfl
@[simp] theorem Slot.addCtm_mtrap (x : Slot) (m : Taint) : (x.addCtm m).mtrap = x.mtrap := by
  rfl
@[simp] theorem Slot.addCtm_plevel (x : Slot) (m : Taint) : (x.addCtm m).plevel = x.plevel := by
  rfl
@[simp] theorem Slot.addCtm_slres (x : Slot) (m : Taint) : (x.addCtm m).slres = x.slres := by
  rfl
@[simp] theorem Slot.addCtm_drop (x : Slot) (m : Taint) : (x.addCtm m).drop = x.drop := by
  rfl
@[simp] theorem Slot.addCtm_round (x : Slot) (m : Taint) : (x.addCtm m).round = x.round := by
  rfl
@[simp] theorem Slot.addCtm_passedMwait (x : Slot) (m : Taint) : (x.addCtm m).passedMwait = x.passedMwait := by
  rfl
@[simp] theorem Slot.addCtm_ring (x : Slot) (m : Taint) : (x.addCtm m).ring = x.ring := by
  rfl
@[simp] theorem Slot.addCtm_eset (x : Slot) (m : Taint) : (x.addCtm m).eset = x.eset := by
  rfl
@[simp] theorem Slot.addCtm_loads (x : Slot) (m : Taint) : (x.addCtm m).loads = x.loads := by
  rfl
@[simp] theorem Slot.addCtm_nextSerial (x : Slot) (m : Taint) : (x.addCtm m).nextSerial = x.nextSerial := by
  rfl
@[simp] theorem Slot.addCtm_pts (x : Slot) (m : Taint) : (x.addCtm m).pts = x.pts := by
  rfl
@[simp] theorem Slot.addCtm_touched (x : Slot) (m : Taint) : (x.addCtm m).touched = x.touched := by
  rfl
@[simp] theorem Slot.addCtm_ackOwn (x : Slot) (m : Taint) : (x.addCtm m).ackOwn = x.ackOwn := by
  rfl
@[simp] theorem Slot.addCtm_ackFar (x : Slot) (m : Taint) : (x.addCtm m).ackFar = x.ackFar := by
  rfl
@[simp] theorem Slot.addCtm_near (x : Slot) (m : Taint) : (x.addCtm m).near = x.near := by
  rfl
@[simp] theorem Slot.addCtm_dcount (x : Slot) (m : Taint) : (x.addCtm m).dcount = x.dcount := by
  rfl
@[simp] theorem Slot.addCtm_relNext (x : Slot) (m : Taint) : (x.addCtm m).relNext = x.relNext := by
  rfl
@[simp] theorem Slot.addCtm_relDone (x : Slot) (m : Taint) : (x.addCtm m).relDone = x.relDone := by
  rfl
@[simp] theorem Slot.addCtm_wait (x : Slot) (m : Taint) : (x.addCtm m).wait = x.wait := by
  rfl
@[simp] theorem Slot.addCtm_heldTraps (x : Slot) (m : Taint) : (x.addCtm m).heldTraps = x.heldTraps := by
  rfl
@[simp] theorem Slot.addCtm_nak (x : Slot) (m : Taint) : (x.addCtm m).nak = x.nak := by
  rfl
@[simp] theorem Slot.addCtm_yielding (x : Slot) (m : Taint) : (x.addCtm m).yielding = x.yielding := by
  rfl
@[simp] theorem Slot.addCtm_yieldEnd (x : Slot) (m : Taint) : (x.addCtm m).yieldEnd = x.yieldEnd := by
  rfl
@[simp] theorem Slot.addCtm_retiring (x : Slot) (m : Taint) : (x.addCtm m).retiring = x.retiring := by
  rfl
@[simp] theorem Slot.addCtm_saving (x : Slot) (m : Taint) : (x.addCtm m).saving = x.saving := by
  rfl
@[simp] theorem Slot.addCtm_xmark (x : Slot) (m : Taint) : (x.addCtm m).xmark = x.xmark := by
  rfl
@[simp] theorem Slot.addCtm_observed (x : Slot) (m : Taint) : (x.addCtm m).observed = x.observed := by
  rfl
@[simp] theorem Slot.addCtm_cstatOf (x : Slot) (m : Taint) : (x.addCtm m).cstatOf = x.cstatOf := by
  rfl
@[simp] theorem Slot.addCtm_born (x : Slot) (m : Taint) : (x.addCtm m).born = x.born := by
  rfl
@[simp] theorem Slot.addCtm_halted (x : Slot) (m : Taint) : (x.addCtm m).halted = x.halted := by
  rfl
@[simp] theorem Slot.addCtm_fatal (x : Slot) (m : Taint) : (x.addCtm m).fatal = x.fatal := by
  rfl
@[simp] theorem Slot.addCtm_dying (x : Slot) (m : Taint) : (x.addCtm m).dying = x.dying := by
  rfl

/-! ### Reading what was set -/

@[simp] theorem State.slot_setSlot_same (s : State) (q : Nat) (x : Slot) : (s.setSlot q x).slot q = x :=
  getAt_putAt_same _ _ _ _

theorem State.slot_setSlot_other (s : State) (q r : Nat) (x : Slot) (h : r ≠ q) :
    (s.setSlot q x).slot r = s.slot r :=
  getAt_putAt_other _ _ _ _ _ h

@[simp] theorem State.slot_modSlot_same (s : State) (q : Nat) (f : Slot → Slot) :
    (s.modSlot q f).slot q = f (s.slot q) :=
  getAt_putAt_same _ _ _ _

theorem State.slot_modSlot_other (s : State) (q r : Nat) (f : Slot → Slot) (h : r ≠ q) :
    (s.modSlot q f).slot r = s.slot r :=
  getAt_putAt_other _ _ _ _ _ h

@[simp] theorem State.slot_push (s : State) (e : Event) (q : Nat) : (s.push e).slot q = s.slot q := rfl

@[simp] theorem State.slot_pushAll (s : State) (es : List Event) (q : Nat) :
    (s.pushAll es).slot q = s.slot q := rfl

@[simp] theorem State.slot_setReg (s : State) (o : Nat) (v : Word) (q : Nat) :
    (s.setReg o v).slot q = s.slot q := rfl

@[simp] theorem State.reg_setReg_same (s : State) (o : Nat) (v : Word) : (s.setReg o v).reg o = v :=
  getAt_putAt_same _ _ _ _

theorem State.reg_setReg_other (s : State) (o p : Nat) (v : Word) (h : p / 8 ≠ o / 8) :
    (s.setReg o v).reg p = s.reg p :=
  getAt_putAt_other _ _ _ _ _ h

@[simp] theorem State.reg_setSlot (s : State) (q : Nat) (x : Slot) (o : Nat) : (s.setSlot q x).reg o = s.reg o := rfl

@[simp] theorem State.core_setCore_same (s : State) (k : Nat) (x : CoreRec) : (s.setCore k x).core k = x :=
  getAt_putAt_same _ _ _ _

@[simp] theorem State.tile_setTile_same (s : State) (t : Nat) (x : Tile) : (s.setTile t x).tile t = x :=
  getAt_putAt_same _ _ _ _

@[simp] theorem State.bank_setBank_same (s : State) (c b : Nat) (x : Bank) : (s.setBank c b x).bank c b = x :=
  getAt_putAt_same _ _ _ _

/-- s0 reads as zero (R78). -/
@[simp] theorem Slot.sreg_zero (x : Slot) : x.sreg 0 = 0 := rfl

/-- A write to s0 is discarded (R78). -/
@[simp] theorem Slot.setS_zero (x : Slot) (v : Word) (m : Taint) : x.setS 0 v m = x := rfl

@[simp] theorem Slot.sreg_setS_same (x : Slot) (r : BitVec 5) (v : Word) (m : Taint) (h : r ≠ 0) :
    (x.setS r v m).sreg r = v := by
  simp only [Slot.setS, Slot.sreg, if_neg h]
  exact getAt_putAt_same _ _ _ _

@[simp] theorem Slot.smask_setS_same (x : Slot) (r : BitVec 5) (v : Word) (m : Taint) (h : r ≠ 0) :
    (x.setS r v m).smask r = m := by
  simp only [Slot.setS, Slot.smask, if_neg h]
  exact getAt_putAt_same _ _ _ _

theorem Slot.sreg_setS_other (x : Slot) (r t : BitVec 5) (v : Word) (m : Taint) (h : t ≠ r) :
    (x.setS r v m).sreg t = x.sreg t := by
  unfold Slot.setS Slot.sreg
  split
  · rfl
  · split
    · rfl
    · exact getAt_putAt_other _ _ _ _ _ fun e => h (BitVec.eq_of_toNat_eq e)

theorem Slot.smask_setS_other (x : Slot) (r t : BitVec 5) (v : Word) (m : Taint) (h : t ≠ r) :
    (x.setS r v m).smask t = x.smask t := by
  unfold Slot.setS Slot.smask
  split
  · rfl
  · split
    · rfl
    · exact getAt_putAt_other _ _ _ _ _ fun e => h (BitVec.eq_of_toNat_eq e)

@[simp] theorem Slot.sreg_advance (x : Slot) (r : BitVec 5) : x.advance.sreg r = x.sreg r := by
  simp only [Slot.sreg, Slot.advance_s]

@[simp] theorem Slot.smask_advance (x : Slot) (r : BitVec 5) : x.advance.smask r = x.smask r := by
  simp only [Slot.smask, Slot.advance_sMask]

@[simp] theorem Slot.preg_advance (x : Slot) (p : BitVec 3) : x.advance.preg p = x.preg p := by
  simp only [Slot.preg, Slot.advance_p]

@[simp] theorem Slot.vreg_advance (x : Slot) (r : BitVec 5) : x.advance.vreg r = x.vreg r := by
  simp only [Slot.vreg, Slot.advance_v]

@[simp] theorem Slot.preg_setP_same (x : Slot) (p : BitVec 3) (v : Word) (m : Taint) : (x.setP p v m).preg p = v :=
  getAt_putAt_same _ _ _ _

@[simp] theorem Slot.vreg_setV_same (x : Slot) (r : BitVec 5) (v : Line) (m : Taint) : (x.setV r v m).vreg r = v :=
  getAt_putAt_same _ _ _ _

@[simp] theorem Slot.step_setStep_same (x : Slot) (p : BitVec 3) (v : Word) : (x.setStep p v).step p = v :=
  getAt_putAt_same _ _ _ _

/-- Outside a REP body the next word follows (R96). -/
theorem Slot.advance_straight (x : Slot) (h : x.repActive = false) : x.advance = { x with pc := x.pc + 4 } := by
  simp [Slot.advance, h]

end Sys2Proof.Machine
end

