-- ==== Sys2Proof/Laws/Canonical.lean ====
section
/-! SUPPORT. What the shared operations do to memory: one lemma for each, `_mem` where memory is left as it was and `_wf` where its canonical form is kept. -/

namespace Sys2Proof.Machine

theorem mem_fst {α : Type} {p : State × α} {s : State} {a : α} {m : Memory} (h : p = (s, a)) (w : p.1.mem = m) : s.mem = m := by
  subst h; exact w

@[simp] theorem mem_foldl {α : Type} (f : State → α → State) (l : List α) (s : State)
    (hf : ∀ s a, (f s a).mem = s.mem) : (l.foldl f s).mem = s.mem := by
  induction l generalizing s with
  | nil => rfl
  | cons a t ih => exact (ih _).trans (hf s a)

@[simp] theorem mem_ite {c : Prop} [Decidable c] (a b : State) : (if c then a else b).mem = if c then a.mem else b.mem := by
  split <;> rfl

/-- The memory of the first part of a pair. -/
theorem wf_fst {α : Type} {p : State × α} {s : State} {a : α} (h : p = (s, a)) (w : p.1.mem.wf = true) : s.mem.wf = true := by
  subst h; exact w

@[simp] theorem wf_foldl {α : Type} (f : State → α → State) (l : List α) (s : State) (h : s.mem.wf = true)
    (hf : ∀ s a, s.mem.wf = true → (f s a).mem.wf = true) : (l.foldl f s).mem.wf = true := by
  induction l generalizing s with
  | nil => exact h
  | cons a t ih => exact ih _ (hf _ _ h)

theorem wf_ite {c : Prop} [Decidable c] (a b : State) (ha : c → a.mem.wf = true) (hb : ¬c → b.mem.wf = true) :
    (if c then a else b).mem.wf = true := by
  split
  · exact ha ‹_›
  · exact hb ‹_›

theorem wf_iteMem {c : Prop} [Decidable c] (a b : Memory) (ha : c → a.wf = true) (hb : ¬c → b.wf = true) :
    (if c then a else b).wf = true := by
  split
  · exact ha ‹_›
  · exact hb ‹_›

@[simp] theorem wf_foldlFst {α β : Type} (f : State × β → α → State × β) (l : List α) (p : State × β) (h : p.1.mem.wf = true)
    (hf : ∀ p a, p.1.mem.wf = true → (f p a).1.mem.wf = true) : (l.foldl f p).1.mem.wf = true := by
  induction l generalizing p with
  | nil => exact h
  | cons a t ih => exact ih _ (hf _ _ h)

@[simp] theorem mem_foldlFst {α β : Type} (f : State × β → α → State × β) (l : List α) (p : State × β)
    (hf : ∀ p a, (f p a).1.mem = p.1.mem) : (l.foldl f p).1.mem = p.1.mem := by
  induction l generalizing p with
  | nil => rfl
  | cons a t ih => exact (ih _).trans (hf p a)

@[simp] theorem wf_write (m : Memory) (k : Nat) (v : Byte) (w : m.wf = true) : (m.write k v).wf = true := Memory.wf_write m k v w

@[simp] theorem wf_writeBytes (m : Memory) (k : Nat) (bs : List Byte) (w : m.wf = true) : (m.writeBytes k bs).wf = true :=
  Memory.wf_writeBytes bs m k w

@[simp] theorem wf_zeroRange (m : Memory) (lo n : Nat) (w : m.wf = true) : (m.zeroRange lo n).wf = true :=
  Memory.wf_zeroRange m lo n w

@[simp] theorem State.setReg_wf (s : State) (off : Nat) (v : Word) (hs : s.mem.wf = true) :
    (State.setReg s off v).mem.wf = true := by
  simp (maxDischargeDepth := 12)[State.setReg, *]

@[simp] theorem State.setRte_mem (s : State) (t : Nat) (b : Nat) (n : Nat) (v : BitVec 32) :
    (State.setRte s t b n v).mem = s.mem := by
  rfl

@[simp] theorem State.setSlot_wf (s : State) (q : Nat) (x : Slot) (hs : s.mem.wf = true) :
    (State.setSlot s q x).mem.wf = true := by
  simp (maxDischargeDepth := 12)[State.setSlot, *]

@[simp] theorem State.modSlot_wf (s : State) (q : Nat) (f : Slot → Slot) (hs : s.mem.wf = true) :
    (State.modSlot s q f).mem.wf = true := by
  simp (maxDischargeDepth := 12)[State.modSlot, *]

@[simp] theorem State.setCore_wf (s : State) (k : Nat) (x : CoreRec) (hs : s.mem.wf = true) :
    (State.setCore s k x).mem.wf = true := by
  simp (maxDischargeDepth := 12)[State.setCore, *]

@[simp] theorem State.setTile_wf (s : State) (t : Nat) (x : Tile) (hs : s.mem.wf = true) :
    (State.setTile s t x).mem.wf = true := by
  simp (maxDischargeDepth := 12)[State.setTile, *]

@[simp] theorem State.setBank_wf (s : State) (c : Nat) (b : Nat) (x : Bank) (hs : s.mem.wf = true) :
    (State.setBank s c b x).mem.wf = true := by
  simp (maxDischargeDepth := 12)[State.setBank, *]

@[simp] theorem State.push_wf (s : State) (i : Event) (hs : s.mem.wf = true) :
    (State.push s i).mem.wf = true := by
  simp (maxDischargeDepth := 12)[State.push, *]

@[simp] theorem State.pushAll_wf (s : State) (is : List Event) (hs : s.mem.wf = true) :
    (State.pushAll s is).mem.wf = true := by
  simp (maxDischargeDepth := 12)[State.pushAll, *]

@[simp] theorem State.pushNext_mem (s : State) (e : Event) :
    (State.pushNext s e).mem = s.mem := by
  rfl

@[simp] theorem State.keepLeaf_mem (s : State) (x : XlatEntry) :
    (State.keepLeaf s x).mem = s.mem := by
  rfl

@[simp] theorem State.keepNode_mem (s : State) (x : XlatEntry) :
    (State.keepNode s x).mem = s.mem := by
  rfl

@[simp] theorem walkFrom_wf (s : State) (c : Nat) (asid : Nat) (va : BitVec 57) (a : Nat) (a5 : Nat) (hs : s.mem.wf = true) :
    (walkFrom s c asid va a a5).1.mem.wf = true := by
  induction a generalizing s a5 with
  | zero => exact hs
  | succ l ih =>
    unfold walkFrom
    dsimp only
    (repeat' split) <;> simp_all [State.keepNode, State.keepLeaf]

@[simp] theorem walk_wf (s : State) (c : Nat) (x : Nat) (va : BitVec 57) (hs : s.mem.wf = true) :
    (walk s c x va).1.mem.wf = true := by
  unfold walk
  dsimp only
  split <;> rename_i e
  · have w := wf_fst e (by split <;> simp [hs])
    split
    · exact w
    · simp [w]
  · exact wf_fst e (by split <;> simp [hs])

@[simp] theorem leafFor_wf (s : State) (c : Nat) (x : Nat) (va : BitVec 57) (hs : s.mem.wf = true) :
    (leafFor s c x va).1.mem.wf = true := by
  unfold leafFor
  split
  · exact hs
  · exact walk_wf _ _ _ _ hs

@[simp] theorem State.moveWaits_mem (s : State) (x : Nat) (c : Nat) (g : Nat) (frame : Nat) :
    (State.moveWaits s x c g frame).mem = s.mem := by
  rfl

@[simp] theorem shadowResolve_wf (s : State) (x : Nat) (c : Nat) (o : Nat) (a : Access) (hs : s.mem.wf = true) :
    (shadowResolve s x c o a).1.mem.wf = true := by
  unfold shadowResolve
  dsimp only
  repeat' split
  all_goals first
    | exact hs
    | (refine List.foldlRecOn (motive := fun m => Memory.wf m = true) _ _ ?_ ?_
       · exact wf_zeroRange _ _ _ hs
       · intro m hm e _; exact wf_write _ _ _ hm)

@[simp] theorem physLoc_wf (s : State) (w : Who) (e : Word) (pa : Nat) (a : Access) (hs : s.mem.wf = true) :
    (physLoc s w e pa a).1.mem.wf = true := by
  unfold physLoc
  try dsimp only
  repeat' (split <;> try (rename_i e; have w := wf_fst e (by clear e; simp (maxDischargeDepth := 12) [*])))
  all_goals simp (maxDischargeDepth := 12) [*]

@[simp] theorem translate_wf (s : State) (w : Who) (va : Word) (a : Access) (hs : s.mem.wf = true) :
    (translate s w va a).1.mem.wf = true := by
  unfold translate
  try dsimp only
  repeat' (split <;> try (rename_i e; have w := wf_fst e (by clear e; simp (maxDischargeDepth := 12) [*])))
  all_goals simp (maxDischargeDepth := 12) [*]

@[simp] theorem window_wf (s : State) (w : Who) (v : Nat) (size : Nat) (a : Access) (hs : s.mem.wf = true) :
    (window s w v size a).1.mem.wf = true := by
  unfold window
  dsimp only
  repeat' (split <;> try (rename_i e; have w := wf_fst e (by clear e; simp (maxDischargeDepth := 12) [*])))
  all_goals simp_all (maxDischargeDepth := 12)

@[simp] theorem resolve_wf (s : State) (w : Who) (va : Word) (size : Nat) (a : Access) (hs : s.mem.wf = true) :
    (resolve s w va size a).1.mem.wf = true := by
  unfold resolve
  repeat' (split <;> try (rename_i e; have w := wf_fst e (by clear e; simp (maxDischargeDepth := 12) [*])))
  all_goals simp_all (maxDischargeDepth := 12)

@[simp] theorem State.detect_mem (s : State) (q : Option Nat) (key : Nat) (n : Nat) :
    (State.detect s q key n).mem = s.mem := by
  rfl

@[simp] theorem State.setTcd_mem (s : State) (tile : Nat) (g : Nat) (e : BitVec 7) :
    (State.setTcd s tile g e).mem = s.mem := by
  rfl

@[simp] theorem State.tcdStore_mem (s : State) (tile : Nat) (off : Nat) (bs : List Byte) :
    (State.tcdStore s tile off bs).mem = s.mem := by
  simp [State.tcdStore]

@[simp] theorem State.poke_wf (s : State) (key : Nat) (bs : List Byte) (hs : s.mem.wf = true) :
    (State.poke s key bs).mem.wf = true := by
  unfold State.poke
  repeat' (split <;> try (rename_i e; have w := wf_fst e (by clear e; simp (maxDischargeDepth := 12) [*])))
  all_goals simp_all (maxDischargeDepth := 12)

@[simp] theorem State.stampLocs_mem (s : State) (key : Nat) (n : Nat) (pts : Nat) :
    (State.stampLocs s key n pts).mem = s.mem := by
  simp [State.stampLocs]

@[simp] theorem State.coin_mem (s : State) :
    (State.coin s).1.mem = s.mem := by
  rfl

@[simp] theorem State.evictLine_mem (s : State) (o : Nat) :
    (State.evictLine s o).mem = s.mem := by
  unfold State.evictLine
  dsimp only
  (repeat' split) <;> simp [*]

@[simp] theorem State.sliceLease_mem (s0 : State) (o : Nat) (p : Nat) :
    (State.sliceLease s0 o p).1.mem = s0.mem := by
  simp [State.sliceLease]

@[simp] theorem State.sliceStamp_mem (s0 : State) (o : Nat) (p : Nat) :
    (State.sliceStamp s0 o p).1.mem = s0.mem := by
  simp [State.sliceStamp]

@[simp] theorem State.homeWrite_wf (s : State) (key : Nat) (pts : Nat) (bs : List Byte) (hs : s.mem.wf = true) :
    (State.homeWrite s key pts bs).1.mem.wf = true := by
  unfold State.homeWrite
  try dsimp only
  (repeat' split) <;> simp (maxDischargeDepth := 12) [*]

@[simp] theorem State.outstanding_mem (s : State) (q : Nat) (id : Nat) (key : Nat) :
    (State.outstanding s q id key).mem = s.mem := by
  rfl

@[simp] theorem State.pairItem_mem (s : State) (q : Nat) (i : LockItem) :
    (State.pairItem s q i).mem = s.mem := by
  unfold State.pairItem
  dsimp only
  (repeat' split) <;> rfl

@[simp] theorem State.hostEvent_mem (s : State) (b : Nat) :
    (State.hostEvent s b).mem = s.mem := by
  simp [State.hostEvent]

@[simp] theorem State.lifeRecord_mem (s : State) (ws : List Word) :
    (State.lifeRecord s ws).mem = s.mem := by
  rfl

@[simp] theorem State.stampReg_mem (s : State) (o : Nat) (v : Word) (pts : Nat) :
    (State.stampReg s o v pts).mem = s.mem :=
  State.stampLocs_mem _ _ _ _

@[simp] theorem State.errorEntry_wf (s : State) (ws : List Word) (hs : s.mem.wf = true) :
    (State.errorEntry s ws).mem.wf = true := by
  unfold State.errorEntry
  try dsimp only
  (repeat' split) <;> simp (maxDischargeDepth := 12) [*]

@[simp] theorem State.record_wf (s : State) (r : ErrRec) (hs : s.mem.wf = true) :
    (State.record s r).mem.wf = true := by
  unfold State.record
  try dsimp only
  (repeat' split) <;> simp (maxDischargeDepth := 12) [*]

@[simp] theorem State.wakeWith_mem (s : State) (r : WaitReq) (v : Nat) (st : Word) (wts : Nat) :
    (State.wakeWith s r v st wts).mem = s.mem := by
  simp [State.wakeWith]

@[simp] theorem State.wake_mem (s : State) (r : WaitReq) :
    (State.wake s r).mem = s.mem := by
  simp [State.wake]

@[simp] theorem State.wakeAll_mem (s : State) (key : Nat) :
    (State.wakeAll s key).mem = s.mem := by
  simp [State.wakeAll]

@[simp] theorem State.recheck_mem (s : State) (key : Nat) (n : Nat) :
    (State.recheck s key n).mem = s.mem := by
  simp [State.recheck]

@[simp] theorem State.homeApply_wf (s : State) (key : Nat) (pts : Nat) (bs : List Byte) (hs : s.mem.wf = true) :
    (State.homeApply s key pts bs).1.mem.wf = true := by
  unfold State.homeApply
  try dsimp only
  (repeat' split) <;> simp (maxDischargeDepth := 12) [*]

@[simp] theorem State.abandonKey_wf (s : State) (key : Nat) (hs : s.mem.wf = true) :
    (State.abandonKey s key).mem.wf = true := by
  simp (maxDischargeDepth := 12)[State.abandonKey, *]

@[simp] theorem State.abandonAt_wf (s : State) (w : Who) (va : Word) (hs : s.mem.wf = true) :
    (State.abandonAt s w va).mem.wf = true := by
  unfold State.abandonAt
  try dsimp only
  repeat' (split <;> try (rename_i e; have w := wf_fst e (by clear e; simp (maxDischargeDepth := 12) [*])))
  all_goals simp (maxDischargeDepth := 12) [*]

@[simp] theorem State.abandon_wf (s : State) (w : Who) (va : Word) (hs : s.mem.wf = true) :
    (State.abandon s w va).mem.wf = true := by
  unfold State.abandon
  repeat' (split <;> try (rename_i e; have w := wf_fst e (by clear e; simp (maxDischargeDepth := 12) [*])))
  all_goals simp_all (maxDischargeDepth := 12)

@[simp] theorem State.setRun_mem (s : State) (c : Nat) (cls : Nat) (l : List RunEntry) :
    (State.setRun s c cls l).mem = s.mem := by
  rfl

@[simp] theorem State.arrived_mem (s : State) (c : Nat) :
    (State.arrived s c).mem = s.mem := by
  rfl

@[simp] theorem State.enqueueTask_mem (s : State) (tile : Nat) (e : Nat) (pts : Nat) :
    (State.enqueueTask s tile e pts).mem = s.mem := by
  unfold State.enqueueTask
  (repeat' split) <;> simp_all

@[simp] theorem State.addCounter_wf (s : State) (key : Nat) (n : Nat) (pts : Nat) (hs : s.mem.wf = true) :
    (State.addCounter s key n pts).1.mem.wf = true := by
  unfold State.addCounter
  try dsimp only
  (repeat' split) <;> simp (maxDischargeDepth := 12) [*]

@[simp] theorem counterLoc_wf (s : State) (w : Who) (va : Word) (a : Access) (hs : s.mem.wf = true) :
    (counterLoc s w va a).1.mem.wf = true := by
  unfold counterLoc
  repeat' (split <;> try (rename_i e; have w := wf_fst e (by clear e; simp (maxDischargeDepth := 12) [*])))
  all_goals simp_all (maxDischargeDepth := 12)

@[simp] theorem State.abandonLaunch_wf (s : State) (l : Nat) (hs : s.mem.wf = true) :
    (State.abandonLaunch s l).mem.wf = true := by
  unfold State.abandonLaunch
  repeat' (split <;> try (rename_i e; have w := wf_fst e (by clear e; simp (maxDischargeDepth := 12) [*])))
  all_goals simp_all (maxDischargeDepth := 12)

@[simp] theorem State.reapLaunch_mem (s : State) (l : Nat) :
    (State.reapLaunch s l).mem = s.mem := by
  unfold State.reapLaunch
  (repeat' split) <;> simp_all

@[simp] theorem State.modLaunch_mem (s : State) (l : Nat) (f : Launch → Launch) :
    (State.modLaunch s l f).mem = s.mem := by
  unfold State.modLaunch
  (repeat' split) <;> simp_all

@[simp] theorem State.orphanStep_mem (s : State) :
    (State.orphanStep s).mem = s.mem := by
  unfold State.orphanStep
  refine (mem_foldl _ _ _ ?_).trans rfl
  intro s a
  dsimp only
  split <;> simp

@[simp] theorem State.orphanAnswered_mem (s : State) (tag pts : Nat) :
    (State.orphanAnswered s tag pts).mem = s.mem :=
  State.orphanStep_mem _

@[simp] theorem State.queueActive_mem (s : State) (n : Option Nat) (up : Bool) (pts : Nat) :
    (State.queueActive s n up pts).mem = s.mem := by
  unfold State.queueActive
  (repeat' split) <;> simp_all

@[simp] theorem State.dropInstances_mem (s : State) (tile : Nat) :
    (State.dropInstances s tile).mem = s.mem := by
  rfl

@[simp] theorem State.freePool_mem (s : State) (tile : Nat) (e : Nat) :
    (State.freePool s tile e).mem = s.mem := by
  rfl

@[simp] theorem State.dropThread_mem (s : State) (q : Nat) :
    (State.dropThread s q).mem = s.mem := by
  rfl

@[simp] theorem State.checkLaunch_mem (s : State) (l : Nat) :
    (State.checkLaunch s l).mem = s.mem := by
  unfold State.checkLaunch
  (repeat' split) <;> simp_all

@[simp] theorem State.endUnbind_mem (s : State) (x : Nat) (n : Nat) :
    (State.endUnbind s x n).mem = s.mem := by
  rfl

@[simp] theorem State.endHandler_mem (s : State) (x : Nat) (n : Nat) :
    (State.endHandler s x n).mem = s.mem := by
  unfold State.endHandler
  (repeat' split) <;> simp_all

@[simp] theorem State.restFrom_mem (s : State) (k : Nat) :
    (State.restFrom s k).mem = s.mem := by
  rfl

@[simp] theorem State.freeSlot_mem (s : State) (q : Nat) :
    (State.freeSlot s q).mem = s.mem := by
  unfold State.freeSlot
  dsimp only
  repeat' (split <;> try (rename_i e; have w := mem_fst e (by clear e; simp; rfl)))
  all_goals simp_all

@[simp] theorem State.discardSlot_wf (s : State) (q : Nat) (hs : s.mem.wf = true) :
    (State.discardSlot s q).mem.wf = true := by
  unfold State.discardSlot
  dsimp only
  repeat' (split <;> try (rename_i e; have w := wf_fst e (by clear e; simp (maxDischargeDepth := 12) [*])))
  all_goals simp_all (maxDischargeDepth := 12)

@[simp] theorem State.doom_mem (s : State) (q : Nat) :
    (State.doom s q).mem = s.mem := by
  rfl

@[simp] theorem State.withdraw_mem (s : State) (q : Nat) :
    (State.withdraw s q).mem = s.mem := by
  rfl

@[simp] theorem State.fenceFor_mem (s : State) (q : Nat) (kind : Nat) :
    (State.fenceFor s q kind).mem = s.mem := by
  unfold State.fenceFor
  dsimp only
  repeat' (split <;> try (rename_i e; have w := mem_fst e (by clear e; simp; rfl)))
  all_goals simp_all

@[simp] theorem State.deliver_wf (s0 : State) (q : Nat) (t : Trap) (hs0 : s0.mem.wf = true) :
    (State.deliver s0 q t).mem.wf = true := by
  unfold State.deliver
  try dsimp only
  (repeat' split) <;> simp (maxDischargeDepth := 12) [*]

@[simp] theorem State.trapAt_wf (s : State) (q : Nat) (i : Instr) (cause : BitVec 8) (reason : BitVec 8) (tval : Word) (hs : s.mem.wf = true) :
    (State.trapAt s q i cause reason tval).mem.wf = true := by
  simp (maxDischargeDepth := 12)[State.trapAt, *]

@[simp] theorem State.openWord_mem (s : State) :
    (State.openWord s).1.mem = s.mem := by
  rfl

@[simp] theorem State.trapOpen_wf (s : State) (q : Nat) (i : Instr) (cause : BitVec 8) (reason : BitVec 8) (hs : s.mem.wf = true) :
    (State.trapOpen s q i cause reason).mem.wf = true := by
  simp (maxDischargeDepth := 12)[State.trapOpen, *]

@[simp] theorem State.consume_wf (s : State) (q : Nat) (i : Instr) (tval : Word) (hs : s.mem.wf = true) :
    (State.consume s q i tval).mem.wf = true := by
  unfold State.consume
  try dsimp only
  (repeat' split) <;> simp (maxDischargeDepth := 12) [*]

@[simp] theorem State.shadowOverflow_mem (s : State) (q : Nat) :
    (State.shadowOverflow s q).mem = s.mem := by
  unfold State.shadowOverflow
  dsimp only
  repeat' (split <;> try (rename_i e; have w := mem_fst e (by clear e; simp; rfl)))
  all_goals simp_all

@[simp] theorem State.accessFault_wf (s : State) (q : Nat) (i : Instr) (f : XFault) (a : Access) (va : Word) (hs : s.mem.wf = true) :
    (State.accessFault s q i f a va).mem.wf = true := by
  unfold State.accessFault
  try dsimp only
  (repeat' split) <;> simp (maxDischargeDepth := 12) [*]

@[simp] theorem issue_wf (i : Instr) (s : State) (body : Nat → State → Result) (hs : s.mem.wf = true) (hbody : ∀ x0 x1, x1.mem.wf = true → ∀ u, body x0 x1 = .next u → u.mem.wf = true) :
    ∀ u, issue i s body = .next u → u.mem.wf = true := by
  unfold issue
  dsimp only
  intro u
  (repeat' split) <;> intro e <;> first | exact hbody _ _ hs _ e | (simp at e <;> subst e <;> simp (maxDischargeDepth := 12) [*])

@[simp] theorem complete_mem (q : Nat) (s : State) (f : Slot → Slot) :
    ∀ u, complete q s f = .next u → u.mem = s.mem := by
  simp [complete]

@[simp] theorem State.tidKeep_mem (s : State) (c : Nat) (x : Nat) (tid : Nat) (ws : List Word) :
    (State.tidKeep s c x tid ws).mem = s.mem := by
  rfl

@[simp] theorem State.tidRead_wf (s : State) (q : Nat) (tid : Nat) (hs : s.mem.wf = true) :
    (State.tidRead s q tid).1.mem.wf = true := by
  unfold State.tidRead
  try dsimp only
  repeat' (split <;> try (rename_i e; have w := wf_fst e (by clear e; simp (maxDischargeDepth := 12) [*])))
  all_goals simp (maxDischargeDepth := 12) [*]

@[simp] theorem State.tidHeld_mem (s : State) (c : Nat) (x : Nat) (tid : Nat) :
    (State.tidHeld s c x tid).1.mem = s.mem := by
  unfold State.tidHeld
  dsimp only
  (repeat' split) <;> simp [*]

@[simp] theorem State.tidUse_wf (s : State) (q : Nat) (tid : Nat) (hs : s.mem.wf = true) :
    (State.tidUse s q tid).1.mem.wf = true := by
  unfold State.tidUse
  try dsimp only
  repeat' (split <;> try (rename_i e; have w := wf_fst e (by clear e; simp (maxDischargeDepth := 12) [*])))
  all_goals simp (maxDischargeDepth := 12) [*]

@[simp] theorem State.widenIn_wf (s : State) (w : Who) (va : Word) (r : KeyRange) (hs : s.mem.wf = true) :
    (State.widenIn s w va r).1.mem.wf = true := by
  unfold State.widenIn
  try dsimp only
  repeat' (split <;> try (rename_i e; have w := wf_fst e (by clear e; simp (maxDischargeDepth := 12) [*])))
  all_goals simp (maxDischargeDepth := 12) [*]

@[simp] theorem State.widenFor_wf (s : State) (w : Who) (va : Word) (hs : s.mem.wf = true) :
    (State.widenFor s w va).1.mem.wf = true := by
  unfold State.widenFor
  try dsimp only
  repeat' (split <;> try (rename_i e; have w := wf_fst e (by clear e; simp (maxDischargeDepth := 12) [*])))
  all_goals simp_all (maxDischargeDepth := 12)

@[simp] theorem State.drainPorts_mem (s : State) :
    (State.drainPorts s).mem = s.mem := by
  simp [State.drainPorts]

@[simp] theorem State.emit_mem (s : State) (t : Nat) (port : Nat) (f : Flit) :
    (State.emit s t port f).mem = s.mem := by
  simp [State.emit]

@[simp] theorem State.launchFlit_mem (s : State) (f : Flit) :
    (State.launchFlit s f).mem = s.mem := by
  unfold State.launchFlit
  (repeat' split) <;> simp_all

@[simp] theorem State.sendPlain_mem (s0 : State) (f : Flit) :
    (State.sendPlain s0 f).mem = s0.mem := by
  unfold State.sendPlain
  dsimp only
  (repeat' split) <;> simp [*]

@[simp] theorem State.answer_mem (s : State) (f : Flit) (ty : BitVec 4) (payload : List Word) :
    (State.answer s f ty payload).mem = s.mem := by
  simp [State.answer]

@[simp] theorem State.answerGroup_mem (s : State) (tag : Nat) (ty : BitVec 4) (payload : List Word) :
    (State.answerGroup s tag ty payload).mem = s.mem := by
  unfold State.answerGroup
  (repeat' split) <;> simp_all

@[simp] theorem State.countPath_mem (s : State) (thread : Option Nat) (p : Nat) :
    (State.countPath s thread p).mem = s.mem := by
  unfold State.countPath
  (repeat' split) <;> simp_all

@[simp] theorem State.farSend_mem (s : State) (r : FarSend) :
    (State.farSend s r).mem = s.mem := by
  unfold State.farSend
  dsimp only
  repeat' (split <;> try (rename_i e; have w := mem_fst e (by clear e; simp; rfl)))
  all_goals simp_all

@[simp] theorem State.leaveHub_mem (s : State) (path : Option Nat) (f : Flit) :
    (State.leaveHub s path f).mem = s.mem := by
  unfold State.leaveHub
  (repeat' split) <;> simp_all

@[simp] theorem State.releaseOrdered_mem (s : State) (dst : Nat) :
    (State.releaseOrdered s dst).mem = s.mem := by
  simp [State.releaseOrdered]

@[simp] theorem State.farDone_mem (s : State) (r : FarReq) :
    (State.farDone s r).mem = s.mem := by
  unfold State.farDone
  (repeat' split) <;> simp_all

@[simp] theorem State.keyViolation_mem (s : State) (p : Nat) :
    (State.keyViolation s p).mem = s.mem := by
  rfl

@[simp] theorem State.managementFlit_mem (s : State) (words : List Word) :
    (State.managementFlit s words).mem = s.mem := by
  simp [State.managementFlit]

@[simp] theorem State.notice_wf (s : State) (kind : Nat) (w1 : Nat) (hs : s.mem.wf = true) :
    (State.notice s kind w1).mem.wf = true := by
  unfold State.notice
  try dsimp only
  (repeat' split) <;> simp (maxDischargeDepth := 12) [*]

@[simp] theorem State.regRead_mem (s : State) (o : Nat) (h0 : Half) :
    (State.regRead s o h0).1.mem = s.mem := by
  simp [State.regRead]

@[simp] theorem State.regPlain_mem (s : State) (o : Nat) (m : Bool) (v : Word) (h0 : Half) :
    (State.regPlain s o m v h0).mem = s.mem := by
  rfl

@[simp] theorem State.dropCopy_mem (s : State) (c : Nat) (key : Nat) :
    (State.dropCopy s c key).mem = s.mem := by
  rfl

@[simp] theorem State.refuse_mem (s : State) (q : Nat) (cause : BitVec 8) (reason : BitVec 8) (va : Word) :
    (State.refuse s q cause reason va).mem = s.mem := by
  rfl

@[simp] theorem State.consumeLate_mem (s : State) (q : Nat) (va : Word) :
    (State.consumeLate s q va).mem = s.mem := by
  unfold State.consumeLate
  (repeat' split) <;> simp_all

@[simp] theorem State.storeLost_mem (s : State) (q : Nat) (key : Nat) (n : Nat) (va : Word) :
    (State.storeLost s q key n va).mem = s.mem := by
  simp [State.storeLost]

@[simp] theorem State.ackOrWiden_mem (s : State) (q : Nat) (id : Nat) (key : Nat) (n : Nat) (widen : List Widen) (wts : Nat) :
    (State.ackOrWiden s q id key n widen wts).mem = s.mem := by
  unfold State.ackOrWiden
  (repeat' split) <;> simp_all

@[simp] theorem State.acked_mem (s : State) (q : Nat) (id : Nat) (wts : Nat) :
    (State.acked s q id wts).mem = s.mem := by
  unfold State.acked
  (repeat' split) <;> simp_all

@[simp] theorem State.performWrite_wf (s : State) (w : WriteReq) (hs : s.mem.wf = true) :
    (State.performWrite s w).1.mem.wf = true := by
  unfold State.performWrite
  try dsimp only
  (repeat' split) <;> simp (maxDischargeDepth := 12) [*]

@[simp] theorem State.applyWrite_wf (s : State) (w : WriteReq) (hs : s.mem.wf = true) :
    (State.applyWrite s w).mem.wf = true := by
  unfold State.applyWrite
  try dsimp only
  (repeat' split) <;> simp (maxDischargeDepth := 12) [*]

@[simp] theorem State.sendWrite_mem (s : State) (w : WriteReq) :
    (State.sendWrite s w).mem = s.mem := by
  unfold State.sendWrite
  (repeat' split) <;> simp_all

@[simp] theorem State.applyNear_wf (s : State) (w : WriteReq) (hs : s.mem.wf = true) :
    (State.applyNear s w).mem.wf = true := by
  unfold State.applyNear
  try dsimp only
  (repeat' split) <;> simp (maxDischargeDepth := 12) [*]

@[simp] theorem State.sendDirty_wf (s : State) (w : WriteReq) (hs : s.mem.wf = true) :
    (State.sendDirty s w).mem.wf = true := by
  unfold State.sendDirty
  try dsimp only
  (repeat' split) <;> simp (maxDischargeDepth := 12) [*]

@[simp] theorem State.sendAll_wf (s : State) (ws : List WriteReq) (hs : s.mem.wf = true) :
    (State.sendAll s ws).mem.wf = true := by
  unfold State.sendAll
  refine wf_foldl _ _ _ (by simp (maxDischargeDepth := 12) [*]) ?_
  intro s a hs
  (repeat' split) <;> simp (maxDischargeDepth := 12) [*]

@[simp] theorem State.leave_wf (s : State) (c : Nat) (gone : Nat → Bool) (hs : s.mem.wf = true) :
    (State.leave s c gone).mem.wf = true := by
  simp (maxDischargeDepth := 12) [State.leave, *]

@[simp] theorem State.evict_wf (s : State) (c : Nat) (line : Nat) (hs : s.mem.wf = true) :
    (State.evict s c line).mem.wf = true := by
  unfold State.evict
  refine wf_foldl _ _ _ (by simp (maxDischargeDepth := 12) [*]) ?_
  intro s a hs
  (repeat' split) <;> simp (maxDischargeDepth := 12) [*]

@[simp] theorem State.makeRoom_wf (s : State) (c : Nat) (line : Nat) (hs : s.mem.wf = true) :
    (State.makeRoom s c line).mem.wf = true := by
  unfold State.makeRoom
  try dsimp only
  (repeat' split) <;> simp (maxDischargeDepth := 12) [*]

@[simp] theorem State.install_wf (s : State) (c : Nat) (line : Nat) (k : Copy) (hs : s.mem.wf = true) :
    (State.install s c line k).mem.wf = true := by
  unfold State.install
  try dsimp only
  (repeat' split) <;> simp (maxDischargeDepth := 12) [*]

@[simp] theorem State.enterLine_wf (s : State) (w : WriteReq) (hs : s.mem.wf = true) :
    (State.enterLine s w).mem.wf = true := by
  simp (maxDischargeDepth := 12) [State.enterLine, *]

@[simp] theorem State.putStore_wf (s : State) (w : WriteReq) (hs : s.mem.wf = true) :
    (State.putStore s w).mem.wf = true := by
  unfold State.putStore
  try dsimp only
  (repeat' split) <;> simp (maxDischargeDepth := 12) [*]

@[simp] theorem State.drainThread_wf (s : State) (q : Nat) (hs : s.mem.wf = true) :
    (State.drainThread s q).mem.wf = true := by
  unfold State.drainThread
  try dsimp only
  repeat' (split <;> try (rename_i e; have w := wf_fst e (by clear e; simp (maxDischargeDepth := 12) [*])))
  all_goals first | simp (maxDischargeDepth := 12) [*] | (refine wf_foldl _ _ _ (by simp (maxDischargeDepth := 12) [*]) ?_; intro s a hs; (repeat' split) <;> simp (maxDischargeDepth := 12) [*])

@[simp] theorem State.flushHeld_wf (s : State) (q : Nat) (hs : s.mem.wf = true) :
    (State.flushHeld s q).mem.wf = true := by
  unfold State.flushHeld
  refine wf_foldl _ _ _ hs ?_
  intro s a hs
  (repeat' split) <;> simp [*]

@[simp] theorem State.drainNow_wf (s0 : State) (w : WriteReq) (hs : s0.mem.wf = true) :
    (State.drainNow s0 w).mem.wf = true := by
  unfold State.drainNow
  try dsimp only
  (repeat' split) <;> simp (maxDischargeDepth := 12) [*]

@[simp] theorem State.drainLine_wf (s : State) (c : Nat) (q : Nat) (key : Nat) (hs : s.mem.wf = true) :
    (State.drainLine s c q key).mem.wf = true := by
  unfold State.drainLine
  refine wf_foldl _ _ _ hs ?_
  intro s a hs
  (repeat' split) <;> simp [*]

@[simp] theorem State.constKeep_mem (s : State) (l : ConstLine) :
    (State.constKeep s l).mem = s.mem := by
  rfl

@[simp] theorem State.constHeld_mem (s : State) (c : Nat) (x : Nat) (pa : Nat) :
    (State.constHeld s c x pa).1.mem = s.mem := by
  unfold State.constHeld
  dsimp only
  (repeat' split) <;> simp [*]

@[simp] theorem State.constPair_wf (s : State) (c : Nat) (x : Nat) (line : Nat) (hs : s.mem.wf = true) :
    (State.constPair s c x line).1.mem.wf = true := by
  unfold State.constPair
  try dsimp only
  repeat' (split <;> try (rename_i e; have w := wf_fst e (by clear e; simp (maxDischargeDepth := 12) [*])))
  all_goals simp (maxDischargeDepth := 12) [*]

@[simp] theorem State.constKeepPair_mem (s : State) (c : Nat) (x : Nat) (line : Nat) (bs : List Byte) :
    (State.constKeepPair s c x line bs).mem = s.mem := by
  rfl

@[simp] theorem State.constLine_wf (s : State) (c : Nat) (x : Nat) (pa : Nat) (hs : s.mem.wf = true) :
    (State.constLine s c x pa).1.mem.wf = true := by
  unfold State.constLine
  try dsimp only
  repeat' (split <;> try (rename_i e; have w := wf_fst e (by clear e; simp (maxDischargeDepth := 12) [*])))
  all_goals simp (maxDischargeDepth := 12) [*]

@[simp] theorem State.constRead_wf (s : State) (c : Nat) (x : Nat) (key : Nat) (n : Nat) (hs : s.mem.wf = true) :
    (State.constRead s c x key n).1.mem.wf = true := by
  unfold State.constRead
  try dsimp only
  repeat' (split <;> try (rename_i e; have w := wf_fst e (by clear e; simp (maxDischargeDepth := 12) [*])))
  all_goals simp_all (maxDischargeDepth := 12)

@[simp] theorem State.loadLine_wf (s : State) (c : Nat) (key : Nat) (pts : Nat) (hs : s.mem.wf = true) :
    (State.loadLine s c key pts).1.mem.wf = true := by
  unfold State.loadLine
  try dsimp only
  (repeat' split) <;> simp (maxDischargeDepth := 12) [*]

@[simp] theorem State.readAtHome_wf (s : State) (q : Nat) (l : LoadRec) (hs : s.mem.wf = true) :
    (State.readAtHome s q l).1.mem.wf = true := by
  unfold State.readAtHome
  try dsimp only
  (repeat' split) <;> simp (maxDischargeDepth := 12) [*]

@[simp] theorem State.padWrite_wf (s : State) (tile : Nat) (off : Nat) (bs : List Byte) (tag : Nat) (hs : s.mem.wf = true) :
    (State.padWrite s tile off bs tag).mem.wf = true := by
  simp (maxDischargeDepth := 12)[State.padWrite, *]

@[simp] theorem State.stampRun_mem (s : State) (key : Nat) (n : Nat) (pts : Nat) :
    (State.stampRun s key n pts).1.mem = s.mem := by
  unfold State.stampRun
  (repeat' split) <;> simp_all

@[simp] theorem State.bulkWrite_wf (s : State) (key : Nat) (bs : List Byte) (tag : Nat) (pts : Nat) (hs : s.mem.wf = true) :
    (State.bulkWrite s key bs tag pts).1.mem.wf = true := by
  unfold State.bulkWrite
  try dsimp only
  repeat' (split <;> try (rename_i e; have w := wf_fst e (by clear e; simp (maxDischargeDepth := 12) [*])))
  all_goals simp_all

@[simp] theorem State.setCb_mem (s : State) (c : CbInst) :
    (State.setCb s c).mem = s.mem := by
  rfl

@[simp] theorem State.sendItem_mem (s : State) (c : CbInst) (i : ChanItem) :
    (State.sendItem s c i).mem = s.mem := by
  unfold State.sendItem
  (repeat' split) <;> simp_all

@[simp] theorem State.sendKept_mem (s : State) (p : CbInst) :
    (State.sendKept s p).mem = s.mem := by
  simp [State.sendKept]

@[simp] theorem State.markCb_mem (s : State) (c : CbInst) :
    (State.markCb s c).mem = s.mem := by
  unfold State.markCb
  (repeat' split) <;> simp_all

@[simp] theorem State.takeMarker_mem (s : State) (c : CbInst) :
    (State.takeMarker s c).mem = s.mem := by
  unfold State.takeMarker
  (repeat' split) <;> simp_all

@[simp] theorem State.consumeMarkers_mem (s : State) (q : Nat) (mask : Nat) :
    (State.consumeMarkers s q mask).mem = s.mem := by
  unfold State.consumeMarkers
  simp only [State.modSlot_mem]
  refine mem_foldl _ _ _ ?_
  intro s a
  (repeat' split) <;> simp

@[simp] theorem State.endCbWait_wf (s : State) (q : Nat) (w : WaitInfo) (hs : s.mem.wf = true) :
    (State.endCbWait s q w).mem.wf = true := by
  unfold State.endCbWait
  try dsimp only
  repeat' (split <;> try (rename_i e; have w := wf_fst e (by clear e; simp (maxDischargeDepth := 12) [*])))
  all_goals simp_all

@[simp] theorem State.wakeCbs_wf (s : State) (tile : Nat) (hs : s.mem.wf = true) :
    (State.wakeCbs s tile).mem.wf = true := by
  unfold State.wakeCbs
  try dsimp only
  repeat' (split <;> try (rename_i e; have w := wf_fst e (by clear e; simp (maxDischargeDepth := 12) [*])))
  all_goals first | simp (maxDischargeDepth := 12) [*] | (refine wf_foldl _ _ _ (by simp (maxDischargeDepth := 12) [*]) ?_; intro s a hs; (repeat' split) <;> simp (maxDischargeDepth := 12) [*])

@[simp] theorem State.sendSlot_mem (s : State) (k : CbKey) (ix : Nat) :
    (State.sendSlot s k ix).mem = s.mem := by
  unfold State.sendSlot
  (repeat' split) <;> simp_all

@[simp] theorem State.cbConsume_wf (s : State) (c : CbInst) (n : Nat) (pts : Nat) (hs : s.mem.wf = true) :
    (State.cbConsume s c n pts).mem.wf = true := by
  unfold State.cbConsume
  try dsimp only
  (repeat' split) <;> simp (maxDischargeDepth := 12) [*]

@[simp] theorem State.cbPermitTake_mem (s : State) (c : CbInst) :
    (State.cbPermitTake s c).1.mem = s.mem := by
  rfl

@[simp] theorem landItems_wf (k : CbKey) (a : Nat) (a2 : State) (ha2 : a2.mem.wf = true) :
    (landItems k a a2).mem.wf = true := by
  induction a generalizing a2 with
  | zero => exact ha2
  | succ f ih =>
    unfold landItems
    dsimp only
    (repeat' split) <;> first | exact ha2 | (refine ih _ ?_; (repeat' split) <;> simp (maxDischargeDepth := 6) only [State.setCb_mem, State.bulkWrite_wf, ha2])

@[simp] theorem State.zeroTile_wf (s : State) (tile : Nat) (hs : s.mem.wf = true) :
    (State.zeroTile s tile).mem.wf = true := by
  simp (maxDischargeDepth := 12)[State.zeroTile, *]

@[simp] theorem State.takeOne_wf (s : State) (tile : Nat) (x : Nat) (hs : s.mem.wf = true) :
    (State.takeOne s tile x).mem.wf = true := by
  unfold State.takeOne
  try dsimp only
  repeat' (split <;> try (rename_i e; have w := wf_fst e (by clear e; simp (maxDischargeDepth := 12) [*])))
  all_goals simp_all

@[simp] theorem State.takeTile_wf (s : State) (tile : Nat) (x : Nat) (hs : s.mem.wf = true) :
    (State.takeTile s tile x).mem.wf = true := by
  unfold State.takeTile
  try dsimp only
  repeat' (split <;> try (rename_i e; have w := wf_fst e (by clear e; simp (maxDischargeDepth := 12) [*])))
  all_goals simp_all

@[simp] theorem State.deal_mem (s : State) (tile : Nat) (stage : Nat) (a : Start) :
    ∀ u, State.deal s tile stage a = some u → u.mem = s.mem := by
  unfold State.deal
  (repeat' split) <;> simp_all

@[simp] theorem State.startInstances_mem (s : State) (tile : Nat) (l : Nat) (g : Nat) (r : Launch) :
    (State.startInstances s tile l g r).mem = s.mem := by
  unfold State.startInstances
  refine mem_foldl _ _ _ ?_
  intro s a
  dsimp only
  split <;> simp

@[simp] theorem State.startGroup_wf (s : State) (tile : Nat) (l : Nat) (g : Nat) (hs : s.mem.wf = true) :
    ∀ u, State.startGroup s tile l g = some u → u.mem.wf = true := by
  intro u
  unfold State.startGroup
  dsimp only
  (repeat' split) <;> intro e <;> simp at e
  obtain ⟨v, hv, rfl⟩ := e
  have hf : ∀ (l : List Nat) (o : Option State) (g : Nat → Start), (∀ w, o = some w → w.mem.wf = true) → ∀ v,
      l.foldl (fun (o : Option State) st => o.bind fun s => s.deal tile st (g st)) o = some v → v.mem.wf = true := by
    intro l
    induction l with
    | nil => intro o g ho v hv; exact ho v hv
    | cons a t ih =>
      intro o g ho v hv
      refine ih _ g ?_ v hv
      intro w hw
      obtain ⟨y, hy, hd⟩ := Option.bind_eq_some_iff.mp hw
      rw [State.deal_mem _ _ _ _ _ hd]; exact ho y hy
  rw [State.modLaunch_mem]
  refine hf _ _ (fun _ => _) ?_ v hv
  intro w hw; cases hw; simp [*]

@[simp] theorem State.startTask_wf (s : State) (tile : Nat) (l : Nat) (home : Nat) (pool : Nat) (ws : List Word) (pts : Nat) (hs : s.mem.wf = true) :
    ∀ u, State.startTask s tile l home pool ws pts = some u → u.mem.wf = true := by
  intro u
  unfold State.startTask
  dsimp only
  (repeat' split) <;> intro e <;> simp at e
  obtain ⟨v, hv, rfl⟩ := e
  simp [State.deal_mem _ _ _ _ _ hv, hs]

@[simp] theorem State.tryHandler_mem (s : State) (x : Nat) (n : Nat) :
    ∀ u, State.tryHandler s x n = some u → u.mem = s.mem := by
  intro u
  unfold State.tryHandler
  dsimp only
  (repeat' split) <;> intro e <;> simp at e
  obtain ⟨v, hv, rfl⟩ := e
  simp [State.deal_mem _ _ _ _ _ hv]

@[simp] theorem State.startLoad_mem (s : State) (q : Nat) (i : Instr) (f : LoadForm) (l : Loc) (data : Option Nat) (wts : Nat) :
    (State.startLoad s q i f l data wts).mem = s.mem := by
  rfl

@[simp] theorem loadOp_wf (i : Instr) (q : Nat) (f : LoadForm) (s : State) (hs : s.mem.wf = true) :
    (loadOp i q f s).mem.wf = true := by
  unfold loadOp
  try dsimp only
  repeat' (split <;> try (rename_i e; have w := wf_fst e (by clear e; simp [*])))
  all_goals simp_all

@[simp] theorem ctrlStore_wf (s : State) (q : Nat) (i : Instr) (f : StoreForm) (c : Nat) (o : Nat) (hs : s.mem.wf = true) :
    (ctrlStore s q i f c o).mem.wf = true := by
  unfold ctrlStore
  try dsimp only
  (repeat' split) <;> simp [*]

@[simp] theorem State.useId_mem (s : State) :
    (State.useId s).mem = s.mem := by
  rfl

@[simp] theorem storeOp_wf (i : Instr) (q : Nat) (f : StoreForm) (s : State) (hs : s.mem.wf = true) :
    (storeOp i q f s).mem.wf = true := by
  unfold storeOp
  try dsimp only
  repeat' (split <;> try (rename_i e; have w := wf_fst e (by clear e; simp [*])))
  all_goals simp_all

@[simp] theorem State.nakTrap_wf (s : State) (q : Nat) (i : Instr) (n : BitVec 8 × BitVec 8 × Word) (hs : s.mem.wf = true) :
    (State.nakTrap s q i n).mem.wf = true := by
  exact State.trapAt_wf _ _ _ _ _ _ (State.modSlot_wf _ _ _ hs)

@[simp] theorem State.startRelease_mem (s : State) (q : Nat) (scope : Nat) (key : Nat) (act : ReleaseAct) :
    (State.startRelease s q scope key act).mem = s.mem := by
  rfl

@[simp] theorem stlOp_wf (i : Instr) (q : Nat) (scope : Nat) (f : StoreForm) (s : State) (hs : s.mem.wf = true) :
    (stlOp i q scope f s).mem.wf = true := by
  unfold stlOp
  try dsimp only
  repeat' (split <;> try (rename_i e; have w := wf_fst e (by clear e; simp [*])))
  all_goals simp_all

@[simp] theorem atomicOp_wf (i : Instr) (q : Nat) (f : AtomicForm) (s : State) (hs : s.mem.wf = true) :
    (atomicOp i q f s).mem.wf = true := by
  unfold atomicOp
  try dsimp only
  repeat' (split <;> try (rename_i e; have w := wf_fst e (by clear e; simp [*])))
  all_goals simp_all

@[simp] theorem atomicInstr_wf (i : Instr) (fn : Nat) (wide signed useT : Bool) (t a b : BitVec 5) (k : BitVec 3) (s : State)
    (hs : s.mem.wf = true) : ∀ u, atomicInstr i fn wide signed useT t a b k s = .next u → u.mem.wf = true :=
  issue_wf _ _ _ hs fun _ _ hs _ e => by
    cases e; exact atomicOp_wf _ _ _ _ hs

@[simp] theorem reduceInstr_wf (i : Instr) (fn : Nat) (wide : Bool) (a b : BitVec 5) (k : BitVec 3) (s : State)
    (hs : s.mem.wf = true) : ∀ u, reduceInstr i fn wide a b k s = .next u → u.mem.wf = true :=
  issue_wf _ _ _ hs fun _ _ hs _ e => by
    cases e; exact atomicOp_wf _ _ _ _ hs

@[simp] theorem aluOp_wf (i : Instr) (d : BitVec 5) (srcs : List (BitVec 5)) (f : Slot → Word) (s : State) (hs : s.mem.wf = true) :
    ∀ u, aluOp i d srcs f s = .next u → u.mem.wf = true := by
  unfold aluOp
  refine issue_wf _ _ _ hs ?_
  intro q s hs u
  try dsimp only
  (repeat' split) <;> intro e <;> (simp [complete] at e <;> subst e <;> simp (maxDischargeDepth := 12) [*])

@[simp] theorem fpRound_wf (i : Instr) (d : BitVec 5) (srcs : List (BitVec 5)) (f : Rounding → Slot → Nat × BitVec 5) (s : State) (hs : s.mem.wf = true) :
    ∀ u, fpRound i d srcs f s = .next u → u.mem.wf = true := by
  unfold fpRound
  refine issue_wf _ _ _ hs ?_
  intro q s hs u
  try dsimp only
  (repeat' split) <;> intro e <;> (simp [complete] at e <;> subst e <;> simp (maxDischargeDepth := 12) [*])

@[simp] theorem fpPlain_wf (i : Instr) (d : BitVec 5) (srcs : List (BitVec 5)) (f : Slot → Nat) (s : State) (hs : s.mem.wf = true) :
    ∀ u, fpPlain i d srcs f s = .next u → u.mem.wf = true := by
  unfold fpPlain
  refine issue_wf _ _ _ hs ?_
  intro q s hs u
  try dsimp only
  (repeat' split) <;> intro e <;> (simp [complete] at e <;> subst e <;> simp (maxDischargeDepth := 12) [*])

@[simp] theorem State.abortLoad_mem (s : State) (q : Nat) (n : Nat) :
    (State.abortLoad s q n).mem = s.mem := by
  rfl

@[simp] theorem State.answerLoad_mem (s : State) (q : Nat) (n : Nat) (bs : List Byte) (wts : Nat) :
    (State.answerLoad s q n bs wts).mem = s.mem := by
  rfl

@[simp] theorem State.farRead_wf (s : State) (q : Nat) (l : LoadRec) (p : Nat) (o : Nat) (hs : s.mem.wf = true) :
    (State.farRead s q l p o).mem.wf = true := by
  unfold State.farRead
  try dsimp only
  repeat' (split <;> try (rename_i e; have w := wf_fst e (by clear e; simp [*])))
  all_goals simp_all

@[simp] theorem State.loadRefused_wf (s : State) (q : Nat) (n : Nat) (cause : BitVec 8) (hs : s.mem.wf = true) :
    (State.loadRefused s q n cause).mem.wf = true := by
  unfold State.loadRefused
  try dsimp only
  repeat' (split <;> try (rename_i e; have w := wf_fst e (by clear e; simp (maxDischargeDepth := 12) [*])))
  all_goals simp_all

@[simp] theorem State.widenOne_wf (s : State) (summary : Nat) (c : Nat) (b : Nat × Nat) (pts : Nat) (hs : s.mem.wf = true) :
    (State.widenOne s summary c b pts).1.mem.wf = true := by
  unfold State.widenOne
  try dsimp only
  repeat' (split <;> try (rename_i e; have w := wf_fst e (by clear e; simp [*])))
  all_goals simp_all

@[simp] theorem State.rmwAt_wf (s : State) (key : Nat) (pts : Nat) (fn : Nat) (wide : Bool) (sgn : Bool) (b : Nat) (t : Nat) (hs : s.mem.wf = true) :
    (State.rmwAt s key pts fn wide sgn b t).1.mem.wf = true := by
  unfold State.rmwAt
  try dsimp only
  repeat' (split <;> try (rename_i e; have w := wf_fst e (by clear e; simp (maxDischargeDepth := 12) [*])))
  all_goals simp_all

@[simp] theorem State.rmwDone_mem (s : State) (q : Nat) (serial : Option Nat) (id : Nat) (key : Nat) (n : Nat) (widen : List Widen) (old : Nat) (wts : Nat) (fl : BitVec 5) :
    (State.rmwDone s q serial id key n widen old wts fl).mem = s.mem := by
  unfold State.rmwDone
  (repeat' split) <;> simp_all

@[simp] theorem State.rmwLost_mem (s : State) (r : AtomicReq) :
    (State.rmwLost s r).mem = s.mem := by
  unfold State.rmwLost
  (repeat' split) <;> simp_all

@[simp] theorem homeRmw_wf (ev : Event) (r : AtomicReq) (s : State) (hs : s.mem.wf = true) :
    (homeRmw ev r s).mem.wf = true := by
  unfold homeRmw
  try dsimp only
  repeat' (split <;> try (rename_i e; have w := wf_fst e (by clear e; simp (maxDischargeDepth := 12) [*])))
  all_goals simp_all

@[simp] theorem State.nibbleAt_wf (s : State) (key : Nat) (pts : Nat) (high : Bool) (v : BitVec 4) (hs : s.mem.wf = true) :
    (State.nibbleAt s key pts high v).1.mem.wf = true := by
  unfold State.nibbleAt
  try dsimp only
  repeat' (split <;> try (rename_i e; have w := wf_fst e (by clear e; simp (maxDischargeDepth := 12) [*])))
  all_goals simp_all

@[simp] theorem State.notOut_mem (s : State) (q : Nat) (id : Nat) :
    (State.notOut s q id).mem = s.mem := by
  rfl

@[simp] theorem State.performAct_wf (s : State) (q : Nat) (id : Nat) (act : ReleaseAct) (hs : s.mem.wf = true) :
    (State.performAct s q id act).mem.wf = true := by
  unfold State.performAct
  try dsimp only
  repeat' (split <;> try (rename_i e; have w := wf_fst e (by clear e; simp (maxDischargeDepth := 12) [*])))
  all_goals simp_all

@[simp] theorem State.notifyFailed_wf (s : State) (x : Nat) (place : Nat) (cause : BitVec 8) (reason : BitVec 8) (va : Word) (hs : s.mem.wf = true) :
    (State.notifyFailed s x place cause reason va).mem.wf = true := by
  unfold State.notifyFailed
  try dsimp only
  repeat' (split <;> try (rename_i e; have w := wf_fst e (by clear e; simp [*])))
  all_goals simp_all

@[simp] theorem State.hubRefused_wf (s : State) (r : FarReq) (reason : Nat) (hs : s.mem.wf = true) :
    (State.hubRefused s r reason).mem.wf = true := by
  unfold State.hubRefused
  try dsimp only
  repeat' (split <;> try (rename_i e; have w := wf_fst e (by clear e; simp [*])))
  all_goals simp_all

@[simp] theorem State.lineArrives_mem (s : State) (q : Nat) (id : Nat) (key : Nat) (bs : List Byte) (wts : Nat) :
    (State.lineArrives s q id key bs wts).mem = s.mem := by
  simp [State.lineArrives]

@[simp] theorem State.farRefused_wf (s : State) (tag : Nat) (reason : Nat) (hs : s.mem.wf = true) :
    (State.farRefused s tag reason).mem.wf = true := by
  unfold State.farRefused
  try dsimp only
  repeat' (split <;> try (rename_i e; have w := wf_fst e (by clear e; simp [*])))
  all_goals simp_all

@[simp] theorem engThen_wf {α β : Type} (r : Eng α) (k : State → α → Eng β) (hr : r.1.mem.wf = true) (hk : ∀ s a, s.mem.wf = true → (k s a).1.mem.wf = true) :
    (engThen r k).1.mem.wf = true := by
  unfold engThen
  split
  · exact hk _ _ hr
  · exact hr

@[simp] theorem engEach_wf {α β : Type} (f : State → α → Eng β) (l : List α) (s : State) (hs : s.mem.wf = true) (hf : ∀ s a, s.mem.wf = true → (f s a).1.mem.wf = true) :
    (engEach f l s).1.mem.wf = true := by
  induction l generalizing s with
  | nil => exact hs
  | cons a t ih =>
    exact engThen_wf _ _ (hf _ _ hs) fun s b h => engThen_wf _ _ (ih _ h) fun s bs h => h

@[simp] theorem engBad_mem {α : Type} (s : State) (cause reason : BitVec 8) (tval : Word) :
    (engBad s cause reason tval : Eng α).1.mem = s.mem := by
  rfl

@[simp] theorem engOpen_mem {α : Type} (s : State) (cause reason : BitVec 8) :
    (engOpen s cause reason : Eng α).1.mem = s.mem := by
  rfl

@[simp] theorem State.drainRange_wf (s : State) (c : Nat) (key : Nat) (n : Nat) (hs : s.mem.wf = true) :
    (State.drainRange s c key n).mem.wf = true := by
  unfold State.drainRange
  try dsimp only
  repeat' (split <;> try (rename_i e; have w := wf_fst e (by clear e; simp (maxDischargeDepth := 12) [*])))
  all_goals simp_all

@[simp] theorem engReadBad_mem (q : Nat) (s : State) (va : Word) (n : Nat) (l : Loc) :
    (engReadBad q s va n l).1.mem = s.mem := by
  unfold engReadBad
  (repeat' split) <;> simp_all

@[simp] theorem engReadAt_wf (q : Nat) (e : RingEntry) (s : State) (va : Word) (n : Nat) (l : Loc) (const : Bool) (hs : s.mem.wf = true) :
    (engReadAt q e s va n l const).1.mem.wf = true := by
  unfold engReadAt
  refine engThen_wf _ _ (by simp [*]) ?_
  intro s a hs
  (repeat' split) <;> simp [*]

@[simp] theorem State.engSaw_mem (s : State) (q : Nat) (seq : Nat) (w : Nat) :
    (State.engSaw s q seq w).mem = s.mem := by
  rfl

@[simp] theorem slotRead_mem (q : Nat) (e : RingEntry) (s : State) (c : CbInst) (ix : Nat) (off : Nat) (n : Nat) :
    (slotRead q e s c ix off n).1.mem = s.mem := by
  unfold slotRead
  dsimp only
  (repeat' split) <;> simp [*]

@[simp] theorem State.engSent_mem (s : State) (q seq key : Nat) : (s.engSent q seq key).mem = s.mem := by
  simp [State.engSent]

@[simp] theorem State.engPut_wf (s : State) (q : Nat) (seq : Nat) (l : Loc) (va : Word) (bs : List Byte) (tag : Nat)
    (widen : List Widen) (hs : s.mem.wf = true) :
    (State.engPut s q seq l va bs tag widen).mem.wf = true := by
  unfold State.engPut
  dsimp only
  split
  · refine wf_foldl _ _ _ hs ?_; intro s a hs; (repeat' split) <;> simp [*]
  · have w := State.bulkWrite_wf s l.key bs tag ((((s.slot q).entry seq).map (·.pts)).getD 0) hs
    split <;> simp [w]

@[simp] theorem captureSlot_wf (q : Nat) (e : RingEntry) (s : State) (c : CbInst) (ix : Nat) (t : TileForm) (hs : s.mem.wf = true) :
    (captureSlot q e s c ix t).1.mem.wf = true := by
  unfold captureSlot
  refine engThen_wf _ _ (by simp [*]) ?_
  intro s a hs
  (repeat' split) <;> simp [*]

@[simp] theorem State.engStop_mem (s : State) (q : Nat) (seq : Nat) (f : XFault) (a : Access) (tval : Word) :
    (State.engStop s q seq f a tval).mem = s.mem := by
  unfold State.engStop
  (repeat' split) <;> simp_all

@[simp] theorem State.askLine_mem (s : State) (q : Nat) (id : Nat) (pts : Nat) (key : Nat) :
    (State.askLine s q id pts key).mem = s.mem := by
  unfold State.askLine
  (repeat' split) <;> simp_all

@[simp] theorem State.ownLine_mem (s : State) (q : Nat) (line : Nat) :
    (State.ownLine s q line).1.mem = s.mem := by
  unfold State.ownLine
  (repeat' split) <;> simp_all

@[simp] theorem State.hubWords_wf (s : State) (x : Nat) (va : Word) (n : Nat) (hs : s.mem.wf = true) :
    (State.hubWords s x va n).1.mem.wf = true := by
  unfold State.hubWords
  dsimp only
  split <;> rename_i e <;> have w0 := wf_fst e (by clear e; simp [*])
  · exact w0
  · (repeat' split) <;> simp [*]

@[simp] theorem State.ownLineOf_wf (s : State) (q : Nat) (line : Nat) (const : Bool) (hs : s.mem.wf = true) :
    (State.ownLineOf s q line const).1.mem.wf = true := by
  unfold State.ownLineOf
  dsimp only
  split <;> rename_i e
  · exact wf_fst e (by split <;> simp [hs])
  · have w := wf_fst e (by split <;> simp [hs])
    split <;> rename_i e2
    · have w2 := wf_fst e2 (by simp [w])
      split <;> simp [w2]
    · simp [w]

@[simp] theorem State.slotWords_wf (s : State) (q : Nat) (va : Word) (n : Nat) (hs : s.mem.wf = true) :
    (State.slotWords s q va n).1.mem.wf = true := by
  unfold State.slotWords
  dsimp only
  split <;> rename_i e <;> have w := wf_fst e (resolve_wf _ _ _ _ _ hs)
  · exact w
  split
  · exact w
  split
  · exact State.drainThread_wf _ _ w
  have w2 := State.drainLine_wf _ (clusterOf q) q (by assumption : Loc).key w
  split
  · exact w2
  split
  · have w3 := State.ownLineOf_wf _ q ((by assumption : Loc).key / 128 * 128) (by assumption : Loc).const w2
    split <;> rename_i e2 <;> have w4 := wf_fst e2 w3
    · exact w4
    · exact w4
    · split
      · exact w4
      · simp [w4]
  · exact w2
  · exact w2
  split
  · simp [w2]
  split
  · simp [w2]
  split
  · simp [w2]
  · simp [w2]

@[simp] theorem State.hubWrite_wf (s : State) (w : Who) (va : Word) (bs : List Byte) (pts : Nat) (hs : s.mem.wf = true) :
    (State.hubWrite s w va bs pts).1.mem.wf = true := by
  unfold State.hubWrite
  split <;> rename_i e <;> have w0 := wf_fst e (resolve_wf _ _ _ _ _ hs)
  · exact w0
  · split
    · refine wf_foldl _ _ _ w0 ?_; intro s a hs; (repeat' split) <;> first | exact hs | simp only [State.farSend_mem, hs]
    all_goals (repeat' split) <;> simp (maxDischargeDepth := 6) only [State.bulkWrite_wf, w0]

@[simp] theorem State.dropConst_mem (s : State) (x : Nat) (c : Nat) :
    (State.dropConst s x c).mem = s.mem := by
  rfl

@[simp] theorem State.putEntries_mem (s : State) (x : Nat) (l : Nat) (cls : Nat) (hs : List (Nat × Nat × Nat × Nat)) :
    (State.putEntries s x l cls hs).mem = s.mem := by
  simp [State.putEntries]

@[simp] theorem readDecls_wf (rd : State → Word → Nat → State × Got) (base : Word) (l : List Nat) (n : Nat) (s : State) (hs : s.mem.wf = true) (hrd : ∀ s a b, s.mem.wf = true → (rd s a b).1.mem.wf = true) :
    (readDecls rd base l n s).1.mem.wf = true := by
  induction l generalizing n s with
  | nil => exact hs
  | cons h t ih =>
    unfold readDecls
    dsimp only
    split <;> rename_i e <;> have w0 := wf_fst e (hrd _ _ _ hs)
    · exact w0
    · exact w0
    · split <;> rename_i e2 <;> have w1 := wf_fst e2 (ih _ _ w0) <;> exact w1

@[simp] theorem readLaunch_wf (rd rc : State → Word → Nat → State × Got) (va : Word) (s : State) (hs : s.mem.wf = true) (hr : ∀ s a b, s.mem.wf = true → (rd s a b).1.mem.wf = true) (hc : ∀ s a b, s.mem.wf = true → (rc s a b).1.mem.wf = true) :
    (readLaunch rd rc va s).1.mem.wf = true := by
  unfold readLaunch
  split <;> rename_i e <;> have w0 := wf_fst e (hr _ _ _ hs)
  · exact w0
  · exact w0
  · split
    · exact w0
    · split <;> rename_i e2 <;> have w1 := wf_fst e2 (readDecls_wf _ _ _ _ _ w0 hc) <;> exact w1

@[simp] theorem State.abandonDone_wf (s : State) (x : Nat) (desc : List Word) (hs : s.mem.wf = true) :
    (State.abandonDone s x desc).mem.wf = true := by
  unfold State.abandonDone
  try dsimp only
  repeat' (split <;> try (rename_i e; have w := wf_fst e (by clear e; simp (maxDischargeDepth := 12) [*])))
  all_goals simp_all

@[simp] theorem State.drainCluster_wf (s : State) (c : Nat) (hs : s.mem.wf = true) :
    (State.drainCluster s c).mem.wf = true := by
  unfold State.drainCluster
  refine wf_foldl _ _ _ (by assumption) ?_
  intro s a hs
  (repeat' split) <;> simp [*]

@[simp] theorem State.zeroBank_wf (s : State) (c : Nat) (b : Nat) (hs : s.mem.wf = true) :
    (State.zeroBank s c b).mem.wf = true := by
  simp (maxDischargeDepth := 12)[State.zeroBank, *]

@[simp] theorem State.nakFlit_mem (s : State) (f : Flit) (reason : Nat) :
    (State.nakFlit s f reason).mem = s.mem := by
  simp [State.nakFlit]

@[simp] theorem State.forward_mem (s : State) (t : Nat) (f : Flit) :
    (State.forward s t f).mem = s.mem := by
  unfold State.forward
  (repeat' split) <;> simp_all

@[simp] theorem State.excludeThrough_mem (s : State) (port : Nat) :
    (State.excludeThrough s port).mem = s.mem := by
  rfl

@[simp] theorem State.writeRejected_mem (s : State) (t : Nat) :
    (State.writeRejected s t).mem = s.mem := by
  rfl

@[simp] theorem State.sendGroup_mem (s : State) (g : HeldGroup) :
    (State.sendGroup s g).mem = s.mem := by
  unfold State.sendGroup
  (repeat' split) <;> simp_all

@[simp] theorem State.proxyRefused_wf (s : State) (r : AtomicReq) (hs : s.mem.wf = true) :
    (State.proxyRefused s r).mem.wf = true := by
  unfold State.proxyRefused
  try dsimp only
  repeat' (split <;> try (rename_i e; have w := wf_fst e (by clear e; simp (maxDischargeDepth := 12) [*])))
  all_goals simp_all

@[simp] theorem State.slotRelease_wf (s : State) (q : Nat) (scope : Nat) (hs : s.mem.wf = true) :
    (State.slotRelease s q scope).1.mem.wf = true := by
  unfold State.slotRelease
  try dsimp only
  repeat' (split <;> try (rename_i e; have w := wf_fst e (by clear e; simp (maxDischargeDepth := 12) [*])))
  all_goals simp_all

@[simp] theorem State.launchTrap_wf (s : State) (q : Nat) (a : BitVec 5) (f : XFault) (hs : s.mem.wf = true) :
    (State.launchTrap s q a f).mem.wf = true := by
  unfold State.launchTrap
  try dsimp only
  repeat' (split <;> try (rename_i e; have w := wf_fst e (by clear e; simp (maxDischargeDepth := 12) [*])))
  all_goals simp_all

@[simp] theorem State.launchUnread_wf (s : State) (q : Nat) (a : BitVec 5) (f : XFault) (va : Word) (desc : List Word) (hs : s.mem.wf = true) :
    (State.launchUnread s q a f va desc).mem.wf = true := by
  unfold State.launchUnread
  try dsimp only
  repeat' (split <;> try (rename_i e; have w := wf_fst e (by clear e; simp (maxDischargeDepth := 12) [*])))
  all_goals simp_all

@[simp] theorem declReader_wf (q : Nat) (s : State) (va : Word) (n : Nat) (hs : s.mem.wf = true) :
    (declReader q s va n).1.mem.wf = true := by
  unfold declReader
  split <;> rename_i e <;> have w0 := wf_fst e (resolve_wf _ _ _ _ _ hs)
  · exact w0
  · split
    · exact State.hubWords_wf _ _ _ _ w0
    · exact State.slotWords_wf _ _ _ _ w0

@[simp] theorem State.queueError_mem (s : State) (n : Nat) (index : Nat) (reason : Nat) :
    (State.queueError s n index reason).mem = s.mem := by
  rfl

@[simp] theorem State.passHead_mem (s : State) (n : Nat) :
    (State.passHead s n).mem = s.mem := by
  rfl

@[simp] theorem State.removeEntries_mem (s : State) (p : Nat → Bool) :
    (State.removeEntries s p).mem = s.mem := by
  rfl

@[simp] theorem State.discardTask_wf (s : State) (key : Nat) (p : PoolRec) (hs : s.mem.wf = true) :
    (State.discardTask s key p).mem.wf = true := by
  unfold State.discardTask
  try dsimp only
  repeat' (split <;> try (rename_i e; have w := wf_fst e (by clear e; simp (maxDischargeDepth := 12) [*])))
  all_goals simp_all

@[simp] theorem State.ttOverrun_mem (s : State) (e : Nat) :
    (State.ttOverrun s e).mem = s.mem := by
  simp [State.ttOverrun]

@[simp] theorem State.reportHome_mem (s : State) (h0 : FarHome) (x : Nat) :
    (State.reportHome s h0 x).mem = s.mem := by
  simp [State.reportHome]

@[simp] theorem State.addDone_wf (s : State) (r : Launch) (hs : s.mem.wf = true) :
    (State.addDone s r).mem.wf = true := by
  unfold State.addDone
  dsimp only
  split
  · exact hs
  split <;> rename_i e <;> have w0 := wf_fst e (counterLoc_wf _ _ _ _ hs) <;> simp [w0]

@[simp] theorem EngArg.free_wf (a : EngArg) (mark : Bool) (pts : Nat) (s : State) (hs : s.mem.wf = true) :
    (EngArg.free a mark pts s).mem.wf = true := by
  unfold EngArg.free
  try dsimp only
  repeat' (split <;> try (rename_i e; have w := wf_fst e (by clear e; simp [*])))
  all_goals simp_all

end Sys2Proof.Machine
end

