-- ==== Sys2Proof/Laws/Dispatch.lean ====
section
/-! SUPPORT. Each arm of `exec` as an equation: the meaning that it calls. -/

namespace Sys2Proof.Machine

@[simp] theorem exec_add (d : BitVec 5) (a : BitVec 5) (b : BitVec 5) (s : State) :
    exec (.add d a b) s = execAdd d a b s := rfl
@[simp] theorem exec_sub (d : BitVec 5) (a : BitVec 5) (b : BitVec 5) (s : State) :
    exec (.sub d a b) s = execSub d a b s := rfl
@[simp] theorem exec_mul (d : BitVec 5) (a : BitVec 5) (b : BitVec 5) (s : State) :
    exec (.mul d a b) s = execMul d a b s := rfl
@[simp] theorem exec_mulhS64 (d : BitVec 5) (a : BitVec 5) (b : BitVec 5) (s : State) :
    exec (.mulhS64 d a b) s = execMulhS64 d a b s := rfl
@[simp] theorem exec_mulhZ64 (d : BitVec 5) (a : BitVec 5) (b : BitVec 5) (s : State) :
    exec (.mulhZ64 d a b) s = execMulhZ64 d a b s := rfl
@[simp] theorem exec_divS64 (d : BitVec 5) (a : BitVec 5) (b : BitVec 5) (s : State) :
    exec (.divS64 d a b) s = execDivS64 d a b s := rfl
@[simp] theorem exec_divZ64 (d : BitVec 5) (a : BitVec 5) (b : BitVec 5) (s : State) :
    exec (.divZ64 d a b) s = execDivZ64 d a b s := rfl
@[simp] theorem exec_remS64 (d : BitVec 5) (a : BitVec 5) (b : BitVec 5) (s : State) :
    exec (.remS64 d a b) s = execRemS64 d a b s := rfl
@[simp] theorem exec_remZ64 (d : BitVec 5) (a : BitVec 5) (b : BitVec 5) (s : State) :
    exec (.remZ64 d a b) s = execRemZ64 d a b s := rfl
@[simp] theorem exec_and (d : BitVec 5) (a : BitVec 5) (b : BitVec 5) (s : State) :
    exec (.and d a b) s = execAnd d a b s := rfl
@[simp] theorem exec_or (d : BitVec 5) (a : BitVec 5) (b : BitVec 5) (s : State) :
    exec (.or d a b) s = execOr d a b s := rfl
@[simp] theorem exec_xor (d : BitVec 5) (a : BitVec 5) (b : BitVec 5) (s : State) :
    exec (.xor d a b) s = execXor d a b s := rfl
@[simp] theorem exec_shl (d : BitVec 5) (a : BitVec 5) (b : BitVec 5) (s : State) :
    exec (.shl d a b) s = execShl d a b s := rfl
@[simp] theorem exec_shrZ64 (d : BitVec 5) (a : BitVec 5) (b : BitVec 5) (s : State) :
    exec (.shrZ64 d a b) s = execShrZ64 d a b s := rfl
@[simp] theorem exec_shrS64 (d : BitVec 5) (a : BitVec 5) (b : BitVec 5) (s : State) :
    exec (.shrS64 d a b) s = execShrS64 d a b s := rfl
@[simp] theorem exec_minS64 (d : BitVec 5) (a : BitVec 5) (b : BitVec 5) (s : State) :
    exec (.minS64 d a b) s = execMinS64 d a b s := rfl
@[simp] theorem exec_maxS64 (d : BitVec 5) (a : BitVec 5) (b : BitVec 5) (s : State) :
    exec (.maxS64 d a b) s = execMaxS64 d a b s := rfl
@[simp] theorem exec_sltS64 (d : BitVec 5) (a : BitVec 5) (b : BitVec 5) (s : State) :
    exec (.sltS64 d a b) s = execSltS64 d a b s := rfl
@[simp] theorem exec_sltZ64 (d : BitVec 5) (a : BitVec 5) (b : BitVec 5) (s : State) :
    exec (.sltZ64 d a b) s = execSltZ64 d a b s := rfl
@[simp] theorem exec_seq (d : BitVec 5) (a : BitVec 5) (b : BitVec 5) (s : State) :
    exec (.seq d a b) s = execSeq d a b s := rfl
@[simp] theorem exec_clz (d : BitVec 5) (a : BitVec 5) (s : State) :
    exec (.clz d a) s = execClz d a s := rfl
@[simp] theorem exec_popc (d : BitVec 5) (a : BitVec 5) (s : State) :
    exec (.popc d a) s = execPopc d a s := rfl
@[simp] theorem exec_sel (d : BitVec 5) (a : BitVec 5) (b : BitVec 5) (c : BitVec 5) (s : State) :
    exec (.sel d a b c) s = execSel d a b c s := rfl
@[simp] theorem exec_madd (d : BitVec 5) (a : BitVec 5) (b : BitVec 5) (c : BitVec 5) (s : State) :
    exec (.madd d a b c) s = execMadd d a b c s := rfl
@[simp] theorem exec_ext (d : BitVec 5) (a : BitVec 5) (t : BitVec 3) (s : State) :
    exec (.ext d a t) s = execExt d a t s := rfl
@[simp] theorem exec_addi (d : BitVec 5) (a : BitVec 5) (i0 : BitVec 16) (s : State) :
    exec (.addi d a i0) s = execAddi d a i0 s := rfl
@[simp] theorem exec_andi (d : BitVec 5) (a : BitVec 5) (i0 : BitVec 16) (s : State) :
    exec (.andi d a i0) s = execAndi d a i0 s := rfl
@[simp] theorem exec_ori (d : BitVec 5) (a : BitVec 5) (i0 : BitVec 16) (s : State) :
    exec (.ori d a i0) s = execOri d a i0 s := rfl
@[simp] theorem exec_xori (d : BitVec 5) (a : BitVec 5) (i0 : BitVec 16) (s : State) :
    exec (.xori d a i0) s = execXori d a i0 s := rfl
@[simp] theorem exec_shli (d : BitVec 5) (a : BitVec 5) (k : BitVec 6) (s : State) :
    exec (.shli d a k) s = execShli d a k s := rfl
@[simp] theorem exec_shriZ64 (d : BitVec 5) (a : BitVec 5) (k : BitVec 6) (s : State) :
    exec (.shriZ64 d a k) s = execShriZ64 d a k s := rfl
@[simp] theorem exec_shriS64 (d : BitVec 5) (a : BitVec 5) (k : BitVec 6) (s : State) :
    exec (.shriS64 d a k) s = execShriS64 d a k s := rfl
@[simp] theorem exec_sltiS64 (d : BitVec 5) (a : BitVec 5) (i0 : BitVec 16) (s : State) :
    exec (.sltiS64 d a i0) s = execSltiS64 d a i0 s := rfl
@[simp] theorem exec_li (d : BitVec 5) (i0 : BitVec 21) (s : State) :
    exec (.li d i0) s = execLi d i0 s := rfl
@[simp] theorem exec_lsi (d : BitVec 5) (i0 : BitVec 16) (s : State) :
    exec (.lsi d i0) s = execLsi d i0 s := rfl
@[simp] theorem exec_pset (p : BitVec 3) (a : BitVec 5) (s : State) :
    exec (.pset p a) s = execPset p a s := rfl
@[simp] theorem exec_pstep (p : BitVec 3) (a : BitVec 5) (s : State) :
    exec (.pstep p a) s = execPstep p a s := rfl
@[simp] theorem exec_pget (d : BitVec 5) (p : BitVec 3) (s : State) :
    exec (.pget d p) s = execPget d p s := rfl
@[simp] theorem exec_padd (p : BitVec 3) (a : BitVec 5) (s : State) :
    exec (.padd p a) s = execPadd p a s := rfl
@[simp] theorem exec_crrd (d : BitVec 5) (c : BitVec 12) (s : State) :
    exec (.crrd d c) s = execCrrd d c s := rfl
@[simp] theorem exec_crwr (a : BitVec 5) (c : BitVec 12) (s : State) :
    exec (.crwr a c) s = execCrwr a c s := rfl
@[simp] theorem exec_crset (a : BitVec 5) (c : BitVec 12) (s : State) :
    exec (.crset a c) s = execCrset a c s := rfl
@[simp] theorem exec_crclr (a : BitVec 5) (c : BitVec 12) (s : State) :
    exec (.crclr a c) s = execCrclr a c s := rfl
@[simp] theorem exec_fadd (d : BitVec 5) (a : BitVec 5) (b : BitVec 5) (s : State) :
    exec (.fadd d a b) s = execFadd d a b s := rfl
@[simp] theorem exec_fsub (d : BitVec 5) (a : BitVec 5) (b : BitVec 5) (s : State) :
    exec (.fsub d a b) s = execFsub d a b s := rfl
@[simp] theorem exec_fmul (d : BitVec 5) (a : BitVec 5) (b : BitVec 5) (s : State) :
    exec (.fmul d a b) s = execFmul d a b s := rfl
@[simp] theorem exec_fdiv (d : BitVec 5) (a : BitVec 5) (b : BitVec 5) (s : State) :
    exec (.fdiv d a b) s = execFdiv d a b s := rfl
@[simp] theorem exec_fmin (d : BitVec 5) (a : BitVec 5) (b : BitVec 5) (s : State) :
    exec (.fmin d a b) s = execFmin d a b s := rfl
@[simp] theorem exec_fmax (d : BitVec 5) (a : BitVec 5) (b : BitVec 5) (s : State) :
    exec (.fmax d a b) s = execFmax d a b s := rfl
@[simp] theorem exec_feq (d : BitVec 5) (a : BitVec 5) (b : BitVec 5) (s : State) :
    exec (.feq d a b) s = execFeq d a b s := rfl
@[simp] theorem exec_flt (d : BitVec 5) (a : BitVec 5) (b : BitVec 5) (s : State) :
    exec (.flt d a b) s = execFlt d a b s := rfl
@[simp] theorem exec_fle (d : BitVec 5) (a : BitVec 5) (b : BitVec 5) (s : State) :
    exec (.fle d a b) s = execFle d a b s := rfl
@[simp] theorem exec_fma (d : BitVec 5) (a : BitVec 5) (b : BitVec 5) (c : BitVec 5) (s : State) :
    exec (.fma d a b c) s = execFma d a b c s := rfl
@[simp] theorem exec_fsqrt (d : BitVec 5) (a : BitVec 5) (s : State) :
    exec (.fsqrt d a) s = execFsqrt d a s := rfl
@[simp] theorem exec_fabs (d : BitVec 5) (a : BitVec 5) (s : State) :
    exec (.fabs d a) s = execFabs d a s := rfl
@[simp] theorem exec_fcvtS64 (d : BitVec 5) (a : BitVec 5) (s : State) :
    exec (.fcvtS64 d a) s = execFcvtS64 d a s := rfl
@[simp] theorem exec_fcvtiS64 (d : BitVec 5) (a : BitVec 5) (s : State) :
    exec (.fcvtiS64 d a) s = execFcvtiS64 d a s := rfl
@[simp] theorem exec_fxsd (d : BitVec 5) (a : BitVec 5) (s : State) :
    exec (.fxsd d a) s = execFxsd d a s := rfl
@[simp] theorem exec_fxse (d : BitVec 5) (a : BitVec 5) (s : State) :
    exec (.fxse d a) s = execFxse d a s := rfl
@[simp] theorem exec_beq (a : BitVec 5) (b : BitVec 5) (o : BitVec 16) (s : State) :
    exec (.beq a b o) s = execBeq a b o s := rfl
@[simp] theorem exec_bne (a : BitVec 5) (b : BitVec 5) (o : BitVec 16) (s : State) :
    exec (.bne a b o) s = execBne a b o s := rfl
@[simp] theorem exec_bltS64 (a : BitVec 5) (b : BitVec 5) (o : BitVec 16) (s : State) :
    exec (.bltS64 a b o) s = execBltS64 a b o s := rfl
@[simp] theorem exec_bgeS64 (a : BitVec 5) (b : BitVec 5) (o : BitVec 16) (s : State) :
    exec (.bgeS64 a b o) s = execBgeS64 a b o s := rfl
@[simp] theorem exec_bltZ64 (a : BitVec 5) (b : BitVec 5) (o : BitVec 16) (s : State) :
    exec (.bltZ64 a b o) s = execBltZ64 a b o s := rfl
@[simp] theorem exec_bgeZ64 (a : BitVec 5) (b : BitVec 5) (o : BitVec 16) (s : State) :
    exec (.bgeZ64 a b o) s = execBgeZ64 a b o s := rfl
@[simp] theorem exec_jal (o : BitVec 26) (s : State) :
    exec (.jal o) s = execJal o s := rfl
@[simp] theorem exec_jr (a : BitVec 5) (s : State) :
    exec (.jr a) s = execJr a s := rfl
@[simp] theorem exec_jalr (d : BitVec 5) (a : BitVec 5) (s : State) :
    exec (.jalr d a) s = execJalr d a s := rfl
@[simp] theorem exec_rep (k0 : BitVec 5) (c : BitVec 5) (n : BitVec 4) (k : BitVec 8) (s : State) :
    exec (.rep k0 c n k) s = execRep k0 c n k s := rfl
@[simp] theorem exec_ld (t : BitVec 5) (a : BitVec 5) (y : BitVec 3) (o : BitVec 12) (s : State) :
    exec (.ld t a y o) s = execLd t a y o s := rfl
@[simp] theorem exec_st (t : BitVec 5) (a : BitVec 5) (y : BitVec 3) (o : BitVec 12) (s : State) :
    exec (.st t a y o) s = execSt t a y o s := rfl
@[simp] theorem exec_ldp (t : BitVec 5) (p : BitVec 3) (y : BitVec 3) (o : BitVec 12) (s : State) :
    exec (.ldp t p y o) s = execLdp t p y o s := rfl
@[simp] theorem exec_ldpi (t : BitVec 5) (p : BitVec 3) (y : BitVec 3) (s : State) :
    exec (.ldpi t p y) s = execLdpi t p y s := rfl
@[simp] theorem exec_stp (t : BitVec 5) (p : BitVec 3) (y : BitVec 3) (o : BitVec 12) (s : State) :
    exec (.stp t p y o) s = execStp t p y o s := rfl
@[simp] theorem exec_stpi (t : BitVec 5) (p : BitVec 3) (y : BitVec 3) (s : State) :
    exec (.stpi t p y) s = execStpi t p y s := rfl
@[simp] theorem exec_vld (v : BitVec 5) (a : BitVec 5) (o : BitVec 12) (s : State) :
    exec (.vld v a o) s = execVld v a o s := rfl
@[simp] theorem exec_vst (v : BitVec 5) (a : BitVec 5) (o : BitVec 12) (s : State) :
    exec (.vst v a o) s = execVst v a o s := rfl
@[simp] theorem exec_vldp (v : BitVec 5) (p : BitVec 3) (o : BitVec 12) (s : State) :
    exec (.vldp v p o) s = execVldp v p o s := rfl
@[simp] theorem exec_vstp (v : BitVec 5) (p : BitVec 3) (o : BitVec 12) (s : State) :
    exec (.vstp v p o) s = execVstp v p o s := rfl
@[simp] theorem exec_lda (t : BitVec 5) (a : BitVec 5) (k0 : BitVec 3) (y : BitVec 3) (s : State) :
    exec (.lda t a k0 y) s = execLda t a k0 y s := rfl
@[simp] theorem exec_stl (t : BitVec 5) (a : BitVec 5) (k0 : BitVec 3) (y : BitVec 3) (s : State) :
    exec (.stl t a k0 y) s = execStl t a k0 y s := rfl
@[simp] theorem exec_fence (k0 : BitVec 3) (s : State) :
    exec (.fence k0) s = execFence k0 s := rfl
@[simp] theorem exec_tclr (d : BitVec 5) (s : State) :
    exec (.tclr d) s = execTclr d s := rfl
@[simp] theorem exec_tdep (d : BitVec 5) (a : BitVec 5) (s : State) :
    exec (.tdep d a) s = execTdep d a s := rfl
@[simp] theorem exec_vtclr (d : BitVec 5) (s : State) :
    exec (.vtclr d) s = execVtclr d s := rfl
@[simp] theorem exec_vtdep (d : BitVec 5) (a : BitVec 5) (s : State) :
    exec (.vtdep d a) s = execVtdep d a s := rfl
@[simp] theorem exec_aswap (t : BitVec 5) (a : BitVec 5) (b : BitVec 5) (k0 : BitVec 3) (w : BitVec 1) (s : State) :
    exec (.aswap t a b k0 w) s = execAswap t a b k0 w s := rfl
@[simp] theorem exec_acas (t : BitVec 5) (a : BitVec 5) (b : BitVec 5) (k0 : BitVec 3) (w : BitVec 1) (s : State) :
    exec (.acas t a b k0 w) s = execAcas t a b k0 w s := rfl
@[simp] theorem exec_aadd (t : BitVec 5) (a : BitVec 5) (b : BitVec 5) (k0 : BitVec 3) (w : BitVec 1) (s : State) :
    exec (.aadd t a b k0 w) s = execAadd t a b k0 w s := rfl
@[simp] theorem exec_aand (t : BitVec 5) (a : BitVec 5) (b : BitVec 5) (k0 : BitVec 3) (w : BitVec 1) (s : State) :
    exec (.aand t a b k0 w) s = execAand t a b k0 w s := rfl
@[simp] theorem exec_aor (t : BitVec 5) (a : BitVec 5) (b : BitVec 5) (k0 : BitVec 3) (w : BitVec 1) (s : State) :
    exec (.aor t a b k0 w) s = execAor t a b k0 w s := rfl
@[simp] theorem exec_axor (t : BitVec 5) (a : BitVec 5) (b : BitVec 5) (k0 : BitVec 3) (w : BitVec 1) (s : State) :
    exec (.axor t a b k0 w) s = execAxor t a b k0 w s := rfl
@[simp] theorem exec_amin (t : BitVec 5) (a : BitVec 5) (b : BitVec 5) (k0 : BitVec 3) (w : BitVec 1) (g : BitVec 1) (s : State) :
    exec (.amin t a b k0 w g) s = execAmin t a b k0 w g s := rfl
@[simp] theorem exec_amax (t : BitVec 5) (a : BitVec 5) (b : BitVec 5) (k0 : BitVec 3) (w : BitVec 1) (g : BitVec 1) (s : State) :
    exec (.amax t a b k0 w g) s = execAmax t a b k0 w g s := rfl
@[simp] theorem exec_afadd (t : BitVec 5) (a : BitVec 5) (b : BitVec 5) (k0 : BitVec 3) (s : State) :
    exec (.afadd t a b k0) s = execAfadd t a b k0 s := rfl
@[simp] theorem exec_radd (a : BitVec 5) (b : BitVec 5) (k0 : BitVec 3) (w : BitVec 1) (s : State) :
    exec (.radd a b k0 w) s = execRadd a b k0 w s := rfl
@[simp] theorem exec_rfadd (a : BitVec 5) (b : BitVec 5) (k0 : BitVec 3) (s : State) :
    exec (.rfadd a b k0) s = execRfadd a b k0 s := rfl
@[simp] theorem exec_stn4 (t : BitVec 5) (a : BitVec 5) (o : BitVec 12) (s : State) :
    exec (.stn4 t a o) s = execStn4 t a o s := rfl
@[simp] theorem exec_vadd (d : BitVec 5) (a : BitVec 5) (b : BitVec 5) (y : BitVec 4) (m : BitVec 2) (s : State) :
    exec (.vadd d a b y m) s = execVadd d a b y m s := rfl
@[simp] theorem exec_vsub (d : BitVec 5) (a : BitVec 5) (b : BitVec 5) (y : BitVec 4) (m : BitVec 2) (s : State) :
    exec (.vsub d a b y m) s = execVsub d a b y m s := rfl
@[simp] theorem exec_vmul (d : BitVec 5) (a : BitVec 5) (b : BitVec 5) (y : BitVec 4) (m : BitVec 2) (s : State) :
    exec (.vmul d a b y m) s = execVmul d a b y m s := rfl
@[simp] theorem exec_vfma (d : BitVec 5) (a : BitVec 5) (b : BitVec 5) (y : BitVec 4) (s : State) :
    exec (.vfma d a b y) s = execVfma d a b y s := rfl
@[simp] theorem exec_vmin (d : BitVec 5) (a : BitVec 5) (b : BitVec 5) (y : BitVec 4) (s : State) :
    exec (.vmin d a b y) s = execVmin d a b y s := rfl
@[simp] theorem exec_vmax (d : BitVec 5) (a : BitVec 5) (b : BitVec 5) (y : BitVec 4) (s : State) :
    exec (.vmax d a b y) s = execVmax d a b y s := rfl
@[simp] theorem exec_vabs (d : BitVec 5) (a : BitVec 5) (y : BitVec 4) (s : State) :
    exec (.vabs d a y) s = execVabs d a y s := rfl
@[simp] theorem exec_vneg (d : BitVec 5) (a : BitVec 5) (y : BitVec 4) (s : State) :
    exec (.vneg d a y) s = execVneg d a y s := rfl
@[simp] theorem exec_vdiv (d : BitVec 5) (a : BitVec 5) (b : BitVec 5) (s : State) :
    exec (.vdiv d a b) s = execVdiv d a b s := rfl
@[simp] theorem exec_vsqrt (d : BitVec 5) (a : BitVec 5) (s : State) :
    exec (.vsqrt d a) s = execVsqrt d a s := rfl
@[simp] theorem exec_vexp2 (d : BitVec 5) (a : BitVec 5) (s : State) :
    exec (.vexp2 d a) s = execVexp2 d a s := rfl
@[simp] theorem exec_vand (d : BitVec 5) (a : BitVec 5) (b : BitVec 5) (y : BitVec 4) (s : State) :
    exec (.vand d a b y) s = execVand d a b y s := rfl
@[simp] theorem exec_vor (d : BitVec 5) (a : BitVec 5) (b : BitVec 5) (y : BitVec 4) (s : State) :
    exec (.vor d a b y) s = execVor d a b y s := rfl
@[simp] theorem exec_vxor (d : BitVec 5) (a : BitVec 5) (b : BitVec 5) (y : BitVec 4) (s : State) :
    exec (.vxor d a b y) s = execVxor d a b y s := rfl
@[simp] theorem exec_vshl (d : BitVec 5) (a : BitVec 5) (b : BitVec 5) (y : BitVec 4) (s : State) :
    exec (.vshl d a b y) s = execVshl d a b y s := rfl
@[simp] theorem exec_vshr (d : BitVec 5) (a : BitVec 5) (b : BitVec 5) (y : BitVec 4) (s : State) :
    exec (.vshr d a b y) s = execVshr d a b y s := rfl
@[simp] theorem exec_vceq (d : BitVec 5) (a : BitVec 5) (b : BitVec 5) (y : BitVec 4) (s : State) :
    exec (.vceq d a b y) s = execVceq d a b y s := rfl
@[simp] theorem exec_vclt (d : BitVec 5) (a : BitVec 5) (b : BitVec 5) (y : BitVec 4) (s : State) :
    exec (.vclt d a b y) s = execVclt d a b y s := rfl
@[simp] theorem exec_vcle (d : BitVec 5) (a : BitVec 5) (b : BitVec 5) (y : BitVec 4) (s : State) :
    exec (.vcle d a b y) s = execVcle d a b y s := rfl
@[simp] theorem exec_vsel (d : BitVec 5) (a : BitVec 5) (b : BitVec 5) (y : BitVec 4) (s : State) :
    exec (.vsel d a b y) s = execVsel d a b y s := rfl
@[simp] theorem exec_vrsum (d : BitVec 5) (a : BitVec 5) (y : BitVec 4) (s : State) :
    exec (.vrsum d a y) s = execVrsum d a y s := rfl
@[simp] theorem exec_vrmax (d : BitVec 5) (a : BitVec 5) (y : BitVec 4) (s : State) :
    exec (.vrmax d a y) s = execVrmax d a y s := rfl
@[simp] theorem exec_vrmin (d : BitVec 5) (a : BitVec 5) (y : BitVec 4) (s : State) :
    exec (.vrmin d a y) s = execVrmin d a y s := rfl
@[simp] theorem exec_vperm (d : BitVec 5) (a : BitVec 5) (b : BitVec 5) (y : BitVec 4) (s : State) :
    exec (.vperm d a b y) s = execVperm d a b y s := rfl
@[simp] theorem exec_vrot (d : BitVec 5) (a : BitVec 5) (b : BitVec 5) (y : BitVec 4) (s : State) :
    exec (.vrot d a b y) s = execVrot d a b y s := rfl
@[simp] theorem exec_vbcst (d : BitVec 5) (a : BitVec 5) (y : BitVec 4) (s : State) :
    exec (.vbcst d a y) s = execVbcst d a y s := rfl
@[simp] theorem exec_vext (d : BitVec 5) (a : BitVec 5) (b : BitVec 5) (y : BitVec 4) (s : State) :
    exec (.vext d a b y) s = execVext d a b y s := rfl
@[simp] theorem exec_vins (d : BitVec 5) (a : BitVec 5) (b : BitVec 5) (y : BitVec 4) (s : State) :
    exec (.vins d a b y) s = execVins d a b y s := rfl
@[simp] theorem exec_vcvt (d : BitVec 5) (a : BitVec 5) (k0 : BitVec 4) (y : BitVec 4) (s : State) :
    exec (.vcvt d a k0 y) s = execVcvt d a k0 y s := rfl
@[simp] theorem exec_vmov (d : BitVec 5) (a : BitVec 5) (s : State) :
    exec (.vmov d a) s = execVmov d a s := rfl
@[simp] theorem exec_mma (a : BitVec 5) (b : BitVec 5) (k0 : BitVec 4) (s : State) :
    exec (.mma a b k0) s = execMma a b k0 s := rfl
@[simp] theorem exec_mmag (a : BitVec 5) (b : BitVec 5) (m : BitVec 1) (c : BitVec 2) (s : State) :
    exec (.mmag a b m c) s = execMmag a b m c s := rfl
@[simp] theorem exec_mmas (a : BitVec 5) (b : BitVec 5) (k0 : BitVec 4) (s : State) :
    exec (.mmas a b k0) s = execMmas a b k0 s := rfl
@[simp] theorem exec_mrot (a : BitVec 5) (b : BitVec 5) (k0 : BitVec 4) (s : State) :
    exec (.mrot a b k0) s = execMrot a b k0 s := rfl
@[simp] theorem exec_mzero (c : BitVec 2) (s : State) :
    exec (.mzero c) s = execMzero c s := rfl
@[simp] theorem exec_mld (a : BitVec 5) (m : BitVec 1) (c : BitVec 2) (s : State) :
    exec (.mld a m c) s = execMld a m c s := rfl
@[simp] theorem exec_mst (a : BitVec 5) (c : BitVec 2) (s : State) :
    exec (.mst a c) s = execMst a c s := rfl
@[simp] theorem exec_cvt (a : BitVec 5) (b : BitVec 5) (m : BitVec 1) (r : BitVec 3) (s : State) :
    exec (.cvt a b m r) s = execCvt a b m r s := rfl
@[simp] theorem exec_cvb (a : BitVec 5) (b : BitVec 5) (m : BitVec 1) (r : BitVec 3) (s : State) :
    exec (.cvb a b m r) s = execCvb a b m r s := rfl
@[simp] theorem exec_cvq (a : BitVec 5) (b : BitVec 5) (m : BitVec 1) (r : BitVec 3) (s : State) :
    exec (.cvq a b m r) s = execCvq a b m r s := rfl
@[simp] theorem exec_cvqn (a : BitVec 5) (b : BitVec 5) (m : BitVec 1) (r : BitVec 3) (s : State) :
    exec (.cvqn a b m r) s = execCvqn a b m r s := rfl
@[simp] theorem exec_cvqnq (a : BitVec 5) (b : BitVec 5) (m : BitVec 1) (r : BitVec 3) (s : State) :
    exec (.cvqnq a b m r) s = execCvqnq a b m r s := rfl
@[simp] theorem exec_cvtr (a : BitVec 5) (b : BitVec 5) (m : BitVec 1) (r : BitVec 3) (s : State) :
    exec (.cvtr a b m r) s = execCvtr a b m r s := rfl
@[simp] theorem exec_twld (a : BitVec 5) (b : BitVec 5) (k0 : BitVec 2) (s : State) :
    exec (.twld a b k0) s = execTwld a b k0 s := rfl
@[simp] theorem exec_twmc (a : BitVec 5) (b : BitVec 5) (k0 : BitVec 2) (s : State) :
    exec (.twmc a b k0) s = execTwmc a b k0 s := rfl
@[simp] theorem exec_twst (a : BitVec 5) (b : BitVec 5) (k0 : BitVec 2) (s : State) :
    exec (.twst a b k0) s = execTwst a b k0 s := rfl
@[simp] theorem exec_kbnd (a : BitVec 5) (b : BitVec 5) (k0 : BitVec 2) (s : State) :
    exec (.kbnd a b k0) s = execKbnd a b k0 s := rfl
@[simp] theorem exec_ksel (a : BitVec 5) (b : BitVec 5) (k0 : BitVec 2) (s : State) :
    exec (.ksel a b k0) s = execKsel a b k0 s := rfl
@[simp] theorem exec_krst (k0 : BitVec 2) (s : State) :
    exec (.krst k0) s = execKrst k0 s := rfl
@[simp] theorem exec_sgg (a : BitVec 5) (b : BitVec 5) (k0 : BitVec 2) (s : State) :
    exec (.sgg a b k0) s = execSgg a b k0 s := rfl
@[simp] theorem exec_tidld (a : BitVec 5) (s : State) :
    exec (.tidld a) s = execTidld a s := rfl
@[simp] theorem exec_tidinv (a : BitVec 5) (s : State) :
    exec (.tidinv a) s = execTidinv a s := rfl
@[simp] theorem exec_tcls (a : BitVec 5) (s : State) :
    exec (.tcls a) s = execTcls a s := rfl
@[simp] theorem exec_wstart (a : BitVec 5) (b : BitVec 5) (k0 : BitVec 2) (s : State) :
    exec (.wstart a b k0) s = execWstart a b k0 s := rfl
@[simp] theorem exec_wstop (k0 : BitVec 2) (s : State) :
    exec (.wstop k0) s = execWstop k0 s := rfl
@[simp] theorem exec_bcopy (a : BitVec 5) (b : BitVec 5) (k0 : BitVec 2) (s : State) :
    exec (.bcopy a b k0) s = execBcopy a b k0 s := rfl
@[simp] theorem exec_bfill (a : BitVec 5) (b : BitVec 5) (k0 : BitVec 2) (s : State) :
    exec (.bfill a b k0) s = execBfill a b k0 s := rfl
@[simp] theorem exec_eset (a : BitVec 5) (e : BitVec 4) (r : BitVec 8) (k0 : BitVec 4) (s : State) :
    exec (.eset a e r k0) s = execEset a e r k0 s := rfl
@[simp] theorem exec_eget (d : BitVec 5) (e : BitVec 4) (r : BitVec 8) (k0 : BitVec 4) (s : State) :
    exec (.eget d e r k0) s = execEget d e r k0 s := rfl
@[simp] theorem exec_spawn (a : BitVec 5) (b : BitVec 5) (s : State) :
    exec (.spawn a b) s = execSpawn a b s := rfl
@[simp] theorem exec_launch (a : BitVec 5) (s : State) :
    exec (.launch a) s = execLaunch a s := rfl
@[simp] theorem exec_retire (s : State) :
    exec (.retire) s = execRetire s := rfl
@[simp] theorem exec_yield (s : State) :
    exec (.yield) s = execYield s := rfl
@[simp] theorem exec_msend (a : BitVec 5) (b : BitVec 5) (s : State) :
    exec (.msend a b) s = execMsend a b s := rfl
@[simp] theorem exec_cadd (a : BitVec 5) (b : BitVec 5) (k0 : BitVec 3) (s : State) :
    exec (.cadd a b k0) s = execCadd a b k0 s := rfl
@[simp] theorem exec_caddo (t : BitVec 5) (a : BitVec 5) (b : BitVec 5) (k0 : BitVec 3) (s : State) :
    exec (.caddo t a b k0) s = execCaddo t a b k0 s := rfl
@[simp] theorem exec_cwait (t : BitVec 5) (a : BitVec 5) (b : BitVec 5) (k0 : BitVec 3) (s : State) :
    exec (.cwait t a b k0) s = execCwait t a b k0 s := rfl
@[simp] theorem exec_cwaitt (t : BitVec 5) (a : BitVec 5) (b : BitVec 5) (k0 : BitVec 3) (s : State) :
    exec (.cwaitt t a b k0) s = execCwaitt t a b k0 s := rfl
@[simp] theorem exec_cbwp (a : BitVec 5) (h : BitVec 4) (n : BitVec 9) (s : State) :
    exec (.cbwp a h n) s = execCbwp a h n s := rfl
@[simp] theorem exec_cbwc (a : BitVec 5) (h : BitVec 4) (n : BitVec 9) (s : State) :
    exec (.cbwc a h n) s = execCbwc a h n s := rfl
@[simp] theorem exec_cbap (a : BitVec 5) (h : BitVec 4) (n : BitVec 9) (s : State) :
    exec (.cbap a h n) s = execCbap a h n s := rfl
@[simp] theorem exec_cbac (a : BitVec 5) (h : BitVec 4) (n : BitVec 9) (s : State) :
    exec (.cbac a h n) s = execCbac a h n s := rfl
@[simp] theorem exec_cbstat (d : BitVec 5) (h : BitVec 4) (s : State) :
    exec (.cbstat d h) s = execCbstat d h s := rfl
@[simp] theorem exec_mark (h : BitVec 4) (s : State) :
    exec (.mark h) s = execMark h s := rfl
@[simp] theorem exec_mwait (a : BitVec 5) (s : State) :
    exec (.mwait a) s = execMwait a s := rfl
@[simp] theorem exec_mround (d : BitVec 5) (s : State) :
    exec (.mround d) s = execMround d s := rfl
@[simp] theorem exec_ecall (s : State) :
    exec (.ecall) s = execEcall s := rfl
@[simp] theorem exec_mcall (s : State) :
    exec (.mcall) s = execMcall s := rfl
@[simp] theorem exec_eret (s : State) :
    exec (.eret) s = execEret s := rfl
@[simp] theorem exec_ifence (s : State) :
    exec (.ifence) s = execIfence s := rfl
@[simp] theorem exec_brk (s : State) :
    exec (.brk) s = execBrk s := rfl
@[simp] theorem exec_xinv (a : BitVec 5) (s : State) :
    exec (.xinv a) s = execXinv a s := rfl
@[simp] theorem exec_xinva (s : State) :
    exec (.xinva) s = execXinva s := rfl
@[simp] theorem exec_qbind (a : BitVec 5) (b : BitVec 5) (s : State) :
    exec (.qbind a b) s = execQbind a b s := rfl
@[simp] theorem exec_qunb (a : BitVec 5) (s : State) :
    exec (.qunb a) s = execQunb a s := rfl
@[simp] theorem exec_slsave (a : BitVec 5) (b : BitVec 5) (s : State) :
    exec (.slsave a b) s = execSlsave a b s := rfl
@[simp] theorem exec_slrest (a : BitVec 5) (b : BitVec 5) (s : State) :
    exec (.slrest a b) s = execSlrest a b s := rfl
@[simp] theorem exec_slkill (a : BitVec 5) (s : State) :
    exec (.slkill a) s = execSlkill a s := rfl
@[simp] theorem exec_hint (h : BitVec 26) (s : State) :
    exec (.hint h) s = execHint h s := rfl
@[simp] theorem exec_wli (d : BitVec 4) (i0 : BitVec 24) (s : State) :
    exec (.wli d i0) s = execWli d i0 s := rfl
@[simp] theorem exec_waddi (d : BitVec 4) (a : BitVec 4) (i0 : BitVec 20) (s : State) :
    exec (.waddi d a i0) s = execWaddi d a i0 s := rfl
@[simp] theorem exec_wadd (d : BitVec 4) (a : BitVec 4) (b : BitVec 4) (s : State) :
    exec (.wadd d a b) s = execWadd d a b s := rfl
@[simp] theorem exec_wsub (d : BitVec 4) (a : BitVec 4) (b : BitVec 4) (s : State) :
    exec (.wsub d a b) s = execWsub d a b s := rfl
@[simp] theorem exec_wmul (d : BitVec 4) (a : BitVec 4) (b : BitVec 4) (s : State) :
    exec (.wmul d a b) s = execWmul d a b s := rfl
@[simp] theorem exec_wand (d : BitVec 4) (a : BitVec 4) (b : BitVec 4) (s : State) :
    exec (.wand d a b) s = execWand d a b s := rfl
@[simp] theorem exec_wor (d : BitVec 4) (a : BitVec 4) (b : BitVec 4) (s : State) :
    exec (.wor d a b) s = execWor d a b s := rfl
@[simp] theorem exec_wshl (d : BitVec 4) (a : BitVec 4) (b : BitVec 4) (s : State) :
    exec (.wshl d a b) s = execWshl d a b s := rfl
@[simp] theorem exec_wshr (d : BitVec 4) (a : BitVec 4) (b : BitVec 4) (s : State) :
    exec (.wshr d a b) s = execWshr d a b s := rfl
@[simp] theorem exec_wminu (d : BitVec 4) (a : BitVec 4) (b : BitVec 4) (s : State) :
    exec (.wminu d a b) s = execWminu d a b s := rfl
@[simp] theorem exec_wsltu (d : BitVec 4) (a : BitVec 4) (b : BitVec 4) (s : State) :
    exec (.wsltu d a b) s = execWsltu d a b s := rfl
@[simp] theorem exec_wld (d : BitVec 4) (a : BitVec 4) (y : BitVec 3) (o : BitVec 16) (s : State) :
    exec (.wld d a y o) s = execWld d a y o s := rfl
@[simp] theorem exec_wbeq (a : BitVec 4) (b : BitVec 4) (o : BitVec 17) (s : State) :
    exec (.wbeq a b o) s = execWbeq a b o s := rfl
@[simp] theorem exec_wbne (a : BitVec 4) (b : BitVec 4) (o : BitVec 17) (s : State) :
    exec (.wbne a b o) s = execWbne a b o s := rfl
@[simp] theorem exec_wbltu (a : BitVec 4) (b : BitVec 4) (o : BitVec 17) (s : State) :
    exec (.wbltu a b o) s = execWbltu a b o s := rfl
@[simp] theorem exec_wbgeu (a : BitVec 4) (b : BitVec 4) (o : BitVec 17) (s : State) :
    exec (.wbgeu a b o) s = execWbgeu a b o s := rfl
@[simp] theorem exec_wblts (a : BitVec 4) (b : BitVec 4) (o : BitVec 17) (s : State) :
    exec (.wblts a b o) s = execWblts a b o s := rfl
@[simp] theorem exec_wbges (a : BitVec 4) (b : BitVec 4) (o : BitVec 17) (s : State) :
    exec (.wbges a b o) s = execWbges a b o s := rfl
@[simp] theorem exec_wstrm (c : BitVec 4) (v : BitVec 4) (n : BitVec 4) (k0 : BitVec 1) (d : BitVec 1) (s : State) :
    exec (.wstrm c v n k0 d) s = execWstrm c v n k0 d s := rfl
@[simp] theorem exec_wskip (a : BitVec 4) (k0 : BitVec 1) (s : State) :
    exec (.wskip a k0) s = execWskip a k0 s := rfl
@[simp] theorem exec_wpeek (d : BitVec 4) (k0 : BitVec 1) (e : BitVec 2) (s : State) :
    exec (.wpeek d k0 e) s = execWpeek d k0 e s := rfl
@[simp] theorem exec_wtile (a : BitVec 4) (b : BitVec 4) (s : State) :
    exec (.wtile a b) s = execWtile a b s := rfl
@[simp] theorem exec_wscat (a : BitVec 4) (k0 : BitVec 1) (t : BitVec 1) (s : State) :
    exec (.wscat a k0 t) s = execWscat a k0 t s := rfl
@[simp] theorem exec_wmrgUn (d : BitVec 4) (a : BitVec 4) (s : State) :
    exec (.wmrgUn d a) s = execWmrgUn d a s := rfl
@[simp] theorem exec_wmrgIs (d : BitVec 4) (a : BitVec 4) (s : State) :
    exec (.wmrgIs d a) s = execWmrgIs d a s := rfl
@[simp] theorem exec_wemit (h : BitVec 4) (t : BitVec 1) (s : State) :
    exec (.wemit h t) s = execWemit h t s := rfl
@[simp] theorem exec_wsig (a : BitVec 4) (b : BitVec 4) (s : State) :
    exec (.wsig a b) s = execWsig a b s := rfl
@[simp] theorem exec_wend (s : State) :
    exec (.wend) s = execWend s := rfl
@[simp] theorem exec_powerOn (s : State) :
    exec (.powerOn) s = execPowerOn s := rfl
@[simp] theorem exec_packageReset (s : State) :
    exec (.packageReset) s = execPackageReset s := rfl
@[simp] theorem exec_bootStage (n : Nat) (s : State) :
    exec (.bootStage n) s = execBootStage n s := rfl
@[simp] theorem exec_registerWrite (r : RegWrite) (s : State) :
    exec (.registerWrite r) s = execRegisterWrite r s := rfl
@[simp] theorem exec_hostRequest (r : HostReq) (s : State) :
    exec (.hostRequest r) s = execHostRequest r s := rfl
@[simp] theorem exec_ucieLinkDown (m : Nat) (s : State) :
    exec (.ucieLinkDown m) s = execUcieLinkDown m s := rfl
@[simp] theorem exec_doorbell (n : Nat) (t : BitVec 32) (pts : Nat) (s : State) :
    exec (.doorbell n t pts) s = execDoorbell n t pts s := rfl
@[simp] theorem exec_launchAdmission (n : Nat) (s : State) :
    exec (.launchAdmission n) s = execLaunchAdmission n s := rfl
@[simp] theorem exec_queueControlWrite (n : Nat) (v : Word) (half : Half) (level : Nat) (s : State) :
    exec (.queueControlWrite n v half level) s = execQueueControlWrite n v half level s := rfl
@[simp] theorem exec_queueReset (n : Nat) (s : State) :
    exec (.queueReset n) s = execQueueReset n s := rfl
@[simp] theorem exec_ttSlotStart (k : Nat) (s : State) :
    exec (.ttSlotStart k) s = execTtSlotStart k s := rfl
@[simp] theorem exec_ttClockStep (t : Nat) (s : State) :
    exec (.ttClockStep t) s = execTtClockStep t s := rfl
@[simp] theorem exec_launchCompletion (l : Nat) (s : State) :
    exec (.launchCompletion l) s = execLaunchCompletion l s := rfl
@[simp] theorem exec_pressurePublish (c : Nat) (s : State) :
    exec (.pressurePublish c) s = execPressurePublish c s := rfl
@[simp] theorem exec_distanceRecompute (c : Nat) (s : State) :
    exec (.distanceRecompute c) s = execDistanceRecompute c s := rfl
@[simp] theorem exec_peerReport (x : Nat) (i0 : Nat) (d : Nat) (c : Nat) (s : State) :
    exec (.peerReport x i0 d c) s = execPeerReport x i0 d c s := rfl
@[simp] theorem exec_grctlWrite (x : Nat) (v : Word) (s : State) :
    exec (.grctlWrite x v) s = execGrctlWrite x v s := rfl
@[simp] theorem exec_hopAccept (h : Hop) (s : State) :
    exec (.hopAccept h) s = execHopAccept h s := rfl
@[simp] theorem exec_dispatchDecision (t : Nat) (s : State) :
    exec (.dispatchDecision t) s = execDispatchDecision t s := rfl
@[simp] theorem exec_handlerStart (x : Nat) (n : Nat) (s : State) :
    exec (.handlerStart x n) s = execHandlerStart x n s := rfl
@[simp] theorem exec_counterAddAtHome (r : AddReq) (s : State) :
    exec (.counterAddAtHome r) s = execCounterAddAtHome r s := rfl
@[simp] theorem exec_counterWaitAtHome (r : WaitReq) (s : State) :
    exec (.counterWaitAtHome r) s = execCounterWaitAtHome r s := rfl
@[simp] theorem exec_counterWaitPoll (r : WaitReq) (s : State) :
    exec (.counterWaitPoll r) s = execCounterWaitPoll r s := rfl
@[simp] theorem exec_spawnPoolRelease (t : Nat) (s : State) :
    exec (.spawnPoolRelease t) s = execSpawnPoolRelease t s := rfl
@[simp] theorem exec_retirement (q : Nat) (s : State) :
    exec (.retirement q) s = execRetirement q s := rfl
@[simp] theorem exec_messageDelivery (m : Msg) (s : State) :
    exec (.messageDelivery m) s = execMessageDelivery m s := rfl
@[simp] theorem exec_messageExpiry (m : Msg) (s : State) :
    exec (.messageExpiry m) s = execMessageExpiry m s := rfl
@[simp] theorem exec_cbPermit (q : Nat) (n : Nat) (s : State) :
    exec (.cbPermit q n) s = execCbPermit q n s := rfl
@[simp] theorem exec_cbFillComplete (k : CbKey) (n : Nat) (s : State) :
    exec (.cbFillComplete k n) s = execCbFillComplete k n s := rfl
@[simp] theorem exec_channelSlotArrival (k : CbKey) (x : ChanItem) (s : State) :
    exec (.channelSlotArrival k x) s = execChannelSlotArrival k x s := rfl
@[simp] theorem exec_channelCreditArrival (k : CbKey) (n : Nat) (s : State) :
    exec (.channelCreditArrival k n) s = execChannelCreditArrival k n s := rfl
@[simp] theorem exec_engineCapture (q : Nat) (n : Nat) (s : State) :
    exec (.engineCapture q n) s = execEngineCapture q n s := rfl
@[simp] theorem exec_engineResultPhase (q : Nat) (n : Nat) (s : State) :
    exec (.engineResultPhase q n) s = execEngineResultPhase q n s := rfl
@[simp] theorem exec_engineDone (q : Nat) (n : Nat) (s : State) :
    exec (.engineDone q n) s = execEngineDone q n s := rfl
@[simp] theorem exec_engineFault (q : Nat) (n : Nat) (cause : BitVec 8) (reason : BitVec 8) (tval : Word) (s : State) :
    exec (.engineFault q n cause reason tval) s = execEngineFault q n cause reason tval s := rfl
@[simp] theorem exec_trapDelivery (q : Nat) (t : Trap) (s : State) :
    exec (.trapDelivery q t) s = execTrapDelivery q t s := rfl
@[simp] theorem exec_walkContextGrant (c : Nat) (s : State) :
    exec (.walkContextGrant c) s = execWalkContextGrant c s := rfl
@[simp] theorem exec_combiningRequest (r : CombineReq) (s : State) :
    exec (.combiningRequest r) s = execCombiningRequest r s := rfl
@[simp] theorem exec_loadCompletion (q : Nat) (n : Nat) (s : State) :
    exec (.loadCompletion q n) s = execLoadCompletion q n s := rfl
@[simp] theorem exec_sliceRead (q : Nat) (n : Nat) (s : State) :
    exec (.sliceRead q n) s = execSliceRead q n s := rfl
@[simp] theorem exec_sliceWrite (w : WriteReq) (s : State) :
    exec (.sliceWrite w) s = execSliceWrite w s := rfl
@[simp] theorem exec_homeAtomic (r : AtomicReq) (s : State) :
    exec (.homeAtomic r) s = execHomeAtomic r s := rfl
@[simp] theorem exec_homeReduction (r : AtomicReq) (s : State) :
    exec (.homeReduction r) s = execHomeReduction r s := rfl
@[simp] theorem exec_nibbleStoreAtHome (r : NibbleReq) (s : State) :
    exec (.nibbleStoreAtHome r) s = execNibbleStoreAtHome r s := rfl
@[simp] theorem exec_summaryWiden (r : WidenReq) (s : State) :
    exec (.summaryWiden r) s = execSummaryWiden r s := rfl
@[simp] theorem exec_writeAck (q : Nat) (id : Nat) (wts : Nat) (s : State) :
    exec (.writeAck q id wts) s = execWriteAck q id wts s := rfl
@[simp] theorem exec_nakReceived (tag : Nat) (reason : Nat) (s : State) :
    exec (.nakReceived tag reason) s = execNakReceived tag reason s := rfl
@[simp] theorem exec_ackTimeout (tag : Nat) (s : State) :
    exec (.ackTimeout tag) s = execAckTimeout tag s := rfl
@[simp] theorem exec_dirtyDrainTimeout (id : Nat) (s : State) :
    exec (.dirtyDrainTimeout id) s = execDirtyDrainTimeout id s := rfl
@[simp] theorem exec_ptsTick (s : State) :
    exec (.ptsTick) s = execPtsTick s := rfl
@[simp] theorem exec_releaseComplete (r : Release) (s : State) :
    exec (.releaseComplete r) s = execReleaseComplete r s := rfl
@[simp] theorem exec_bankctlWrite (c : Nat) (b : Nat) (v : Word) (level : Nat) (ctx : Nat) (s : State) :
    exec (.bankctlWrite c b v level ctx) s = execBankctlWrite c b v level ctx s := rfl
@[simp] theorem exec_bankSwitchComplete (c : Nat) (b : Nat) (s : State) :
    exec (.bankSwitchComplete c b) s = execBankSwitchComplete c b s := rfl
@[simp] theorem exec_ccdrain (c : Nat) (s : State) :
    exec (.ccdrain c) s = execCcdrain c s := rfl
@[simp] theorem exec_escapeTimeout (n : Nat) (s : State) :
    exec (.escapeTimeout n) s = execEscapeTimeout n s := rfl
@[simp] theorem exec_flitReceive (p : Nat) (seq : Nat) (f : Flit) (s : State) :
    exec (.flitReceive p seq f) s = execFlitReceive p seq f s := rfl
@[simp] theorem exec_linkReplay (p : Nat) (n : Nat) (s : State) :
    exec (.linkReplay p n) s = execLinkReplay p n s := rfl
@[simp] theorem exec_portFailure (p : Nat) (cause : Nat) (s : State) :
    exec (.portFailure p cause) s = execPortFailure p cause s := rfl
@[simp] theorem exec_exclusionPacket (node : Nat) (id : Nat) (path : Nat) (dests : List Nat) (s : State) :
    exec (.exclusionPacket node id path dests) s = execExclusionPacket node id path dests s := rfl
@[simp] theorem exec_portUp (p : Nat) (node : BitVec 14) (port : BitVec 6) (s : State) :
    exec (.portUp p node port) s = execPortUp p node port s := rfl
@[simp] theorem exec_routingEntryWrite (t : Nat) (b : Nat) (n : Nat) (v : BitVec 32) (s : State) :
    exec (.routingEntryWrite t b n v) s = execRoutingEntryWrite t b n v s := rfl
@[simp] theorem exec_routingSwap (t : Nat) (s : State) :
    exec (.routingSwap t) s = execRoutingSwap t s := rfl
@[simp] theorem exec_routingSwapComplete (t : Nat) (s : State) :
    exec (.routingSwapComplete t) s = execRoutingSwapComplete t s := rfl
@[simp] theorem exec_rwinWrite (w : Nat) (i0 : Nat) (v : Word) (half : Half) (level : Nat) (ctx : Nat) (s : State) :
    exec (.rwinWrite w i0 v half level ctx) s = execRwinWrite w i0 v half level ctx s := rfl
@[simp] theorem exec_reducePacketAtPort (p : Nat × Nat) (f : Flit) (s : State) :
    exec (.reducePacketAtPort p f) s = execReducePacketAtPort p f s := rfl
@[simp] theorem exec_reductionHoldExpiry (p : Nat) (n : Nat) (s : State) :
    exec (.reductionHoldExpiry p n) s = execReductionHoldExpiry p n s := rfl
@[simp] theorem exec_proxyAtomic (d : Nat) (k : Nat) (s : State) :
    exec (.proxyAtomic d k) s = execProxyAtomic d k s := rfl
@[simp] theorem exec_managementPacket (p : Nat) (f : Flit) (s : State) :
    exec (.managementPacket p f) s = execManagementPacket p f s := rfl
@[simp] theorem exec_noticeResend (n : Nat) (s : State) :
    exec (.noticeResend n) s = execNoticeResend n s := rfl
@[simp] theorem exec_fnackWrite (n : BitVec 16) (s : State) :
    exec (.fnackWrite n) s = execFnackWrite n s := rfl
@[simp] theorem exec_cctlWrite (x : Nat) (v : Word) (half : Half) (level : Nat) (s : State) :
    exec (.cctlWrite x v half level) s = execCctlWrite x v half level s := rfl
@[simp] theorem exec_caldWrite (x : Nat) (i0 : Nat) (v : Word) (half : Half) (s : State) :
    exec (.caldWrite x i0 v half) s = execCaldWrite x i0 v half s := rfl
@[simp] theorem exec_translationWalk (c : Nat) (x : Nat) (va : BitVec 57) (s : State) :
    exec (.translationWalk c x va) s = execTranslationWalk c x va s := rfl
@[simp] theorem exec_trapMessageAtCollector (m : FaultMsg) (s : State) :
    exec (.trapMessageAtCollector m) s = execTrapMessageAtCollector m s := rfl
@[simp] theorem exec_fresRetry (d : Nat) (r : Nat) (x : Nat) (id : Nat) (s : State) :
    exec (.fresRetry d r x id) s = execFresRetry d r x id s := rfl
@[simp] theorem exec_fresFail (d : Nat) (r : Nat) (x : Nat) (id : Nat) (s : State) :
    exec (.fresFail d r x id) s = execFresFail d r x id s := rfl
@[simp] theorem exec_attestGo (x : Nat) (s : State) :
    exec (.attestGo x) s = execAttestGo x s := rfl
@[simp] theorem exec_attestReportDone (x : Nat) (s : State) :
    exec (.attestReportDone x) s = execAttestReportDone x s := rfl
@[simp] theorem exec_correctableError (e : ErrorSite) (s : State) :
    exec (.correctableError e) s = execCorrectableError e s := rfl
@[simp] theorem exec_uncorrectableError (e : ErrorSite) (s : State) :
    exec (.uncorrectableError e) s = execUncorrectableError e s := rfl
@[simp] theorem exec_scrubPass (key : Nat) (s : State) :
    exec (.scrubPass key) s = execScrubPass key s := rfl
@[simp] theorem exec_errheal (v : Word) (s : State) :
    exec (.errheal v) s = execErrheal v s := rfl
@[simp] theorem exec_fcmdFence (x : Nat) (i0 : Nat) (s : State) :
    exec (.fcmdFence x i0) s = execFcmdFence x i0 s := rfl
@[simp] theorem exec_fcmdRestart (x : Nat) (i0 : Nat) (s : State) :
    exec (.fcmdRestart x i0) s = execFcmdRestart x i0 s := rfl
@[simp] theorem exec_calderaFence (x : Nat) (i0 : Nat) (kind : Nat) (s : State) :
    exec (.calderaFence x i0 kind) s = execCalderaFence x i0 kind s := rfl
@[simp] theorem exec_clusterFence (c : Nat) (s : State) :
    exec (.clusterFence c) s = execClusterFence c s := rfl
@[simp] theorem exec_lockstepCompare (q : Nat) (s : State) :
    exec (.lockstepCompare q) s = execLockstepCompare q s := rfl
@[simp] theorem exec_shadowCommit (x : Nat) (s : State) :
    exec (.shadowCommit x) s = execShadowCommit x s := rfl
@[simp] theorem exec_thermalStep (d : Nat) (temp : Nat) (s : State) :
    exec (.thermalStep d temp) s = execThermalStep d temp s := rfl
@[simp] theorem exec_powerLimitWindow (pkg : Nat) (dies : List Nat) (s : State) :
    exec (.powerLimitWindow pkg dies) s = execPowerLimitWindow pkg dies s := rfl
@[simp] theorem exec_lifeUpdate (temps : List Nat) (volts : List Nat) (s : State) :
    exec (.lifeUpdate temps volts) s = execLifeUpdate temps volts s := rfl
@[simp] theorem exec_retentionEntry (k : Nat) (s : State) :
    exec (.retentionEntry k) s = execRetentionEntry k s := rfl
@[simp] theorem exec_illegalInstruction (w : InstrWord) (s : State) :
    exec (.illegalInstruction w) s = execIllegalInstruction w s := rfl
@[simp] theorem exec_walkerIllegalWord (w : InstrWord) (s : State) :
    exec (.walkerIllegalWord w) s = execWalkerIllegalWord w s := rfl
@[simp] theorem exec_ucieLinkUp (m : Nat) (s : State) :
    exec (.ucieLinkUp m) s = execUcieLinkUp m s := rfl
@[simp] theorem exec_thermalResetTrip (d : Nat) (s : State) :
    exec (.thermalResetTrip d) s = execThermalResetTrip d s := rfl
@[simp] theorem exec_servoLockChange (on : Bool) (s : State) :
    exec (.servoLockChange on) s = execServoLockChange on s := rfl

end Sys2Proof.Machine
end

