-- ==== Sys2Proof/Laws/Encoding.lean ====
section
/-! SUPPORT. Placing fields in a word and reading them back: fields that do not meet, over a constant that is
zero where they lie, each read as their value and leave every other bit the constant's. -/

namespace Sys2Proof.Laws.RoundTrip

/-- A field of an encoding: its width, its lowest bit and its value. -/
structure Piece where
  n : Nat
  lo : Nat
  x : BitVec n

/-- The number with every field of a list placed in it. -/
def fill (c : Nat) : List Piece → Nat
  | [] => c
  | p :: t => place p.x p.lo (fill c t)

/-- Whether bits lo to lo + n - 1 lie outside every field. -/
def apart (lo n : Nat) : List (Nat × Nat) → Bool
  | [] => true
  | p :: t => (decide (p.2 + p.1 ≤ lo) || decide (lo + n ≤ p.2)) && apart lo n t

/-- Whether the fields do not meet one another, lie within 32 bits and are zero in c. -/
def valid (c : Nat) : List (Nat × Nat) → Bool
  | [] => decide (c < 2 ^ 32)
  | p :: t => apart p.2 p.1 t && decide (bits c p.2 p.1 = 0) && decide (p.2 + p.1 ≤ 32) && valid c t

/-- Every field reads as its value. -/
def Each (w : Nat) : List Piece → Prop
  | [] => True
  | p :: t => field p.n w p.lo = p.x ∧ Each w t

/-- Widths and lowest bits. -/
def shape (ps : List Piece) : List (Nat × Nat) := ps.map fun p => (p.n, p.lo)

theorem cut {w lo n : Nat} (h : bits w lo n = 0) : ∃ hi low, w = hi * 2 ^ n * 2 ^ lo + low ∧ low < 2 ^ lo := by
  have h1 : w / 2 ^ lo = w / 2 ^ lo / 2 ^ n * 2 ^ n := by
    have := Nat.div_add_mod (w / 2 ^ lo) (2 ^ n)
    rw [bits] at h
    rw [h, Nat.add_zero, Nat.mul_comm] at this
    exact this.symm
  refine ⟨w / 2 ^ lo / 2 ^ n, w % 2 ^ lo, ?_, Nat.mod_lt _ (Nat.two_pow_pos _)⟩
  rw [← h1, Nat.mul_comm]
  exact (Nat.div_add_mod w (2 ^ lo)).symm

theorem div_place {n lo : Nat} (x : BitVec n) {w : Nat} :
    place x lo w / 2 ^ lo = w / 2 ^ lo + x.toNat := by
  rw [place, Nat.add_mul_div_right _ _ (Nat.two_pow_pos lo)]

theorem field_same {n lo : Nat} (x : BitVec n) {w : Nat} (h : bits w lo n = 0) : field n (place x lo w) lo = x := by
  apply BitVec.eq_of_toNat_eq
  rw [field, BitVec.toNat_ofNat, div_place x, Nat.add_mod]
  rw [bits] at h
  rw [h, Nat.zero_add, Nat.mod_mod, Nat.mod_eq_of_lt x.isLt]

theorem bits_other {n lo : Nat} (x : BitVec n) {w lo2 n2 : Nat} (h : bits w lo n = 0)
    (ha : lo + n ≤ lo2 ∨ lo2 + n2 ≤ lo) : bits (place x lo w) lo2 n2 = bits w lo2 n2 := by
  rcases ha with ha | ha
  · obtain ⟨hi, low, rfl, hl⟩ := cut h
    obtain ⟨k, rfl⟩ := Nat.exists_eq_add_of_le ha
    have e : ∀ y, y < 2 ^ n → (hi * 2 ^ n * 2 ^ lo + low + y * 2 ^ lo) / 2 ^ (lo + n + k) = hi / 2 ^ k := by
      intro y hy
      rw [show hi * 2 ^ n * 2 ^ lo + low + y * 2 ^ lo = low + (hi * 2 ^ n + y) * 2 ^ lo by rw [Nat.add_mul]; omega,
        Nat.pow_add, Nat.pow_add, Nat.mul_assoc, ← Nat.div_div_eq_div_mul,
        Nat.add_mul_div_right _ _ (Nat.two_pow_pos lo), Nat.div_eq_of_lt hl, Nat.zero_add,
        ← Nat.div_div_eq_div_mul, Nat.add_comm, Nat.add_mul_div_right _ _ (Nat.two_pow_pos n),
        Nat.div_eq_of_lt hy, Nat.zero_add]
    have e0 := e 0 (Nat.two_pow_pos n)
    rw [Nat.zero_mul, Nat.add_zero] at e0
    rw [bits, bits, place, e _ x.isLt, e0]
  · obtain ⟨k, rfl⟩ := Nat.exists_eq_add_of_le ha
    rw [bits, bits, place, Nat.pow_add, Nat.pow_add, show x.toNat * (2 ^ lo2 * 2 ^ n2 * 2 ^ k) =
      x.toNat * 2 ^ k * 2 ^ n2 * 2 ^ lo2 by ac_rfl, Nat.add_mul_div_right _ _ (Nat.two_pow_pos lo2),
      Nat.add_mul_mod_self_right]

theorem place_lt {n lo : Nat} (x : BitVec n) {w : Nat} (h : bits w lo n = 0) (hw : w < 2 ^ 32) (hn : lo + n ≤ 32) :
    place x lo w < 2 ^ 32 := by
  obtain ⟨k, hk⟩ := Nat.exists_eq_add_of_le hn
  have hb : bits (place x lo w) (lo + n) 0 = bits w (lo + n) 0 := bits_other x h (.inl (Nat.le_refl _))
  obtain ⟨hi, low, rfl, hl⟩ := cut h
  rw [place]
  have e32 : 2 ^ 32 = 2 ^ k * 2 ^ n * 2 ^ lo := by rw [hk, Nat.pow_add, Nat.pow_add]; ac_rfl
  rw [e32] at hw ⊢
  have h1 : hi < 2 ^ k := by
    refine Nat.lt_of_not_le fun hle => ?_
    have := Nat.mul_le_mul_right (2 ^ lo) (Nat.mul_le_mul_right (2 ^ n) hle)
    omega
  have h2 : hi * 2 ^ n + x.toNat + 1 ≤ 2 ^ k * 2 ^ n := by
    have := Nat.mul_le_mul_right (2 ^ n) (Nat.succ_le_of_lt h1)
    rw [Nat.succ_mul] at this
    have := x.isLt
    omega
  have h3 := Nat.mul_le_mul_right (2 ^ lo) h2
  rw [Nat.add_mul, Nat.add_mul, Nat.one_mul] at h3
  omega

/-- Outside the fields an encoding's bits are the constant's. -/
theorem fill_bits (c : Nat) (ps : List Piece) (hv : valid c (shape ps) = true) (lo n : Nat)
    (ha : apart lo n (shape ps) = true) : bits (fill c ps) lo n = bits c lo n := by
  induction ps generalizing lo n with
  | nil => rfl
  | cons p t ih =>
    simp only [shape, List.map_cons, valid, apart, Bool.and_eq_true, Bool.or_eq_true, decide_eq_true_eq] at hv ha
    rw [fill, bits_other p.x ((ih hv.2 _ _ hv.1.1.1).trans hv.1.1.2) ha.1, ih hv.2 _ _ ha.2]

/-- An encoding fits in a word. -/
theorem fill_lt (c : Nat) (ps : List Piece) (hv : valid c (shape ps) = true) : fill c ps < 2 ^ 32 := by
  induction ps with
  | nil => exact of_decide_eq_true hv
  | cons p t ih =>
    simp only [shape, List.map_cons, valid, Bool.and_eq_true, decide_eq_true_eq] at hv
    exact place_lt p.x ((fill_bits c t hv.2 _ _ hv.1.1.1).trans hv.1.1.2) (ih hv.2) hv.1.2

theorem each_place {n lo : Nat} (x : BitVec n) (w : Nat) (h : bits w lo n = 0) (t : List Piece)
    (ha : apart lo n (shape t) = true) (he : Each w t) : Each (place x lo w) t := by
  induction t with
  | nil => trivial
  | cons p t ih =>
    simp only [shape, List.map_cons, apart, Bool.and_eq_true, Bool.or_eq_true, decide_eq_true_eq] at ha
    refine ⟨BitVec.eq_of_toNat_eq ?_, ih ha.2 he.2⟩
    have h1 := congrArg BitVec.toNat he.1
    have h2 := bits_other x (lo2 := p.lo) (n2 := p.n) h (by omega)
    simp only [field, BitVec.toNat_ofNat] at h1 ⊢
    exact h2.trans h1

/-- Every field of an encoding reads as its value. -/
theorem fill_fields (c : Nat) (ps : List Piece) (hv : valid c (shape ps) = true) : Each (fill c ps) ps := by
  induction ps with
  | nil => trivial
  | cons p t ih =>
    simp only [shape, List.map_cons, valid, Bool.and_eq_true, decide_eq_true_eq] at hv
    have h0 := (fill_bits c t hv.2 _ _ hv.1.1.1).trans hv.1.1.2
    exact ⟨field_same p.x h0, each_place p.x _ h0 t hv.1.1.1 (ih hv.2)⟩

end Sys2Proof.Laws.RoundTrip
end

