-- ==== Sys2Proof/Laws/Issue.lean ====
section
/-! SUPPORT. What the issue of a core instruction can do, case by case (R73, R74, R97, R284), and what an instruction
that only changes its slot does. -/

namespace Sys2Proof.Machine

/-- A ready instruction has its own effect. -/
theorem issue_ready {i : Instr} {q : Nat} {s : State} (h : Ready i q s) (body : Nat → State → Result) :
    issue i s body = body q s := by
  obtain ⟨h1, h2, h3, h4, h5, h6, h7⟩ := h
  simp [issue, h1, h2, h3, h4, Nat.not_lt.mpr h5, h6, h7]

/-- A slot with an access outstanding that may yet trap at itself issues nothing (R73, R285). -/
theorem issue_blocked {i : Instr} {q : Nat} {s : State} (body : Nat → State → Result) (hc : s.cur = some q)
    (hr : (s.slot q).state = .running) (hb : (s.slot q).blocked = true) : issue i s body = .next s := by
  simp [issue, hc, hr, hb]

/-- A word that the slot does not admit traps E_ILL (R74). -/
theorem issue_illegal {i : Instr} {q : Nat} {s : State} (body : Nat → State → Result) (hc : s.cur = some q)
    (hr : (s.slot q).state = .running) (hb : (s.slot q).blocked = false) (ha : (s.slot q).admits q i = false) :
    issue i s body = .next (s.trapOpen q i eIll 0) := by
  simp [issue, hc, hr, hb, ha]

/-- A word above the slot's level traps E_PRIV (R74). -/
theorem issue_privileged {i : Instr} {q : Nat} {s : State} (body : Nat → State → Result) (hc : s.cur = some q)
    (hr : (s.slot q).state = .running) (hb : (s.slot q).blocked = false) (ha : (s.slot q).admits q i = true)
    (hl : (s.slot q).level.toNat < i.minLevel) : issue i s body = .next (s.trapOpen q i ePriv 0) := by
  simp [issue, hc, hr, hb, ha, hl]

/-- A word that names an awaited register waits (R97, R148). -/
theorem issue_interlocked {i : Instr} {q : Nat} {s : State} (body : Nat → State → Result) (hc : s.cur = some q)
    (hr : (s.slot q).state = .running) (hb : (s.slot q).blocked = false) (ha : (s.slot q).admits q i = true)
    (hl : i.minLevel ≤ (s.slot q).level.toNat) (hw : (s.slot q).interlocked i.operands = true) :
    issue i s body = .next s := by
  simp [issue, hc, hr, hb, ha, Nat.not_lt.mpr hl, hw]

/-- A word that reads a poisoned register consumes it (R284). -/
theorem issue_poisoned {i : Instr} {q : Nat} {s : State} (body : Nat → State → Result) (hc : s.cur = some q)
    (hr : (s.slot q).state = .running) (hb : (s.slot q).blocked = false) (ha : (s.slot q).admits q i = true)
    (hl : i.minLevel ≤ (s.slot q).level.toNat) (hw : (s.slot q).interlocked i.operands = false)
    (hp : (s.slot q).readsPoison i = true) :
    issue i s body = .next (s.openWord.1.consume q i s.openWord.2) := by
  simp [issue, hc, hr, hb, ha, Nat.not_lt.mpr hl, hw, hp]

/-- Everything that an issue can do. -/
theorem issue_cases {i : Instr} {s : State} {body : Nat → State → Result} {t : State}
    (h : issue i s body = .next t) :
    ∃ q, s.cur = some q ∧ (s.slot q).state = .running ∧
      (((s.slot q).blocked = true ∧ t = s) ∨
        ((s.slot q).admits q i = false ∧ t = s.trapOpen q i eIll 0) ∨
        ((s.slot q).level.toNat < i.minLevel ∧ t = s.trapOpen q i ePriv 0) ∨
        ((s.slot q).interlocked i.operands = true ∧ t = s) ∨
        ((s.slot q).readsPoison i = true ∧ t = s.openWord.1.consume q i s.openWord.2) ∨
        (Ready i q s ∧ body q s = .next t)) := by
  unfold issue at h
  split at h
  · cases h
  next q hq =>
  simp only at h
  split at h
  · cases h
  next hr =>
  refine ⟨q, hq, by simpa using hr, ?_⟩
  split at h
  · next hb => cases h; exact .inl ⟨hb, rfl⟩
  next hb =>
  split at h
  · next ha => cases h; exact .inr (.inl ⟨by simpa using ha, rfl⟩)
  next ha =>
  split at h
  · next hl => cases h; exact .inr (.inr (.inl ⟨hl, rfl⟩))
  next hl =>
  split at h
  · next hw => cases h; exact .inr (.inr (.inr (.inl ⟨hw, rfl⟩)))
  next hw =>
  split at h
  · next hp => cases h; exact .inr (.inr (.inr (.inr (.inl ⟨hp, rfl⟩))))
  next hp =>
  exact .inr (.inr (.inr (.inr (.inr ⟨⟨hq, by simpa using hr, by simpa using hb, by simpa using ha, Nat.not_lt.mp hl,
    by simpa using hw, by simpa using hp⟩, h⟩))))

/-- An instruction that only changes its slot. -/
theorem complete_eq (q : Nat) (s : State) (f : Slot → Slot) :
    complete q s f = .next (s.modSlot q fun x => (f x).advance) := rfl

end Sys2Proof.Machine
end

