-- ==== Sys2Proof/Laws/Lanes.lean ====
section
/-! SUPPORT. Lanes of a vector register (R168): what a register built from lanes reads as, lane by lane. -/

namespace Sys2Proof.Machine

/-- The number that a list of lanes packs. -/
def packed (w : Nat) : List Nat → Nat
  | [] => 0
  | x :: t => x % 2 ^ w + packed w t * 2 ^ w

theorem packed_eq (w : Nat) (l : List Nat) : l.foldr (fun x acc => x % 2 ^ w + acc * 2 ^ w) 0 = packed w l := by
  induction l with
  | nil => rfl
  | cons x t ih => rw [List.foldr_cons, ih, packed]

/-- Element k of a packed list. -/
theorem packed_elem (w : Nat) (l : List Nat) (k : Nat) : packed w l / 2 ^ (w * k) % 2 ^ w = l.getD k 0 % 2 ^ w := by
  induction l generalizing k with
  | nil => simp [packed]
  | cons x t ih =>
    cases k with
    | zero => simp [packed]
    | succ k =>
      have h1 : (x % 2 ^ w + packed w t * 2 ^ w) / 2 ^ w = packed w t := by
        rw [Nat.add_mul_div_right _ _ (Nat.two_pow_pos w), Nat.div_eq_of_lt (Nat.mod_lt _ (Nat.two_pow_pos w)), Nat.zero_add]
      rw [packed, show w * (k + 1) = w + w * k by rw [Nat.mul_add, Nat.mul_one, Nat.add_comm], Nat.pow_add,
        ← Nat.div_div_eq_div_mul, h1, ih]
      simp

/-- Lane k of a register built from lanes. -/
theorem ofLanes_lane (w : Nat) (l : List Nat) (k : Nat) (h : w * (k + 1) ≤ 1024) :
    (ofLanes w l).toNat / 2 ^ (w * k) % 2 ^ w = l.getD k 0 % 2 ^ w := by
  rw [ofLanes, BitVec.toNat_ofNat, packed_eq, ← packed_elem]
  obtain ⟨m, hm⟩ := Nat.exists_eq_add_of_le h
  rw [hm, show w * (k + 1) + m = w * k + (w + m) by rw [Nat.mul_add]; omega, Nat.pow_add]
  rw [Nat.mod_mul_right_div_self, Nat.pow_add, Nat.mod_mul_right_mod]

/-- The lanes of a register, one by one. -/
theorem lanes_getD (w : Nat) (v : Line) (k : Nat) (h : k < 1024 / w) :
    (lanes w v).getD k 0 = v.toNat / 2 ^ (w * k) % 2 ^ w := by
  simp [lanes, List.getD, h]

@[simp] theorem lanes_length (w : Nat) (v : Line) : (lanes w v).length = 1024 / w := by simp [lanes]

end Sys2Proof.Machine
end

