-- ==== Sys2Proof/Laws/PerInstr.lean ====
section
/-! SUPPORT. Decoding is the inverse of encoding, one lemma per constructor: every operand at every value
that the encoding admits comes back, so no bit of a field is dropped (R83 to R95, R235). -/

namespace Sys2Proof.Laws.RoundTrip

/-- The decoder of the instruction's processor reads the instruction back from its word, where the word is well
formed. A step that is no word has none. -/
def Statement (i : Instr) : Prop :=
  i.wellFormed = true → ∀ w, encode i = some w → (if i.isWalker then decodeWalker w else decodeWord w) = .ok i

theorem core_of (i : Instr) (c : Nat) (ps : List Piece) (sh : List (Nat × Nat)) (hv : valid c sh = true) (hs : shape ps = sh)
    (he : encodeNat i = some (fill c ps)) (hi : i.isWalker = false)
    (hd : ∀ n, Each n ps → (∀ lo k, apart lo k sh = true → bits n lo k = bits c lo k) → decodeFields n = .ok i) :
    Statement i := by
  subst hs
  intro hw w hs
  rw [encode, he] at hs
  obtain rfl : BitVec.ofNat 32 (fill c ps) = w := by simpa using hs
  have ht : (BitVec.ofNat 32 (fill c ps)).toNat = fill c ps := by
    rw [BitVec.toNat_ofNat]; exact Nat.mod_eq_of_lt (fill_lt c ps hv)
  simp [hi, decodeWord, ht, hd _ (fill_fields c ps hv) (fill_bits c ps hv), hw]

theorem walker_of (i : Instr) (c : Nat) (ps : List Piece) (sh : List (Nat × Nat)) (hv : valid c sh = true) (hs : shape ps = sh)
    (he : encodeNat i = some (fill c ps)) (hi : i.isWalker = true)
    (hd : ∀ n, Each n ps → (∀ lo k, apart lo k sh = true → bits n lo k = bits c lo k) →
      decodeWalkerFields n = .ok i) :
    Statement i := by
  subst hs
  intro hw w hs
  rw [encode, he] at hs
  obtain rfl : BitVec.ofNat 32 (fill c ps) = w := by simpa using hs
  have ht : (BitVec.ofNat 32 (fill c ps)).toNat = fill c ps := by
    rw [BitVec.toNat_ofNat]; exact Nat.mod_eq_of_lt (fill_lt c ps hv)
  simp [hi, decodeWalker, ht, hd _ (fill_fields c ps hv) (fill_bits c ps hv), hw]

theorem fields_1 {n : Nat} (h : bits n 26 6 = 1) : decodeFields n = decodeInteger n := by
  unfold decodeFields; rw [h]; rfl

theorem fields_2 {n : Nat} (h : bits n 26 6 = 2) : decodeFields n = decodeAddi n := by
  unfold decodeFields; rw [h]; rfl

theorem fields_3 {n : Nat} (h : bits n 26 6 = 3) : decodeFields n = decodeAndi n := by
  unfold decodeFields; rw [h]; rfl

theorem fields_4 {n : Nat} (h : bits n 26 6 = 4) : decodeFields n = decodeOri n := by
  unfold decodeFields; rw [h]; rfl

theorem fields_5 {n : Nat} (h : bits n 26 6 = 5) : decodeFields n = decodeXori n := by
  unfold decodeFields; rw [h]; rfl

theorem fields_6 {n : Nat} (h : bits n 26 6 = 6) : decodeFields n = decodeShift n := by
  unfold decodeFields; rw [h]; rfl

theorem fields_7 {n : Nat} (h : bits n 26 6 = 7) : decodeFields n = decodeSlti n := by
  unfold decodeFields; rw [h]; rfl

theorem fields_8 {n : Nat} (h : bits n 26 6 = 8) : decodeFields n = decodeLi n := by
  unfold decodeFields; rw [h]; rfl

theorem fields_9 {n : Nat} (h : bits n 26 6 = 9) : decodeFields n = decodeLsi n := by
  unfold decodeFields; rw [h]; rfl

theorem fields_10 {n : Nat} (h : bits n 26 6 = 10) : decodeFields n = decodePointer n := by
  unfold decodeFields; rw [h]; rfl

theorem fields_11 {n : Nat} (h : bits n 26 6 = 11) : decodeFields n = decodeControl n := by
  unfold decodeFields; rw [h]; rfl

theorem fields_12 {n : Nat} (h : bits n 26 6 = 12) : decodeFields n = decodeFp n := by
  unfold decodeFields; rw [h]; rfl

theorem fields_16 {n : Nat} (h : bits n 26 6 = 16) : decodeFields n = decodeBeq n := by
  unfold decodeFields; rw [h]; rfl

theorem fields_17 {n : Nat} (h : bits n 26 6 = 17) : decodeFields n = decodeBne n := by
  unfold decodeFields; rw [h]; rfl

theorem fields_18 {n : Nat} (h : bits n 26 6 = 18) : decodeFields n = decodeBltS n := by
  unfold decodeFields; rw [h]; rfl

theorem fields_19 {n : Nat} (h : bits n 26 6 = 19) : decodeFields n = decodeBgeS n := by
  unfold decodeFields; rw [h]; rfl

theorem fields_20 {n : Nat} (h : bits n 26 6 = 20) : decodeFields n = decodeBltZ n := by
  unfold decodeFields; rw [h]; rfl

theorem fields_21 {n : Nat} (h : bits n 26 6 = 21) : decodeFields n = decodeBgeZ n := by
  unfold decodeFields; rw [h]; rfl

theorem fields_22 {n : Nat} (h : bits n 26 6 = 22) : decodeFields n = decodeJal n := by
  unfold decodeFields; rw [h]; rfl

theorem fields_23 {n : Nat} (h : bits n 26 6 = 23) : decodeFields n = decodeJump n := by
  unfold decodeFields; rw [h]; rfl

theorem fields_24 {n : Nat} (h : bits n 26 6 = 24) : decodeFields n = decodeLoad n := by
  unfold decodeFields; rw [h]; rfl

theorem fields_25 {n : Nat} (h : bits n 26 6 = 25) : decodeFields n = decodeStore n := by
  unfold decodeFields; rw [h]; rfl

theorem fields_26 {n : Nat} (h : bits n 26 6 = 26) : decodeFields n = decodePointerMem n := by
  unfold decodeFields; rw [h]; rfl

theorem fields_27 {n : Nat} (h : bits n 26 6 = 27) : decodeFields n = decodeVectorMem n := by
  unfold decodeFields; rw [h]; rfl

theorem fields_28 {n : Nat} (h : bits n 26 6 = 28) : decodeFields n = decodeOrder n := by
  unfold decodeFields; rw [h]; rfl

theorem fields_29 {n : Nat} (h : bits n 26 6 = 29) : decodeFields n = decodeTaint n := by
  unfold decodeFields; rw [h]; rfl

theorem fields_30 {n : Nat} (h : bits n 26 6 = 30) : decodeFields n = decodeAtomic n := by
  unfold decodeFields; rw [h]; rfl

theorem fields_31 {n : Nat} (h : bits n 26 6 = 31) : decodeFields n = decodeSubByte n := by
  unfold decodeFields; rw [h]; rfl

theorem fields_32 {n : Nat} (h : bits n 26 6 = 32) : decodeFields n = decodeVecArith n := by
  unfold decodeFields; rw [h]; rfl

theorem fields_33 {n : Nat} (h : bits n 26 6 = 33) : decodeFields n = decodeVecCompare n := by
  unfold decodeFields; rw [h]; rfl

theorem fields_34 {n : Nat} (h : bits n 26 6 = 34) : decodeFields n = decodeVecReduce n := by
  unfold decodeFields; rw [h]; rfl

theorem fields_35 {n : Nat} (h : bits n 26 6 = 35) : decodeFields n = decodeVecLane n := by
  unfold decodeFields; rw [h]; rfl

theorem fields_36 {n : Nat} (h : bits n 26 6 = 36) : decodeFields n = decodeVecConvert n := by
  unfold decodeFields; rw [h]; rfl

theorem fields_44 {n : Nat} (h : bits n 26 6 = 44) : decodeFields n = decodeCommand n := by
  unfold decodeFields; rw [h]; rfl

theorem fields_45 {n : Nat} (h : bits n 26 6 = 45) : decodeFields n = decodeEset n := by
  unfold decodeFields; rw [h]; rfl

theorem fields_46 {n : Nat} (h : bits n 26 6 = 46) : decodeFields n = decodeEget n := by
  unfold decodeFields; rw [h]; rfl

theorem fields_52 {n : Nat} (h : bits n 26 6 = 52) : decodeFields n = decodeTask n := by
  unfold decodeFields; rw [h]; rfl

theorem fields_53 {n : Nat} (h : bits n 26 6 = 53) : decodeFields n = decodeCounter n := by
  unfold decodeFields; rw [h]; rfl

theorem fields_54 {n : Nat} (h : bits n 26 6 = 54) : decodeFields n = decodeCb n := by
  unfold decodeFields; rw [h]; rfl

theorem fields_55 {n : Nat} (h : bits n 26 6 = 55) : decodeFields n = decodeMarker n := by
  unfold decodeFields; rw [h]; rfl

theorem fields_56 {n : Nat} (h : bits n 26 6 = 56) : decodeFields n = decodeSystem n := by
  unfold decodeFields; rw [h]; rfl

theorem fields_63 {n : Nat} (h : bits n 26 6 = 63) : decodeFields n = decodeHint n := by
  unfold decodeFields; rw [h]; rfl

theorem walk_1 {n : Nat} (h : bits n 28 4 = 1) : decodeWalkerFields n = (.ok (.wli (field 4 n 24) (field 24 n 0))) := by
  unfold decodeWalkerFields; rw [h]; rfl

theorem walk_2 {n : Nat} (h : bits n 28 4 = 2) : decodeWalkerFields n = (.ok (.waddi (field 4 n 24) (field 4 n 20) (field 20 n 0))) := by
  unfold decodeWalkerFields; rw [h]; rfl

theorem walk_3 {n : Nat} (h : bits n 28 4 = 3) : decodeWalkerFields n = (match bits n 0 4 with
    | 0 => if bits n 4 12 = 0 then .ok (.wadd (field 4 n 24) (field 4 n 20) (field 4 n 16)) else .error .unusedField
    | 1 => if bits n 4 12 = 0 then .ok (.wsub (field 4 n 24) (field 4 n 20) (field 4 n 16)) else .error .unusedField
    | 2 => if bits n 4 12 = 0 then .ok (.wmul (field 4 n 24) (field 4 n 20) (field 4 n 16)) else .error .unusedField
    | 3 => if bits n 4 12 = 0 then .ok (.wand (field 4 n 24) (field 4 n 20) (field 4 n 16)) else .error .unusedField
    | 4 => if bits n 4 12 = 0 then .ok (.wor (field 4 n 24) (field 4 n 20) (field 4 n 16)) else .error .unusedField
    | 5 => if bits n 4 12 = 0 then .ok (.wshl (field 4 n 24) (field 4 n 20) (field 4 n 16)) else .error .unusedField
    | 6 => if bits n 4 12 = 0 then .ok (.wshr (field 4 n 24) (field 4 n 20) (field 4 n 16)) else .error .unusedField
    | 7 => if bits n 4 12 = 0 then .ok (.wminu (field 4 n 24) (field 4 n 20) (field 4 n 16)) else .error .unusedField
    | 8 => if bits n 4 12 = 0 then .ok (.wsltu (field 4 n 24) (field 4 n 20) (field 4 n 16)) else .error .unusedField
    | _ => .error .unassignedFunction) := by
  unfold decodeWalkerFields; rw [h]; rfl

theorem walk_4 {n : Nat} (h : bits n 28 4 = 4) : decodeWalkerFields n = (if bits n 19 1 = 1 then .ok (.wld (field 4 n 24) (field 4 n 20) (field 3 n 16) (field 16 n 0)) else .error .unusedField) := by
  unfold decodeWalkerFields; rw [h]; rfl

theorem walk_5 {n : Nat} (h : bits n 28 4 = 5) : decodeWalkerFields n = (match bits n 17 3 with
    | 0 => .ok (.wbeq (field 4 n 24) (field 4 n 20) (field 17 n 0))
    | 1 => .ok (.wbne (field 4 n 24) (field 4 n 20) (field 17 n 0))
    | 2 => .ok (.wbltu (field 4 n 24) (field 4 n 20) (field 17 n 0))
    | 3 => .ok (.wbgeu (field 4 n 24) (field 4 n 20) (field 17 n 0))
    | 4 => .ok (.wblts (field 4 n 24) (field 4 n 20) (field 17 n 0))
    | 5 => .ok (.wbges (field 4 n 24) (field 4 n 20) (field 17 n 0))
    | _ => .error .unassignedFunction) := by
  unfold decodeWalkerFields; rw [h]; rfl

theorem walk_6 {n : Nat} (h : bits n 28 4 = 6) : decodeWalkerFields n = (if bits n 0 14 = 0 then .ok (.wstrm (field 4 n 24) (field 4 n 20) (field 4 n 16) (field 1 n 15) (field 1 n 14)) else .error .unusedField) := by
  unfold decodeWalkerFields; rw [h]; rfl

theorem walk_7 {n : Nat} (h : bits n 28 4 = 7) : decodeWalkerFields n = (if bits n 0 15 = 0 ∧ bits n 16 4 = 0 ∧ bits n 24 4 = 0 then .ok (.wskip (field 4 n 20) (field 1 n 15)) else .error .unusedField) := by
  unfold decodeWalkerFields; rw [h]; rfl

theorem walk_8 {n : Nat} (h : bits n 28 4 = 8) : decodeWalkerFields n = (if bits n 0 13 = 0 ∧ bits n 16 8 = 0 then .ok (.wpeek (field 4 n 24) (field 1 n 15) (field 2 n 13)) else .error .unusedField) := by
  unfold decodeWalkerFields; rw [h]; rfl

theorem walk_9 {n : Nat} (h : bits n 28 4 = 9) : decodeWalkerFields n = (if bits n 0 16 = 0 ∧ bits n 24 4 = 0 then .ok (.wtile (field 4 n 20) (field 4 n 16)) else .error .unusedField) := by
  unfold decodeWalkerFields; rw [h]; rfl

theorem walk_10 {n : Nat} (h : bits n 28 4 = 10) : decodeWalkerFields n = (if bits n 0 14 = 0 ∧ bits n 16 4 = 0 ∧ bits n 24 4 = 0 then .ok (.wscat (field 4 n 20) (field 1 n 15) (field 1 n 14)) else .error .unusedField) := by
  unfold decodeWalkerFields; rw [h]; rfl

theorem walk_11 {n : Nat} (h : bits n 28 4 = 11) : decodeWalkerFields n = (match bits n 14 1 with
    | 0 => if bits n 0 14 = 0 ∧ bits n 15 5 = 0 then .ok (.wmrgUn (field 4 n 24) (field 4 n 20)) else .error .unusedField
    | 1 => if bits n 0 14 = 0 ∧ bits n 15 5 = 0 then .ok (.wmrgIs (field 4 n 24) (field 4 n 20)) else .error .unusedField
    | _ => .error .unassignedFunction) := by
  unfold decodeWalkerFields; rw [h]; rfl

theorem walk_12 {n : Nat} (h : bits n 28 4 = 12) : decodeWalkerFields n = (if bits n 0 14 = 0 ∧ bits n 15 1 = 0 ∧ bits n 20 8 = 0 then .ok (.wemit (field 4 n 16) (field 1 n 14)) else .error .unusedField) := by
  unfold decodeWalkerFields; rw [h]; rfl

theorem walk_13 {n : Nat} (h : bits n 28 4 = 13) : decodeWalkerFields n = (if bits n 0 16 = 0 ∧ bits n 24 4 = 0 then .ok (.wsig (field 4 n 20) (field 4 n 16)) else .error .unusedField) := by
  unfold decodeWalkerFields; rw [h]; rfl

theorem walk_14 {n : Nat} (h : bits n 28 4 = 14) : decodeWalkerFields n = (if bits n 0 28 = 0 then .ok .wend else .error .unusedField) := by
  unfold decodeWalkerFields; rw [h]; rfl

theorem add (d : BitVec 5) (a : BitVec 5) (b : BitVec 5) : Statement (.add d a b) := by
  refine core_of _ 0x04000000 [⟨5, 21, d⟩, ⟨5, 16, a⟩, ⟨5, 11, b⟩]
    [(5, 21), (5, 16), (5, 11)] (by decide) rfl rfl rfl fun z ⟨fd, fa, fb, _⟩ hb => ?_
  rw [fields_1 (hb 26 6 (by decide))]
  unfold decodeInteger
  rw [show bits z 0 6 = 0 from hb 0 6 (by decide)]
  rw [show field 5 z 21 = d from fd, show field 5 z 16 = a from fa, show field 5 z 11 = b from fb]
  exact if_pos (hb 6 5 (by decide))

theorem sub (d : BitVec 5) (a : BitVec 5) (b : BitVec 5) : Statement (.sub d a b) := by
  refine core_of _ 0x04000001 [⟨5, 21, d⟩, ⟨5, 16, a⟩, ⟨5, 11, b⟩]
    [(5, 21), (5, 16), (5, 11)] (by decide) rfl rfl rfl fun z ⟨fd, fa, fb, _⟩ hb => ?_
  rw [fields_1 (hb 26 6 (by decide))]
  unfold decodeInteger
  rw [show bits z 0 6 = 1 from hb 0 6 (by decide)]
  rw [show field 5 z 21 = d from fd, show field 5 z 16 = a from fa, show field 5 z 11 = b from fb]
  exact if_pos (hb 6 5 (by decide))

theorem mul (d : BitVec 5) (a : BitVec 5) (b : BitVec 5) : Statement (.mul d a b) := by
  refine core_of _ 0x04000002 [⟨5, 21, d⟩, ⟨5, 16, a⟩, ⟨5, 11, b⟩]
    [(5, 21), (5, 16), (5, 11)] (by decide) rfl rfl rfl fun z ⟨fd, fa, fb, _⟩ hb => ?_
  rw [fields_1 (hb 26 6 (by decide))]
  unfold decodeInteger
  rw [show bits z 0 6 = 2 from hb 0 6 (by decide)]
  rw [show field 5 z 21 = d from fd, show field 5 z 16 = a from fa, show field 5 z 11 = b from fb]
  exact if_pos (hb 6 5 (by decide))

theorem mulhS64 (d : BitVec 5) (a : BitVec 5) (b : BitVec 5) : Statement (.mulhS64 d a b) := by
  refine core_of _ 0x04000003 [⟨5, 21, d⟩, ⟨5, 16, a⟩, ⟨5, 11, b⟩]
    [(5, 21), (5, 16), (5, 11)] (by decide) rfl rfl rfl fun z ⟨fd, fa, fb, _⟩ hb => ?_
  rw [fields_1 (hb 26 6 (by decide))]
  unfold decodeInteger
  rw [show bits z 0 6 = 3 from hb 0 6 (by decide)]
  rw [show field 5 z 21 = d from fd, show field 5 z 16 = a from fa, show field 5 z 11 = b from fb]
  exact if_pos (hb 6 5 (by decide))

theorem mulhZ64 (d : BitVec 5) (a : BitVec 5) (b : BitVec 5) : Statement (.mulhZ64 d a b) := by
  refine core_of _ 0x04000004 [⟨5, 21, d⟩, ⟨5, 16, a⟩, ⟨5, 11, b⟩]
    [(5, 21), (5, 16), (5, 11)] (by decide) rfl rfl rfl fun z ⟨fd, fa, fb, _⟩ hb => ?_
  rw [fields_1 (hb 26 6 (by decide))]
  unfold decodeInteger
  rw [show bits z 0 6 = 4 from hb 0 6 (by decide)]
  rw [show field 5 z 21 = d from fd, show field 5 z 16 = a from fa, show field 5 z 11 = b from fb]
  exact if_pos (hb 6 5 (by decide))

theorem divS64 (d : BitVec 5) (a : BitVec 5) (b : BitVec 5) : Statement (.divS64 d a b) := by
  refine core_of _ 0x04000005 [⟨5, 21, d⟩, ⟨5, 16, a⟩, ⟨5, 11, b⟩]
    [(5, 21), (5, 16), (5, 11)] (by decide) rfl rfl rfl fun z ⟨fd, fa, fb, _⟩ hb => ?_
  rw [fields_1 (hb 26 6 (by decide))]
  unfold decodeInteger
  rw [show bits z 0 6 = 5 from hb 0 6 (by decide)]
  rw [show field 5 z 21 = d from fd, show field 5 z 16 = a from fa, show field 5 z 11 = b from fb]
  exact if_pos (hb 6 5 (by decide))

theorem divZ64 (d : BitVec 5) (a : BitVec 5) (b : BitVec 5) : Statement (.divZ64 d a b) := by
  refine core_of _ 0x04000006 [⟨5, 21, d⟩, ⟨5, 16, a⟩, ⟨5, 11, b⟩]
    [(5, 21), (5, 16), (5, 11)] (by decide) rfl rfl rfl fun z ⟨fd, fa, fb, _⟩ hb => ?_
  rw [fields_1 (hb 26 6 (by decide))]
  unfold decodeInteger
  rw [show bits z 0 6 = 6 from hb 0 6 (by decide)]
  rw [show field 5 z 21 = d from fd, show field 5 z 16 = a from fa, show field 5 z 11 = b from fb]
  exact if_pos (hb 6 5 (by decide))

theorem remS64 (d : BitVec 5) (a : BitVec 5) (b : BitVec 5) : Statement (.remS64 d a b) := by
  refine core_of _ 0x04000007 [⟨5, 21, d⟩, ⟨5, 16, a⟩, ⟨5, 11, b⟩]
    [(5, 21), (5, 16), (5, 11)] (by decide) rfl rfl rfl fun z ⟨fd, fa, fb, _⟩ hb => ?_
  rw [fields_1 (hb 26 6 (by decide))]
  unfold decodeInteger
  rw [show bits z 0 6 = 7 from hb 0 6 (by decide)]
  rw [show field 5 z 21 = d from fd, show field 5 z 16 = a from fa, show field 5 z 11 = b from fb]
  exact if_pos (hb 6 5 (by decide))

theorem remZ64 (d : BitVec 5) (a : BitVec 5) (b : BitVec 5) : Statement (.remZ64 d a b) := by
  refine core_of _ 0x04000008 [⟨5, 21, d⟩, ⟨5, 16, a⟩, ⟨5, 11, b⟩]
    [(5, 21), (5, 16), (5, 11)] (by decide) rfl rfl rfl fun z ⟨fd, fa, fb, _⟩ hb => ?_
  rw [fields_1 (hb 26 6 (by decide))]
  unfold decodeInteger
  rw [show bits z 0 6 = 8 from hb 0 6 (by decide)]
  rw [show field 5 z 21 = d from fd, show field 5 z 16 = a from fa, show field 5 z 11 = b from fb]
  exact if_pos (hb 6 5 (by decide))

theorem and (d : BitVec 5) (a : BitVec 5) (b : BitVec 5) : Statement (.and d a b) := by
  refine core_of _ 0x04000009 [⟨5, 21, d⟩, ⟨5, 16, a⟩, ⟨5, 11, b⟩]
    [(5, 21), (5, 16), (5, 11)] (by decide) rfl rfl rfl fun z ⟨fd, fa, fb, _⟩ hb => ?_
  rw [fields_1 (hb 26 6 (by decide))]
  unfold decodeInteger
  rw [show bits z 0 6 = 9 from hb 0 6 (by decide)]
  rw [show field 5 z 21 = d from fd, show field 5 z 16 = a from fa, show field 5 z 11 = b from fb]
  exact if_pos (hb 6 5 (by decide))

theorem or (d : BitVec 5) (a : BitVec 5) (b : BitVec 5) : Statement (.or d a b) := by
  refine core_of _ 0x0400000A [⟨5, 21, d⟩, ⟨5, 16, a⟩, ⟨5, 11, b⟩]
    [(5, 21), (5, 16), (5, 11)] (by decide) rfl rfl rfl fun z ⟨fd, fa, fb, _⟩ hb => ?_
  rw [fields_1 (hb 26 6 (by decide))]
  unfold decodeInteger
  rw [show bits z 0 6 = 10 from hb 0 6 (by decide)]
  rw [show field 5 z 21 = d from fd, show field 5 z 16 = a from fa, show field 5 z 11 = b from fb]
  exact if_pos (hb 6 5 (by decide))

theorem xor (d : BitVec 5) (a : BitVec 5) (b : BitVec 5) : Statement (.xor d a b) := by
  refine core_of _ 0x0400000B [⟨5, 21, d⟩, ⟨5, 16, a⟩, ⟨5, 11, b⟩]
    [(5, 21), (5, 16), (5, 11)] (by decide) rfl rfl rfl fun z ⟨fd, fa, fb, _⟩ hb => ?_
  rw [fields_1 (hb 26 6 (by decide))]
  unfold decodeInteger
  rw [show bits z 0 6 = 11 from hb 0 6 (by decide)]
  rw [show field 5 z 21 = d from fd, show field 5 z 16 = a from fa, show field 5 z 11 = b from fb]
  exact if_pos (hb 6 5 (by decide))

theorem shl (d : BitVec 5) (a : BitVec 5) (b : BitVec 5) : Statement (.shl d a b) := by
  refine core_of _ 0x0400000C [⟨5, 21, d⟩, ⟨5, 16, a⟩, ⟨5, 11, b⟩]
    [(5, 21), (5, 16), (5, 11)] (by decide) rfl rfl rfl fun z ⟨fd, fa, fb, _⟩ hb => ?_
  rw [fields_1 (hb 26 6 (by decide))]
  unfold decodeInteger
  rw [show bits z 0 6 = 12 from hb 0 6 (by decide)]
  rw [show field 5 z 21 = d from fd, show field 5 z 16 = a from fa, show field 5 z 11 = b from fb]
  exact if_pos (hb 6 5 (by decide))

theorem shrZ64 (d : BitVec 5) (a : BitVec 5) (b : BitVec 5) : Statement (.shrZ64 d a b) := by
  refine core_of _ 0x0400000D [⟨5, 21, d⟩, ⟨5, 16, a⟩, ⟨5, 11, b⟩]
    [(5, 21), (5, 16), (5, 11)] (by decide) rfl rfl rfl fun z ⟨fd, fa, fb, _⟩ hb => ?_
  rw [fields_1 (hb 26 6 (by decide))]
  unfold decodeInteger
  rw [show bits z 0 6 = 13 from hb 0 6 (by decide)]
  rw [show field 5 z 21 = d from fd, show field 5 z 16 = a from fa, show field 5 z 11 = b from fb]
  exact if_pos (hb 6 5 (by decide))

theorem shrS64 (d : BitVec 5) (a : BitVec 5) (b : BitVec 5) : Statement (.shrS64 d a b) := by
  refine core_of _ 0x0400000E [⟨5, 21, d⟩, ⟨5, 16, a⟩, ⟨5, 11, b⟩]
    [(5, 21), (5, 16), (5, 11)] (by decide) rfl rfl rfl fun z ⟨fd, fa, fb, _⟩ hb => ?_
  rw [fields_1 (hb 26 6 (by decide))]
  unfold decodeInteger
  rw [show bits z 0 6 = 14 from hb 0 6 (by decide)]
  rw [show field 5 z 21 = d from fd, show field 5 z 16 = a from fa, show field 5 z 11 = b from fb]
  exact if_pos (hb 6 5 (by decide))

theorem minS64 (d : BitVec 5) (a : BitVec 5) (b : BitVec 5) : Statement (.minS64 d a b) := by
  refine core_of _ 0x0400000F [⟨5, 21, d⟩, ⟨5, 16, a⟩, ⟨5, 11, b⟩]
    [(5, 21), (5, 16), (5, 11)] (by decide) rfl rfl rfl fun z ⟨fd, fa, fb, _⟩ hb => ?_
  rw [fields_1 (hb 26 6 (by decide))]
  unfold decodeInteger
  rw [show bits z 0 6 = 15 from hb 0 6 (by decide)]
  rw [show field 5 z 21 = d from fd, show field 5 z 16 = a from fa, show field 5 z 11 = b from fb]
  exact if_pos (hb 6 5 (by decide))

theorem maxS64 (d : BitVec 5) (a : BitVec 5) (b : BitVec 5) : Statement (.maxS64 d a b) := by
  refine core_of _ 0x04000010 [⟨5, 21, d⟩, ⟨5, 16, a⟩, ⟨5, 11, b⟩]
    [(5, 21), (5, 16), (5, 11)] (by decide) rfl rfl rfl fun z ⟨fd, fa, fb, _⟩ hb => ?_
  rw [fields_1 (hb 26 6 (by decide))]
  unfold decodeInteger
  rw [show bits z 0 6 = 16 from hb 0 6 (by decide)]
  rw [show field 5 z 21 = d from fd, show field 5 z 16 = a from fa, show field 5 z 11 = b from fb]
  exact if_pos (hb 6 5 (by decide))

theorem sltS64 (d : BitVec 5) (a : BitVec 5) (b : BitVec 5) : Statement (.sltS64 d a b) := by
  refine core_of _ 0x04000011 [⟨5, 21, d⟩, ⟨5, 16, a⟩, ⟨5, 11, b⟩]
    [(5, 21), (5, 16), (5, 11)] (by decide) rfl rfl rfl fun z ⟨fd, fa, fb, _⟩ hb => ?_
  rw [fields_1 (hb 26 6 (by decide))]
  unfold decodeInteger
  rw [show bits z 0 6 = 17 from hb 0 6 (by decide)]
  rw [show field 5 z 21 = d from fd, show field 5 z 16 = a from fa, show field 5 z 11 = b from fb]
  exact if_pos (hb 6 5 (by decide))

theorem sltZ64 (d : BitVec 5) (a : BitVec 5) (b : BitVec 5) : Statement (.sltZ64 d a b) := by
  refine core_of _ 0x04000012 [⟨5, 21, d⟩, ⟨5, 16, a⟩, ⟨5, 11, b⟩]
    [(5, 21), (5, 16), (5, 11)] (by decide) rfl rfl rfl fun z ⟨fd, fa, fb, _⟩ hb => ?_
  rw [fields_1 (hb 26 6 (by decide))]
  unfold decodeInteger
  rw [show bits z 0 6 = 18 from hb 0 6 (by decide)]
  rw [show field 5 z 21 = d from fd, show field 5 z 16 = a from fa, show field 5 z 11 = b from fb]
  exact if_pos (hb 6 5 (by decide))

theorem seq (d : BitVec 5) (a : BitVec 5) (b : BitVec 5) : Statement (.seq d a b) := by
  refine core_of _ 0x04000013 [⟨5, 21, d⟩, ⟨5, 16, a⟩, ⟨5, 11, b⟩]
    [(5, 21), (5, 16), (5, 11)] (by decide) rfl rfl rfl fun z ⟨fd, fa, fb, _⟩ hb => ?_
  rw [fields_1 (hb 26 6 (by decide))]
  unfold decodeInteger
  rw [show bits z 0 6 = 19 from hb 0 6 (by decide)]
  rw [show field 5 z 21 = d from fd, show field 5 z 16 = a from fa, show field 5 z 11 = b from fb]
  exact if_pos (hb 6 5 (by decide))

theorem clz (d : BitVec 5) (a : BitVec 5) : Statement (.clz d a) := by
  refine core_of _ 0x04000014 [⟨5, 21, d⟩, ⟨5, 16, a⟩]
    [(5, 21), (5, 16)] (by decide) rfl rfl rfl fun z ⟨fd, fa, _⟩ hb => ?_
  rw [fields_1 (hb 26 6 (by decide))]
  unfold decodeInteger
  rw [show bits z 0 6 = 20 from hb 0 6 (by decide)]
  rw [show field 5 z 21 = d from fd, show field 5 z 16 = a from fa]
  exact if_pos (hb 6 10 (by decide))

theorem popc (d : BitVec 5) (a : BitVec 5) : Statement (.popc d a) := by
  refine core_of _ 0x04000015 [⟨5, 21, d⟩, ⟨5, 16, a⟩]
    [(5, 21), (5, 16)] (by decide) rfl rfl rfl fun z ⟨fd, fa, _⟩ hb => ?_
  rw [fields_1 (hb 26 6 (by decide))]
  unfold decodeInteger
  rw [show bits z 0 6 = 21 from hb 0 6 (by decide)]
  rw [show field 5 z 21 = d from fd, show field 5 z 16 = a from fa]
  exact if_pos (hb 6 10 (by decide))

theorem sel (d : BitVec 5) (a : BitVec 5) (b : BitVec 5) (c : BitVec 5) : Statement (.sel d a b c) := by
  refine core_of _ 0x04000016 [⟨5, 21, d⟩, ⟨5, 16, a⟩, ⟨5, 11, b⟩, ⟨5, 6, c⟩]
    [(5, 21), (5, 16), (5, 11), (5, 6)] (by decide) rfl rfl rfl fun z ⟨fd, fa, fb, fc, _⟩ hb => ?_
  rw [fields_1 (hb 26 6 (by decide))]
  unfold decodeInteger
  rw [show bits z 0 6 = 22 from hb 0 6 (by decide)]
  rw [show field 5 z 21 = d from fd, show field 5 z 16 = a from fa, show field 5 z 11 = b from fb, show field 5 z 6 = c from fc]
  rfl

theorem madd (d : BitVec 5) (a : BitVec 5) (b : BitVec 5) (c : BitVec 5) : Statement (.madd d a b c) := by
  refine core_of _ 0x04000017 [⟨5, 21, d⟩, ⟨5, 16, a⟩, ⟨5, 11, b⟩, ⟨5, 6, c⟩]
    [(5, 21), (5, 16), (5, 11), (5, 6)] (by decide) rfl rfl rfl fun z ⟨fd, fa, fb, fc, _⟩ hb => ?_
  rw [fields_1 (hb 26 6 (by decide))]
  unfold decodeInteger
  rw [show bits z 0 6 = 23 from hb 0 6 (by decide)]
  rw [show field 5 z 21 = d from fd, show field 5 z 16 = a from fa, show field 5 z 11 = b from fb, show field 5 z 6 = c from fc]
  rfl

theorem ext (d : BitVec 5) (a : BitVec 5) (t : BitVec 3) : Statement (.ext d a t) := by
  refine core_of _ 0x04000218 [⟨5, 21, d⟩, ⟨5, 16, a⟩, ⟨3, 6, t⟩]
    [(5, 21), (5, 16), (3, 6)] (by decide) rfl rfl rfl fun z ⟨fd, fa, ft, _⟩ hb => ?_
  rw [fields_1 (hb 26 6 (by decide))]
  unfold decodeInteger
  rw [show bits z 0 6 = 24 from hb 0 6 (by decide)]
  rw [show field 5 z 21 = d from fd, show field 5 z 16 = a from fa, show field 3 z 6 = t from ft]
  exact if_pos (hb 9 7 (by decide))

theorem addi (d : BitVec 5) (a : BitVec 5) (i : BitVec 16) : Statement (.addi d a i) := by
  refine core_of _ 0x08000000 [⟨5, 21, d⟩, ⟨5, 16, a⟩, ⟨16, 0, i⟩]
    [(5, 21), (5, 16), (16, 0)] (by decide) rfl rfl rfl fun z ⟨fd, fa, fi, _⟩ hb => ?_
  rw [fields_2 (hb 26 6 (by decide))]
  unfold decodeAddi
  rw [show field 5 z 21 = d from fd, show field 5 z 16 = a from fa, show field 16 z 0 = i from fi]

theorem andi (d : BitVec 5) (a : BitVec 5) (i : BitVec 16) : Statement (.andi d a i) := by
  refine core_of _ 0x0C000000 [⟨5, 21, d⟩, ⟨5, 16, a⟩, ⟨16, 0, i⟩]
    [(5, 21), (5, 16), (16, 0)] (by decide) rfl rfl rfl fun z ⟨fd, fa, fi, _⟩ hb => ?_
  rw [fields_3 (hb 26 6 (by decide))]
  unfold decodeAndi
  rw [show field 5 z 21 = d from fd, show field 5 z 16 = a from fa, show field 16 z 0 = i from fi]

theorem ori (d : BitVec 5) (a : BitVec 5) (i : BitVec 16) : Statement (.ori d a i) := by
  refine core_of _ 0x10000000 [⟨5, 21, d⟩, ⟨5, 16, a⟩, ⟨16, 0, i⟩]
    [(5, 21), (5, 16), (16, 0)] (by decide) rfl rfl rfl fun z ⟨fd, fa, fi, _⟩ hb => ?_
  rw [fields_4 (hb 26 6 (by decide))]
  unfold decodeOri
  rw [show field 5 z 21 = d from fd, show field 5 z 16 = a from fa, show field 16 z 0 = i from fi]

theorem xori (d : BitVec 5) (a : BitVec 5) (i : BitVec 16) : Statement (.xori d a i) := by
  refine core_of _ 0x14000000 [⟨5, 21, d⟩, ⟨5, 16, a⟩, ⟨16, 0, i⟩]
    [(5, 21), (5, 16), (16, 0)] (by decide) rfl rfl rfl fun z ⟨fd, fa, fi, _⟩ hb => ?_
  rw [fields_5 (hb 26 6 (by decide))]
  unfold decodeXori
  rw [show field 5 z 21 = d from fd, show field 5 z 16 = a from fa, show field 16 z 0 = i from fi]

theorem shli (d : BitVec 5) (a : BitVec 5) (k : BitVec 6) : Statement (.shli d a k) := by
  refine core_of _ 0x18000000 [⟨5, 21, d⟩, ⟨5, 16, a⟩, ⟨6, 0, k⟩]
    [(5, 21), (5, 16), (6, 0)] (by decide) rfl rfl rfl fun z ⟨fd, fa, fk, _⟩ hb => ?_
  rw [fields_6 (hb 26 6 (by decide))]
  unfold decodeShift
  rw [show bits z 6 2 = 0 from hb 6 2 (by decide)]
  rw [show field 5 z 21 = d from fd, show field 5 z 16 = a from fa, show field 6 z 0 = k from fk]
  exact if_pos (hb 8 8 (by decide))

theorem shriZ64 (d : BitVec 5) (a : BitVec 5) (k : BitVec 6) : Statement (.shriZ64 d a k) := by
  refine core_of _ 0x18000040 [⟨5, 21, d⟩, ⟨5, 16, a⟩, ⟨6, 0, k⟩]
    [(5, 21), (5, 16), (6, 0)] (by decide) rfl rfl rfl fun z ⟨fd, fa, fk, _⟩ hb => ?_
  rw [fields_6 (hb 26 6 (by decide))]
  unfold decodeShift
  rw [show bits z 6 2 = 1 from hb 6 2 (by decide)]
  rw [show field 5 z 21 = d from fd, show field 5 z 16 = a from fa, show field 6 z 0 = k from fk]
  exact if_pos (hb 8 8 (by decide))

theorem shriS64 (d : BitVec 5) (a : BitVec 5) (k : BitVec 6) : Statement (.shriS64 d a k) := by
  refine core_of _ 0x18000080 [⟨5, 21, d⟩, ⟨5, 16, a⟩, ⟨6, 0, k⟩]
    [(5, 21), (5, 16), (6, 0)] (by decide) rfl rfl rfl fun z ⟨fd, fa, fk, _⟩ hb => ?_
  rw [fields_6 (hb 26 6 (by decide))]
  unfold decodeShift
  rw [show bits z 6 2 = 2 from hb 6 2 (by decide)]
  rw [show field 5 z 21 = d from fd, show field 5 z 16 = a from fa, show field 6 z 0 = k from fk]
  exact if_pos (hb 8 8 (by decide))

theorem sltiS64 (d : BitVec 5) (a : BitVec 5) (i : BitVec 16) : Statement (.sltiS64 d a i) := by
  refine core_of _ 0x1C000000 [⟨5, 21, d⟩, ⟨5, 16, a⟩, ⟨16, 0, i⟩]
    [(5, 21), (5, 16), (16, 0)] (by decide) rfl rfl rfl fun z ⟨fd, fa, fi, _⟩ hb => ?_
  rw [fields_7 (hb 26 6 (by decide))]
  unfold decodeSlti
  rw [show field 5 z 21 = d from fd, show field 5 z 16 = a from fa, show field 16 z 0 = i from fi]

theorem li (d : BitVec 5) (i : BitVec 21) : Statement (.li d i) := by
  refine core_of _ 0x20000000 [⟨5, 21, d⟩, ⟨21, 0, i⟩]
    [(5, 21), (21, 0)] (by decide) rfl rfl rfl fun z ⟨fd, fi, _⟩ hb => ?_
  rw [fields_8 (hb 26 6 (by decide))]
  unfold decodeLi
  rw [show field 5 z 21 = d from fd, show field 21 z 0 = i from fi]

theorem lsi (d : BitVec 5) (i : BitVec 16) : Statement (.lsi d i) := by
  refine core_of _ 0x24000000 [⟨5, 21, d⟩, ⟨16, 0, i⟩]
    [(5, 21), (16, 0)] (by decide) rfl rfl rfl fun z ⟨fd, fi, _⟩ hb => ?_
  rw [fields_9 (hb 26 6 (by decide))]
  unfold decodeLsi
  rw [show field 5 z 21 = d from fd, show field 16 z 0 = i from fi]
  exact if_pos (hb 16 5 (by decide))

theorem pset (p : BitVec 3) (a : BitVec 5) : Statement (.pset p a) := by
  refine core_of _ 0x28000000 [⟨3, 21, p⟩, ⟨5, 16, a⟩]
    [(3, 21), (5, 16)] (by decide) rfl rfl rfl fun z ⟨fp, fa, _⟩ hb => ?_
  rw [fields_10 (hb 26 6 (by decide))]
  unfold decodePointer
  rw [show bits z 0 6 = 0 from hb 0 6 (by decide)]
  rw [show field 3 z 21 = p from fp, show field 5 z 16 = a from fa]
  exact if_pos ⟨hb 6 10 (by decide), hb 24 2 (by decide)⟩

theorem pstep (p : BitVec 3) (a : BitVec 5) : Statement (.pstep p a) := by
  refine core_of _ 0x28000001 [⟨3, 21, p⟩, ⟨5, 16, a⟩]
    [(3, 21), (5, 16)] (by decide) rfl rfl rfl fun z ⟨fp, fa, _⟩ hb => ?_
  rw [fields_10 (hb 26 6 (by decide))]
  unfold decodePointer
  rw [show bits z 0 6 = 1 from hb 0 6 (by decide)]
  rw [show field 3 z 21 = p from fp, show field 5 z 16 = a from fa]
  exact if_pos ⟨hb 6 10 (by decide), hb 24 2 (by decide)⟩

theorem pget (d : BitVec 5) (p : BitVec 3) : Statement (.pget d p) := by
  refine core_of _ 0x28000002 [⟨5, 21, d⟩, ⟨3, 16, p⟩]
    [(5, 21), (3, 16)] (by decide) rfl rfl rfl fun z ⟨fd, fp, _⟩ hb => ?_
  rw [fields_10 (hb 26 6 (by decide))]
  unfold decodePointer
  rw [show bits z 0 6 = 2 from hb 0 6 (by decide)]
  rw [show field 5 z 21 = d from fd, show field 3 z 16 = p from fp]
  exact if_pos ⟨hb 6 10 (by decide), hb 19 2 (by decide)⟩

theorem padd (p : BitVec 3) (a : BitVec 5) : Statement (.padd p a) := by
  refine core_of _ 0x28000003 [⟨3, 21, p⟩, ⟨5, 16, a⟩]
    [(3, 21), (5, 16)] (by decide) rfl rfl rfl fun z ⟨fp, fa, _⟩ hb => ?_
  rw [fields_10 (hb 26 6 (by decide))]
  unfold decodePointer
  rw [show bits z 0 6 = 3 from hb 0 6 (by decide)]
  rw [show field 3 z 21 = p from fp, show field 5 z 16 = a from fa]
  exact if_pos ⟨hb 6 10 (by decide), hb 24 2 (by decide)⟩

theorem crrd (d : BitVec 5) (c : BitVec 12) : Statement (.crrd d c) := by
  refine core_of _ 0x2C000000 [⟨5, 21, d⟩, ⟨12, 0, c⟩]
    [(5, 21), (12, 0)] (by decide) rfl rfl rfl fun z ⟨fd, fc, _⟩ hb => ?_
  rw [fields_11 (hb 26 6 (by decide))]
  unfold decodeControl
  rw [show bits z 12 4 = 0 from hb 12 4 (by decide)]
  rw [show field 5 z 21 = d from fd, show field 12 z 0 = c from fc]
  exact if_pos (hb 16 5 (by decide))

theorem crwr (a : BitVec 5) (c : BitVec 12) : Statement (.crwr a c) := by
  refine core_of _ 0x2C001000 [⟨5, 21, a⟩, ⟨12, 0, c⟩]
    [(5, 21), (12, 0)] (by decide) rfl rfl rfl fun z ⟨fa, fc, _⟩ hb => ?_
  rw [fields_11 (hb 26 6 (by decide))]
  unfold decodeControl
  rw [show bits z 12 4 = 1 from hb 12 4 (by decide)]
  rw [show field 5 z 21 = a from fa, show field 12 z 0 = c from fc]
  exact if_pos (hb 16 5 (by decide))

theorem crset (a : BitVec 5) (c : BitVec 12) : Statement (.crset a c) := by
  refine core_of _ 0x2C002000 [⟨5, 21, a⟩, ⟨12, 0, c⟩]
    [(5, 21), (12, 0)] (by decide) rfl rfl rfl fun z ⟨fa, fc, _⟩ hb => ?_
  rw [fields_11 (hb 26 6 (by decide))]
  unfold decodeControl
  rw [show bits z 12 4 = 2 from hb 12 4 (by decide)]
  rw [show field 5 z 21 = a from fa, show field 12 z 0 = c from fc]
  exact if_pos (hb 16 5 (by decide))

theorem crclr (a : BitVec 5) (c : BitVec 12) : Statement (.crclr a c) := by
  refine core_of _ 0x2C003000 [⟨5, 21, a⟩, ⟨12, 0, c⟩]
    [(5, 21), (12, 0)] (by decide) rfl rfl rfl fun z ⟨fa, fc, _⟩ hb => ?_
  rw [fields_11 (hb 26 6 (by decide))]
  unfold decodeControl
  rw [show bits z 12 4 = 3 from hb 12 4 (by decide)]
  rw [show field 5 z 21 = a from fa, show field 12 z 0 = c from fc]
  exact if_pos (hb 16 5 (by decide))

theorem fadd (d : BitVec 5) (a : BitVec 5) (b : BitVec 5) : Statement (.fadd d a b) := by
  refine core_of _ 0x30000000 [⟨5, 21, d⟩, ⟨5, 16, a⟩, ⟨5, 11, b⟩]
    [(5, 21), (5, 16), (5, 11)] (by decide) rfl rfl rfl fun z ⟨fd, fa, fb, _⟩ hb => ?_
  rw [fields_12 (hb 26 6 (by decide))]
  unfold decodeFp
  rw [show bits z 0 6 = 0 from hb 0 6 (by decide)]
  rw [show field 5 z 21 = d from fd, show field 5 z 16 = a from fa, show field 5 z 11 = b from fb]
  exact if_pos (hb 6 5 (by decide))

theorem fsub (d : BitVec 5) (a : BitVec 5) (b : BitVec 5) : Statement (.fsub d a b) := by
  refine core_of _ 0x30000001 [⟨5, 21, d⟩, ⟨5, 16, a⟩, ⟨5, 11, b⟩]
    [(5, 21), (5, 16), (5, 11)] (by decide) rfl rfl rfl fun z ⟨fd, fa, fb, _⟩ hb => ?_
  rw [fields_12 (hb 26 6 (by decide))]
  unfold decodeFp
  rw [show bits z 0 6 = 1 from hb 0 6 (by decide)]
  rw [show field 5 z 21 = d from fd, show field 5 z 16 = a from fa, show field 5 z 11 = b from fb]
  exact if_pos (hb 6 5 (by decide))

theorem fmul (d : BitVec 5) (a : BitVec 5) (b : BitVec 5) : Statement (.fmul d a b) := by
  refine core_of _ 0x30000002 [⟨5, 21, d⟩, ⟨5, 16, a⟩, ⟨5, 11, b⟩]
    [(5, 21), (5, 16), (5, 11)] (by decide) rfl rfl rfl fun z ⟨fd, fa, fb, _⟩ hb => ?_
  rw [fields_12 (hb 26 6 (by decide))]
  unfold decodeFp
  rw [show bits z 0 6 = 2 from hb 0 6 (by decide)]
  rw [show field 5 z 21 = d from fd, show field 5 z 16 = a from fa, show field 5 z 11 = b from fb]
  exact if_pos (hb 6 5 (by decide))

theorem fdiv (d : BitVec 5) (a : BitVec 5) (b : BitVec 5) : Statement (.fdiv d a b) := by
  refine core_of _ 0x30000003 [⟨5, 21, d⟩, ⟨5, 16, a⟩, ⟨5, 11, b⟩]
    [(5, 21), (5, 16), (5, 11)] (by decide) rfl rfl rfl fun z ⟨fd, fa, fb, _⟩ hb => ?_
  rw [fields_12 (hb 26 6 (by decide))]
  unfold decodeFp
  rw [show bits z 0 6 = 3 from hb 0 6 (by decide)]
  rw [show field 5 z 21 = d from fd, show field 5 z 16 = a from fa, show field 5 z 11 = b from fb]
  exact if_pos (hb 6 5 (by decide))

theorem fmin (d : BitVec 5) (a : BitVec 5) (b : BitVec 5) : Statement (.fmin d a b) := by
  refine core_of _ 0x30000004 [⟨5, 21, d⟩, ⟨5, 16, a⟩, ⟨5, 11, b⟩]
    [(5, 21), (5, 16), (5, 11)] (by decide) rfl rfl rfl fun z ⟨fd, fa, fb, _⟩ hb => ?_
  rw [fields_12 (hb 26 6 (by decide))]
  unfold decodeFp
  rw [show bits z 0 6 = 4 from hb 0 6 (by decide)]
  rw [show field 5 z 21 = d from fd, show field 5 z 16 = a from fa, show field 5 z 11 = b from fb]
  exact if_pos (hb 6 5 (by decide))

theorem fmax (d : BitVec 5) (a : BitVec 5) (b : BitVec 5) : Statement (.fmax d a b) := by
  refine core_of _ 0x30000005 [⟨5, 21, d⟩, ⟨5, 16, a⟩, ⟨5, 11, b⟩]
    [(5, 21), (5, 16), (5, 11)] (by decide) rfl rfl rfl fun z ⟨fd, fa, fb, _⟩ hb => ?_
  rw [fields_12 (hb 26 6 (by decide))]
  unfold decodeFp
  rw [show bits z 0 6 = 5 from hb 0 6 (by decide)]
  rw [show field 5 z 21 = d from fd, show field 5 z 16 = a from fa, show field 5 z 11 = b from fb]
  exact if_pos (hb 6 5 (by decide))

theorem feq (d : BitVec 5) (a : BitVec 5) (b : BitVec 5) : Statement (.feq d a b) := by
  refine core_of _ 0x30000006 [⟨5, 21, d⟩, ⟨5, 16, a⟩, ⟨5, 11, b⟩]
    [(5, 21), (5, 16), (5, 11)] (by decide) rfl rfl rfl fun z ⟨fd, fa, fb, _⟩ hb => ?_
  rw [fields_12 (hb 26 6 (by decide))]
  unfold decodeFp
  rw [show bits z 0 6 = 6 from hb 0 6 (by decide)]
  rw [show field 5 z 21 = d from fd, show field 5 z 16 = a from fa, show field 5 z 11 = b from fb]
  exact if_pos (hb 6 5 (by decide))

theorem flt (d : BitVec 5) (a : BitVec 5) (b : BitVec 5) : Statement (.flt d a b) := by
  refine core_of _ 0x30000007 [⟨5, 21, d⟩, ⟨5, 16, a⟩, ⟨5, 11, b⟩]
    [(5, 21), (5, 16), (5, 11)] (by decide) rfl rfl rfl fun z ⟨fd, fa, fb, _⟩ hb => ?_
  rw [fields_12 (hb 26 6 (by decide))]
  unfold decodeFp
  rw [show bits z 0 6 = 7 from hb 0 6 (by decide)]
  rw [show field 5 z 21 = d from fd, show field 5 z 16 = a from fa, show field 5 z 11 = b from fb]
  exact if_pos (hb 6 5 (by decide))

theorem fle (d : BitVec 5) (a : BitVec 5) (b : BitVec 5) : Statement (.fle d a b) := by
  refine core_of _ 0x30000008 [⟨5, 21, d⟩, ⟨5, 16, a⟩, ⟨5, 11, b⟩]
    [(5, 21), (5, 16), (5, 11)] (by decide) rfl rfl rfl fun z ⟨fd, fa, fb, _⟩ hb => ?_
  rw [fields_12 (hb 26 6 (by decide))]
  unfold decodeFp
  rw [show bits z 0 6 = 8 from hb 0 6 (by decide)]
  rw [show field 5 z 21 = d from fd, show field 5 z 16 = a from fa, show field 5 z 11 = b from fb]
  exact if_pos (hb 6 5 (by decide))

theorem fma (d : BitVec 5) (a : BitVec 5) (b : BitVec 5) (c : BitVec 5) : Statement (.fma d a b c) := by
  refine core_of _ 0x30000009 [⟨5, 21, d⟩, ⟨5, 16, a⟩, ⟨5, 11, b⟩, ⟨5, 6, c⟩]
    [(5, 21), (5, 16), (5, 11), (5, 6)] (by decide) rfl rfl rfl fun z ⟨fd, fa, fb, fc, _⟩ hb => ?_
  rw [fields_12 (hb 26 6 (by decide))]
  unfold decodeFp
  rw [show bits z 0 6 = 9 from hb 0 6 (by decide)]
  rw [show field 5 z 21 = d from fd, show field 5 z 16 = a from fa, show field 5 z 11 = b from fb, show field 5 z 6 = c from fc]
  rfl

theorem fsqrt (d : BitVec 5) (a : BitVec 5) : Statement (.fsqrt d a) := by
  refine core_of _ 0x3000000A [⟨5, 21, d⟩, ⟨5, 16, a⟩]
    [(5, 21), (5, 16)] (by decide) rfl rfl rfl fun z ⟨fd, fa, _⟩ hb => ?_
  rw [fields_12 (hb 26 6 (by decide))]
  unfold decodeFp
  rw [show bits z 0 6 = 10 from hb 0 6 (by decide)]
  rw [show field 5 z 21 = d from fd, show field 5 z 16 = a from fa]
  exact if_pos (hb 6 10 (by decide))

theorem fabs (d : BitVec 5) (a : BitVec 5) : Statement (.fabs d a) := by
  refine core_of _ 0x3000000B [⟨5, 21, d⟩, ⟨5, 16, a⟩]
    [(5, 21), (5, 16)] (by decide) rfl rfl rfl fun z ⟨fd, fa, _⟩ hb => ?_
  rw [fields_12 (hb 26 6 (by decide))]
  unfold decodeFp
  rw [show bits z 0 6 = 11 from hb 0 6 (by decide)]
  rw [show field 5 z 21 = d from fd, show field 5 z 16 = a from fa]
  exact if_pos (hb 6 10 (by decide))

theorem fcvtS64 (d : BitVec 5) (a : BitVec 5) : Statement (.fcvtS64 d a) := by
  refine core_of _ 0x3000000C [⟨5, 21, d⟩, ⟨5, 16, a⟩]
    [(5, 21), (5, 16)] (by decide) rfl rfl rfl fun z ⟨fd, fa, _⟩ hb => ?_
  rw [fields_12 (hb 26 6 (by decide))]
  unfold decodeFp
  rw [show bits z 0 6 = 12 from hb 0 6 (by decide)]
  rw [show field 5 z 21 = d from fd, show field 5 z 16 = a from fa]
  exact if_pos (hb 6 10 (by decide))

theorem fcvtiS64 (d : BitVec 5) (a : BitVec 5) : Statement (.fcvtiS64 d a) := by
  refine core_of _ 0x3000000D [⟨5, 21, d⟩, ⟨5, 16, a⟩]
    [(5, 21), (5, 16)] (by decide) rfl rfl rfl fun z ⟨fd, fa, _⟩ hb => ?_
  rw [fields_12 (hb 26 6 (by decide))]
  unfold decodeFp
  rw [show bits z 0 6 = 13 from hb 0 6 (by decide)]
  rw [show field 5 z 21 = d from fd, show field 5 z 16 = a from fa]
  exact if_pos (hb 6 10 (by decide))

theorem fxsd (d : BitVec 5) (a : BitVec 5) : Statement (.fxsd d a) := by
  refine core_of _ 0x3000000E [⟨5, 21, d⟩, ⟨5, 16, a⟩]
    [(5, 21), (5, 16)] (by decide) rfl rfl rfl fun z ⟨fd, fa, _⟩ hb => ?_
  rw [fields_12 (hb 26 6 (by decide))]
  unfold decodeFp
  rw [show bits z 0 6 = 14 from hb 0 6 (by decide)]
  rw [show field 5 z 21 = d from fd, show field 5 z 16 = a from fa]
  exact if_pos (hb 6 10 (by decide))

theorem fxse (d : BitVec 5) (a : BitVec 5) : Statement (.fxse d a) := by
  refine core_of _ 0x3000000F [⟨5, 21, d⟩, ⟨5, 16, a⟩]
    [(5, 21), (5, 16)] (by decide) rfl rfl rfl fun z ⟨fd, fa, _⟩ hb => ?_
  rw [fields_12 (hb 26 6 (by decide))]
  unfold decodeFp
  rw [show bits z 0 6 = 15 from hb 0 6 (by decide)]
  rw [show field 5 z 21 = d from fd, show field 5 z 16 = a from fa]
  exact if_pos (hb 6 10 (by decide))

theorem beq (a : BitVec 5) (b : BitVec 5) (o : BitVec 16) : Statement (.beq a b o) := by
  refine core_of _ 0x40000000 [⟨5, 21, a⟩, ⟨5, 16, b⟩, ⟨16, 0, o⟩]
    [(5, 21), (5, 16), (16, 0)] (by decide) rfl rfl rfl fun z ⟨fa, fb, fo, _⟩ hb => ?_
  rw [fields_16 (hb 26 6 (by decide))]
  unfold decodeBeq
  rw [show field 5 z 21 = a from fa, show field 5 z 16 = b from fb, show field 16 z 0 = o from fo]

theorem bne (a : BitVec 5) (b : BitVec 5) (o : BitVec 16) : Statement (.bne a b o) := by
  refine core_of _ 0x44000000 [⟨5, 21, a⟩, ⟨5, 16, b⟩, ⟨16, 0, o⟩]
    [(5, 21), (5, 16), (16, 0)] (by decide) rfl rfl rfl fun z ⟨fa, fb, fo, _⟩ hb => ?_
  rw [fields_17 (hb 26 6 (by decide))]
  unfold decodeBne
  rw [show field 5 z 21 = a from fa, show field 5 z 16 = b from fb, show field 16 z 0 = o from fo]

theorem bltS64 (a : BitVec 5) (b : BitVec 5) (o : BitVec 16) : Statement (.bltS64 a b o) := by
  refine core_of _ 0x48000000 [⟨5, 21, a⟩, ⟨5, 16, b⟩, ⟨16, 0, o⟩]
    [(5, 21), (5, 16), (16, 0)] (by decide) rfl rfl rfl fun z ⟨fa, fb, fo, _⟩ hb => ?_
  rw [fields_18 (hb 26 6 (by decide))]
  unfold decodeBltS
  rw [show field 5 z 21 = a from fa, show field 5 z 16 = b from fb, show field 16 z 0 = o from fo]

theorem bgeS64 (a : BitVec 5) (b : BitVec 5) (o : BitVec 16) : Statement (.bgeS64 a b o) := by
  refine core_of _ 0x4C000000 [⟨5, 21, a⟩, ⟨5, 16, b⟩, ⟨16, 0, o⟩]
    [(5, 21), (5, 16), (16, 0)] (by decide) rfl rfl rfl fun z ⟨fa, fb, fo, _⟩ hb => ?_
  rw [fields_19 (hb 26 6 (by decide))]
  unfold decodeBgeS
  rw [show field 5 z 21 = a from fa, show field 5 z 16 = b from fb, show field 16 z 0 = o from fo]

theorem bltZ64 (a : BitVec 5) (b : BitVec 5) (o : BitVec 16) : Statement (.bltZ64 a b o) := by
  refine core_of _ 0x50000000 [⟨5, 21, a⟩, ⟨5, 16, b⟩, ⟨16, 0, o⟩]
    [(5, 21), (5, 16), (16, 0)] (by decide) rfl rfl rfl fun z ⟨fa, fb, fo, _⟩ hb => ?_
  rw [fields_20 (hb 26 6 (by decide))]
  unfold decodeBltZ
  rw [show field 5 z 21 = a from fa, show field 5 z 16 = b from fb, show field 16 z 0 = o from fo]

theorem bgeZ64 (a : BitVec 5) (b : BitVec 5) (o : BitVec 16) : Statement (.bgeZ64 a b o) := by
  refine core_of _ 0x54000000 [⟨5, 21, a⟩, ⟨5, 16, b⟩, ⟨16, 0, o⟩]
    [(5, 21), (5, 16), (16, 0)] (by decide) rfl rfl rfl fun z ⟨fa, fb, fo, _⟩ hb => ?_
  rw [fields_21 (hb 26 6 (by decide))]
  unfold decodeBgeZ
  rw [show field 5 z 21 = a from fa, show field 5 z 16 = b from fb, show field 16 z 0 = o from fo]

theorem jal (o : BitVec 26) : Statement (.jal o) := by
  refine core_of _ 0x58000000 [⟨26, 0, o⟩]
    [(26, 0)] (by decide) rfl rfl rfl fun z ⟨fo, _⟩ hb => ?_
  rw [fields_22 (hb 26 6 (by decide))]
  unfold decodeJal
  rw [show field 26 z 0 = o from fo]

theorem jr (a : BitVec 5) : Statement (.jr a) := by
  refine core_of _ 0x5C000000 [⟨5, 16, a⟩]
    [(5, 16)] (by decide) rfl rfl rfl fun z ⟨fa, _⟩ hb => ?_
  rw [fields_23 (hb 26 6 (by decide))]
  unfold decodeJump
  rw [show bits z 12 4 = 0 from hb 12 4 (by decide)]
  rw [show field 5 z 16 = a from fa]
  exact if_pos ⟨hb 0 12 (by decide), hb 21 5 (by decide)⟩

theorem jalr (d : BitVec 5) (a : BitVec 5) : Statement (.jalr d a) := by
  refine core_of _ 0x5C001000 [⟨5, 21, d⟩, ⟨5, 16, a⟩]
    [(5, 21), (5, 16)] (by decide) rfl rfl rfl fun z ⟨fd, fa, _⟩ hb => ?_
  rw [fields_23 (hb 26 6 (by decide))]
  unfold decodeJump
  rw [show bits z 12 4 = 1 from hb 12 4 (by decide)]
  rw [show field 5 z 21 = d from fd, show field 5 z 16 = a from fa]
  exact if_pos (hb 0 12 (by decide))

theorem rep (s : BitVec 5) (c : BitVec 5) (n : BitVec 4) (k : BitVec 8) : Statement (.rep s c n k) := by
  refine core_of _ 0x5C002000 [⟨5, 21, s⟩, ⟨5, 16, c⟩, ⟨4, 8, n⟩, ⟨8, 0, k⟩]
    [(5, 21), (5, 16), (4, 8), (8, 0)] (by decide) rfl rfl rfl fun z ⟨fs, fc, fn, fk, _⟩ hb => ?_
  rw [fields_23 (hb 26 6 (by decide))]
  unfold decodeJump
  rw [show bits z 12 4 = 2 from hb 12 4 (by decide)]
  rw [show field 5 z 21 = s from fs, show field 5 z 16 = c from fc, show field 4 z 8 = n from fn, show field 8 z 0 = k from fk]
  rfl

theorem ld (t : BitVec 5) (a : BitVec 5) (y : BitVec 3) (o : BitVec 12) : Statement (.ld t a y o) := by
  refine core_of _ 0x60008000 [⟨5, 21, t⟩, ⟨5, 16, a⟩, ⟨3, 12, y⟩, ⟨12, 0, o⟩]
    [(5, 21), (5, 16), (3, 12), (12, 0)] (by decide) rfl rfl rfl fun z ⟨ft, fa, fy, fo, _⟩ hb => ?_
  rw [fields_24 (hb 26 6 (by decide))]
  unfold decodeLoad
  rw [show field 5 z 21 = t from ft, show field 5 z 16 = a from fa, show field 3 z 12 = y from fy, show field 12 z 0 = o from fo]
  exact if_pos (hb 15 1 (by decide))

theorem st (t : BitVec 5) (a : BitVec 5) (y : BitVec 3) (o : BitVec 12) : Statement (.st t a y o) := by
  refine core_of _ 0x64008000 [⟨5, 21, t⟩, ⟨5, 16, a⟩, ⟨3, 12, y⟩, ⟨12, 0, o⟩]
    [(5, 21), (5, 16), (3, 12), (12, 0)] (by decide) rfl rfl rfl fun z ⟨ft, fa, fy, fo, _⟩ hb => ?_
  rw [fields_25 (hb 26 6 (by decide))]
  unfold decodeStore
  rw [show field 5 z 21 = t from ft, show field 5 z 16 = a from fa, show field 3 z 12 = y from fy, show field 12 z 0 = o from fo]
  exact if_pos (hb 15 1 (by decide))

theorem ldp (t : BitVec 5) (p : BitVec 3) (y : BitVec 3) (o : BitVec 12) : Statement (.ldp t p y o) := by
  refine core_of _ 0x68008000 [⟨5, 21, t⟩, ⟨3, 18, p⟩, ⟨3, 12, y⟩, ⟨12, 0, o⟩]
    [(5, 21), (3, 18), (3, 12), (12, 0)] (by decide) rfl rfl rfl fun z ⟨ft, fp, fy, fo, _⟩ hb => ?_
  rw [fields_26 (hb 26 6 (by decide))]
  unfold decodePointerMem
  rw [show bits z 16 2 = 0 from hb 16 2 (by decide)]
  rw [show field 5 z 21 = t from ft, show field 3 z 18 = p from fp, show field 3 z 12 = y from fy, show field 12 z 0 = o from fo]
  exact if_pos (hb 15 1 (by decide))

theorem ldpi (t : BitVec 5) (p : BitVec 3) (y : BitVec 3) : Statement (.ldpi t p y) := by
  refine core_of _ 0x68018000 [⟨5, 21, t⟩, ⟨3, 18, p⟩, ⟨3, 12, y⟩]
    [(5, 21), (3, 18), (3, 12)] (by decide) rfl rfl rfl fun z ⟨ft, fp, fy, _⟩ hb => ?_
  rw [fields_26 (hb 26 6 (by decide))]
  unfold decodePointerMem
  rw [show bits z 16 2 = 1 from hb 16 2 (by decide)]
  rw [show field 5 z 21 = t from ft, show field 3 z 18 = p from fp, show field 3 z 12 = y from fy]
  exact if_pos ⟨hb 0 12 (by decide), hb 15 1 (by decide)⟩

theorem stp (t : BitVec 5) (p : BitVec 3) (y : BitVec 3) (o : BitVec 12) : Statement (.stp t p y o) := by
  refine core_of _ 0x68028000 [⟨5, 21, t⟩, ⟨3, 18, p⟩, ⟨3, 12, y⟩, ⟨12, 0, o⟩]
    [(5, 21), (3, 18), (3, 12), (12, 0)] (by decide) rfl rfl rfl fun z ⟨ft, fp, fy, fo, _⟩ hb => ?_
  rw [fields_26 (hb 26 6 (by decide))]
  unfold decodePointerMem
  rw [show bits z 16 2 = 2 from hb 16 2 (by decide)]
  rw [show field 5 z 21 = t from ft, show field 3 z 18 = p from fp, show field 3 z 12 = y from fy, show field 12 z 0 = o from fo]
  exact if_pos (hb 15 1 (by decide))

theorem stpi (t : BitVec 5) (p : BitVec 3) (y : BitVec 3) : Statement (.stpi t p y) := by
  refine core_of _ 0x68038000 [⟨5, 21, t⟩, ⟨3, 18, p⟩, ⟨3, 12, y⟩]
    [(5, 21), (3, 18), (3, 12)] (by decide) rfl rfl rfl fun z ⟨ft, fp, fy, _⟩ hb => ?_
  rw [fields_26 (hb 26 6 (by decide))]
  unfold decodePointerMem
  rw [show bits z 16 2 = 3 from hb 16 2 (by decide)]
  rw [show field 5 z 21 = t from ft, show field 3 z 18 = p from fp, show field 3 z 12 = y from fy]
  exact if_pos ⟨hb 0 12 (by decide), hb 15 1 (by decide)⟩

theorem vld (v : BitVec 5) (a : BitVec 5) (o : BitVec 12) : Statement (.vld v a o) := by
  refine core_of _ 0x6C000000 [⟨5, 21, v⟩, ⟨5, 16, a⟩, ⟨12, 0, o⟩]
    [(5, 21), (5, 16), (12, 0)] (by decide) rfl rfl rfl fun z ⟨fv, fa, fo, _⟩ hb => ?_
  rw [fields_27 (hb 26 6 (by decide))]
  unfold decodeVectorMem
  rw [show bits z 12 4 = 0 from hb 12 4 (by decide)]
  rw [show field 5 z 21 = v from fv, show field 5 z 16 = a from fa, show field 12 z 0 = o from fo]
  rfl

theorem vst (v : BitVec 5) (a : BitVec 5) (o : BitVec 12) : Statement (.vst v a o) := by
  refine core_of _ 0x6C001000 [⟨5, 21, v⟩, ⟨5, 16, a⟩, ⟨12, 0, o⟩]
    [(5, 21), (5, 16), (12, 0)] (by decide) rfl rfl rfl fun z ⟨fv, fa, fo, _⟩ hb => ?_
  rw [fields_27 (hb 26 6 (by decide))]
  unfold decodeVectorMem
  rw [show bits z 12 4 = 1 from hb 12 4 (by decide)]
  rw [show field 5 z 21 = v from fv, show field 5 z 16 = a from fa, show field 12 z 0 = o from fo]
  rfl

theorem vldp (v : BitVec 5) (p : BitVec 3) (o : BitVec 12) : Statement (.vldp v p o) := by
  refine core_of _ 0x6C002000 [⟨5, 21, v⟩, ⟨3, 16, p⟩, ⟨12, 0, o⟩]
    [(5, 21), (3, 16), (12, 0)] (by decide) rfl rfl rfl fun z ⟨fv, fp, fo, _⟩ hb => ?_
  rw [fields_27 (hb 26 6 (by decide))]
  unfold decodeVectorMem
  rw [show bits z 12 4 = 2 from hb 12 4 (by decide)]
  rw [show field 5 z 21 = v from fv, show field 3 z 16 = p from fp, show field 12 z 0 = o from fo]
  exact if_pos (hb 19 2 (by decide))

theorem vstp (v : BitVec 5) (p : BitVec 3) (o : BitVec 12) : Statement (.vstp v p o) := by
  refine core_of _ 0x6C003000 [⟨5, 21, v⟩, ⟨3, 16, p⟩, ⟨12, 0, o⟩]
    [(5, 21), (3, 16), (12, 0)] (by decide) rfl rfl rfl fun z ⟨fv, fp, fo, _⟩ hb => ?_
  rw [fields_27 (hb 26 6 (by decide))]
  unfold decodeVectorMem
  rw [show bits z 12 4 = 3 from hb 12 4 (by decide)]
  rw [show field 5 z 21 = v from fv, show field 3 z 16 = p from fp, show field 12 z 0 = o from fo]
  exact if_pos (hb 19 2 (by decide))

theorem lda (t : BitVec 5) (a : BitVec 5) (s : BitVec 3) (y : BitVec 3) : Statement (.lda t a s y) := by
  refine core_of _ 0x70000100 [⟨5, 21, t⟩, ⟨5, 16, a⟩, ⟨3, 9, s⟩, ⟨3, 5, y⟩]
    [(5, 21), (5, 16), (3, 9), (3, 5)] (by decide) rfl rfl rfl fun z ⟨ft, fa, fs, fy, _⟩ hb => ?_
  rw [fields_28 (hb 26 6 (by decide))]
  unfold decodeOrder
  rw [show bits z 12 4 = 0 from hb 12 4 (by decide)]
  rw [show field 5 z 21 = t from ft, show field 5 z 16 = a from fa, show field 3 z 9 = s from fs, show field 3 z 5 = y from fy]
  exact if_pos ⟨hb 0 5 (by decide), hb 8 1 (by decide)⟩

theorem stl (t : BitVec 5) (a : BitVec 5) (s : BitVec 3) (y : BitVec 3) : Statement (.stl t a s y) := by
  refine core_of _ 0x70001100 [⟨5, 21, t⟩, ⟨5, 16, a⟩, ⟨3, 9, s⟩, ⟨3, 5, y⟩]
    [(5, 21), (5, 16), (3, 9), (3, 5)] (by decide) rfl rfl rfl fun z ⟨ft, fa, fs, fy, _⟩ hb => ?_
  rw [fields_28 (hb 26 6 (by decide))]
  unfold decodeOrder
  rw [show bits z 12 4 = 1 from hb 12 4 (by decide)]
  rw [show field 5 z 21 = t from ft, show field 5 z 16 = a from fa, show field 3 z 9 = s from fs, show field 3 z 5 = y from fy]
  exact if_pos ⟨hb 0 5 (by decide), hb 8 1 (by decide)⟩

theorem fence (s : BitVec 3) : Statement (.fence s) := by
  refine core_of _ 0x70002000 [⟨3, 9, s⟩]
    [(3, 9)] (by decide) rfl rfl rfl fun z ⟨fs, _⟩ hb => ?_
  rw [fields_28 (hb 26 6 (by decide))]
  unfold decodeOrder
  rw [show bits z 12 4 = 2 from hb 12 4 (by decide)]
  rw [show field 3 z 9 = s from fs]
  exact if_pos ⟨hb 0 9 (by decide), hb 16 10 (by decide)⟩

theorem tclr (d : BitVec 5) : Statement (.tclr d) := by
  refine core_of _ 0x74000000 [⟨5, 21, d⟩]
    [(5, 21)] (by decide) rfl rfl rfl fun z ⟨fd, _⟩ hb => ?_
  rw [fields_29 (hb 26 6 (by decide))]
  unfold decodeTaint
  rw [show bits z 0 6 = 0 from hb 0 6 (by decide)]
  rw [show field 5 z 21 = d from fd]
  exact if_pos (hb 6 15 (by decide))

theorem tdep (d : BitVec 5) (a : BitVec 5) : Statement (.tdep d a) := by
  refine core_of _ 0x74000001 [⟨5, 21, d⟩, ⟨5, 16, a⟩]
    [(5, 21), (5, 16)] (by decide) rfl rfl rfl fun z ⟨fd, fa, _⟩ hb => ?_
  rw [fields_29 (hb 26 6 (by decide))]
  unfold decodeTaint
  rw [show bits z 0 6 = 1 from hb 0 6 (by decide)]
  rw [show field 5 z 21 = d from fd, show field 5 z 16 = a from fa]
  exact if_pos (hb 6 10 (by decide))

theorem vtclr (d : BitVec 5) : Statement (.vtclr d) := by
  refine core_of _ 0x74000002 [⟨5, 21, d⟩]
    [(5, 21)] (by decide) rfl rfl rfl fun z ⟨fd, _⟩ hb => ?_
  rw [fields_29 (hb 26 6 (by decide))]
  unfold decodeTaint
  rw [show bits z 0 6 = 2 from hb 0 6 (by decide)]
  rw [show field 5 z 21 = d from fd]
  exact if_pos (hb 6 15 (by decide))

theorem vtdep (d : BitVec 5) (a : BitVec 5) : Statement (.vtdep d a) := by
  refine core_of _ 0x74000003 [⟨5, 21, d⟩, ⟨5, 16, a⟩]
    [(5, 21), (5, 16)] (by decide) rfl rfl rfl fun z ⟨fd, fa, _⟩ hb => ?_
  rw [fields_29 (hb 26 6 (by decide))]
  unfold decodeTaint
  rw [show bits z 0 6 = 3 from hb 0 6 (by decide)]
  rw [show field 5 z 21 = d from fd, show field 5 z 16 = a from fa]
  exact if_pos (hb 6 10 (by decide))

theorem aswap (t : BitVec 5) (a : BitVec 5) (b : BitVec 5) (s : BitVec 3) (w : BitVec 1) : Statement (.aswap t a b s w) := by
  refine core_of _ 0x78000000 [⟨5, 21, t⟩, ⟨5, 16, a⟩, ⟨5, 11, b⟩, ⟨3, 8, s⟩, ⟨1, 7, w⟩]
    [(5, 21), (5, 16), (5, 11), (3, 8), (1, 7)] (by decide) rfl rfl rfl fun z ⟨ft, fa, fb, fs, fw, _⟩ hb => ?_
  rw [fields_30 (hb 26 6 (by decide))]
  unfold decodeAtomic
  rw [show bits z 0 6 = 0 from hb 0 6 (by decide)]
  rw [show field 5 z 21 = t from ft, show field 5 z 16 = a from fa, show field 5 z 11 = b from fb, show field 3 z 8 = s from fs, show field 1 z 7 = w from fw]
  exact if_pos (hb 6 1 (by decide))

theorem acas (t : BitVec 5) (a : BitVec 5) (b : BitVec 5) (s : BitVec 3) (w : BitVec 1) : Statement (.acas t a b s w) := by
  refine core_of _ 0x78000001 [⟨5, 21, t⟩, ⟨5, 16, a⟩, ⟨5, 11, b⟩, ⟨3, 8, s⟩, ⟨1, 7, w⟩]
    [(5, 21), (5, 16), (5, 11), (3, 8), (1, 7)] (by decide) rfl rfl rfl fun z ⟨ft, fa, fb, fs, fw, _⟩ hb => ?_
  rw [fields_30 (hb 26 6 (by decide))]
  unfold decodeAtomic
  rw [show bits z 0 6 = 1 from hb 0 6 (by decide)]
  rw [show field 5 z 21 = t from ft, show field 5 z 16 = a from fa, show field 5 z 11 = b from fb, show field 3 z 8 = s from fs, show field 1 z 7 = w from fw]
  exact if_pos (hb 6 1 (by decide))

theorem aadd (t : BitVec 5) (a : BitVec 5) (b : BitVec 5) (s : BitVec 3) (w : BitVec 1) : Statement (.aadd t a b s w) := by
  refine core_of _ 0x78000002 [⟨5, 21, t⟩, ⟨5, 16, a⟩, ⟨5, 11, b⟩, ⟨3, 8, s⟩, ⟨1, 7, w⟩]
    [(5, 21), (5, 16), (5, 11), (3, 8), (1, 7)] (by decide) rfl rfl rfl fun z ⟨ft, fa, fb, fs, fw, _⟩ hb => ?_
  rw [fields_30 (hb 26 6 (by decide))]
  unfold decodeAtomic
  rw [show bits z 0 6 = 2 from hb 0 6 (by decide)]
  rw [show field 5 z 21 = t from ft, show field 5 z 16 = a from fa, show field 5 z 11 = b from fb, show field 3 z 8 = s from fs, show field 1 z 7 = w from fw]
  exact if_pos (hb 6 1 (by decide))

theorem aand (t : BitVec 5) (a : BitVec 5) (b : BitVec 5) (s : BitVec 3) (w : BitVec 1) : Statement (.aand t a b s w) := by
  refine core_of _ 0x78000003 [⟨5, 21, t⟩, ⟨5, 16, a⟩, ⟨5, 11, b⟩, ⟨3, 8, s⟩, ⟨1, 7, w⟩]
    [(5, 21), (5, 16), (5, 11), (3, 8), (1, 7)] (by decide) rfl rfl rfl fun z ⟨ft, fa, fb, fs, fw, _⟩ hb => ?_
  rw [fields_30 (hb 26 6 (by decide))]
  unfold decodeAtomic
  rw [show bits z 0 6 = 3 from hb 0 6 (by decide)]
  rw [show field 5 z 21 = t from ft, show field 5 z 16 = a from fa, show field 5 z 11 = b from fb, show field 3 z 8 = s from fs, show field 1 z 7 = w from fw]
  exact if_pos (hb 6 1 (by decide))

theorem aor (t : BitVec 5) (a : BitVec 5) (b : BitVec 5) (s : BitVec 3) (w : BitVec 1) : Statement (.aor t a b s w) := by
  refine core_of _ 0x78000004 [⟨5, 21, t⟩, ⟨5, 16, a⟩, ⟨5, 11, b⟩, ⟨3, 8, s⟩, ⟨1, 7, w⟩]
    [(5, 21), (5, 16), (5, 11), (3, 8), (1, 7)] (by decide) rfl rfl rfl fun z ⟨ft, fa, fb, fs, fw, _⟩ hb => ?_
  rw [fields_30 (hb 26 6 (by decide))]
  unfold decodeAtomic
  rw [show bits z 0 6 = 4 from hb 0 6 (by decide)]
  rw [show field 5 z 21 = t from ft, show field 5 z 16 = a from fa, show field 5 z 11 = b from fb, show field 3 z 8 = s from fs, show field 1 z 7 = w from fw]
  exact if_pos (hb 6 1 (by decide))

theorem axor (t : BitVec 5) (a : BitVec 5) (b : BitVec 5) (s : BitVec 3) (w : BitVec 1) : Statement (.axor t a b s w) := by
  refine core_of _ 0x78000005 [⟨5, 21, t⟩, ⟨5, 16, a⟩, ⟨5, 11, b⟩, ⟨3, 8, s⟩, ⟨1, 7, w⟩]
    [(5, 21), (5, 16), (5, 11), (3, 8), (1, 7)] (by decide) rfl rfl rfl fun z ⟨ft, fa, fb, fs, fw, _⟩ hb => ?_
  rw [fields_30 (hb 26 6 (by decide))]
  unfold decodeAtomic
  rw [show bits z 0 6 = 5 from hb 0 6 (by decide)]
  rw [show field 5 z 21 = t from ft, show field 5 z 16 = a from fa, show field 5 z 11 = b from fb, show field 3 z 8 = s from fs, show field 1 z 7 = w from fw]
  exact if_pos (hb 6 1 (by decide))

theorem amin (t : BitVec 5) (a : BitVec 5) (b : BitVec 5) (s : BitVec 3) (w : BitVec 1) (g : BitVec 1) : Statement (.amin t a b s w g) := by
  refine core_of _ 0x78000006 [⟨5, 21, t⟩, ⟨5, 16, a⟩, ⟨5, 11, b⟩, ⟨3, 8, s⟩, ⟨1, 7, w⟩, ⟨1, 6, g⟩]
    [(5, 21), (5, 16), (5, 11), (3, 8), (1, 7), (1, 6)] (by decide) rfl rfl rfl fun z ⟨ft, fa, fb, fs, fw, fg, _⟩ hb => ?_
  rw [fields_30 (hb 26 6 (by decide))]
  unfold decodeAtomic
  rw [show bits z 0 6 = 6 from hb 0 6 (by decide)]
  rw [show field 5 z 21 = t from ft, show field 5 z 16 = a from fa, show field 5 z 11 = b from fb, show field 3 z 8 = s from fs, show field 1 z 7 = w from fw, show field 1 z 6 = g from fg]
  rfl

theorem amax (t : BitVec 5) (a : BitVec 5) (b : BitVec 5) (s : BitVec 3) (w : BitVec 1) (g : BitVec 1) : Statement (.amax t a b s w g) := by
  refine core_of _ 0x78000007 [⟨5, 21, t⟩, ⟨5, 16, a⟩, ⟨5, 11, b⟩, ⟨3, 8, s⟩, ⟨1, 7, w⟩, ⟨1, 6, g⟩]
    [(5, 21), (5, 16), (5, 11), (3, 8), (1, 7), (1, 6)] (by decide) rfl rfl rfl fun z ⟨ft, fa, fb, fs, fw, fg, _⟩ hb => ?_
  rw [fields_30 (hb 26 6 (by decide))]
  unfold decodeAtomic
  rw [show bits z 0 6 = 7 from hb 0 6 (by decide)]
  rw [show field 5 z 21 = t from ft, show field 5 z 16 = a from fa, show field 5 z 11 = b from fb, show field 3 z 8 = s from fs, show field 1 z 7 = w from fw, show field 1 z 6 = g from fg]
  rfl

theorem afadd (t : BitVec 5) (a : BitVec 5) (b : BitVec 5) (s : BitVec 3) : Statement (.afadd t a b s) := by
  refine core_of _ 0x78000008 [⟨5, 21, t⟩, ⟨5, 16, a⟩, ⟨5, 11, b⟩, ⟨3, 8, s⟩]
    [(5, 21), (5, 16), (5, 11), (3, 8)] (by decide) rfl rfl rfl fun z ⟨ft, fa, fb, fs, _⟩ hb => ?_
  rw [fields_30 (hb 26 6 (by decide))]
  unfold decodeAtomic
  rw [show bits z 0 6 = 8 from hb 0 6 (by decide)]
  rw [show field 5 z 21 = t from ft, show field 5 z 16 = a from fa, show field 5 z 11 = b from fb, show field 3 z 8 = s from fs]
  exact if_pos (hb 6 2 (by decide))

theorem radd (a : BitVec 5) (b : BitVec 5) (s : BitVec 3) (w : BitVec 1) : Statement (.radd a b s w) := by
  refine core_of _ 0x78000009 [⟨5, 16, a⟩, ⟨5, 11, b⟩, ⟨3, 8, s⟩, ⟨1, 7, w⟩]
    [(5, 16), (5, 11), (3, 8), (1, 7)] (by decide) rfl rfl rfl fun z ⟨fa, fb, fs, fw, _⟩ hb => ?_
  rw [fields_30 (hb 26 6 (by decide))]
  unfold decodeAtomic
  rw [show bits z 0 6 = 9 from hb 0 6 (by decide)]
  rw [show field 5 z 16 = a from fa, show field 5 z 11 = b from fb, show field 3 z 8 = s from fs, show field 1 z 7 = w from fw]
  exact if_pos ⟨hb 6 1 (by decide), hb 21 5 (by decide)⟩

theorem rfadd (a : BitVec 5) (b : BitVec 5) (s : BitVec 3) : Statement (.rfadd a b s) := by
  refine core_of _ 0x7800000A [⟨5, 16, a⟩, ⟨5, 11, b⟩, ⟨3, 8, s⟩]
    [(5, 16), (5, 11), (3, 8)] (by decide) rfl rfl rfl fun z ⟨fa, fb, fs, _⟩ hb => ?_
  rw [fields_30 (hb 26 6 (by decide))]
  unfold decodeAtomic
  rw [show bits z 0 6 = 10 from hb 0 6 (by decide)]
  rw [show field 5 z 16 = a from fa, show field 5 z 11 = b from fb, show field 3 z 8 = s from fs]
  exact if_pos ⟨hb 6 2 (by decide), hb 21 5 (by decide)⟩

theorem stn4 (t : BitVec 5) (a : BitVec 5) (o : BitVec 12) : Statement (.stn4 t a o) := by
  refine core_of _ 0x7C000000 [⟨5, 21, t⟩, ⟨5, 16, a⟩, ⟨12, 0, o⟩]
    [(5, 21), (5, 16), (12, 0)] (by decide) rfl rfl rfl fun z ⟨ft, fa, fo, _⟩ hb => ?_
  rw [fields_31 (hb 26 6 (by decide))]
  unfold decodeSubByte
  rw [show bits z 12 4 = 0 from hb 12 4 (by decide)]
  rw [show field 5 z 21 = t from ft, show field 5 z 16 = a from fa, show field 12 z 0 = o from fo]
  rfl

theorem vadd (d : BitVec 5) (a : BitVec 5) (b : BitVec 5) (y : BitVec 4) (m : BitVec 2) : Statement (.vadd d a b y m) := by
  refine core_of _ 0x80000000 [⟨5, 21, d⟩, ⟨5, 16, a⟩, ⟨5, 11, b⟩, ⟨4, 7, y⟩, ⟨2, 5, m⟩]
    [(5, 21), (5, 16), (5, 11), (4, 7), (2, 5)] (by decide) rfl rfl rfl fun z ⟨fd, fa, fb, fy, fm, _⟩ hb => ?_
  rw [fields_32 (hb 26 6 (by decide))]
  unfold decodeVecArith
  rw [show bits z 0 5 = 0 from hb 0 5 (by decide)]
  rw [show field 5 z 21 = d from fd, show field 5 z 16 = a from fa, show field 5 z 11 = b from fb, show field 4 z 7 = y from fy, show field 2 z 5 = m from fm]
  rfl

theorem vsub (d : BitVec 5) (a : BitVec 5) (b : BitVec 5) (y : BitVec 4) (m : BitVec 2) : Statement (.vsub d a b y m) := by
  refine core_of _ 0x80000001 [⟨5, 21, d⟩, ⟨5, 16, a⟩, ⟨5, 11, b⟩, ⟨4, 7, y⟩, ⟨2, 5, m⟩]
    [(5, 21), (5, 16), (5, 11), (4, 7), (2, 5)] (by decide) rfl rfl rfl fun z ⟨fd, fa, fb, fy, fm, _⟩ hb => ?_
  rw [fields_32 (hb 26 6 (by decide))]
  unfold decodeVecArith
  rw [show bits z 0 5 = 1 from hb 0 5 (by decide)]
  rw [show field 5 z 21 = d from fd, show field 5 z 16 = a from fa, show field 5 z 11 = b from fb, show field 4 z 7 = y from fy, show field 2 z 5 = m from fm]
  rfl

theorem vmul (d : BitVec 5) (a : BitVec 5) (b : BitVec 5) (y : BitVec 4) (m : BitVec 2) : Statement (.vmul d a b y m) := by
  refine core_of _ 0x80000002 [⟨5, 21, d⟩, ⟨5, 16, a⟩, ⟨5, 11, b⟩, ⟨4, 7, y⟩, ⟨2, 5, m⟩]
    [(5, 21), (5, 16), (5, 11), (4, 7), (2, 5)] (by decide) rfl rfl rfl fun z ⟨fd, fa, fb, fy, fm, _⟩ hb => ?_
  rw [fields_32 (hb 26 6 (by decide))]
  unfold decodeVecArith
  rw [show bits z 0 5 = 2 from hb 0 5 (by decide)]
  rw [show field 5 z 21 = d from fd, show field 5 z 16 = a from fa, show field 5 z 11 = b from fb, show field 4 z 7 = y from fy, show field 2 z 5 = m from fm]
  rfl

theorem vfma (d : BitVec 5) (a : BitVec 5) (b : BitVec 5) (y : BitVec 4) : Statement (.vfma d a b y) := by
  refine core_of _ 0x80000003 [⟨5, 21, d⟩, ⟨5, 16, a⟩, ⟨5, 11, b⟩, ⟨4, 7, y⟩]
    [(5, 21), (5, 16), (5, 11), (4, 7)] (by decide) rfl rfl rfl fun z ⟨fd, fa, fb, fy, _⟩ hb => ?_
  rw [fields_32 (hb 26 6 (by decide))]
  unfold decodeVecArith
  rw [show bits z 0 5 = 3 from hb 0 5 (by decide)]
  rw [show field 5 z 21 = d from fd, show field 5 z 16 = a from fa, show field 5 z 11 = b from fb, show field 4 z 7 = y from fy]
  exact if_pos (hb 5 2 (by decide))

theorem vmin (d : BitVec 5) (a : BitVec 5) (b : BitVec 5) (y : BitVec 4) : Statement (.vmin d a b y) := by
  refine core_of _ 0x80000004 [⟨5, 21, d⟩, ⟨5, 16, a⟩, ⟨5, 11, b⟩, ⟨4, 7, y⟩]
    [(5, 21), (5, 16), (5, 11), (4, 7)] (by decide) rfl rfl rfl fun z ⟨fd, fa, fb, fy, _⟩ hb => ?_
  rw [fields_32 (hb 26 6 (by decide))]
  unfold decodeVecArith
  rw [show bits z 0 5 = 4 from hb 0 5 (by decide)]
  rw [show field 5 z 21 = d from fd, show field 5 z 16 = a from fa, show field 5 z 11 = b from fb, show field 4 z 7 = y from fy]
  exact if_pos (hb 5 2 (by decide))

theorem vmax (d : BitVec 5) (a : BitVec 5) (b : BitVec 5) (y : BitVec 4) : Statement (.vmax d a b y) := by
  refine core_of _ 0x80000005 [⟨5, 21, d⟩, ⟨5, 16, a⟩, ⟨5, 11, b⟩, ⟨4, 7, y⟩]
    [(5, 21), (5, 16), (5, 11), (4, 7)] (by decide) rfl rfl rfl fun z ⟨fd, fa, fb, fy, _⟩ hb => ?_
  rw [fields_32 (hb 26 6 (by decide))]
  unfold decodeVecArith
  rw [show bits z 0 5 = 5 from hb 0 5 (by decide)]
  rw [show field 5 z 21 = d from fd, show field 5 z 16 = a from fa, show field 5 z 11 = b from fb, show field 4 z 7 = y from fy]
  exact if_pos (hb 5 2 (by decide))

theorem vabs (d : BitVec 5) (a : BitVec 5) (y : BitVec 4) : Statement (.vabs d a y) := by
  refine core_of _ 0x80000006 [⟨5, 21, d⟩, ⟨5, 16, a⟩, ⟨4, 7, y⟩]
    [(5, 21), (5, 16), (4, 7)] (by decide) rfl rfl rfl fun z ⟨fd, fa, fy, _⟩ hb => ?_
  rw [fields_32 (hb 26 6 (by decide))]
  unfold decodeVecArith
  rw [show bits z 0 5 = 6 from hb 0 5 (by decide)]
  rw [show field 5 z 21 = d from fd, show field 5 z 16 = a from fa, show field 4 z 7 = y from fy]
  exact if_pos ⟨hb 5 2 (by decide), hb 11 5 (by decide)⟩

theorem vneg (d : BitVec 5) (a : BitVec 5) (y : BitVec 4) : Statement (.vneg d a y) := by
  refine core_of _ 0x80000007 [⟨5, 21, d⟩, ⟨5, 16, a⟩, ⟨4, 7, y⟩]
    [(5, 21), (5, 16), (4, 7)] (by decide) rfl rfl rfl fun z ⟨fd, fa, fy, _⟩ hb => ?_
  rw [fields_32 (hb 26 6 (by decide))]
  unfold decodeVecArith
  rw [show bits z 0 5 = 7 from hb 0 5 (by decide)]
  rw [show field 5 z 21 = d from fd, show field 5 z 16 = a from fa, show field 4 z 7 = y from fy]
  exact if_pos ⟨hb 5 2 (by decide), hb 11 5 (by decide)⟩

theorem vdiv (d : BitVec 5) (a : BitVec 5) (b : BitVec 5) : Statement (.vdiv d a b) := by
  refine core_of _ 0x80000008 [⟨5, 21, d⟩, ⟨5, 16, a⟩, ⟨5, 11, b⟩]
    [(5, 21), (5, 16), (5, 11)] (by decide) rfl rfl rfl fun z ⟨fd, fa, fb, _⟩ hb => ?_
  rw [fields_32 (hb 26 6 (by decide))]
  unfold decodeVecArith
  rw [show bits z 0 5 = 8 from hb 0 5 (by decide)]
  rw [show field 5 z 21 = d from fd, show field 5 z 16 = a from fa, show field 5 z 11 = b from fb]
  exact if_pos (hb 5 6 (by decide))

theorem vsqrt (d : BitVec 5) (a : BitVec 5) : Statement (.vsqrt d a) := by
  refine core_of _ 0x80000009 [⟨5, 21, d⟩, ⟨5, 16, a⟩]
    [(5, 21), (5, 16)] (by decide) rfl rfl rfl fun z ⟨fd, fa, _⟩ hb => ?_
  rw [fields_32 (hb 26 6 (by decide))]
  unfold decodeVecArith
  rw [show bits z 0 5 = 9 from hb 0 5 (by decide)]
  rw [show field 5 z 21 = d from fd, show field 5 z 16 = a from fa]
  exact if_pos (hb 5 11 (by decide))

theorem vexp2 (d : BitVec 5) (a : BitVec 5) : Statement (.vexp2 d a) := by
  refine core_of _ 0x8000000A [⟨5, 21, d⟩, ⟨5, 16, a⟩]
    [(5, 21), (5, 16)] (by decide) rfl rfl rfl fun z ⟨fd, fa, _⟩ hb => ?_
  rw [fields_32 (hb 26 6 (by decide))]
  unfold decodeVecArith
  rw [show bits z 0 5 = 10 from hb 0 5 (by decide)]
  rw [show field 5 z 21 = d from fd, show field 5 z 16 = a from fa]
  exact if_pos (hb 5 11 (by decide))

theorem vand (d : BitVec 5) (a : BitVec 5) (b : BitVec 5) (y : BitVec 4) : Statement (.vand d a b y) := by
  refine core_of _ 0x8000000B [⟨5, 21, d⟩, ⟨5, 16, a⟩, ⟨5, 11, b⟩, ⟨4, 7, y⟩]
    [(5, 21), (5, 16), (5, 11), (4, 7)] (by decide) rfl rfl rfl fun z ⟨fd, fa, fb, fy, _⟩ hb => ?_
  rw [fields_32 (hb 26 6 (by decide))]
  unfold decodeVecArith
  rw [show bits z 0 5 = 11 from hb 0 5 (by decide)]
  rw [show field 5 z 21 = d from fd, show field 5 z 16 = a from fa, show field 5 z 11 = b from fb, show field 4 z 7 = y from fy]
  exact if_pos (hb 5 2 (by decide))

theorem vor (d : BitVec 5) (a : BitVec 5) (b : BitVec 5) (y : BitVec 4) : Statement (.vor d a b y) := by
  refine core_of _ 0x8000000C [⟨5, 21, d⟩, ⟨5, 16, a⟩, ⟨5, 11, b⟩, ⟨4, 7, y⟩]
    [(5, 21), (5, 16), (5, 11), (4, 7)] (by decide) rfl rfl rfl fun z ⟨fd, fa, fb, fy, _⟩ hb => ?_
  rw [fields_32 (hb 26 6 (by decide))]
  unfold decodeVecArith
  rw [show bits z 0 5 = 12 from hb 0 5 (by decide)]
  rw [show field 5 z 21 = d from fd, show field 5 z 16 = a from fa, show field 5 z 11 = b from fb, show field 4 z 7 = y from fy]
  exact if_pos (hb 5 2 (by decide))

theorem vxor (d : BitVec 5) (a : BitVec 5) (b : BitVec 5) (y : BitVec 4) : Statement (.vxor d a b y) := by
  refine core_of _ 0x8000000D [⟨5, 21, d⟩, ⟨5, 16, a⟩, ⟨5, 11, b⟩, ⟨4, 7, y⟩]
    [(5, 21), (5, 16), (5, 11), (4, 7)] (by decide) rfl rfl rfl fun z ⟨fd, fa, fb, fy, _⟩ hb => ?_
  rw [fields_32 (hb 26 6 (by decide))]
  unfold decodeVecArith
  rw [show bits z 0 5 = 13 from hb 0 5 (by decide)]
  rw [show field 5 z 21 = d from fd, show field 5 z 16 = a from fa, show field 5 z 11 = b from fb, show field 4 z 7 = y from fy]
  exact if_pos (hb 5 2 (by decide))

theorem vshl (d : BitVec 5) (a : BitVec 5) (b : BitVec 5) (y : BitVec 4) : Statement (.vshl d a b y) := by
  refine core_of _ 0x8000000E [⟨5, 21, d⟩, ⟨5, 16, a⟩, ⟨5, 11, b⟩, ⟨4, 7, y⟩]
    [(5, 21), (5, 16), (5, 11), (4, 7)] (by decide) rfl rfl rfl fun z ⟨fd, fa, fb, fy, _⟩ hb => ?_
  rw [fields_32 (hb 26 6 (by decide))]
  unfold decodeVecArith
  rw [show bits z 0 5 = 14 from hb 0 5 (by decide)]
  rw [show field 5 z 21 = d from fd, show field 5 z 16 = a from fa, show field 5 z 11 = b from fb, show field 4 z 7 = y from fy]
  exact if_pos (hb 5 2 (by decide))

theorem vshr (d : BitVec 5) (a : BitVec 5) (b : BitVec 5) (y : BitVec 4) : Statement (.vshr d a b y) := by
  refine core_of _ 0x8000000F [⟨5, 21, d⟩, ⟨5, 16, a⟩, ⟨5, 11, b⟩, ⟨4, 7, y⟩]
    [(5, 21), (5, 16), (5, 11), (4, 7)] (by decide) rfl rfl rfl fun z ⟨fd, fa, fb, fy, _⟩ hb => ?_
  rw [fields_32 (hb 26 6 (by decide))]
  unfold decodeVecArith
  rw [show bits z 0 5 = 15 from hb 0 5 (by decide)]
  rw [show field 5 z 21 = d from fd, show field 5 z 16 = a from fa, show field 5 z 11 = b from fb, show field 4 z 7 = y from fy]
  exact if_pos (hb 5 2 (by decide))

theorem vceq (d : BitVec 5) (a : BitVec 5) (b : BitVec 5) (y : BitVec 4) : Statement (.vceq d a b y) := by
  refine core_of _ 0x84000000 [⟨5, 21, d⟩, ⟨5, 16, a⟩, ⟨5, 11, b⟩, ⟨4, 7, y⟩]
    [(5, 21), (5, 16), (5, 11), (4, 7)] (by decide) rfl rfl rfl fun z ⟨fd, fa, fb, fy, _⟩ hb => ?_
  rw [fields_33 (hb 26 6 (by decide))]
  unfold decodeVecCompare
  rw [show bits z 0 5 = 0 from hb 0 5 (by decide)]
  rw [show field 5 z 21 = d from fd, show field 5 z 16 = a from fa, show field 5 z 11 = b from fb, show field 4 z 7 = y from fy]
  exact if_pos (hb 5 2 (by decide))

theorem vclt (d : BitVec 5) (a : BitVec 5) (b : BitVec 5) (y : BitVec 4) : Statement (.vclt d a b y) := by
  refine core_of _ 0x84000001 [⟨5, 21, d⟩, ⟨5, 16, a⟩, ⟨5, 11, b⟩, ⟨4, 7, y⟩]
    [(5, 21), (5, 16), (5, 11), (4, 7)] (by decide) rfl rfl rfl fun z ⟨fd, fa, fb, fy, _⟩ hb => ?_
  rw [fields_33 (hb 26 6 (by decide))]
  unfold decodeVecCompare
  rw [show bits z 0 5 = 1 from hb 0 5 (by decide)]
  rw [show field 5 z 21 = d from fd, show field 5 z 16 = a from fa, show field 5 z 11 = b from fb, show field 4 z 7 = y from fy]
  exact if_pos (hb 5 2 (by decide))

theorem vcle (d : BitVec 5) (a : BitVec 5) (b : BitVec 5) (y : BitVec 4) : Statement (.vcle d a b y) := by
  refine core_of _ 0x84000002 [⟨5, 21, d⟩, ⟨5, 16, a⟩, ⟨5, 11, b⟩, ⟨4, 7, y⟩]
    [(5, 21), (5, 16), (5, 11), (4, 7)] (by decide) rfl rfl rfl fun z ⟨fd, fa, fb, fy, _⟩ hb => ?_
  rw [fields_33 (hb 26 6 (by decide))]
  unfold decodeVecCompare
  rw [show bits z 0 5 = 2 from hb 0 5 (by decide)]
  rw [show field 5 z 21 = d from fd, show field 5 z 16 = a from fa, show field 5 z 11 = b from fb, show field 4 z 7 = y from fy]
  exact if_pos (hb 5 2 (by decide))

theorem vsel (d : BitVec 5) (a : BitVec 5) (b : BitVec 5) (y : BitVec 4) : Statement (.vsel d a b y) := by
  refine core_of _ 0x84000003 [⟨5, 21, d⟩, ⟨5, 16, a⟩, ⟨5, 11, b⟩, ⟨4, 7, y⟩]
    [(5, 21), (5, 16), (5, 11), (4, 7)] (by decide) rfl rfl rfl fun z ⟨fd, fa, fb, fy, _⟩ hb => ?_
  rw [fields_33 (hb 26 6 (by decide))]
  unfold decodeVecCompare
  rw [show bits z 0 5 = 3 from hb 0 5 (by decide)]
  rw [show field 5 z 21 = d from fd, show field 5 z 16 = a from fa, show field 5 z 11 = b from fb, show field 4 z 7 = y from fy]
  exact if_pos (hb 5 2 (by decide))

theorem vrsum (d : BitVec 5) (a : BitVec 5) (y : BitVec 4) : Statement (.vrsum d a y) := by
  refine core_of _ 0x88000000 [⟨5, 21, d⟩, ⟨5, 16, a⟩, ⟨4, 7, y⟩]
    [(5, 21), (5, 16), (4, 7)] (by decide) rfl rfl rfl fun z ⟨fd, fa, fy, _⟩ hb => ?_
  rw [fields_34 (hb 26 6 (by decide))]
  unfold decodeVecReduce
  rw [show bits z 0 5 = 0 from hb 0 5 (by decide)]
  rw [show field 5 z 21 = d from fd, show field 5 z 16 = a from fa, show field 4 z 7 = y from fy]
  exact if_pos ⟨hb 5 2 (by decide), hb 11 5 (by decide)⟩

theorem vrmax (d : BitVec 5) (a : BitVec 5) (y : BitVec 4) : Statement (.vrmax d a y) := by
  refine core_of _ 0x88000001 [⟨5, 21, d⟩, ⟨5, 16, a⟩, ⟨4, 7, y⟩]
    [(5, 21), (5, 16), (4, 7)] (by decide) rfl rfl rfl fun z ⟨fd, fa, fy, _⟩ hb => ?_
  rw [fields_34 (hb 26 6 (by decide))]
  unfold decodeVecReduce
  rw [show bits z 0 5 = 1 from hb 0 5 (by decide)]
  rw [show field 5 z 21 = d from fd, show field 5 z 16 = a from fa, show field 4 z 7 = y from fy]
  exact if_pos ⟨hb 5 2 (by decide), hb 11 5 (by decide)⟩

theorem vrmin (d : BitVec 5) (a : BitVec 5) (y : BitVec 4) : Statement (.vrmin d a y) := by
  refine core_of _ 0x88000002 [⟨5, 21, d⟩, ⟨5, 16, a⟩, ⟨4, 7, y⟩]
    [(5, 21), (5, 16), (4, 7)] (by decide) rfl rfl rfl fun z ⟨fd, fa, fy, _⟩ hb => ?_
  rw [fields_34 (hb 26 6 (by decide))]
  unfold decodeVecReduce
  rw [show bits z 0 5 = 2 from hb 0 5 (by decide)]
  rw [show field 5 z 21 = d from fd, show field 5 z 16 = a from fa, show field 4 z 7 = y from fy]
  exact if_pos ⟨hb 5 2 (by decide), hb 11 5 (by decide)⟩

theorem vperm (d : BitVec 5) (a : BitVec 5) (b : BitVec 5) (y : BitVec 4) : Statement (.vperm d a b y) := by
  refine core_of _ 0x8C000000 [⟨5, 21, d⟩, ⟨5, 16, a⟩, ⟨5, 11, b⟩, ⟨4, 7, y⟩]
    [(5, 21), (5, 16), (5, 11), (4, 7)] (by decide) rfl rfl rfl fun z ⟨fd, fa, fb, fy, _⟩ hb => ?_
  rw [fields_35 (hb 26 6 (by decide))]
  unfold decodeVecLane
  rw [show bits z 0 5 = 0 from hb 0 5 (by decide)]
  rw [show field 5 z 21 = d from fd, show field 5 z 16 = a from fa, show field 5 z 11 = b from fb, show field 4 z 7 = y from fy]
  exact if_pos (hb 5 2 (by decide))

theorem vrot (d : BitVec 5) (a : BitVec 5) (b : BitVec 5) (y : BitVec 4) : Statement (.vrot d a b y) := by
  refine core_of _ 0x8C000001 [⟨5, 21, d⟩, ⟨5, 16, a⟩, ⟨5, 11, b⟩, ⟨4, 7, y⟩]
    [(5, 21), (5, 16), (5, 11), (4, 7)] (by decide) rfl rfl rfl fun z ⟨fd, fa, fb, fy, _⟩ hb => ?_
  rw [fields_35 (hb 26 6 (by decide))]
  unfold decodeVecLane
  rw [show bits z 0 5 = 1 from hb 0 5 (by decide)]
  rw [show field 5 z 21 = d from fd, show field 5 z 16 = a from fa, show field 5 z 11 = b from fb, show field 4 z 7 = y from fy]
  exact if_pos (hb 5 2 (by decide))

theorem vbcst (d : BitVec 5) (a : BitVec 5) (y : BitVec 4) : Statement (.vbcst d a y) := by
  refine core_of _ 0x8C000002 [⟨5, 21, d⟩, ⟨5, 16, a⟩, ⟨4, 7, y⟩]
    [(5, 21), (5, 16), (4, 7)] (by decide) rfl rfl rfl fun z ⟨fd, fa, fy, _⟩ hb => ?_
  rw [fields_35 (hb 26 6 (by decide))]
  unfold decodeVecLane
  rw [show bits z 0 5 = 2 from hb 0 5 (by decide)]
  rw [show field 5 z 21 = d from fd, show field 5 z 16 = a from fa, show field 4 z 7 = y from fy]
  exact if_pos ⟨hb 5 2 (by decide), hb 11 5 (by decide)⟩

theorem vext (d : BitVec 5) (a : BitVec 5) (b : BitVec 5) (y : BitVec 4) : Statement (.vext d a b y) := by
  refine core_of _ 0x8C000003 [⟨5, 21, d⟩, ⟨5, 16, a⟩, ⟨5, 11, b⟩, ⟨4, 7, y⟩]
    [(5, 21), (5, 16), (5, 11), (4, 7)] (by decide) rfl rfl rfl fun z ⟨fd, fa, fb, fy, _⟩ hb => ?_
  rw [fields_35 (hb 26 6 (by decide))]
  unfold decodeVecLane
  rw [show bits z 0 5 = 3 from hb 0 5 (by decide)]
  rw [show field 5 z 21 = d from fd, show field 5 z 16 = a from fa, show field 5 z 11 = b from fb, show field 4 z 7 = y from fy]
  exact if_pos (hb 5 2 (by decide))

theorem vins (d : BitVec 5) (a : BitVec 5) (b : BitVec 5) (y : BitVec 4) : Statement (.vins d a b y) := by
  refine core_of _ 0x8C000004 [⟨5, 21, d⟩, ⟨5, 16, a⟩, ⟨5, 11, b⟩, ⟨4, 7, y⟩]
    [(5, 21), (5, 16), (5, 11), (4, 7)] (by decide) rfl rfl rfl fun z ⟨fd, fa, fb, fy, _⟩ hb => ?_
  rw [fields_35 (hb 26 6 (by decide))]
  unfold decodeVecLane
  rw [show bits z 0 5 = 4 from hb 0 5 (by decide)]
  rw [show field 5 z 21 = d from fd, show field 5 z 16 = a from fa, show field 5 z 11 = b from fb, show field 4 z 7 = y from fy]
  exact if_pos (hb 5 2 (by decide))

theorem vcvt (d : BitVec 5) (a : BitVec 5) (s : BitVec 4) (y : BitVec 4) : Statement (.vcvt d a s y) := by
  refine core_of _ 0x90000000 [⟨5, 21, d⟩, ⟨5, 16, a⟩, ⟨4, 11, s⟩, ⟨4, 7, y⟩]
    [(5, 21), (5, 16), (4, 11), (4, 7)] (by decide) rfl rfl rfl fun z ⟨fd, fa, fs, fy, _⟩ hb => ?_
  rw [fields_36 (hb 26 6 (by decide))]
  unfold decodeVecConvert
  rw [show bits z 0 5 = 0 from hb 0 5 (by decide)]
  rw [show field 5 z 21 = d from fd, show field 5 z 16 = a from fa, show field 4 z 11 = s from fs, show field 4 z 7 = y from fy]
  exact if_pos ⟨hb 5 2 (by decide), hb 15 1 (by decide)⟩

theorem vmov (d : BitVec 5) (a : BitVec 5) : Statement (.vmov d a) := by
  refine core_of _ 0x90000001 [⟨5, 21, d⟩, ⟨5, 16, a⟩]
    [(5, 21), (5, 16)] (by decide) rfl rfl rfl fun z ⟨fd, fa, _⟩ hb => ?_
  rw [fields_36 (hb 26 6 (by decide))]
  unfold decodeVecConvert
  rw [show bits z 0 5 = 1 from hb 0 5 (by decide)]
  rw [show field 5 z 21 = d from fd, show field 5 z 16 = a from fa]
  exact if_pos (hb 5 11 (by decide))

theorem mma (a : BitVec 5) (b : BitVec 5) (s : BitVec 4) : Statement (.mma a b s) := by
  refine core_of _ 0xB0000000 [⟨5, 21, a⟩, ⟨5, 16, b⟩, ⟨4, 0, s⟩]
    [(5, 21), (5, 16), (4, 0)] (by decide) rfl rfl rfl fun z ⟨fa, fb, fs, _⟩ hb => ?_
  rw [fields_44 (hb 26 6 (by decide))]
  unfold decodeCommand
  rw [show bits z 4 12 = 0 from hb 4 12 (by decide)]
  rw [show field 5 z 21 = a from fa, show field 5 z 16 = b from fb, show field 4 z 0 = s from fs]
  rfl

theorem mmag (a : BitVec 5) (b : BitVec 5) (m : BitVec 1) (c : BitVec 2) : Statement (.mmag a b m c) := by
  refine core_of _ 0xB0000010 [⟨5, 21, a⟩, ⟨5, 16, b⟩, ⟨1, 3, m⟩, ⟨2, 0, c⟩]
    [(5, 21), (5, 16), (1, 3), (2, 0)] (by decide) rfl rfl rfl fun z ⟨fa, fb, fm, fc, _⟩ hb => ?_
  rw [fields_44 (hb 26 6 (by decide))]
  unfold decodeCommand
  rw [show bits z 4 12 = 1 from hb 4 12 (by decide)]
  rw [show field 5 z 21 = a from fa, show field 5 z 16 = b from fb, show field 1 z 3 = m from fm, show field 2 z 0 = c from fc]
  exact if_pos (hb 2 1 (by decide))

theorem mmas (a : BitVec 5) (b : BitVec 5) (s : BitVec 4) : Statement (.mmas a b s) := by
  refine core_of _ 0xB0000020 [⟨5, 21, a⟩, ⟨5, 16, b⟩, ⟨4, 0, s⟩]
    [(5, 21), (5, 16), (4, 0)] (by decide) rfl rfl rfl fun z ⟨fa, fb, fs, _⟩ hb => ?_
  rw [fields_44 (hb 26 6 (by decide))]
  unfold decodeCommand
  rw [show bits z 4 12 = 2 from hb 4 12 (by decide)]
  rw [show field 5 z 21 = a from fa, show field 5 z 16 = b from fb, show field 4 z 0 = s from fs]
  rfl

theorem mrot (a : BitVec 5) (b : BitVec 5) (s : BitVec 4) : Statement (.mrot a b s) := by
  refine core_of _ 0xB0000030 [⟨5, 21, a⟩, ⟨5, 16, b⟩, ⟨4, 0, s⟩]
    [(5, 21), (5, 16), (4, 0)] (by decide) rfl rfl rfl fun z ⟨fa, fb, fs, _⟩ hb => ?_
  rw [fields_44 (hb 26 6 (by decide))]
  unfold decodeCommand
  rw [show bits z 4 12 = 3 from hb 4 12 (by decide)]
  rw [show field 5 z 21 = a from fa, show field 5 z 16 = b from fb, show field 4 z 0 = s from fs]
  rfl

theorem mzero (c : BitVec 2) : Statement (.mzero c) := by
  refine core_of _ 0xB0000040 [⟨2, 0, c⟩]
    [(2, 0)] (by decide) rfl rfl rfl fun z ⟨fc, _⟩ hb => ?_
  rw [fields_44 (hb 26 6 (by decide))]
  unfold decodeCommand
  rw [show bits z 4 12 = 4 from hb 4 12 (by decide)]
  rw [show field 2 z 0 = c from fc]
  exact if_pos ⟨hb 2 2 (by decide), hb 16 10 (by decide)⟩

theorem mld (a : BitVec 5) (m : BitVec 1) (c : BitVec 2) : Statement (.mld a m c) := by
  refine core_of _ 0xB0000050 [⟨5, 21, a⟩, ⟨1, 2, m⟩, ⟨2, 0, c⟩]
    [(5, 21), (1, 2), (2, 0)] (by decide) rfl rfl rfl fun z ⟨fa, fm, fc, _⟩ hb => ?_
  rw [fields_44 (hb 26 6 (by decide))]
  unfold decodeCommand
  rw [show bits z 4 12 = 5 from hb 4 12 (by decide)]
  rw [show field 5 z 21 = a from fa, show field 1 z 2 = m from fm, show field 2 z 0 = c from fc]
  exact if_pos ⟨hb 3 1 (by decide), hb 16 5 (by decide)⟩

theorem mst (a : BitVec 5) (c : BitVec 2) : Statement (.mst a c) := by
  refine core_of _ 0xB0000060 [⟨5, 21, a⟩, ⟨2, 0, c⟩]
    [(5, 21), (2, 0)] (by decide) rfl rfl rfl fun z ⟨fa, fc, _⟩ hb => ?_
  rw [fields_44 (hb 26 6 (by decide))]
  unfold decodeCommand
  rw [show bits z 4 12 = 6 from hb 4 12 (by decide)]
  rw [show field 5 z 21 = a from fa, show field 2 z 0 = c from fc]
  exact if_pos ⟨hb 2 2 (by decide), hb 16 5 (by decide)⟩

theorem cvt (a : BitVec 5) (b : BitVec 5) (m : BitVec 1) (r : BitVec 3) : Statement (.cvt a b m r) := by
  refine core_of _ 0xB0001000 [⟨5, 21, a⟩, ⟨5, 16, b⟩, ⟨1, 3, m⟩, ⟨3, 0, r⟩]
    [(5, 21), (5, 16), (1, 3), (3, 0)] (by decide) rfl rfl rfl fun z ⟨fa, fb, fm, fr, _⟩ hb => ?_
  rw [fields_44 (hb 26 6 (by decide))]
  unfold decodeCommand
  rw [show bits z 4 12 = 256 from hb 4 12 (by decide)]
  rw [show field 5 z 21 = a from fa, show field 5 z 16 = b from fb, show field 1 z 3 = m from fm, show field 3 z 0 = r from fr]
  rfl

theorem cvb (a : BitVec 5) (b : BitVec 5) (m : BitVec 1) (r : BitVec 3) : Statement (.cvb a b m r) := by
  refine core_of _ 0xB0001010 [⟨5, 21, a⟩, ⟨5, 16, b⟩, ⟨1, 3, m⟩, ⟨3, 0, r⟩]
    [(5, 21), (5, 16), (1, 3), (3, 0)] (by decide) rfl rfl rfl fun z ⟨fa, fb, fm, fr, _⟩ hb => ?_
  rw [fields_44 (hb 26 6 (by decide))]
  unfold decodeCommand
  rw [show bits z 4 12 = 257 from hb 4 12 (by decide)]
  rw [show field 5 z 21 = a from fa, show field 5 z 16 = b from fb, show field 1 z 3 = m from fm, show field 3 z 0 = r from fr]
  rfl

theorem cvq (a : BitVec 5) (b : BitVec 5) (m : BitVec 1) (r : BitVec 3) : Statement (.cvq a b m r) := by
  refine core_of _ 0xB0001020 [⟨5, 21, a⟩, ⟨5, 16, b⟩, ⟨1, 3, m⟩, ⟨3, 0, r⟩]
    [(5, 21), (5, 16), (1, 3), (3, 0)] (by decide) rfl rfl rfl fun z ⟨fa, fb, fm, fr, _⟩ hb => ?_
  rw [fields_44 (hb 26 6 (by decide))]
  unfold decodeCommand
  rw [show bits z 4 12 = 258 from hb 4 12 (by decide)]
  rw [show field 5 z 21 = a from fa, show field 5 z 16 = b from fb, show field 1 z 3 = m from fm, show field 3 z 0 = r from fr]
  rfl

theorem cvqn (a : BitVec 5) (b : BitVec 5) (m : BitVec 1) (r : BitVec 3) : Statement (.cvqn a b m r) := by
  refine core_of _ 0xB0001030 [⟨5, 21, a⟩, ⟨5, 16, b⟩, ⟨1, 3, m⟩, ⟨3, 0, r⟩]
    [(5, 21), (5, 16), (1, 3), (3, 0)] (by decide) rfl rfl rfl fun z ⟨fa, fb, fm, fr, _⟩ hb => ?_
  rw [fields_44 (hb 26 6 (by decide))]
  unfold decodeCommand
  rw [show bits z 4 12 = 259 from hb 4 12 (by decide)]
  rw [show field 5 z 21 = a from fa, show field 5 z 16 = b from fb, show field 1 z 3 = m from fm, show field 3 z 0 = r from fr]
  rfl

theorem cvqnq (a : BitVec 5) (b : BitVec 5) (m : BitVec 1) (r : BitVec 3) : Statement (.cvqnq a b m r) := by
  refine core_of _ 0xB0001040 [⟨5, 21, a⟩, ⟨5, 16, b⟩, ⟨1, 3, m⟩, ⟨3, 0, r⟩]
    [(5, 21), (5, 16), (1, 3), (3, 0)] (by decide) rfl rfl rfl fun z ⟨fa, fb, fm, fr, _⟩ hb => ?_
  rw [fields_44 (hb 26 6 (by decide))]
  unfold decodeCommand
  rw [show bits z 4 12 = 260 from hb 4 12 (by decide)]
  rw [show field 5 z 21 = a from fa, show field 5 z 16 = b from fb, show field 1 z 3 = m from fm, show field 3 z 0 = r from fr]
  rfl

theorem cvtr (a : BitVec 5) (b : BitVec 5) (m : BitVec 1) (r : BitVec 3) : Statement (.cvtr a b m r) := by
  refine core_of _ 0xB0001050 [⟨5, 21, a⟩, ⟨5, 16, b⟩, ⟨1, 3, m⟩, ⟨3, 0, r⟩]
    [(5, 21), (5, 16), (1, 3), (3, 0)] (by decide) rfl rfl rfl fun z ⟨fa, fb, fm, fr, _⟩ hb => ?_
  rw [fields_44 (hb 26 6 (by decide))]
  unfold decodeCommand
  rw [show bits z 4 12 = 261 from hb 4 12 (by decide)]
  rw [show field 5 z 21 = a from fa, show field 5 z 16 = b from fb, show field 1 z 3 = m from fm, show field 3 z 0 = r from fr]
  rfl

theorem twld (a : BitVec 5) (b : BitVec 5) (s : BitVec 2) : Statement (.twld a b s) := by
  refine core_of _ 0xB0002000 [⟨5, 21, a⟩, ⟨5, 16, b⟩, ⟨2, 0, s⟩]
    [(5, 21), (5, 16), (2, 0)] (by decide) rfl rfl rfl fun z ⟨fa, fb, fs, _⟩ hb => ?_
  rw [fields_44 (hb 26 6 (by decide))]
  unfold decodeCommand
  rw [show bits z 4 12 = 512 from hb 4 12 (by decide)]
  rw [show field 5 z 21 = a from fa, show field 5 z 16 = b from fb, show field 2 z 0 = s from fs]
  exact if_pos (hb 2 2 (by decide))

theorem twmc (a : BitVec 5) (b : BitVec 5) (s : BitVec 2) : Statement (.twmc a b s) := by
  refine core_of _ 0xB0002010 [⟨5, 21, a⟩, ⟨5, 16, b⟩, ⟨2, 0, s⟩]
    [(5, 21), (5, 16), (2, 0)] (by decide) rfl rfl rfl fun z ⟨fa, fb, fs, _⟩ hb => ?_
  rw [fields_44 (hb 26 6 (by decide))]
  unfold decodeCommand
  rw [show bits z 4 12 = 513 from hb 4 12 (by decide)]
  rw [show field 5 z 21 = a from fa, show field 5 z 16 = b from fb, show field 2 z 0 = s from fs]
  exact if_pos (hb 2 2 (by decide))

theorem twst (a : BitVec 5) (b : BitVec 5) (s : BitVec 2) : Statement (.twst a b s) := by
  refine core_of _ 0xB0002020 [⟨5, 21, a⟩, ⟨5, 16, b⟩, ⟨2, 0, s⟩]
    [(5, 21), (5, 16), (2, 0)] (by decide) rfl rfl rfl fun z ⟨fa, fb, fs, _⟩ hb => ?_
  rw [fields_44 (hb 26 6 (by decide))]
  unfold decodeCommand
  rw [show bits z 4 12 = 514 from hb 4 12 (by decide)]
  rw [show field 5 z 21 = a from fa, show field 5 z 16 = b from fb, show field 2 z 0 = s from fs]
  exact if_pos (hb 2 2 (by decide))

theorem kbnd (a : BitVec 5) (b : BitVec 5) (s : BitVec 2) : Statement (.kbnd a b s) := by
  refine core_of _ 0xB0003000 [⟨5, 21, a⟩, ⟨5, 16, b⟩, ⟨2, 0, s⟩]
    [(5, 21), (5, 16), (2, 0)] (by decide) rfl rfl rfl fun z ⟨fa, fb, fs, _⟩ hb => ?_
  rw [fields_44 (hb 26 6 (by decide))]
  unfold decodeCommand
  rw [show bits z 4 12 = 768 from hb 4 12 (by decide)]
  rw [show field 5 z 21 = a from fa, show field 5 z 16 = b from fb, show field 2 z 0 = s from fs]
  exact if_pos (hb 2 2 (by decide))

theorem ksel (a : BitVec 5) (b : BitVec 5) (s : BitVec 2) : Statement (.ksel a b s) := by
  refine core_of _ 0xB0003010 [⟨5, 21, a⟩, ⟨5, 16, b⟩, ⟨2, 0, s⟩]
    [(5, 21), (5, 16), (2, 0)] (by decide) rfl rfl rfl fun z ⟨fa, fb, fs, _⟩ hb => ?_
  rw [fields_44 (hb 26 6 (by decide))]
  unfold decodeCommand
  rw [show bits z 4 12 = 769 from hb 4 12 (by decide)]
  rw [show field 5 z 21 = a from fa, show field 5 z 16 = b from fb, show field 2 z 0 = s from fs]
  exact if_pos (hb 2 2 (by decide))

theorem krst (s : BitVec 2) : Statement (.krst s) := by
  refine core_of _ 0xB0003020 [⟨2, 0, s⟩]
    [(2, 0)] (by decide) rfl rfl rfl fun z ⟨fs, _⟩ hb => ?_
  rw [fields_44 (hb 26 6 (by decide))]
  unfold decodeCommand
  rw [show bits z 4 12 = 770 from hb 4 12 (by decide)]
  rw [show field 2 z 0 = s from fs]
  exact if_pos ⟨hb 2 2 (by decide), hb 16 10 (by decide)⟩

theorem sgg (a : BitVec 5) (b : BitVec 5) (s : BitVec 2) : Statement (.sgg a b s) := by
  refine core_of _ 0xB0004000 [⟨5, 21, a⟩, ⟨5, 16, b⟩, ⟨2, 0, s⟩]
    [(5, 21), (5, 16), (2, 0)] (by decide) rfl rfl rfl fun z ⟨fa, fb, fs, _⟩ hb => ?_
  rw [fields_44 (hb 26 6 (by decide))]
  unfold decodeCommand
  rw [show bits z 4 12 = 1024 from hb 4 12 (by decide)]
  rw [show field 5 z 21 = a from fa, show field 5 z 16 = b from fb, show field 2 z 0 = s from fs]
  exact if_pos (hb 2 2 (by decide))

theorem tidld (a : BitVec 5) : Statement (.tidld a) := by
  refine core_of _ 0xB0005000 [⟨5, 21, a⟩]
    [(5, 21)] (by decide) rfl rfl rfl fun z ⟨fa, _⟩ hb => ?_
  rw [fields_44 (hb 26 6 (by decide))]
  unfold decodeCommand
  rw [show bits z 4 12 = 1280 from hb 4 12 (by decide)]
  rw [show field 5 z 21 = a from fa]
  exact if_pos ⟨hb 0 4 (by decide), hb 16 5 (by decide)⟩

theorem tidinv (a : BitVec 5) : Statement (.tidinv a) := by
  refine core_of _ 0xB0005010 [⟨5, 21, a⟩]
    [(5, 21)] (by decide) rfl rfl rfl fun z ⟨fa, _⟩ hb => ?_
  rw [fields_44 (hb 26 6 (by decide))]
  unfold decodeCommand
  rw [show bits z 4 12 = 1281 from hb 4 12 (by decide)]
  rw [show field 5 z 21 = a from fa]
  exact if_pos ⟨hb 0 4 (by decide), hb 16 5 (by decide)⟩

theorem tcls (a : BitVec 5) : Statement (.tcls a) := by
  refine core_of _ 0xB0005020 [⟨5, 21, a⟩]
    [(5, 21)] (by decide) rfl rfl rfl fun z ⟨fa, _⟩ hb => ?_
  rw [fields_44 (hb 26 6 (by decide))]
  unfold decodeCommand
  rw [show bits z 4 12 = 1282 from hb 4 12 (by decide)]
  rw [show field 5 z 21 = a from fa]
  exact if_pos ⟨hb 0 4 (by decide), hb 16 5 (by decide)⟩

theorem wstart (a : BitVec 5) (b : BitVec 5) (s : BitVec 2) : Statement (.wstart a b s) := by
  refine core_of _ 0xB0006000 [⟨5, 21, a⟩, ⟨5, 16, b⟩, ⟨2, 0, s⟩]
    [(5, 21), (5, 16), (2, 0)] (by decide) rfl rfl rfl fun z ⟨fa, fb, fs, _⟩ hb => ?_
  rw [fields_44 (hb 26 6 (by decide))]
  unfold decodeCommand
  rw [show bits z 4 12 = 1536 from hb 4 12 (by decide)]
  rw [show field 5 z 21 = a from fa, show field 5 z 16 = b from fb, show field 2 z 0 = s from fs]
  exact if_pos (hb 2 2 (by decide))

theorem wstop (s : BitVec 2) : Statement (.wstop s) := by
  refine core_of _ 0xB0006010 [⟨2, 0, s⟩]
    [(2, 0)] (by decide) rfl rfl rfl fun z ⟨fs, _⟩ hb => ?_
  rw [fields_44 (hb 26 6 (by decide))]
  unfold decodeCommand
  rw [show bits z 4 12 = 1537 from hb 4 12 (by decide)]
  rw [show field 2 z 0 = s from fs]
  exact if_pos ⟨hb 2 2 (by decide), hb 16 10 (by decide)⟩

theorem bcopy (a : BitVec 5) (b : BitVec 5) (s : BitVec 2) : Statement (.bcopy a b s) := by
  refine core_of _ 0xB0007000 [⟨5, 21, a⟩, ⟨5, 16, b⟩, ⟨2, 0, s⟩]
    [(5, 21), (5, 16), (2, 0)] (by decide) rfl rfl rfl fun z ⟨fa, fb, fs, _⟩ hb => ?_
  rw [fields_44 (hb 26 6 (by decide))]
  unfold decodeCommand
  rw [show bits z 4 12 = 1792 from hb 4 12 (by decide)]
  rw [show field 5 z 21 = a from fa, show field 5 z 16 = b from fb, show field 2 z 0 = s from fs]
  exact if_pos (hb 2 2 (by decide))

theorem bfill (a : BitVec 5) (b : BitVec 5) (s : BitVec 2) : Statement (.bfill a b s) := by
  refine core_of _ 0xB0007010 [⟨5, 21, a⟩, ⟨5, 16, b⟩, ⟨2, 0, s⟩]
    [(5, 21), (5, 16), (2, 0)] (by decide) rfl rfl rfl fun z ⟨fa, fb, fs, _⟩ hb => ?_
  rw [fields_44 (hb 26 6 (by decide))]
  unfold decodeCommand
  rw [show bits z 4 12 = 1793 from hb 4 12 (by decide)]
  rw [show field 5 z 21 = a from fa, show field 5 z 16 = b from fb, show field 2 z 0 = s from fs]
  exact if_pos (hb 2 2 (by decide))

theorem eset (a : BitVec 5) (e : BitVec 4) (r : BitVec 8) (s : BitVec 4) : Statement (.eset a e r s) := by
  refine core_of _ 0xB4000000 [⟨5, 21, a⟩, ⟨4, 12, e⟩, ⟨8, 4, r⟩, ⟨4, 0, s⟩]
    [(5, 21), (4, 12), (8, 4), (4, 0)] (by decide) rfl rfl rfl fun z ⟨fa, fe, fr, fs, _⟩ hb => ?_
  rw [fields_45 (hb 26 6 (by decide))]
  unfold decodeEset
  rw [show field 5 z 21 = a from fa, show field 4 z 12 = e from fe, show field 8 z 4 = r from fr, show field 4 z 0 = s from fs]
  exact if_pos (hb 16 5 (by decide))

theorem eget (d : BitVec 5) (e : BitVec 4) (r : BitVec 8) (s : BitVec 4) : Statement (.eget d e r s) := by
  refine core_of _ 0xB8000000 [⟨5, 21, d⟩, ⟨4, 12, e⟩, ⟨8, 4, r⟩, ⟨4, 0, s⟩]
    [(5, 21), (4, 12), (8, 4), (4, 0)] (by decide) rfl rfl rfl fun z ⟨fd, fe, fr, fs, _⟩ hb => ?_
  rw [fields_46 (hb 26 6 (by decide))]
  unfold decodeEget
  rw [show field 5 z 21 = d from fd, show field 4 z 12 = e from fe, show field 8 z 4 = r from fr, show field 4 z 0 = s from fs]
  exact if_pos (hb 16 5 (by decide))

theorem spawn (a : BitVec 5) (b : BitVec 5) : Statement (.spawn a b) := by
  refine core_of _ 0xD0000000 [⟨5, 16, a⟩, ⟨5, 11, b⟩]
    [(5, 16), (5, 11)] (by decide) rfl rfl rfl fun z ⟨fa, fb, _⟩ hb => ?_
  rw [fields_52 (hb 26 6 (by decide))]
  unfold decodeTask
  rw [show bits z 0 6 = 0 from hb 0 6 (by decide)]
  rw [show field 5 z 16 = a from fa, show field 5 z 11 = b from fb]
  exact if_pos ⟨hb 6 5 (by decide), hb 21 5 (by decide)⟩

theorem launch (a : BitVec 5) : Statement (.launch a) := by
  refine core_of _ 0xD0000001 [⟨5, 16, a⟩]
    [(5, 16)] (by decide) rfl rfl rfl fun z ⟨fa, _⟩ hb => ?_
  rw [fields_52 (hb 26 6 (by decide))]
  unfold decodeTask
  rw [show bits z 0 6 = 1 from hb 0 6 (by decide)]
  rw [show field 5 z 16 = a from fa]
  exact if_pos ⟨hb 6 10 (by decide), hb 21 5 (by decide)⟩

theorem retire : Statement (.retire) := by
  refine core_of _ 0xD0000002 []
    [] (by decide) rfl rfl rfl fun z _ hb => ?_
  rw [fields_52 (hb 26 6 (by decide))]
  unfold decodeTask
  rw [show bits z 0 6 = 2 from hb 0 6 (by decide)]
  exact if_pos (hb 6 20 (by decide))

theorem yield : Statement (.yield) := by
  refine core_of _ 0xD0000003 []
    [] (by decide) rfl rfl rfl fun z _ hb => ?_
  rw [fields_52 (hb 26 6 (by decide))]
  unfold decodeTask
  rw [show bits z 0 6 = 3 from hb 0 6 (by decide)]
  exact if_pos (hb 6 20 (by decide))

theorem msend (a : BitVec 5) (b : BitVec 5) : Statement (.msend a b) := by
  refine core_of _ 0xD0000004 [⟨5, 16, a⟩, ⟨5, 11, b⟩]
    [(5, 16), (5, 11)] (by decide) rfl rfl rfl fun z ⟨fa, fb, _⟩ hb => ?_
  rw [fields_52 (hb 26 6 (by decide))]
  unfold decodeTask
  rw [show bits z 0 6 = 4 from hb 0 6 (by decide)]
  rw [show field 5 z 16 = a from fa, show field 5 z 11 = b from fb]
  exact if_pos ⟨hb 6 5 (by decide), hb 21 5 (by decide)⟩

theorem cadd (a : BitVec 5) (b : BitVec 5) (s : BitVec 3) : Statement (.cadd a b s) := by
  refine core_of _ 0xD4000000 [⟨5, 16, a⟩, ⟨5, 11, b⟩, ⟨3, 8, s⟩]
    [(5, 16), (5, 11), (3, 8)] (by decide) rfl rfl rfl fun z ⟨fa, fb, fs, _⟩ hb => ?_
  rw [fields_53 (hb 26 6 (by decide))]
  unfold decodeCounter
  rw [show bits z 0 6 = 0 from hb 0 6 (by decide)]
  rw [show field 5 z 16 = a from fa, show field 5 z 11 = b from fb, show field 3 z 8 = s from fs]
  exact if_pos ⟨hb 6 2 (by decide), hb 21 5 (by decide)⟩

theorem caddo (t : BitVec 5) (a : BitVec 5) (b : BitVec 5) (s : BitVec 3) : Statement (.caddo t a b s) := by
  refine core_of _ 0xD4000001 [⟨5, 21, t⟩, ⟨5, 16, a⟩, ⟨5, 11, b⟩, ⟨3, 8, s⟩]
    [(5, 21), (5, 16), (5, 11), (3, 8)] (by decide) rfl rfl rfl fun z ⟨ft, fa, fb, fs, _⟩ hb => ?_
  rw [fields_53 (hb 26 6 (by decide))]
  unfold decodeCounter
  rw [show bits z 0 6 = 1 from hb 0 6 (by decide)]
  rw [show field 5 z 21 = t from ft, show field 5 z 16 = a from fa, show field 5 z 11 = b from fb, show field 3 z 8 = s from fs]
  exact if_pos (hb 6 2 (by decide))

theorem cwait (t : BitVec 5) (a : BitVec 5) (b : BitVec 5) (s : BitVec 3) : Statement (.cwait t a b s) := by
  refine core_of _ 0xD4000002 [⟨5, 21, t⟩, ⟨5, 16, a⟩, ⟨5, 11, b⟩, ⟨3, 8, s⟩]
    [(5, 21), (5, 16), (5, 11), (3, 8)] (by decide) rfl rfl rfl fun z ⟨ft, fa, fb, fs, _⟩ hb => ?_
  rw [fields_53 (hb 26 6 (by decide))]
  unfold decodeCounter
  rw [show bits z 0 6 = 2 from hb 0 6 (by decide)]
  rw [show field 5 z 21 = t from ft, show field 5 z 16 = a from fa, show field 5 z 11 = b from fb, show field 3 z 8 = s from fs]
  exact if_pos (hb 6 2 (by decide))

theorem cwaitt (t : BitVec 5) (a : BitVec 5) (b : BitVec 5) (s : BitVec 3) : Statement (.cwaitt t a b s) := by
  refine core_of _ 0xD4000003 [⟨5, 21, t⟩, ⟨5, 16, a⟩, ⟨5, 11, b⟩, ⟨3, 8, s⟩]
    [(5, 21), (5, 16), (5, 11), (3, 8)] (by decide) rfl rfl rfl fun z ⟨ft, fa, fb, fs, _⟩ hb => ?_
  rw [fields_53 (hb 26 6 (by decide))]
  unfold decodeCounter
  rw [show bits z 0 6 = 3 from hb 0 6 (by decide)]
  rw [show field 5 z 21 = t from ft, show field 5 z 16 = a from fa, show field 5 z 11 = b from fb, show field 3 z 8 = s from fs]
  exact if_pos (hb 6 2 (by decide))

theorem cbwp (a : BitVec 5) (h : BitVec 4) (n : BitVec 9) : Statement (.cbwp a h n) := by
  refine core_of _ 0xD8000000 [⟨5, 21, a⟩, ⟨4, 17, h⟩, ⟨9, 0, n⟩]
    [(5, 21), (4, 17), (9, 0)] (by decide) rfl rfl rfl fun z ⟨fa, fh, fn, _⟩ hb => ?_
  rw [fields_54 (hb 26 6 (by decide))]
  unfold decodeCb
  rw [show bits z 13 4 = 0 from hb 13 4 (by decide)]
  rw [show field 5 z 21 = a from fa, show field 4 z 17 = h from fh, show field 9 z 0 = n from fn]
  exact if_pos (hb 9 4 (by decide))

theorem cbwc (a : BitVec 5) (h : BitVec 4) (n : BitVec 9) : Statement (.cbwc a h n) := by
  refine core_of _ 0xD8002000 [⟨5, 21, a⟩, ⟨4, 17, h⟩, ⟨9, 0, n⟩]
    [(5, 21), (4, 17), (9, 0)] (by decide) rfl rfl rfl fun z ⟨fa, fh, fn, _⟩ hb => ?_
  rw [fields_54 (hb 26 6 (by decide))]
  unfold decodeCb
  rw [show bits z 13 4 = 1 from hb 13 4 (by decide)]
  rw [show field 5 z 21 = a from fa, show field 4 z 17 = h from fh, show field 9 z 0 = n from fn]
  exact if_pos (hb 9 4 (by decide))

theorem cbap (a : BitVec 5) (h : BitVec 4) (n : BitVec 9) : Statement (.cbap a h n) := by
  refine core_of _ 0xD8004000 [⟨5, 21, a⟩, ⟨4, 17, h⟩, ⟨9, 0, n⟩]
    [(5, 21), (4, 17), (9, 0)] (by decide) rfl rfl rfl fun z ⟨fa, fh, fn, _⟩ hb => ?_
  rw [fields_54 (hb 26 6 (by decide))]
  unfold decodeCb
  rw [show bits z 13 4 = 2 from hb 13 4 (by decide)]
  rw [show field 5 z 21 = a from fa, show field 4 z 17 = h from fh, show field 9 z 0 = n from fn]
  exact if_pos (hb 9 4 (by decide))

theorem cbac (a : BitVec 5) (h : BitVec 4) (n : BitVec 9) : Statement (.cbac a h n) := by
  refine core_of _ 0xD8006000 [⟨5, 21, a⟩, ⟨4, 17, h⟩, ⟨9, 0, n⟩]
    [(5, 21), (4, 17), (9, 0)] (by decide) rfl rfl rfl fun z ⟨fa, fh, fn, _⟩ hb => ?_
  rw [fields_54 (hb 26 6 (by decide))]
  unfold decodeCb
  rw [show bits z 13 4 = 3 from hb 13 4 (by decide)]
  rw [show field 5 z 21 = a from fa, show field 4 z 17 = h from fh, show field 9 z 0 = n from fn]
  exact if_pos (hb 9 4 (by decide))

theorem cbstat (d : BitVec 5) (h : BitVec 4) : Statement (.cbstat d h) := by
  refine core_of _ 0xD8008000 [⟨5, 21, d⟩, ⟨4, 17, h⟩]
    [(5, 21), (4, 17)] (by decide) rfl rfl rfl fun z ⟨fd, fh, _⟩ hb => ?_
  rw [fields_54 (hb 26 6 (by decide))]
  unfold decodeCb
  rw [show bits z 13 4 = 4 from hb 13 4 (by decide)]
  rw [show field 5 z 21 = d from fd, show field 4 z 17 = h from fh]
  exact if_pos (hb 0 13 (by decide))

theorem mark (h : BitVec 4) : Statement (.mark h) := by
  refine core_of _ 0xDC000000 [⟨4, 17, h⟩]
    [(4, 17)] (by decide) rfl rfl rfl fun z ⟨fh, _⟩ hb => ?_
  rw [fields_55 (hb 26 6 (by decide))]
  unfold decodeMarker
  rw [show bits z 13 4 = 0 from hb 13 4 (by decide)]
  rw [show field 4 z 17 = h from fh]
  exact if_pos ⟨hb 0 13 (by decide), hb 21 5 (by decide)⟩

theorem mwait (a : BitVec 5) : Statement (.mwait a) := by
  refine core_of _ 0xDC002000 [⟨5, 21, a⟩]
    [(5, 21)] (by decide) rfl rfl rfl fun z ⟨fa, _⟩ hb => ?_
  rw [fields_55 (hb 26 6 (by decide))]
  unfold decodeMarker
  rw [show bits z 13 4 = 1 from hb 13 4 (by decide)]
  rw [show field 5 z 21 = a from fa]
  exact if_pos ⟨hb 0 13 (by decide), hb 17 4 (by decide)⟩

theorem mround (d : BitVec 5) : Statement (.mround d) := by
  refine core_of _ 0xDC004000 [⟨5, 21, d⟩]
    [(5, 21)] (by decide) rfl rfl rfl fun z ⟨fd, _⟩ hb => ?_
  rw [fields_55 (hb 26 6 (by decide))]
  unfold decodeMarker
  rw [show bits z 13 4 = 2 from hb 13 4 (by decide)]
  rw [show field 5 z 21 = d from fd]
  exact if_pos ⟨hb 0 13 (by decide), hb 17 4 (by decide)⟩

theorem ecall : Statement (.ecall) := by
  refine core_of _ 0xE0000000 []
    [] (by decide) rfl rfl rfl fun z _ hb => ?_
  rw [fields_56 (hb 26 6 (by decide))]
  unfold decodeSystem
  rw [show bits z 0 6 = 0 from hb 0 6 (by decide)]
  exact if_pos (hb 6 20 (by decide))

theorem mcall : Statement (.mcall) := by
  refine core_of _ 0xE0000001 []
    [] (by decide) rfl rfl rfl fun z _ hb => ?_
  rw [fields_56 (hb 26 6 (by decide))]
  unfold decodeSystem
  rw [show bits z 0 6 = 1 from hb 0 6 (by decide)]
  exact if_pos (hb 6 20 (by decide))

theorem eret : Statement (.eret) := by
  refine core_of _ 0xE0000002 []
    [] (by decide) rfl rfl rfl fun z _ hb => ?_
  rw [fields_56 (hb 26 6 (by decide))]
  unfold decodeSystem
  rw [show bits z 0 6 = 2 from hb 0 6 (by decide)]
  exact if_pos (hb 6 20 (by decide))

theorem ifence : Statement (.ifence) := by
  refine core_of _ 0xE0000003 []
    [] (by decide) rfl rfl rfl fun z _ hb => ?_
  rw [fields_56 (hb 26 6 (by decide))]
  unfold decodeSystem
  rw [show bits z 0 6 = 3 from hb 0 6 (by decide)]
  exact if_pos (hb 6 20 (by decide))

theorem brk : Statement (.brk) := by
  refine core_of _ 0xE0000004 []
    [] (by decide) rfl rfl rfl fun z _ hb => ?_
  rw [fields_56 (hb 26 6 (by decide))]
  unfold decodeSystem
  rw [show bits z 0 6 = 4 from hb 0 6 (by decide)]
  exact if_pos (hb 6 20 (by decide))

theorem xinv (a : BitVec 5) : Statement (.xinv a) := by
  refine core_of _ 0xE0000005 [⟨5, 16, a⟩]
    [(5, 16)] (by decide) rfl rfl rfl fun z ⟨fa, _⟩ hb => ?_
  rw [fields_56 (hb 26 6 (by decide))]
  unfold decodeSystem
  rw [show bits z 0 6 = 5 from hb 0 6 (by decide)]
  rw [show field 5 z 16 = a from fa]
  exact if_pos ⟨hb 6 10 (by decide), hb 21 5 (by decide)⟩

theorem xinva : Statement (.xinva) := by
  refine core_of _ 0xE0000006 []
    [] (by decide) rfl rfl rfl fun z _ hb => ?_
  rw [fields_56 (hb 26 6 (by decide))]
  unfold decodeSystem
  rw [show bits z 0 6 = 6 from hb 0 6 (by decide)]
  exact if_pos (hb 6 20 (by decide))

theorem qbind (a : BitVec 5) (b : BitVec 5) : Statement (.qbind a b) := by
  refine core_of _ 0xE0000007 [⟨5, 16, a⟩, ⟨5, 11, b⟩]
    [(5, 16), (5, 11)] (by decide) rfl rfl rfl fun z ⟨fa, fb, _⟩ hb => ?_
  rw [fields_56 (hb 26 6 (by decide))]
  unfold decodeSystem
  rw [show bits z 0 6 = 7 from hb 0 6 (by decide)]
  rw [show field 5 z 16 = a from fa, show field 5 z 11 = b from fb]
  exact if_pos ⟨hb 6 5 (by decide), hb 21 5 (by decide)⟩

theorem qunb (a : BitVec 5) : Statement (.qunb a) := by
  refine core_of _ 0xE0000008 [⟨5, 16, a⟩]
    [(5, 16)] (by decide) rfl rfl rfl fun z ⟨fa, _⟩ hb => ?_
  rw [fields_56 (hb 26 6 (by decide))]
  unfold decodeSystem
  rw [show bits z 0 6 = 8 from hb 0 6 (by decide)]
  rw [show field 5 z 16 = a from fa]
  exact if_pos ⟨hb 6 10 (by decide), hb 21 5 (by decide)⟩

theorem slsave (a : BitVec 5) (b : BitVec 5) : Statement (.slsave a b) := by
  refine core_of _ 0xE0000009 [⟨5, 16, a⟩, ⟨5, 11, b⟩]
    [(5, 16), (5, 11)] (by decide) rfl rfl rfl fun z ⟨fa, fb, _⟩ hb => ?_
  rw [fields_56 (hb 26 6 (by decide))]
  unfold decodeSystem
  rw [show bits z 0 6 = 9 from hb 0 6 (by decide)]
  rw [show field 5 z 16 = a from fa, show field 5 z 11 = b from fb]
  exact if_pos ⟨hb 6 5 (by decide), hb 21 5 (by decide)⟩

theorem slrest (a : BitVec 5) (b : BitVec 5) : Statement (.slrest a b) := by
  refine core_of _ 0xE000000A [⟨5, 16, a⟩, ⟨5, 11, b⟩]
    [(5, 16), (5, 11)] (by decide) rfl rfl rfl fun z ⟨fa, fb, _⟩ hb => ?_
  rw [fields_56 (hb 26 6 (by decide))]
  unfold decodeSystem
  rw [show bits z 0 6 = 10 from hb 0 6 (by decide)]
  rw [show field 5 z 16 = a from fa, show field 5 z 11 = b from fb]
  exact if_pos ⟨hb 6 5 (by decide), hb 21 5 (by decide)⟩

theorem slkill (a : BitVec 5) : Statement (.slkill a) := by
  refine core_of _ 0xE000000B [⟨5, 16, a⟩]
    [(5, 16)] (by decide) rfl rfl rfl fun z ⟨fa, _⟩ hb => ?_
  rw [fields_56 (hb 26 6 (by decide))]
  unfold decodeSystem
  rw [show bits z 0 6 = 11 from hb 0 6 (by decide)]
  rw [show field 5 z 16 = a from fa]
  exact if_pos ⟨hb 6 10 (by decide), hb 21 5 (by decide)⟩

theorem hint (h : BitVec 26) : Statement (.hint h) := by
  refine core_of _ 0xFC000000 [⟨26, 0, h⟩]
    [(26, 0)] (by decide) rfl rfl rfl fun z ⟨fh, _⟩ hb => ?_
  rw [fields_63 (hb 26 6 (by decide))]
  unfold decodeHint
  rw [show field 26 z 0 = h from fh]

theorem wli (d : BitVec 4) (i : BitVec 24) : Statement (.wli d i) := by
  refine walker_of _ 0x10000000 [⟨4, 24, d⟩, ⟨24, 0, i⟩]
    [(4, 24), (24, 0)] (by decide) rfl rfl rfl fun z ⟨fd, fi, _⟩ hb => ?_
  rw [walk_1 (hb 28 4 (by decide))]
  rw [show field 4 z 24 = d from fd, show field 24 z 0 = i from fi]

theorem waddi (d : BitVec 4) (a : BitVec 4) (i : BitVec 20) : Statement (.waddi d a i) := by
  refine walker_of _ 0x20000000 [⟨4, 24, d⟩, ⟨4, 20, a⟩, ⟨20, 0, i⟩]
    [(4, 24), (4, 20), (20, 0)] (by decide) rfl rfl rfl fun z ⟨fd, fa, fi, _⟩ hb => ?_
  rw [walk_2 (hb 28 4 (by decide))]
  rw [show field 4 z 24 = d from fd, show field 4 z 20 = a from fa, show field 20 z 0 = i from fi]

theorem wadd (d : BitVec 4) (a : BitVec 4) (b : BitVec 4) : Statement (.wadd d a b) := by
  refine walker_of _ 0x30000000 [⟨4, 24, d⟩, ⟨4, 20, a⟩, ⟨4, 16, b⟩]
    [(4, 24), (4, 20), (4, 16)] (by decide) rfl rfl rfl fun z ⟨fd, fa, fb, _⟩ hb => ?_
  rw [walk_3 (hb 28 4 (by decide))]
  rw [show bits z 0 4 = 0 from hb 0 4 (by decide)]
  rw [show field 4 z 24 = d from fd, show field 4 z 20 = a from fa, show field 4 z 16 = b from fb]
  exact if_pos (hb 4 12 (by decide))

theorem wsub (d : BitVec 4) (a : BitVec 4) (b : BitVec 4) : Statement (.wsub d a b) := by
  refine walker_of _ 0x30000001 [⟨4, 24, d⟩, ⟨4, 20, a⟩, ⟨4, 16, b⟩]
    [(4, 24), (4, 20), (4, 16)] (by decide) rfl rfl rfl fun z ⟨fd, fa, fb, _⟩ hb => ?_
  rw [walk_3 (hb 28 4 (by decide))]
  rw [show bits z 0 4 = 1 from hb 0 4 (by decide)]
  rw [show field 4 z 24 = d from fd, show field 4 z 20 = a from fa, show field 4 z 16 = b from fb]
  exact if_pos (hb 4 12 (by decide))

theorem wmul (d : BitVec 4) (a : BitVec 4) (b : BitVec 4) : Statement (.wmul d a b) := by
  refine walker_of _ 0x30000002 [⟨4, 24, d⟩, ⟨4, 20, a⟩, ⟨4, 16, b⟩]
    [(4, 24), (4, 20), (4, 16)] (by decide) rfl rfl rfl fun z ⟨fd, fa, fb, _⟩ hb => ?_
  rw [walk_3 (hb 28 4 (by decide))]
  rw [show bits z 0 4 = 2 from hb 0 4 (by decide)]
  rw [show field 4 z 24 = d from fd, show field 4 z 20 = a from fa, show field 4 z 16 = b from fb]
  exact if_pos (hb 4 12 (by decide))

theorem wand (d : BitVec 4) (a : BitVec 4) (b : BitVec 4) : Statement (.wand d a b) := by
  refine walker_of _ 0x30000003 [⟨4, 24, d⟩, ⟨4, 20, a⟩, ⟨4, 16, b⟩]
    [(4, 24), (4, 20), (4, 16)] (by decide) rfl rfl rfl fun z ⟨fd, fa, fb, _⟩ hb => ?_
  rw [walk_3 (hb 28 4 (by decide))]
  rw [show bits z 0 4 = 3 from hb 0 4 (by decide)]
  rw [show field 4 z 24 = d from fd, show field 4 z 20 = a from fa, show field 4 z 16 = b from fb]
  exact if_pos (hb 4 12 (by decide))

theorem wor (d : BitVec 4) (a : BitVec 4) (b : BitVec 4) : Statement (.wor d a b) := by
  refine walker_of _ 0x30000004 [⟨4, 24, d⟩, ⟨4, 20, a⟩, ⟨4, 16, b⟩]
    [(4, 24), (4, 20), (4, 16)] (by decide) rfl rfl rfl fun z ⟨fd, fa, fb, _⟩ hb => ?_
  rw [walk_3 (hb 28 4 (by decide))]
  rw [show bits z 0 4 = 4 from hb 0 4 (by decide)]
  rw [show field 4 z 24 = d from fd, show field 4 z 20 = a from fa, show field 4 z 16 = b from fb]
  exact if_pos (hb 4 12 (by decide))

theorem wshl (d : BitVec 4) (a : BitVec 4) (b : BitVec 4) : Statement (.wshl d a b) := by
  refine walker_of _ 0x30000005 [⟨4, 24, d⟩, ⟨4, 20, a⟩, ⟨4, 16, b⟩]
    [(4, 24), (4, 20), (4, 16)] (by decide) rfl rfl rfl fun z ⟨fd, fa, fb, _⟩ hb => ?_
  rw [walk_3 (hb 28 4 (by decide))]
  rw [show bits z 0 4 = 5 from hb 0 4 (by decide)]
  rw [show field 4 z 24 = d from fd, show field 4 z 20 = a from fa, show field 4 z 16 = b from fb]
  exact if_pos (hb 4 12 (by decide))

theorem wshr (d : BitVec 4) (a : BitVec 4) (b : BitVec 4) : Statement (.wshr d a b) := by
  refine walker_of _ 0x30000006 [⟨4, 24, d⟩, ⟨4, 20, a⟩, ⟨4, 16, b⟩]
    [(4, 24), (4, 20), (4, 16)] (by decide) rfl rfl rfl fun z ⟨fd, fa, fb, _⟩ hb => ?_
  rw [walk_3 (hb 28 4 (by decide))]
  rw [show bits z 0 4 = 6 from hb 0 4 (by decide)]
  rw [show field 4 z 24 = d from fd, show field 4 z 20 = a from fa, show field 4 z 16 = b from fb]
  exact if_pos (hb 4 12 (by decide))

theorem wminu (d : BitVec 4) (a : BitVec 4) (b : BitVec 4) : Statement (.wminu d a b) := by
  refine walker_of _ 0x30000007 [⟨4, 24, d⟩, ⟨4, 20, a⟩, ⟨4, 16, b⟩]
    [(4, 24), (4, 20), (4, 16)] (by decide) rfl rfl rfl fun z ⟨fd, fa, fb, _⟩ hb => ?_
  rw [walk_3 (hb 28 4 (by decide))]
  rw [show bits z 0 4 = 7 from hb 0 4 (by decide)]
  rw [show field 4 z 24 = d from fd, show field 4 z 20 = a from fa, show field 4 z 16 = b from fb]
  exact if_pos (hb 4 12 (by decide))

theorem wsltu (d : BitVec 4) (a : BitVec 4) (b : BitVec 4) : Statement (.wsltu d a b) := by
  refine walker_of _ 0x30000008 [⟨4, 24, d⟩, ⟨4, 20, a⟩, ⟨4, 16, b⟩]
    [(4, 24), (4, 20), (4, 16)] (by decide) rfl rfl rfl fun z ⟨fd, fa, fb, _⟩ hb => ?_
  rw [walk_3 (hb 28 4 (by decide))]
  rw [show bits z 0 4 = 8 from hb 0 4 (by decide)]
  rw [show field 4 z 24 = d from fd, show field 4 z 20 = a from fa, show field 4 z 16 = b from fb]
  exact if_pos (hb 4 12 (by decide))

theorem wld (d : BitVec 4) (a : BitVec 4) (y : BitVec 3) (o : BitVec 16) : Statement (.wld d a y o) := by
  refine walker_of _ 0x40080000 [⟨4, 24, d⟩, ⟨4, 20, a⟩, ⟨3, 16, y⟩, ⟨16, 0, o⟩]
    [(4, 24), (4, 20), (3, 16), (16, 0)] (by decide) rfl rfl rfl fun z ⟨fd, fa, fy, fo, _⟩ hb => ?_
  rw [walk_4 (hb 28 4 (by decide))]
  rw [show field 4 z 24 = d from fd, show field 4 z 20 = a from fa, show field 3 z 16 = y from fy, show field 16 z 0 = o from fo]
  exact if_pos (hb 19 1 (by decide))

theorem wbeq (a : BitVec 4) (b : BitVec 4) (o : BitVec 17) : Statement (.wbeq a b o) := by
  refine walker_of _ 0x50000000 [⟨4, 24, a⟩, ⟨4, 20, b⟩, ⟨17, 0, o⟩]
    [(4, 24), (4, 20), (17, 0)] (by decide) rfl rfl rfl fun z ⟨fa, fb, fo, _⟩ hb => ?_
  rw [walk_5 (hb 28 4 (by decide))]
  rw [show bits z 17 3 = 0 from hb 17 3 (by decide)]
  rw [show field 4 z 24 = a from fa, show field 4 z 20 = b from fb, show field 17 z 0 = o from fo]
  rfl

theorem wbne (a : BitVec 4) (b : BitVec 4) (o : BitVec 17) : Statement (.wbne a b o) := by
  refine walker_of _ 0x50020000 [⟨4, 24, a⟩, ⟨4, 20, b⟩, ⟨17, 0, o⟩]
    [(4, 24), (4, 20), (17, 0)] (by decide) rfl rfl rfl fun z ⟨fa, fb, fo, _⟩ hb => ?_
  rw [walk_5 (hb 28 4 (by decide))]
  rw [show bits z 17 3 = 1 from hb 17 3 (by decide)]
  rw [show field 4 z 24 = a from fa, show field 4 z 20 = b from fb, show field 17 z 0 = o from fo]
  rfl

theorem wbltu (a : BitVec 4) (b : BitVec 4) (o : BitVec 17) : Statement (.wbltu a b o) := by
  refine walker_of _ 0x50040000 [⟨4, 24, a⟩, ⟨4, 20, b⟩, ⟨17, 0, o⟩]
    [(4, 24), (4, 20), (17, 0)] (by decide) rfl rfl rfl fun z ⟨fa, fb, fo, _⟩ hb => ?_
  rw [walk_5 (hb 28 4 (by decide))]
  rw [show bits z 17 3 = 2 from hb 17 3 (by decide)]
  rw [show field 4 z 24 = a from fa, show field 4 z 20 = b from fb, show field 17 z 0 = o from fo]
  rfl

theorem wbgeu (a : BitVec 4) (b : BitVec 4) (o : BitVec 17) : Statement (.wbgeu a b o) := by
  refine walker_of _ 0x50060000 [⟨4, 24, a⟩, ⟨4, 20, b⟩, ⟨17, 0, o⟩]
    [(4, 24), (4, 20), (17, 0)] (by decide) rfl rfl rfl fun z ⟨fa, fb, fo, _⟩ hb => ?_
  rw [walk_5 (hb 28 4 (by decide))]
  rw [show bits z 17 3 = 3 from hb 17 3 (by decide)]
  rw [show field 4 z 24 = a from fa, show field 4 z 20 = b from fb, show field 17 z 0 = o from fo]
  rfl

theorem wblts (a : BitVec 4) (b : BitVec 4) (o : BitVec 17) : Statement (.wblts a b o) := by
  refine walker_of _ 0x50080000 [⟨4, 24, a⟩, ⟨4, 20, b⟩, ⟨17, 0, o⟩]
    [(4, 24), (4, 20), (17, 0)] (by decide) rfl rfl rfl fun z ⟨fa, fb, fo, _⟩ hb => ?_
  rw [walk_5 (hb 28 4 (by decide))]
  rw [show bits z 17 3 = 4 from hb 17 3 (by decide)]
  rw [show field 4 z 24 = a from fa, show field 4 z 20 = b from fb, show field 17 z 0 = o from fo]
  rfl

theorem wbges (a : BitVec 4) (b : BitVec 4) (o : BitVec 17) : Statement (.wbges a b o) := by
  refine walker_of _ 0x500A0000 [⟨4, 24, a⟩, ⟨4, 20, b⟩, ⟨17, 0, o⟩]
    [(4, 24), (4, 20), (17, 0)] (by decide) rfl rfl rfl fun z ⟨fa, fb, fo, _⟩ hb => ?_
  rw [walk_5 (hb 28 4 (by decide))]
  rw [show bits z 17 3 = 5 from hb 17 3 (by decide)]
  rw [show field 4 z 24 = a from fa, show field 4 z 20 = b from fb, show field 17 z 0 = o from fo]
  rfl

theorem wstrm (c : BitVec 4) (v : BitVec 4) (n : BitVec 4) (s : BitVec 1) (d : BitVec 1) : Statement (.wstrm c v n s d) := by
  refine walker_of _ 0x60000000 [⟨4, 24, c⟩, ⟨4, 20, v⟩, ⟨4, 16, n⟩, ⟨1, 15, s⟩, ⟨1, 14, d⟩]
    [(4, 24), (4, 20), (4, 16), (1, 15), (1, 14)] (by decide) rfl rfl rfl fun z ⟨fc, fv, fn, fs, fd, _⟩ hb => ?_
  rw [walk_6 (hb 28 4 (by decide))]
  rw [show field 4 z 24 = c from fc, show field 4 z 20 = v from fv, show field 4 z 16 = n from fn, show field 1 z 15 = s from fs, show field 1 z 14 = d from fd]
  exact if_pos (hb 0 14 (by decide))

theorem wskip (a : BitVec 4) (s : BitVec 1) : Statement (.wskip a s) := by
  refine walker_of _ 0x70000000 [⟨4, 20, a⟩, ⟨1, 15, s⟩]
    [(4, 20), (1, 15)] (by decide) rfl rfl rfl fun z ⟨fa, fs, _⟩ hb => ?_
  rw [walk_7 (hb 28 4 (by decide))]
  rw [show field 4 z 20 = a from fa, show field 1 z 15 = s from fs]
  exact if_pos ⟨hb 0 15 (by decide), hb 16 4 (by decide), hb 24 4 (by decide)⟩

theorem wpeek (d : BitVec 4) (s : BitVec 1) (e : BitVec 2) : Statement (.wpeek d s e) := by
  refine walker_of _ 0x80000000 [⟨4, 24, d⟩, ⟨1, 15, s⟩, ⟨2, 13, e⟩]
    [(4, 24), (1, 15), (2, 13)] (by decide) rfl rfl rfl fun z ⟨fd, fs, fe, _⟩ hb => ?_
  rw [walk_8 (hb 28 4 (by decide))]
  rw [show field 4 z 24 = d from fd, show field 1 z 15 = s from fs, show field 2 z 13 = e from fe]
  exact if_pos ⟨hb 0 13 (by decide), hb 16 8 (by decide)⟩

theorem wtile (a : BitVec 4) (b : BitVec 4) : Statement (.wtile a b) := by
  refine walker_of _ 0x90000000 [⟨4, 20, a⟩, ⟨4, 16, b⟩]
    [(4, 20), (4, 16)] (by decide) rfl rfl rfl fun z ⟨fa, fb, _⟩ hb => ?_
  rw [walk_9 (hb 28 4 (by decide))]
  rw [show field 4 z 20 = a from fa, show field 4 z 16 = b from fb]
  exact if_pos ⟨hb 0 16 (by decide), hb 24 4 (by decide)⟩

theorem wscat (a : BitVec 4) (s : BitVec 1) (t : BitVec 1) : Statement (.wscat a s t) := by
  refine walker_of _ 0xA0000000 [⟨4, 20, a⟩, ⟨1, 15, s⟩, ⟨1, 14, t⟩]
    [(4, 20), (1, 15), (1, 14)] (by decide) rfl rfl rfl fun z ⟨fa, fs, ft, _⟩ hb => ?_
  rw [walk_10 (hb 28 4 (by decide))]
  rw [show field 4 z 20 = a from fa, show field 1 z 15 = s from fs, show field 1 z 14 = t from ft]
  exact if_pos ⟨hb 0 14 (by decide), hb 16 4 (by decide), hb 24 4 (by decide)⟩

theorem wmrgUn (d : BitVec 4) (a : BitVec 4) : Statement (.wmrgUn d a) := by
  refine walker_of _ 0xB0000000 [⟨4, 24, d⟩, ⟨4, 20, a⟩]
    [(4, 24), (4, 20)] (by decide) rfl rfl rfl fun z ⟨fd, fa, _⟩ hb => ?_
  rw [walk_11 (hb 28 4 (by decide))]
  rw [show bits z 14 1 = 0 from hb 14 1 (by decide)]
  rw [show field 4 z 24 = d from fd, show field 4 z 20 = a from fa]
  exact if_pos ⟨hb 0 14 (by decide), hb 15 5 (by decide)⟩

theorem wmrgIs (d : BitVec 4) (a : BitVec 4) : Statement (.wmrgIs d a) := by
  refine walker_of _ 0xB0004000 [⟨4, 24, d⟩, ⟨4, 20, a⟩]
    [(4, 24), (4, 20)] (by decide) rfl rfl rfl fun z ⟨fd, fa, _⟩ hb => ?_
  rw [walk_11 (hb 28 4 (by decide))]
  rw [show bits z 14 1 = 1 from hb 14 1 (by decide)]
  rw [show field 4 z 24 = d from fd, show field 4 z 20 = a from fa]
  exact if_pos ⟨hb 0 14 (by decide), hb 15 5 (by decide)⟩

theorem wemit (h : BitVec 4) (t : BitVec 1) : Statement (.wemit h t) := by
  refine walker_of _ 0xC0000000 [⟨4, 16, h⟩, ⟨1, 14, t⟩]
    [(4, 16), (1, 14)] (by decide) rfl rfl rfl fun z ⟨fh, ft, _⟩ hb => ?_
  rw [walk_12 (hb 28 4 (by decide))]
  rw [show field 4 z 16 = h from fh, show field 1 z 14 = t from ft]
  exact if_pos ⟨hb 0 14 (by decide), hb 15 1 (by decide), hb 20 8 (by decide)⟩

theorem wsig (a : BitVec 4) (b : BitVec 4) : Statement (.wsig a b) := by
  refine walker_of _ 0xD0000000 [⟨4, 20, a⟩, ⟨4, 16, b⟩]
    [(4, 20), (4, 16)] (by decide) rfl rfl rfl fun z ⟨fa, fb, _⟩ hb => ?_
  rw [walk_13 (hb 28 4 (by decide))]
  rw [show field 4 z 20 = a from fa, show field 4 z 16 = b from fb]
  exact if_pos ⟨hb 0 16 (by decide), hb 24 4 (by decide)⟩

theorem wend : Statement (.wend) := by
  refine walker_of _ 0xE0000000 []
    [] (by decide) rfl rfl rfl fun z _ hb => ?_
  rw [walk_14 (hb 28 4 (by decide))]
  exact if_pos (hb 0 28 (by decide))

theorem powerOn : Statement (.powerOn) := fun _ _ h => nomatch h

theorem packageReset : Statement (.packageReset) := fun _ _ h => nomatch h

theorem bootStage (n : Nat) : Statement (.bootStage n) := fun _ _ h => nomatch h

theorem registerWrite (r : RegWrite) : Statement (.registerWrite r) := fun _ _ h => nomatch h

theorem hostRequest (r : HostReq) : Statement (.hostRequest r) := fun _ _ h => nomatch h

theorem ucieLinkDown (m : Nat) : Statement (.ucieLinkDown m) := fun _ _ h => nomatch h

theorem doorbell (n : Nat) (t : BitVec 32) (pts : Nat) : Statement (.doorbell n t pts) := fun _ _ h => nomatch h

theorem launchAdmission (n : Nat) : Statement (.launchAdmission n) := fun _ _ h => nomatch h

theorem queueControlWrite (n : Nat) (v : Word) (half : Half) (level : Nat) : Statement (.queueControlWrite n v half level) := fun _ _ h => nomatch h

theorem queueReset (n : Nat) : Statement (.queueReset n) := fun _ _ h => nomatch h

theorem ttSlotStart (k : Nat) : Statement (.ttSlotStart k) := fun _ _ h => nomatch h

theorem ttClockStep (t : Nat) : Statement (.ttClockStep t) := fun _ _ h => nomatch h

theorem launchCompletion (l : Nat) : Statement (.launchCompletion l) := fun _ _ h => nomatch h

theorem pressurePublish (c : Nat) : Statement (.pressurePublish c) := fun _ _ h => nomatch h

theorem distanceRecompute (c : Nat) : Statement (.distanceRecompute c) := fun _ _ h => nomatch h

theorem peerReport (x : Nat) (i : Nat) (d : Nat) (c : Nat) : Statement (.peerReport x i d c) := fun _ _ h => nomatch h

theorem grctlWrite (x : Nat) (v : Word) : Statement (.grctlWrite x v) := fun _ _ h => nomatch h

theorem hopAccept (h : Hop) : Statement (.hopAccept h) := fun _ _ h => nomatch h

theorem dispatchDecision (t : Nat) : Statement (.dispatchDecision t) := fun _ _ h => nomatch h

theorem handlerStart (x : Nat) (n : Nat) : Statement (.handlerStart x n) := fun _ _ h => nomatch h

theorem counterAddAtHome (r : AddReq) : Statement (.counterAddAtHome r) := fun _ _ h => nomatch h

theorem counterWaitAtHome (r : WaitReq) : Statement (.counterWaitAtHome r) := fun _ _ h => nomatch h

theorem counterWaitPoll (r : WaitReq) : Statement (.counterWaitPoll r) := fun _ _ h => nomatch h

theorem spawnPoolRelease (t : Nat) : Statement (.spawnPoolRelease t) := fun _ _ h => nomatch h

theorem retirement (q : Nat) : Statement (.retirement q) := fun _ _ h => nomatch h

theorem messageDelivery (m : Msg) : Statement (.messageDelivery m) := fun _ _ h => nomatch h

theorem messageExpiry (m : Msg) : Statement (.messageExpiry m) := fun _ _ h => nomatch h

theorem cbPermit (q : Nat) (n : Nat) : Statement (.cbPermit q n) := fun _ _ h => nomatch h

theorem cbFillComplete (k : CbKey) (n : Nat) : Statement (.cbFillComplete k n) := fun _ _ h => nomatch h

theorem channelSlotArrival (k : CbKey) (x : ChanItem) : Statement (.channelSlotArrival k x) := fun _ _ h => nomatch h

theorem channelCreditArrival (k : CbKey) (n : Nat) : Statement (.channelCreditArrival k n) := fun _ _ h => nomatch h

theorem engineCapture (q : Nat) (n : Nat) : Statement (.engineCapture q n) := fun _ _ h => nomatch h

theorem engineResultPhase (q : Nat) (n : Nat) : Statement (.engineResultPhase q n) := fun _ _ h => nomatch h

theorem engineDone (q : Nat) (n : Nat) : Statement (.engineDone q n) := fun _ _ h => nomatch h

theorem engineFault (q : Nat) (n : Nat) (cause : BitVec 8) (reason : BitVec 8) (tval : Word) : Statement (.engineFault q n cause reason tval) := fun _ _ h => nomatch h

theorem trapDelivery (q : Nat) (t : Trap) : Statement (.trapDelivery q t) := fun _ _ h => nomatch h

theorem walkContextGrant (c : Nat) : Statement (.walkContextGrant c) := fun _ _ h => nomatch h

theorem combiningRequest (r : CombineReq) : Statement (.combiningRequest r) := fun _ _ h => nomatch h

theorem loadCompletion (q : Nat) (n : Nat) : Statement (.loadCompletion q n) := fun _ _ h => nomatch h

theorem sliceRead (q : Nat) (n : Nat) : Statement (.sliceRead q n) := fun _ _ h => nomatch h

theorem sliceWrite (w : WriteReq) : Statement (.sliceWrite w) := fun _ _ h => nomatch h

theorem homeAtomic (r : AtomicReq) : Statement (.homeAtomic r) := fun _ _ h => nomatch h

theorem homeReduction (r : AtomicReq) : Statement (.homeReduction r) := fun _ _ h => nomatch h

theorem nibbleStoreAtHome (r : NibbleReq) : Statement (.nibbleStoreAtHome r) := fun _ _ h => nomatch h

theorem summaryWiden (r : WidenReq) : Statement (.summaryWiden r) := fun _ _ h => nomatch h

theorem writeAck (q : Nat) (id : Nat) (wts : Nat) : Statement (.writeAck q id wts) := fun _ _ h => nomatch h

theorem nakReceived (tag : Nat) (reason : Nat) : Statement (.nakReceived tag reason) := fun _ _ h => nomatch h

theorem ackTimeout (tag : Nat) : Statement (.ackTimeout tag) := fun _ _ h => nomatch h

theorem dirtyDrainTimeout (id : Nat) : Statement (.dirtyDrainTimeout id) := fun _ _ h => nomatch h

theorem ptsTick : Statement (.ptsTick) := fun _ _ h => nomatch h

theorem releaseComplete (r : Release) : Statement (.releaseComplete r) := fun _ _ h => nomatch h

theorem bankctlWrite (c : Nat) (b : Nat) (v : Word) (level : Nat) (ctx : Nat) : Statement (.bankctlWrite c b v level ctx) := fun _ _ h => nomatch h

theorem bankSwitchComplete (c : Nat) (b : Nat) : Statement (.bankSwitchComplete c b) := fun _ _ h => nomatch h

theorem ccdrain (c : Nat) : Statement (.ccdrain c) := fun _ _ h => nomatch h

theorem escapeTimeout (n : Nat) : Statement (.escapeTimeout n) := fun _ _ h => nomatch h

theorem flitReceive (p : Nat) (seq : Nat) (f : Flit) : Statement (.flitReceive p seq f) := fun _ _ h => nomatch h

theorem linkReplay (p : Nat) (n : Nat) : Statement (.linkReplay p n) := fun _ _ h => nomatch h

theorem portFailure (p : Nat) (cause : Nat) : Statement (.portFailure p cause) := fun _ _ h => nomatch h

theorem exclusionPacket (node : Nat) (id : Nat) (path : Nat) (dests : List Nat) : Statement (.exclusionPacket node id path dests) := fun _ _ h => nomatch h

theorem portUp (p : Nat) (node : BitVec 14) (port : BitVec 6) : Statement (.portUp p node port) := fun _ _ h => nomatch h

theorem routingEntryWrite (t : Nat) (b : Nat) (n : Nat) (v : BitVec 32) : Statement (.routingEntryWrite t b n v) := fun _ _ h => nomatch h

theorem routingSwap (t : Nat) : Statement (.routingSwap t) := fun _ _ h => nomatch h

theorem routingSwapComplete (t : Nat) : Statement (.routingSwapComplete t) := fun _ _ h => nomatch h

theorem rwinWrite (w : Nat) (i : Nat) (v : Word) (half : Half) (level : Nat) (ctx : Nat) : Statement (.rwinWrite w i v half level ctx) := fun _ _ h => nomatch h

theorem reducePacketAtPort (p : Nat × Nat) (f : Flit) : Statement (.reducePacketAtPort p f) := fun _ _ h => nomatch h

theorem reductionHoldExpiry (p : Nat) (n : Nat) : Statement (.reductionHoldExpiry p n) := fun _ _ h => nomatch h

theorem proxyAtomic (d : Nat) (k : Nat) : Statement (.proxyAtomic d k) := fun _ _ h => nomatch h

theorem managementPacket (p : Nat) (f : Flit) : Statement (.managementPacket p f) := fun _ _ h => nomatch h

theorem noticeResend (n : Nat) : Statement (.noticeResend n) := fun _ _ h => nomatch h

theorem fnackWrite (n : BitVec 16) : Statement (.fnackWrite n) := fun _ _ h => nomatch h

theorem cctlWrite (x : Nat) (v : Word) (half : Half) (level : Nat) : Statement (.cctlWrite x v half level) := fun _ _ h => nomatch h

theorem caldWrite (x : Nat) (i : Nat) (v : Word) (half : Half) : Statement (.caldWrite x i v half) := fun _ _ h => nomatch h

theorem translationWalk (c : Nat) (x : Nat) (va : BitVec 57) : Statement (.translationWalk c x va) := fun _ _ h => nomatch h

theorem trapMessageAtCollector (m : FaultMsg) : Statement (.trapMessageAtCollector m) := fun _ _ h => nomatch h

theorem fresRetry (d : Nat) (r : Nat) (x : Nat) (id : Nat) : Statement (.fresRetry d r x id) := fun _ _ h => nomatch h

theorem fresFail (d : Nat) (r : Nat) (x : Nat) (id : Nat) : Statement (.fresFail d r x id) := fun _ _ h => nomatch h

theorem attestGo (x : Nat) : Statement (.attestGo x) := fun _ _ h => nomatch h

theorem attestReportDone (x : Nat) : Statement (.attestReportDone x) := fun _ _ h => nomatch h

theorem correctableError (e : ErrorSite) : Statement (.correctableError e) := fun _ _ h => nomatch h

theorem uncorrectableError (e : ErrorSite) : Statement (.uncorrectableError e) := fun _ _ h => nomatch h

theorem scrubPass (key : Nat) : Statement (.scrubPass key) := fun _ _ h => nomatch h

theorem errheal (v : Word) : Statement (.errheal v) := fun _ _ h => nomatch h

theorem fcmdFence (x : Nat) (i : Nat) : Statement (.fcmdFence x i) := fun _ _ h => nomatch h

theorem fcmdRestart (x : Nat) (i : Nat) : Statement (.fcmdRestart x i) := fun _ _ h => nomatch h

theorem calderaFence (x : Nat) (i : Nat) (kind : Nat) : Statement (.calderaFence x i kind) := fun _ _ h => nomatch h

theorem clusterFence (c : Nat) : Statement (.clusterFence c) := fun _ _ h => nomatch h

theorem lockstepCompare (q : Nat) : Statement (.lockstepCompare q) := fun _ _ h => nomatch h

theorem shadowCommit (x : Nat) : Statement (.shadowCommit x) := fun _ _ h => nomatch h

theorem thermalStep (d : Nat) (temp : Nat) : Statement (.thermalStep d temp) := fun _ _ h => nomatch h

theorem powerLimitWindow (pkg : Nat) (dies : List Nat) : Statement (.powerLimitWindow pkg dies) := fun _ _ h => nomatch h

theorem lifeUpdate (temps : List Nat) (volts : List Nat) : Statement (.lifeUpdate temps volts) := fun _ _ h => nomatch h

theorem retentionEntry (k : Nat) : Statement (.retentionEntry k) := fun _ _ h => nomatch h

theorem illegalInstruction (w : InstrWord) : Statement (.illegalInstruction w) := fun _ _ h => nomatch h

theorem walkerIllegalWord (w : InstrWord) : Statement (.walkerIllegalWord w) := fun _ _ h => nomatch h

theorem ucieLinkUp (m : Nat) : Statement (.ucieLinkUp m) := fun _ _ h => nomatch h

theorem thermalResetTrip (d : Nat) : Statement (.thermalResetTrip d) := fun _ _ h => nomatch h

theorem servoLockChange (on : Bool) : Statement (.servoLockChange on) := fun _ _ h => nomatch h

end Sys2Proof.Laws.RoundTrip
end

