-- ==== Sys2Proof/Tests/Slice0.lean ====
section
/-! SUPPORT. The tests of the model: words written out from the encodings of the spec, terms that are not
well formed, one step on a small state with its result worked out by hand from the rule named, and a witness for the
hypotheses of every statement that has some. -/

set_option Elab.async false

open Sys2Proof Sys2Proof.Machine

namespace Sys2Proof.Tests

/-! ### Words and their instructions -/

theorem test_decode_madd : (decodeWord 0b00000100111000010001000011010111).toOption = some (.madd 7 1 2 3) := by decide +kernel
theorem test_decode_ext_s16 : (decodeWord 0b00000100100010010000001001011000).toOption = some (.ext 4 9 1) := by decide +kernel
theorem test_decode_addi_minus_one : (decodeWord 0b00001000011000111111111111111111).toOption = some (.addi 3 3 0xFFFF) := by decide +kernel
theorem test_decode_shri_s64 : (decodeWord 0b00011000011001000000000010000101).toOption = some (.shriS64 3 4 5) := by decide +kernel
theorem test_decode_li_minus_two : (decodeWord 0b00100011110111111111111111111110).toOption = some (.li 30 0x1FFFFE) := by decide +kernel
theorem test_decode_padd : (decodeWord 0b00101000111011000000000000000011).toOption = some (.padd 7 12) := by decide +kernel
theorem test_decode_crclr : (decodeWord 0b00101100110000000011010000001001).toOption = some (.crclr 6 0x409) := by decide +kernel
theorem test_decode_fma : (decodeWord 0b00110000001000100001100100001001).toOption = some (.fma 1 2 3 4) := by decide +kernel
theorem test_decode_bgeZ64 : (decodeWord 0b01010101000010011111111111111100).toOption = some (.bgeZ64 8 9 0xFFFC) := by decide +kernel
theorem test_decode_jal : (decodeWord 0b01011011111111111111111111110000).toOption = some (.jal 0x3FFFFF0) := by decide +kernel
theorem test_decode_rep_register_count : (decodeWord 0b01011100001001010010001100000000).toOption = some (.rep 1 5 3 0) := by decide +kernel
theorem test_decode_ld_z32 : (decodeWord 0b01100000101001101110111111111000).toOption = some (.ld 5 6 6 0xFF8) := by decide +kernel
theorem test_decode_stpi_s8 : (decodeWord 0b01101000101011111000000000000000).toOption = some (.stpi 5 3 0) := by decide +kernel
theorem test_decode_vstp : (decodeWord 0b01101111111001100011000000000001).toOption = some (.vstp 31 6 1) := by decide +kernel
theorem test_decode_lda_domain : (decodeWord 0b01110000011001000000100111100000).toOption = some (.lda 3 4 4 7) := by decide +kernel
theorem test_decode_vtdep : (decodeWord 0b01110100011111100000000000000011).toOption = some (.vtdep 3 30) := by decide +kernel
theorem test_decode_amax_s32 : (decodeWord 0b01111000001000100001101101000111).toOption = some (.amax 1 2 3 3 0 1) := by decide +kernel
theorem test_decode_stn4 : (decodeWord 0b01111100101001100000111111111111).toOption = some (.stn4 5 6 0xFFF) := by decide +kernel
theorem test_decode_vmul_sat : (decodeWord 0b10000000001000100001111000100010).toOption = some (.vmul 1 2 3 0xC 1) := by decide +kernel
theorem test_decode_vsel : (decodeWord 0b10000100001000100001100100000011).toOption = some (.vsel 1 2 3 2) := by decide +kernel
theorem test_decode_vrmin : (decodeWord 0b10001001001000100000010000000010).toOption = some (.vrmin 9 2 8) := by decide +kernel
theorem test_decode_vins : (decodeWord 0b10001100001000100001111110000100).toOption = some (.vins 1 2 3 0xF) := by decide +kernel
theorem test_decode_vcvt : (decodeWord 0b10010000001000100001111010000000).toOption = some (.vcvt 1 2 3 0xD) := by decide +kernel
theorem test_decode_mma : (decodeWord 0b10110000111010000000000000000110).toOption = some (.mma 7 8 6) := by decide +kernel
theorem test_decode_cvq : (decodeWord 0b10110000001000100001000000101001).toOption = some (.cvq 1 2 1 1) := by decide +kernel
theorem test_decode_twst : (decodeWord 0b10110000001000100010000000100011).toOption = some (.twst 1 2 3) := by decide +kernel
theorem test_decode_ksel : (decodeWord 0b10110000001000100011000000010000).toOption = some (.ksel 1 2 0) := by decide +kernel
theorem test_decode_sgg : (decodeWord 0b10110000001000100100000000000001).toOption = some (.sgg 1 2 1) := by decide +kernel
theorem test_decode_tcls : (decodeWord 0b10110001001000000101000000100000).toOption = some (.tcls 9) := by decide +kernel
theorem test_decode_wstart : (decodeWord 0b10110000001000100110000000000010).toOption = some (.wstart 1 2 2) := by decide +kernel
theorem test_decode_bfill : (decodeWord 0b10110000001000100111000000010000).toOption = some (.bfill 1 2 0) := by decide +kernel
theorem test_decode_eset : (decodeWord 0b10110101001000000011000001110011).toOption = some (.eset 9 3 7 3) := by decide +kernel
theorem test_decode_msend : (decodeWord 0b11010000000000010001000000000100).toOption = some (.msend 1 2) := by decide +kernel
theorem test_decode_cwaitt : (decodeWord 0b11010100001000100001101100000011).toOption = some (.cwaitt 1 2 3 3) := by decide +kernel
theorem test_decode_cbac_count : (decodeWord 0b11011000000111100110000100000000).toOption = some (.cbac 0 15 256) := by decide +kernel
theorem test_decode_mwait : (decodeWord 0b11011101001000000010000000000000).toOption = some (.mwait 9) := by decide +kernel
theorem test_decode_slsave : (decodeWord 0b11100000000001000010100000001001).toOption = some (.slsave 4 5) := by decide +kernel
theorem test_decode_hint : (decodeWord 0b11111110001101000101011001111000).toOption = some (.hint 0x2345678) := by decide +kernel
theorem test_decode_wpeek : (decodeWalker 0b10000011000000001100000000000000).toOption = some (.wpeek 3 1 2) := by decide +kernel
theorem test_decode_wstrm : (decodeWalker 0b01100001001000111100000000000000).toOption = some (.wstrm 1 2 3 1 1) := by decide +kernel
theorem test_decode_wmrg_is : (decodeWalker 0b10110100010100000100000000000000).toOption = some (.wmrgIs 4 5) := by decide +kernel
theorem test_rejects_major_zero : decodeWord 0b00000000000000000000000000000000 = .error .unassignedMajor := by rfl
theorem test_rejects_int_function_0x19 : decodeWord 0b00000100001000100001100000011001 = .error .unassignedFunction := by rfl
theorem test_rejects_add_with_rc : decodeWord 0b00000100001000100001100001000000 = .error .unusedField := by rfl
theorem test_rejects_scope_5 : decodeWord 0b01110000011001000000101111100000 = .error .operandValue := by rfl
theorem test_rejects_vadd_sat_f32 : decodeWord 0b10000000001000100001100000100000 = .error .operandValue := by rfl
theorem test_rejects_sat_on_vmin : decodeWord 0b10000000001000100001110000100100 = .error .unusedField := by rfl
theorem test_rejects_lsi_high_bits : decodeWord 0b00100100001000010000000000000000 = .error .unusedField := by rfl
theorem test_rejects_walker_all_zero : decodeWalker 0b00000000000000000000000000000000 = .error .unassignedMajor := by rfl
theorem test_rejects_wpeek_sel_3 : decodeWalker 0b10000011000000000110000000000000 = .error .operandValue := by rfl

/-! ### Terms that are not well formed -/

theorem test_wellFormed_control_register : Instr.wellFormed (.crrd 1 0x013) = true ∧ Instr.wellFormed (.crrd 1 0x014) = false := by decide
theorem test_wellFormed_control_register_levels : Instr.wellFormed (.crwr 1 0x807) = true ∧ Instr.wellFormed (.crset 1 0x808) = false := by decide
theorem test_wellFormed_crclr : Instr.wellFormed (.crclr 1 0x40A) = true ∧ Instr.wellFormed (.crclr 1 0x40B) = false := by decide
theorem test_wellFormed_rep_count : Instr.wellFormed (.rep 1 5 3 0) = true ∧ Instr.wellFormed (.rep 1 5 3 1) = false := by decide
theorem test_wellFormed_scope_order : Instr.wellFormed (.lda 3 4 4 7) = true ∧ Instr.wellFormed (.stl 3 4 5 7) = false := by decide
theorem test_wellFormed_scope_fence : Instr.wellFormed (.fence 4) = true ∧ Instr.wellFormed (.fence 7) = false := by decide
theorem test_wellFormed_scope_atomic : Instr.wellFormed (.aswap 1 2 3 4 1) = true ∧ Instr.wellFormed (.aswap 1 2 3 5 1) = false := by decide
theorem test_wellFormed_scope_minmax : Instr.wellFormed (.amin 1 2 3 0 1 1) = true ∧ Instr.wellFormed (.amax 1 2 3 6 1 1) = false := by decide
theorem test_wellFormed_scope_reduce : Instr.wellFormed (.radd 1 2 3 1) = true ∧ Instr.wellFormed (.rfadd 1 2 7) = false := by decide
theorem test_wellFormed_scope_counter : Instr.wellFormed (.cadd 1 2 3) = true ∧ Instr.wellFormed (.cwait 1 2 3 5) = false := by decide
theorem test_wellFormed_saturation : Instr.wellFormed (.vadd 1 2 3 0xE 1) = true ∧ Instr.wellFormed (.vadd 1 2 3 0xB 1) = false := by decide
theorem test_wellFormed_mod : Instr.wellFormed (.vsub 1 2 3 8 0) = true ∧ Instr.wellFormed (.vmul 1 2 3 8 2) = false := by decide
theorem test_wellFormed_float_type : Instr.wellFormed (.vfma 1 2 3 2) = true ∧ Instr.wellFormed (.vfma 1 2 3 8) = false := by decide
theorem test_wellFormed_lane_type : Instr.wellFormed (.vmin 1 2 3 0xF) = true ∧ Instr.wellFormed (.vmin 1 2 3 3) = false := by decide
theorem test_wellFormed_signed_type : Instr.wellFormed (.vabs 1 2 0xB) = true ∧ Instr.wellFormed (.vneg 1 2 0xC) = false := by decide
theorem test_wellFormed_integer_type : Instr.wellFormed (.vand 1 2 3 8) = true ∧ Instr.wellFormed (.vshl 1 2 3 0) = false := by decide
theorem test_wellFormed_convert_type : Instr.wellFormed (.vcvt 1 2 4 0xF) = true ∧ Instr.wellFormed (.vcvt 1 2 5 0) = false := by decide
theorem test_wellFormed_convert_target : Instr.wellFormed (.vcvt 1 2 0 3) = true ∧ Instr.wellFormed (.vcvt 1 2 0 7) = false := by decide
theorem test_wellFormed_rounding : Instr.wellFormed (.cvt 1 2 0 5) = true ∧ Instr.wellFormed (.cvt 1 2 0 6) = false := by decide
theorem test_wellFormed_engine_register : Instr.wellFormed (.eset 1 6 6 3) = true ∧ Instr.wellFormed (.eset 1 6 7 3) = false := by decide
theorem test_wellFormed_engine_set : Instr.wellFormed (.eget 1 7 2 3) = true ∧ Instr.wellFormed (.eget 1 0 0 1) = false := by decide
theorem test_wellFormed_count : Instr.wellFormed (.cbwp 1 2 0) = true ∧ Instr.wellFormed (.cbwp 1 2 1) = false := by decide
theorem test_wellFormed_wpeek : Instr.wellFormed (.wpeek 1 0 2) = true ∧ Instr.wellFormed (.wpeek 1 0 3) = false := by decide

/-! ### Single steps -/

/-- A running slot at level M with every register of its pools, at PC 0x1000. -/
def base : Slot := { Slot.empty with state := .running, level := 2, nsreg := 4, nvreg := 4, pc := 0x1000 }

/-- The package after reset with 64 good clusters and one activation, which has the turn. -/
def on (q : Nat) (x : Slot) : State :=
  { State.reset with slots := [(q, x)], cur := some q, dev := [(clmapOff 0 0 / 8, BitVec.allOnes 64)] }

/-- The base slot with scalar registers 1, 2 and 3. -/
def regs (a b c : Word) : Slot := { base with s := [(1, a), (2, b), (3, c)] }

/-- The base slot with vector registers 1 and 2. -/
def vregs (a b : Line) : Slot := { base with v := [(1, a), (2, b)] }

/-- Whether a step answers a next state with a property. -/
def ran (r : Result) (p : State → Bool) : Bool :=
  match r with
  | .next t => p t
  | _ => false

/-- Whether an instruction, run on slot 0 of the feed core of tile 0, leaves scalar register 4 at a value and the PC
at the next word. -/
def gives (i : Instr) (x : Slot) (v : Word) : Bool :=
  ran (exec i (on 0 x)) fun t => (t.slot 0).sreg 4 == v && (t.slot 0).pc == 0x1004

/-- The same with the accrued flags of R81. -/
def givesF (i : Instr) (x : Slot) (v : Word) (fl : BitVec 5) : Bool :=
  ran (exec i (on 0 x)) fun t => (t.slot 0).sreg 4 == v && (t.slot 0).fflags == fl

/-- Whether a vector instruction, run on the math core of tile 0, leaves the low bits of vector register 4 at a
value. -/
def givesV (i : Instr) (x : Slot) (n : Nat) (v : Nat) : Bool :=
  ran (exec i (on 8 x)) fun t => ((t.slot 8).vreg 4).toNat % 2 ^ n == v

/-- The local scratchpad's address of an offset (R250). -/
def pad (o : Nat) : Word := BitVec.ofNat 64 (0xFFFFFFFFFFFE0000 + o)

/-- R149: modulo 2^64. -/
theorem test_add_wraps : gives (.add 4 1 2) (regs 0xFFFFFFFFFFFFFFFF 2 0) 1 = true := by decide +kernel

/-- R149. -/
theorem test_sub_wraps : gives (.sub 4 1 2) (regs 1 2 0) 0xFFFFFFFFFFFFFFFF = true := by decide +kernel

/-- R149: -1 times 1 has the high half -1. -/
theorem test_mulh_signed : gives (.mulhS64 4 1 2) (regs 0xFFFFFFFFFFFFFFFF 1 0) 0xFFFFFFFFFFFFFFFF = true := by decide +kernel

/-- R149. -/
theorem test_mulh_unsigned : gives (.mulhZ64 4 1 2) (regs 0xFFFFFFFFFFFFFFFF 0xFFFFFFFFFFFFFFFF 0) 0xFFFFFFFFFFFFFFFE = true := by decide +kernel

/-- R150: -7 over 2 is -3. -/
theorem test_div_rounds_to_zero : gives (.divS64 4 1 2) (regs 0xFFFFFFFFFFFFFFF9 2 0) 0xFFFFFFFFFFFFFFFD = true := by decide +kernel

/-- R150. -/
theorem test_div_min_by_minus_one : gives (.divS64 4 1 2) (regs 0x8000000000000000 0xFFFFFFFFFFFFFFFF 0) 0x8000000000000000 = true := by decide +kernel

/-- R150. -/
theorem test_rem_by_zero : gives (.remZ64 4 1 2) (regs 7 0 0) 7 = true := by decide +kernel

/-- R149: the amount is the low six bits. -/
theorem test_shift_by_65 : gives (.shl 4 1 2) (regs 3 65 0) 6 = true := by decide +kernel

/-- R149. -/
theorem test_shr_signed : gives (.shrS64 4 1 2) (regs 0xFFFFFFFFFFFFFFF8 1 0) 0xFFFFFFFFFFFFFFFC = true := by decide +kernel

/-- R149. -/
theorem test_slt_signed : gives (.sltS64 4 1 2) (regs 0xFFFFFFFFFFFFFFFF 0 0) 1 = true := by decide +kernel

/-- R149. -/
theorem test_slt_unsigned : gives (.sltZ64 4 1 2) (regs 0xFFFFFFFFFFFFFFFF 0 0) 0 = true := by decide +kernel

/-- R149. -/
theorem test_clz_of_zero : gives (.clz 4 1) (regs 0 0 0) 64 = true := by decide +kernel

/-- R149: rc is zero. -/
theorem test_sel_takes_rb : gives (.sel 4 1 2 3) (regs 5 6 0) 6 = true := by decide +kernel

/-- R149. -/
theorem test_ext_s8 : gives (.ext 4 1 0) (regs 0x180 0 0) 0xFFFFFFFFFFFFFF80 = true := by decide +kernel

/-- R84. -/
theorem test_addi_extends_sign : gives (.addi 4 1 0xFFFF) (regs 1 0 0) 0 = true := by decide +kernel

/-- R84. -/
theorem test_ori_extends_zero : gives (.ori 4 1 0x8000) (regs 1 0 0) 0x8001 = true := by decide +kernel

/-- R84. -/
theorem test_li_minus_two : gives (.li 4 0x1FFFFE) (regs 0 0 0) 0xFFFFFFFFFFFFFFFE = true := by decide +kernel

/-- R151. -/
theorem test_lsi : gives (.lsi 4 0x1234) ({ base with s := [(4, 0xFFFF000000000001)] }) 0x0000000000011234 = true := by decide +kernel

/-- R78. -/
theorem test_s0_stays_zero : ran (exec (.add 0 1 2) (on 0 (regs 1 2 0))) (fun t => (t.slot 0).sreg 0 == 0 && (t.slot 0).pc == 0x1004) = true := by decide +kernel

/-- R156: 1.0 and 2.0 make 3.0. -/
theorem test_fadd_one_two : givesF (.fadd 4 1 2) (regs 0x3F800000 0x40000000 0) 0x40400000 0 = true := by decide +kernel

/-- R129: 1.0 and 2^-25 round to even, NX. -/
theorem test_fadd_inexact : givesF (.fadd 4 1 2) (regs 0x3F800000 0x33000000 0) 0x3F800000 1 = true := by decide +kernel

/-- R137: DZ. -/
theorem test_fdiv_by_zero : givesF (.fdiv 4 1 2) (regs 0xBF800000 0 0) 0xFF800000 8 = true := by decide +kernel

/-- R137: NV. -/
theorem test_fmul_inf_zero : givesF (.fmul 4 1 2) (regs 0x7F800000 0 0) 0x7FC00000 16 = true := by decide +kernel

/-- R156. -/
theorem test_fsqrt_four : givesF (.fsqrt 4 1) (regs 0x40800000 0 0) 0x40000000 0 = true := by decide +kernel

/-- R137. -/
theorem test_fmin_of_zeros : givesF (.fmin 4 1 2) (regs 0 0x80000000 0) 0x80000000 0 = true := by decide +kernel

/-- R157: -2.5 rounds to even, NX. -/
theorem test_fcvt_to_integer : givesF (.fcvtS64 4 1) (regs 0xC0200000 0 0) 0xFFFFFFFFFFFFFFFE 1 = true := by decide +kernel

/-- R157. -/
theorem test_fle_of_nan : givesF (.fle 4 1 2) (regs 0x7FC00000 0 0) 0 0 = true := by decide +kernel

/-- R158: -1 word. -/
theorem test_branch_back : ran (exec (.bltS64 1 2 0xFFFF) (on 0 (regs 0xFFFFFFFFFFFFFFFF 0 0))) (fun t => (t.slot 0).pc == 0xFFC) = true := by decide +kernel

/-- R159. -/
theorem test_jal_links : ran (exec (.jal 3) (on 0 base)) (fun t => (t.slot 0).sreg 31 == 0x1004 && (t.slot 0).pc == 0x100C) = true := by decide +kernel

/-- R160: the target is read before the link is written. -/
theorem test_jalr_same_register : ran (exec (.jalr 1 1) (on 0 (regs 0x2000 0 0))) (fun t => (t.slot 0).sreg 1 == 0x1004 && (t.slot 0).pc == 0x2000) = true := by decide +kernel

/-- R161: three body words. -/
theorem test_rep_of_zero_skips : ran (exec (.rep 0 1 2 0) (on 0 (regs 0 0 0))) (fun t => (t.slot 0).pc == 0x1010) = true := by decide +kernel

/-- R161. -/
theorem test_rep_starts : ran (exec (.rep 0 0 2 5) (on 0 base)) (fun t => (t.slot 0).pc == 0x1004 && (t.slot 0).repActive && (t.slot 0).repcnt == 5) = true := by decide +kernel

/-- R154. -/
theorem test_crset_fflags : ran (exec (.crset 1 2) (on 0 { regs 0x14 0 0 with fflags := 1 })) (fun t => (t.slot 0).fflags == 0x15) = true := by decide +kernel

/-- R81. -/
theorem test_fctl_keeps_mode : ran (exec (.crwr 1 3) (on 0 { regs 0xD 0 0 with rm := 2 })) (fun t => (t.slot 0).rm == 2 && (t.slot 0).flush) = true := by decide +kernel

/-- R152. -/
theorem test_padd : ran (exec (.padd 2 1) (on 0 { regs 5 0 0 with p := [(2, 7)] })) (fun t => (t.slot 0).preg 2 == 12) = true := by decide +kernel

/-- R171. -/
theorem test_vadd_s8_wraps : givesV (.vadd 4 1 2 8 0) (vregs 0x017F 0x0201) 16 0x0380 = true := by decide +kernel

/-- R172. -/
theorem test_vadd_s8_saturates : givesV (.vadd 4 1 2 8 1) (vregs 0x017F 0x0201) 16 0x037F = true := by decide +kernel

/-- R174. -/
theorem test_vceq_z16 : givesV (.vceq 4 1 2 0xD) (vregs 0x00010002 0x00010003) 32 0xFFFF0000 = true := by decide +kernel

/-- R177. -/
theorem test_vbcst_z8 : givesV (.vbcst 4 1 0xC) (regs 0x1FE 0 0) 24 0xFEFEFE = true := by decide +kernel

/-- R176. -/
theorem test_vrot_z32 : givesV (.vrot 4 1 2 0xE) ({ base with v := [(1, 0x0000000300000002)], s := [(2, 1)] }) 32 3 = true := by decide +kernel

/-- R175: -1 and -128. -/
theorem test_vrsum_s8 : ran (exec (.vrsum 4 1 8) (on 8 (vregs 0x80FF 0))) (fun t => (t.slot 8).sreg 4 == 0xFFFFFFFFFFFFFF7F) = true := by decide +kernel

/-- R178: 128 and -129 clamp. -/
theorem test_vcvt_f32_to_s8 : givesV (.vcvt 4 1 0 8) (vregs 0x43000000C3010000 0) 16 0x7F80 = true := by decide +kernel

/-- R3, R287: little-endian, at once in the own scratchpad. -/
theorem test_store_own_pad : ran (exec (.st 2 1 6 0) (on 0 (regs (pad 0x100) 0x11223344 0))) (fun t => t.mem.readBytes (padKey 0 0x100) 4 == [0x44, 0x33, 0x22, 0x11] && (t.slot 0).pc == 0x1004) = true := by decide +kernel

/-- R286. -/
theorem test_load_waits_for_home : ran (exec (.ld 4 1 3 0) (on 0 (regs (pad 8) 0 0))) (fun t => t.agenda == [.bootStage 1, .sliceRead 0 0] && (t.slot 0).loads.length == 1) = true := by decide +kernel

/-- R283, R388. -/
theorem test_load_misaligned : ran (exec (.ld 4 1 2 0) (on 0 { regs (pad 2) 0 0 with level := 1 })) (fun t => (t.slot 0).level == 2 && (t.slot 0).mtrap.cause == 3 && (t.slot 0).mtrap.tval == pad 2 && (t.slot 0).mtrap.epc == 0x1000) = true := by decide +kernel

/-- R294. -/
theorem test_stn4_names_nibble : ran (exec (.stn4 2 1 3) (on 0 (regs (pad 0x10) 0xA 0))) (fun t => t.agenda.any fun e => match e with | .nibbleStoreAtHome r => r.key == padKey 0 0x11 && r.high && r.value == 0xA | _ => false) = true := by decide +kernel

/-- R291: -1 is below 1. -/
theorem test_amin_signed : ran (exec (.homeAtomic ⟨3, 0, some 0, 6, false, true, padKey 0 0, pad 0, 1, 0, [], 0, false, false, []⟩) { on 0 base with mem := [(padKey 0 0, 0xFF), (padKey 0 1, 0xFF), (padKey 0 2, 0xFF), (padKey 0 3, 0xFF)], outWrites := [⟨3, 0, padKey 0 0 / 128, none, none⟩] }) (fun t => t.mem.readBytes (padKey 0 0) 4 == [0xFF, 0xFF, 0xFF, 0xFF]) = true := by decide +kernel

/-- R52. -/
theorem test_counter_saturates : ran (exec (.counterAddAtHome ⟨0, none, none, padKey 0 0, pad 0, 2, [], 0, 0, [], .plain⟩) { on 0 base with mem := (List.range 8).map fun i => (padKey 0 0 + i, 0xFF) }) (fun t => t.counter (padKey 0 0) == 0xFFFFFFFFFFFFFFFF && t.status (padKey 0 0) == 2) = true := by decide +kernel

/-- R51. -/
theorem test_cadd_misaligned : ran (exec (.cadd 1 2 0) (on 0 { regs (pad 8) 1 0 with level := 1 })) (fun t => (t.slot 0).mtrap.cause == 3) = true := by decide +kernel

/-- R388, R389. -/
theorem test_ecall_enters_s : ran (exec .ecall { on 0 { base with level := 0 } with dev := [(clmapOff 0 0 / 8, BitVec.allOnes 64), (svecOff 0 / 8, 0x4000)] }) (fun t => (t.slot 0).level == 1 && (t.slot 0).pc == 0x4000 && (t.slot 0).strap.epc == 0x1004 && (t.slot 0).strap.cause == 0x10) = true := by decide +kernel

/-- R389: SVEC is 0. -/
theorem test_ecall_without_handler : ran (exec .ecall (on 0 { base with level := 0 })) (fun t => (t.slot 0).dying && (t.slot 0).retiring && t.agenda == [.bootStage 1, .retirement 0]) = true := by decide +kernel

/-- R404. -/
theorem test_eret_to_t : ran (exec .eret (on 0 { base with level := 1, strap := { base.strap with epc := 0x2008 } })) (fun t => (t.slot 0).level == 0 && (t.slot 0).pc == 0x2008) = true := by decide +kernel

/-- R97, R386. -/
theorem test_mcall_at_t_is_privileged : ran (exec .mcall { on 0 { base with level := 0 } with dev := [(clmapOff 0 0 / 8, BitVec.allOnes 64), (svecOff 0 / 8, 0x4000)] }) (fun t => (t.slot 0).strap.cause == 2 && (t.slot 0).pc == 0x4000) = true := by decide +kernel

/-- R38, R386. -/
theorem test_vector_word_on_feed_core : ran (exec (.vadd 4 1 2 8 0) { on 0 { base with level := 0 } with dev := [(clmapOff 0 0 / 8, BitVec.allOnes 64), (svecOff 0 / 8, 0x4000)] }) (fun t => (t.slot 0).strap.cause == 1) = true := by decide +kernel

/-- R89, R90. -/
theorem test_mma_takes_entry : ran (exec (.mma 1 2 0) (on 8 (regs 5 6 0))) (fun t => (t.slot 8).seqnext == 1 && ((t.slot 8).entry 0).any (fun e => e.valA == 5 && e.valB == 6) && t.agenda == [.bootStage 1, .cbPermit 8 0]) = true := by decide +kernel

/-- R87, R89. -/
theorem test_eset_then_reads : ran (exec (.eset 1 7 1 3) (on 0 (regs 0x77 0 0))) (fun t => (t.slot 0).ereg 7 3 1 == 0x77 && (t.slot 0).seqnext == 1) = true := by decide +kernel

/-- R60. -/
theorem test_retire_is_due : ran (exec .retire (on 0 base)) (fun t => (t.slot 0).retiring && t.agenda == [.bootStage 1, .retirement 0]) = true := by decide +kernel

/-- R64. -/
theorem test_cbwp_without_buffer : ran (exec (.cbwp 0 3 1) (on 0 { base with level := 1 })) (fun t => (t.slot 0).mtrap.cause == 8) = true := by decide +kernel

/-- R237. -/
theorem test_walker_add : ran (exec (.wadd 2 1 1) { on 0 base with slots := [(0, { base with ring := [(0, fetchEntry)] })], curWalk := some 0, walks := [(0, { Walk.start 0 fetchEntry with w := [(1, 0x8000000000000001)] })] }) (fun t => (findAt t.walks 0).any fun w => w.get 2 == 2 && w.pc == (Walk.start 0 fetchEntry).pc + 4) = true := by decide +kernel

/-- R256. -/
theorem test_bankctl_reserved_mode : ran (exec (.bankctlWrite 5 3 3 2 0) State.reset) (fun t => (t.bank 5 3).result == 2 && (t.bank 5 3).mode == .cache) = true := by decide +kernel

/-- R378. -/
theorem test_svec_write : ran (exec (.registerWrite ⟨0, .host 0, 2, 0, svecOff 4, .both, 0xFFFFFFFFFFFFFFFF, 0⟩) State.reset) (fun t => t.reg (svecOff 4) == 0x01FFFFFFFFFFFFFC) = true := by decide +kernel

/-- R319. -/
theorem test_routing_entry_reserved_port : ran (exec (.routingEntryWrite 3 1 7 0x10000030) State.reset) (fun t => t.reg (rtctlOff 3) == 4) = true := by decide +kernel

/-- R445. -/
theorem test_thermal_trip : ran (exec (.thermalStep 2 920) State.reset) (fun t => t.agenda.contains (.thermalResetTrip 2) && t.thermalLimit 2 == 450) = true := by decide +kernel

/-- R443. -/
theorem test_boot_without_firmware : ran (exec (.bootStage 3) { State.reset with dev := [(bootstatOff / 8, 0x0200000000000000)] }) (fun t => t.reg bootstatOff == 0x0306000000000000) = true := by decide +kernel

/-- R443. -/
theorem test_en_waits_for_ready : ran (exec (.cctlWrite 3 1 .both 2) State.reset) (fun t => !(t.reg (cctlOff 3)).getLsbD 0) = true := by decide +kernel

/-- R73: ADD s5, s1, s1 in memory. -/
theorem test_first_step_runs_the_word : ran (step (State.reset.withFetchWord 32 0x04A10800)) (fun t => (t.slot 8).pc == 0x10004 && (t.slot 8).sreg 5 == 0) = true := by decide +kernel

/-- R83. -/
theorem test_table_word : decodeTableWord 32 0x04845000 = some (.add 4 4 10) := by decide +kernel

/-- R23: the case of die 6, row 5, column 9, tile 6, math core. -/
theorem test_place_value_of_r23 : (placeOf (slotNum (16 * (128 * 6 + 16 * 5 + 9) + 6) 2 0)).toNat = 54874 := by decide +kernel

/-! ### Witnesses of the statements -/

/-- A list of instructions is ready on slot q of the base state. -/
def allReady (q : Nat) (x : Slot) (l : List Instr) : Prop := ∀ i ∈ l, Ready i q (on q x)

/-- The device-memory page at 0x10000, mapped to the same offset for every access at every level in cluster 0. -/
def page : XlatEntry := ⟨0, State.reset.asid 0, 0, vaIndex 0x10000 0, 0x1001F⟩

/-- The page at 0x20000, mapped to the management page of register space. -/
def regPage : XlatEntry := ⟨0, State.reset.asid 0, 0, vaIndex 0x20000 0, 0x00C000000600001F⟩

/-- The base state with both pages in the translation cache. -/
def onMapped (q : Nat) (x : Slot) : State := { on q x with tlb := [page, regPage] }

/-- Where an access of slot q resolves, without the state. -/
def place (s : State) (q : Nat) (va : Word) (n : Nat) (a : Access) : Option Loc := (resolve s (s.who q) va n a).2.toOption

/-- The turn that comes next, without the state. -/
def turnOf (s : State) : Option Turn := s.tick.nextTurn.2

/-- The word that slot q fetches, if it fetches one. -/
def fetched (s : State) (q : Nat) : Option InstrWord :=
  match (s.giveTurn q).fetchSlot q with
  | (_, .word w) => some w
  | _ => none

/-- A state whose next turn is a core's, or a walk's, which fetches the given word. -/
def about (w : Nat) : State := State.reset.withFetchWord 32 w

/-- What a walk's turn finds: rest 0, a word 1, an illegal word 2. -/
def walkFinds (s : State) (k : Nat) : Nat :=
  match s.walkTurn k with
  | (_, .rest) => 0
  | (_, .word _) => 1
  | (_, .illegal _) => 2

/-- The state about to run a walker word, with another word in its place. -/
def aboutWalk (w : Nat) : State :=
  let s := about 0x61230000
  { s with mem := s.mem.writeBytes 0x10000 (natBytes w 4) }

/-- The base slot inside a repetition: three body words, the given position and pass of the given count. -/
def repAt (pos pass count : Nat) : Slot :=
  { base with repst := BitVec.ofNat 64 (pass * 2 ^ 32 + 2 ^ 24 + pos * 2 ^ 20 + 2 * 2 ^ 16), repcnt := BitVec.ofNat 32 count }

/-- Witness of EveryStepKeepsMemoryCanonical. -/
theorem test_witness_step_keeps : State.reset.mem.wf = true ∧ ran (step (State.reset.withFetchWord 32 0x04A10800)) (fun t => t.mem.wf) = true := by decide +kernel

/-- Witness of EncodedInstructionsDecodeToThemselves. -/
theorem test_witness_encoded : Instr.wellFormed (.add 4 4 10) = true ∧ encode (.add 4 4 10) = some 0x04845000 ∧
    Instr.wellFormed .wend = true ∧ encode .wend = some 0xE0000000 := by decide +kernel

/-- Witness of DecodedWordsEncodeToThemselves. -/
theorem test_witness_decoded : (decodeWord 0x04845000).toOption = some (.add 4 4 10) ∧ (decodeWalker 0xE0000000).toOption = some .wend := by decide +kernel

/-- Witness of ACoreTurnRunsTheDecodedWord. -/
theorem test_witness_core_turn : turnOf (about 0x04A10800) = some (.core 2) ∧ (about 0x04A10800).tick.nextTurn.1.nextSlot 2 = some 8 ∧
    fetched (about 0x04A10800).tick.nextTurn.1 8 = some 0x04A10800 ∧ (((about 0x04A10800).slot 8).decode 0x04A10800).toOption = some (.add 5 1 1) ∧
    (((about 0).slot 8).decode 0).toOption = none ∧ fetched (about 0).tick.nextTurn.1 8 = some 0 ∧
    ({ State.reset with focus := some (.core 2) } : State).tick.nextTurn.1.nextSlot 2 = none ∧ (about 0x04A10800).lockstep 0 = false := by decide +kernel

/-- Witness of AFetchReadsTheWordInMemory. -/
theorem test_witness_fetch : (onMapped 0 { base with pc := 0x10000 }).who 0 = (onMapped 0 { base with pc := 0x10000 }).who 0 ∧
    (place (onMapped 0 { base with pc := 0x10000 }) 0 0x10000 4 .fetch).map (·.key) = some 0x10000 ∧
    (base.repActive, base.ahead.isSome, (on 0 base).anyBad 0x10000 4) = (false, false, false) ∧ (0x10002 : BitVec 57).toNat % 4 ≠ 0 := by decide +kernel

/-- Witness of AWalkTurnRunsTheDecodedWord. -/
theorem test_witness_walk_turn : turnOf (about 0x61230000) = some (.walk 0) ∧ walkFinds (about 0x61230000).tick.nextTurn.1 0 = 1 ∧
    walkFinds (aboutWalk 0).tick.nextTurn.1 0 = 2 ∧ walkFinds State.reset 0 = 0 := by decide +kernel

/-- Witness of ADueStepIsTheInstructionOfItsName. -/
theorem test_witness_due_step : turnOf { State.reset with focus := some (.event 0) } = some (.event 0) ∧
    State.reset.agenda[0]? = some (.bootStage 1) ∧ (Event.bootStage 1).StandsFor (.bootStage 1) := ⟨by decide +kernel, by decide +kernel, rfl⟩

/-- Witness of TheTestsOfDecodeComeBeforeTheEffect. -/
theorem test_witness_tests_of_decode : (base.admits 0 (.vadd 4 1 2 0 0)) = false ∧ base.admits 0 (.slkill 1) = true ∧ ({ base with level := 0 } : Slot).level.toNat < (Instr.slkill 1).minLevel ∧
    base.admits 0 (.add 4 1 2) = true ∧ ({ base with loads := [⟨0, 0, 3, .scalar 4, .plain, 0, 8, false, none, false, 0, 0, 0, false, false, ⟨0x1000, 0, 0, 0, Taint.none, none⟩⟩] } : Slot).interlocked
      (Instr.add 4 1 2).operands = true ∧ (on 0 base).cur = some 0 ∧ base.state = .running := by decide +kernel

/-- Witness of IntegerRegisterInstructionsWriteTheirResults. -/
theorem test_witness_integer : allReady 0 (base)
    [.add 4 1 2, .sub 4 1 2, .mul 4 1 2, .mulhS64 4 1 2, .mulhZ64 4 1 2, .and 4 1 2, .or 4 1 2, .xor 4 1 2, .shl 4 1 2, .shrZ64 4 1 2, .shrS64 4 1 2, .minS64 4 1 2, .maxS64 4 1 2, .sltS64 4 1 2, .sltZ64 4 1 2, .seq 4 1 2, .clz 4 1, .popc 4 1, .sel 4 1 2 3, .madd 4 1 2 3, .ext 4 1 0, .ext 4 1 1, .ext 4 1 2, .ext 4 1 3, .ext 4 1 4, .ext 4 1 5, .ext 4 1 6, .ext 4 1 7] := by
  unfold allReady; decide +kernel

/-- Witness of DivisionNeverTrapsAndIsExact. -/
theorem test_witness_division : allReady 0 (base)
    [.divS64 4 1 2, .remS64 4 1 2, .divZ64 4 1 2, .remZ64 4 1 2] := by
  unfold allReady; decide +kernel

/-- Witness of DivisionNeverTrapsAndIsExact. -/
theorem test_witness_division_corner : (0x8000000000000000 : Word).toInt = -2 ^ 63 ∧ (0xFFFFFFFFFFFFFFFF : Word).toInt = -1 := by decide +kernel

/-- Witness of ImmediateAndPointerInstructionsWriteTheirResults. -/
theorem test_witness_immediate : allReady 0 (base)
    [.addi 4 1 5, .andi 4 1 5, .ori 4 1 5, .xori 4 1 5, .shli 4 1 5, .shriZ64 4 1 5, .shriS64 4 1 5, .sltiS64 4 1 5, .li 4 5, .lsi 4 5, .pset 1 2, .pstep 1 2, .pget 4 1, .padd 1 2] := by
  unfold allReady; decide +kernel

/-- Witness of ScalarFloatInstructionsWriteTheirResults. -/
theorem test_witness_scalar_float : allReady 0 (base)
    [.fadd 4 1 2, .fsub 4 1 2, .fmul 4 1 2, .fdiv 4 1 2, .fmin 4 1 2, .fmax 4 1 2, .feq 4 1 2, .flt 4 1 2, .fle 4 1 2, .fma 4 1 2 3, .fsqrt 4 1, .fcvtS64 4 1, .fcvtiS64 4 1, .fxse 4 1] := by
  unfold allReady; decide +kernel

/-- Witness of BranchesGoWhereTheConditionSays. -/
theorem test_witness_branches : allReady 0 (base)
    [.beq 1 2 8, .bne 1 2 8, .bltS64 1 2 8, .bgeS64 1 2 8, .bltZ64 1 2 8, .bgeZ64 1 2 8] := by
  unfold allReady; decide +kernel

/-- Witness of JumpsLinkAndMoveThePc. -/
theorem test_witness_jumps : allReady 0 (base)
    [.jal 8, .jr 1, .jalr 2 1, .rep 1 0 2 5, .rep 1 3 2 0, .hint 7] := by
  unfold allReady; decide +kernel

/-- Witness of JumpsLinkAndMoveThePc. -/
theorem test_witness_jump_targets : (0x2000 : Word).toNat % 4 = 0 ∧ canonical 0x2000 = true ∧ canonical 0x0100000000000000 = false ∧ (0x2002 : Word).toNat % 4 ≠ 0 := by decide +kernel

/-- Witness of RepRunsItsBodyPassByPass. -/
theorem test_witness_rep : (repAt 1 0 2).repActive = true ∧ (repAt 1 0 2).repPos < (repAt 1 0 2).repNm1 ∧ ¬(repAt 2 0 2).repPos < (repAt 2 0 2).repNm1 ∧
    (repAt 2 0 2).repPass + 1 < (repAt 2 0 2).repcnt.toNat ∧ ¬(repAt 2 1 2).repPass + 1 < (repAt 2 1 2).repcnt.toNat ∧ base.repActive = false := by decide +kernel

/-- Witness of ControlRegisterInstructionsReadAndWriteTheirFields. -/
theorem test_witness_control_registers : allReady 0 (base)
    [.crrd 4 2, .crwr 1 2, .crset 1 2, .crclr 1 2, .crrd 4 3, .crwr 1 3] := by
  unfold allReady; decide +kernel

/-- Witness of ControlRegisterInstructionsReadAndWriteTheirFields. -/
theorem test_witness_control_register_pending : ({ base with ring := [(0, fetchEntry)] } : Slot).flagsPending = true ∧ base.flagsPending = false := by decide +kernel

/-- Witness of ScalarInstructionsLeaveTheRestAlone. -/
theorem test_witness_scalar_frame : allReady 0 (base)
    [.add 4 1 2, .mul 4 1 2, .divS64 4 1 2, .sel 4 1 2 3, .madd 4 1 2 3, .ext 4 1 0, .addi 4 1 5, .li 4 5, .lsi 4 5, .clz 4 1, .pget 4 1, .pset 1 2, .pstep 1 2, .padd 1 2, .beq 1 2 8, .hint 7] := by
  unfold allReady; decide +kernel

/-- Witness of ScalarInstructionsLeaveTheRestAlone. -/
theorem test_witness_scalar_frame_next : ran (exec (.add 4 1 2) (on 0 base)) (fun _ => true) = true := by decide +kernel

/-- Witness of VectorIntegerArithmeticIsLaneByLane. -/
theorem test_witness_vector_integer : allReady 8 (base)
    [.vadd 4 1 2 8 0, .vsub 4 1 2 9 0, .vmul 4 1 2 10 0, .vadd 4 1 2 12 1, .vsub 4 1 2 13 1, .vmul 4 1 2 14 1, .vmin 4 1 2 8, .vmax 4 1 2 8, .vabs 4 1 8, .vneg 4 1 8, .vand 4 1 2 12, .vor 4 1 2 12, .vxor 4 1 2 12, .vshl 4 1 2 8, .vshr 4 1 2 8] := by
  unfold allReady; decide +kernel

/-- Witness of the vector statements: the types of their bounds. -/
theorem test_witness_vector_types : tyInt 8 = true ∧ tyInt 15 = true ∧ tySign 8 = true ∧ tyFloat 0 = true ∧ tyFloat 2 = true ∧ tyLane 0 = true ∧ tyLane 15 = true ∧ tyConvert 3 = true := by decide +kernel

/-- Witness of VectorFloatArithmeticRoundsEachLane. -/
theorem test_witness_vector_float : allReady 8 (base)
    [.vadd 4 1 2 0 0, .vsub 4 1 2 1 0, .vmul 4 1 2 2 0, .vfma 4 1 2 0, .vmin 4 1 2 0, .vmax 4 1 2 0, .vabs 4 1 0, .vneg 4 1 0, .vdiv 4 1 2, .vsqrt 4 1, .vexp2 4 1] := by
  unfold allReady; decide +kernel

/-- Witness of VectorComparesAndSelectWriteWholeLanes. -/
theorem test_witness_vector_compare : allReady 8 (base)
    [.vceq 4 1 2 8, .vclt 4 1 2 8, .vcle 4 1 2 8, .vceq 4 1 2 0, .vclt 4 1 2 0, .vcle 4 1 2 0, .vsel 4 1 2 0] := by
  unfold allReady; decide +kernel

/-- Witness of VectorReductionsWriteOneScalar. -/
theorem test_witness_vector_reduce : allReady 8 (base)
    [.vrsum 4 1 8, .vrmax 4 1 8, .vrmin 4 1 8, .vrsum 4 1 0, .vrmax 4 1 0, .vrmin 4 1 0] := by
  unfold allReady; decide +kernel

/-- Witness of LaneMovementCopiesRawLanes and VectorInstructionsLeaveTheRestAlone. -/
theorem test_witness_vector_move : allReady 8 (base)
    [.vperm 4 1 2 8, .vrot 4 1 2 8, .vbcst 4 1 8, .vext 4 1 2 8, .vins 4 1 2 8, .vmov 4 1, .vcvt 4 1 0 8] := by
  unfold allReady; decide +kernel

/-- Witness of VectorInstructionsLeaveTheRestAlone. -/
theorem test_witness_vector_frame : Instr.wellFormed (.vadd 4 1 2 8 0) = true ∧ ran (exec (.vadd 4 1 2 8 0) (on 8 base)) (fun _ => true) = true := by decide +kernel

/-- Witness of RegisterZeroReadsAsZeroAndDiscardsWrites. -/
theorem test_witness_zero : allReady 0 (base)
    [.add 0 1 2, .pget 0 1, .crrd 0 3, .fdiv 0 1 2, .aadd 0 1 2 3 1] := by
  unfold allReady; decide +kernel

/-- A load of eight bytes to s4 that the base slot has outstanding at a key, with what its home answered. -/
def loadOf (key : Nat) (kind : LoadKind) (data : Option Nat) : LoadRec :=
  ⟨0, 3, 0, .scalar 4, kind, key, 8, false, data, false, 5, 0, 0, false, false, ⟨0x1000, 0, 0, 0, Taint.none, none⟩⟩

/-- The base slot with that load. -/
def loading (key : Nat) (kind : LoadKind) (data : Option Nat) : Slot :=
  { base with loads := [loadOf key kind data], nextSerial := 1 }

/-- A store of eight bytes of thread 0 and its record among the outstanding writes. -/
def storeOf (key : Nat) : WriteReq := ⟨3, 0, 0, key, 0, [1, 2, 3, 4, 5, 6, 7, 8], 7, [], false, false, [], false, .held⟩

/-- A state in which write 3 of thread 0 to a key is on its way, and nothing else. -/
def writing (key : Nat) : State := { on 0 base with outWrites := [⟨3, 0, key / 128, none, none⟩] }

/-- A state in which context 0 holds a Caldera of cluster 1 that is being fenced. -/
def fencing : State :=
  { on 0 (regs 0xFFFFFFFFE0200000 0 0) with dev := [(clmapOff 0 0 / 8, BitVec.allOnes 64), (caldOff 0 0 / 8, 0x8000000000001100), (fstatOff 0 / 8, 1)] }

/-- The location of an eight-byte read through s1 of slot 0: its home's kind and offset. -/
def readAt (va : Word) : Option Home := (place (onMapped 0 (regs va 0 0)) 0 va 8 .read).map fun l => homeOf l.key

/-- The home of an eight-byte write through s1 of slot 0. -/
def writeAt (va : Word) : Option Home := (place (onMapped 0 (regs va 0 0)) 0 va 8 .write).map fun l => homeOf l.key

/-- A release of thread 0 whose store is write 3. -/
def releaseOf : Release := ⟨0, 0, 3, 3, .store (storeOf (padKey 0 8))⟩

/-- A request to another package with tag 4 of thread 0. -/
def farOf : FarReq := ⟨4, some 0, none, 3, 0, 9, false, true, 0, 0, none, false, none⟩

/-- A state in which a task of pool entry 0 of tile 0, with threshold 2, waits for its counter to cross. -/
def pooled : State :=
  { writing (padKey 0 0x14030) with pools := [(0, ⟨0, 0, 2, false, false⟩)] }

/-- A wait of thread 0 for a counter in its scratchpad to reach 5. -/
def waitOf (trap : Bool) : WaitReq := ⟨0, 0, padKey 0 16, pad 16, 5, trap, 0, 0⟩

/-- A state in which slot 0 waits so; the counter has a value and is abandoned or not. -/
def waiting (trap : Bool) (value : Nat) (abandoned : Bool) : State :=
  { on 0 { loading (padKey 0 16) (.wait 3) none with state := .waiting, wait := some (.counter (padKey 0 16) (pad 16) 5 trap 0) } with
    waits := [waitOf trap],
    mem := ((Memory.writeBytes [] (padKey 0 16) (natBytes value 8)).writeBytes (padKey 0 24) (natBytes (if abandoned then 1 else 0) 8)) }

/-- Witness of LoadsTakeATagAndAskTheHome. -/
theorem test_witness_loads : allReady 0 (base)
    [.ld 4 1 3 0, .ldp 4 1 3 0, .ldpi 4 1 3, .lda 4 1 3 3] := by
  unfold allReady; decide +kernel

/-- Witness of LoadsTakeATagAndAskTheHome. -/
theorem test_witness_vector_loads : allReady 8 (base)
    [.vld 4 1 0, .vldp 4 1 0] := by
  unfold allReady; decide +kernel

/-- Witness of LoadsTakeATagAndAskTheHome. -/
theorem test_witness_load_places : readAt (pad 8) = some (.pad 0 8) ∧ readAt 0x10040 = some (.dram 0x10040) ∧ readAt 0x20010 = some (.reg hostevOff) ∧
    readAt 0xFFFFFFFFFFE00000 = some (.ctrl 0 0) ∧ (onMapped 0 base).regCheck 2 0 hostevOff .both none = none ∧
    (onMapped 0 base).lineOut 0 (regKey hostevOff) 0 = false := by decide +kernel

/-- Witness of StoresLeaveForTheirHomeAndRetire. -/
theorem test_witness_stores : allReady 0 (base)
    [.st 2 1 3 0, .stp 2 1 3 0, .stpi 2 1 3] := by
  unfold allReady; decide +kernel

/-- Witness of StoresLeaveForTheirHomeAndRetire. -/
theorem test_witness_vector_stores : allReady 8 (base)
    [.vst 4 1 0, .vstp 4 1 0] := by
  unfold allReady; decide +kernel

/-- Witness of StoresLeaveForTheirHomeAndRetire. -/
theorem test_witness_store_places : writeAt (pad 8) = some (.pad 0 8) ∧ writeAt 0x10040 = some (.dram 0x10040) ∧ writeAt 0x20010 = some (.reg hostevOff) ∧
    writeAt 0xFFFFFFFFFFE00000 = some (.ctrl 0 0) ∧ (onMapped 0 base).regCheck 2 0 hostevOff .both (some 1) = none ∧
    (onMapped 0 base).mayGo 0 0 (regKey hostevOff) 8 [] = true := by decide +kernel

/-- Witness of AStoreChangesNoByteOutsideItsOwn. -/
theorem test_witness_store_frame : ran (exec (.st 2 1 3 0) (on 0 (regs (pad 8) 5 0))) (fun _ => true) = true ∧ (on 0 base).mayGo 0 0 (padKey 0 8) 8 [] = true ∧
    (on 0 base).shadowCopy 0 = none ∧ (on 0 base).dirty = [] ∧ (on 0 base).anyBad (padKey 0 8) 8 = false ∧
    ran (exec (.ld 4 1 3 0) (on 0 (regs (pad 8) 0 0))) (fun _ => true) = true := by decide +kernel

/-- Witness of AccessesTrapAndWaitBeforeTheyAct. -/
theorem test_witness_access_traps : allReady 0 (base)
    [.stl 2 1 3 3, .stn4 2 1 3, .aadd 4 1 2 3 1, .acas 4 1 2 3 1, .afadd 4 1 2 3, .radd 1 2 3 1, .rfadd 1 2 3] := by
  unfold allReady; decide +kernel

/-- Witness of AccessesTrapAndWaitBeforeTheyAct. -/
theorem test_witness_access_traps_places : place (on 0 base) 0 0x10000 8 .read = none ∧ place (on 0 base) 0 0x0100000000000000 8 .write = none ∧ (pad 2).toNat % 8 ≠ 0 ∧
    (match (resolve fencing (fencing.who 0) 0xFFFFFFFFE0200000 8 .write).2 with | .error e => e.late | _ => false) = true ∧
    (loading (padKey 0 8) .plain none).satisfied ⟨1, 0⟩ = false := by decide +kernel

/-- Witness of ReleasesFencesAndTaintControlComplete. -/
theorem test_witness_releases : allReady 0 (base)
    [.stl 2 1 3 3, .fence 3, .tclr 4, .tdep 4 1] := by
  unfold allReady; decide +kernel

/-- Witness of ReleasesFencesAndTaintControlComplete. -/
theorem test_witness_vector_taint : allReady 8 (base)
    [.vtclr 4, .vtdep 4 1] := by
  unfold allReady; decide +kernel

/-- Witness of ReleasesFencesAndTaintControlComplete. -/
theorem test_witness_release_waits : ((on 0 base).drainThread 0).relReady 0 3 0 0 = true ∧ (({ on 0 base with outWrites := [⟨3, 0, 5, none, none⟩], nextId := 4 } : State).drainThread 0).relReady 0 3 0 4 = false ∧
    base.nak = none ∧ ({ base with nak := some (5, 1, 0) } : Slot).nak = some (5, 1, 0) := by decide +kernel

/-- Witness of AtomicsLeaveForTheirHome. -/
theorem test_witness_atomics : allReady 0 (base)
    [.aswap 4 1 2 3 1, .acas 4 1 2 3 1, .aadd 4 1 2 3 1, .aand 4 1 2 3 1, .aor 4 1 2 3 1, .axor 4 1 2 3 1, .amin 4 1 2 3 1 0, .amax 4 1 2 3 0 1, .afadd 4 1 2 3, .radd 1 2 3 1, .rfadd 1 2 3, .stn4 2 1 3] := by
  unfold allReady; decide +kernel

/-- Witness of AtomicsLeaveForTheirHome. -/
theorem test_witness_atomic_place : (place (on 0 base) 0 (pad 8) 8 .write).map (atomicPlace (on 0 base)) = some none := by decide +kernel

/-- Witness of LoadsReadTheirHomeAndLand. -/
theorem test_witness_load_at_home : (on 0 (loading (padKey 0 8) .plain none)).lineOut 0 (padKey 0 8) 3 = false ∧ (writing (padKey 0 8)).lineOut 0 (padKey 0 8) 4 = true ∧
    (on 0 base).homeFenced 0 (padKey 0 8) = false ∧ (on 0 base).anyBad (padKey 0 8) 8 = false := by decide +kernel

/-- Witness of LoadsReadTheirHomeAndLand. -/
theorem test_witness_load_in_device_memory : ({ on 0 base with banks := (List.range 16).map fun b => (b, { (State.reset.bank 0 b) with mode := .scratch }) } : State).cacheWays 0 = 0 ∧
    ({ on 0 base with dev := [(clmapOff 0 0 / 8, BitVec.allOnes 64), (clfenceOff 0 0 / 8, 1)] } : State).homeFenced 0 (padKey 0 8) = true := by decide +kernel

/-- Witness of LoadsReadTheirHomeAndLand. -/
theorem test_witness_load_lands : (loading (padKey 0 8) .plain (some 9)).loads.find? (fun k => k.serial == 0) = some (loadOf (padKey 0 8) .plain (some 9)) ∧ (9 : Nat) < 2 ^ (8 * 8) := by decide +kernel

/-- Witness of WritesArePerformedAtTheirHomeAndAcknowledged. -/
theorem test_witness_write_at_home : (writing (padKey 0 8)).isOut 0 3 = true ∧ (writing 0x40).isOut 0 3 = true ∧ (writing 0x40).homeFenced 0 0x40 = false ∧ (writing 0x40).anyBad 0x40 8 = false ∧
    (on 0 base).isOut 0 3 = false ∧ (writing 0x40).outWrites.find? (fun v => v.id == 3 && v.thread == 0) = some ⟨3, 0, 0, none, none⟩ ∧
    ({ on 0 base with dirty := [storeOf 0x40] } : State).dirty.find? (fun d => d.id == 3) = some (storeOf 0x40) := by decide +kernel

/-- Witness of AtomicsReadAndWriteTheirHomeInOneStep. -/
theorem test_witness_atomic_at_home : homeOf (padKey 0 8) = .pad 0 8 ∧ homeOf 0x40 = .dram 0x40 ∧ (writing (padKey 0 8)).isOut 0 3 = true ∧ (writing (padKey 0 8)).mayGo 0 3 (padKey 0 8) 8 [] = true ∧
    (writing (padKey 0 8)).dirty = [] ∧ (writing (padKey 0 8)).homeFenced 0 (padKey 0 8) = false ∧ (writing (padKey 0 8)).anyBad (padKey 0 8) 8 = false := by decide +kernel

/-- Witness of ReleasesRefusalsAndTimeTakeTheirStep. -/
theorem test_witness_release_completes : (writing (padKey 0 8)).isOut 0 3 = true ∧
    (((writing (padKey 0 8)).drainThread 0).relReady 0 3 0 3 && ((writing (padKey 0 8)).drainThread 0).mayGo 0 3 (actWrite releaseOf.act).1 (actWrite releaseOf.act).2.1 (actWrite releaseOf.act).2.2) = true ∧
    (({ writing (padKey 0 8) with outWrites := [⟨2, 0, 1, none, none⟩, ⟨3, 0, 2, none, none⟩] } : State).drainThread 0).relReady 0 3 0 3 = false := by decide +kernel

/-- Witness of ReleasesRefusalsAndTimeTakeTheirStep. -/
theorem test_witness_refusal : [farOf].find? (fun r => r.tag == 4) = some farOf ∧ farOf.serial = none ∧ farOf.store = true ∧ ({ farOf with serial := some 0, store := false } : FarReq).serial = some 0 ∧
    (({ on 0 (loading (farKey 9 0) .plain none) with farReqs := [farOf] } : State).farDone farOf).isOut 0 3 = false := by decide +kernel

/-- Witness of ReleasesRefusalsAndTimeTakeTheirStep. -/
theorem test_witness_widen_and_time : (on 0 base).anyBad (dramKey 0x100) 2 = false ∧ dramKey (0x100 + 256) + 2 ≤ 2 ^ 42 ∧ State.reset.cycle < 64 * (State.reset.ticks + 1) ∧
    64 * (({ State.reset with cycle := 64 } : State).ticks + 1) ≤ 64 ∧ ((on 0 base).slot 0).state ≠ .free := by decide +kernel

/-- Witness of CounterInstructionsLeaveForTheirCounter. -/
theorem test_witness_counters : allReady 0 (base)
    [.cadd 1 2 3, .caddo 4 1 2 3, .cwait 4 1 2 3, .cwaitt 4 1 2 3] := by
  unfold allReady; decide +kernel

/-- Witness of CounterInstructionsLeaveForTheirCounter. -/
theorem test_witness_counter_place : ((counterLoc (on 0 base) ((on 0 base).who 0) (pad 16) .write).2.toOption.map (·.key)) = some (padKey 0 16) ∧
    ((counterLoc (on 0 base) ((on 0 base).who 0) (pad 16) .read).2.toOption.map (·.key)) = some (padKey 0 16) ∧ (pad 8).toNat % 16 ≠ 0 := by decide +kernel

/-- Witness of ACounterAddSaturatesAndEnqueuesOnce. -/
theorem test_witness_counter_add : homeOf (padKey 0 16) = .pad 0 16 ∧ (writing (padKey 0 16)).isOut 0 3 = true ∧ (writing (padKey 0 16)).homeFenced 0 (padKey 0 16) = false ∧
    (writing (padKey 0 16)).anyBad (padKey 0 16) 16 = false ∧ (writing (padKey 0 16)).waits = [] ∧ poolOfKey (padKey 0 16) = none ∧
    (poolOfKey (padKey 0 0x14030)).isSome = true ∧ findAt pooled.pools 0 = some ⟨0, 0, 2, false, false⟩ := by decide +kernel

/-- Witness of ACounterWaitEndsAtItsTarget. -/
theorem test_witness_counter_wait : ((waiting false 5 false).slot 0).waitsFor 0 = true ∧ (waiting false 5 false).counter (padKey 0 16) = 5 ∧
    ((waiting false 4 true).status (padKey 0 16)).getLsbD 0 = true ∧ ((waiting true 4 false).status (padKey 0 16)).getLsbD 0 = false ∧
    (waiting false 5 false).lineOut 0 (padKey 0 16) 3 = false ∧ (waiting true 4 false).waitRoom (padKey 0 16) = true ∧
    (waiting false 5 false).homeFenced 0 (padKey 0 16) = false ∧ (waiting false 5 false).anyBad (padKey 0 16) 16 = false ∧
    ((waiting false 5 false).slot 0).loads.find? (fun k => k.serial == 0) = some (loadOf (padKey 0 16) (.wait 3) none) := by decide +kernel

/-- Context 0 holds one Caldera of all of die 0 and is enabled. -/
def homed (s : State) : State :=
  { s with dev := [(clmapOff 0 0 / 8, BitVec.allOnes 64), (clmapOff 0 1 / 8, BitVec.allOnes 64),
      (caldOff 0 0 / 8, 0x800000000000F070), (cctlOff 0 / 8, 1)] }

/-- A state with words at a key. -/
def withWords (k : Nat) (ws : List Word) (s : State) : State := { s with mem := s.mem.writeBytes k (ws.flatMap wordBytes) }

/-- The words that slot 0 reads at an address. -/
def wordsAt (s : State) (va : Word) (n : Nat) : Option (List Word) :=
  match s.slotWords 0 va n with
  | (_, .words ws _) => some ws
  | _ => none

/-- A trap with a cause, of a command of sequence number 7 or precise. -/
def trapOf (cause : BitVec 8) (n : Option (BitVec 12)) : Trap := ⟨cause, 1, 0x1000, 0, 0, n, false⟩

/-- A binding record: handler at 0x4000 on the feed core of tile 0, two pools of scalar registers, ring of 64 bytes. -/
def bindingWords : List Word := [0x4000, 0x100000, 0x4000000000, 0]

/-- A state in which slot 0 binds queue 5 by the record in its scratchpad. -/
def binding : State := withWords (padKey 0 0x100) bindingWords (homed (on 0 (regs 5 (pad 0x100) 0)))

/-- A handler queue at tile 0's feed core. -/
def queueOf (run : Bool) (ms : List Msg) : HandlerQueue := ⟨0x4000, 0, 2, 1, 0, 0, 64, ms, run, false⟩

/-- A message to slot 1 of the feed core of tile 0, or to queue 5, with tag 3. -/
def msgOf (toQueue : Bool) (sent : Nat) : Msg :=
  ⟨9, 0, 0, 0, none, 0, toQueue, 5, 2, 1, 3, 0, [1, 2, 3, 4, 5, 6, 7, 8], sent, 0, 0⟩

/-- The first operand of SLSAVE for slot 1 of the feed core of tile 0 with tag 3, seen from slot 0. -/
def target : Word := 0xD0000

/-- A state in which slot 1 of the feed core of tile 0 is a quiet activation of tag 3, or a saved one. -/
def pair (st : SlotState) : State :=
  let s := { on 0 (regs target 0x10000 0) with tlb := [page] }
  s.setSlot 1 { base with state := st, gen := 3, level := 1, kind := .task }

/-- A template: entry 0x4000, feed core, cost 1. -/
def template : List Word := [0x4000, 0, 0, 0, 0x100000000, 0]

/-- A state in which slot 0, of launch record 0, spawns the template. -/
def spawning : State := withWords (padKey 0 0x100) template (homed (on 0 { regs (pad 0x100) 0 0 with lrec := some 0 }))

/-- A bound buffer of handle 2 at tile 0, between the shape core's producer and the feed core's consumer or the other
way: words of its declaration as R62 lays them out. -/
def buffer (w0 w1 : Word) (free : Nat) (segs : List Nat) : CbInst :=
  ⟨⟨0, 0, 0, 2⟩, 0, w0, w1, free, segs, [], 0, 0, 0, 0, 0, [], 0, 0⟩

/-- Witness of TrapsEnterTheHandlerOfTheirLevel, EretIfenceAndInvalidationComplete and HandlerQueuesAreBoundAndUnbound. -/
theorem test_witness_system : allReady 0 (base)
    [.ecall, .mcall, .brk, .eret, .ifence, .xinv 1, .xinva, .qbind 1 2, .qunb 1] := by
  unfold allReady; decide +kernel

/-- Witness of TrapsEnterTheHandlerOfTheirLevel. -/
theorem test_witness_trap_levels : ({ base with level := 0 } : Slot).level = 0 ∧ (homed State.reset).reg (svecOff 0) = 0 ∧ ({ State.reset with dev := [(svecOff 0 / 8, 0x4000)] } : State).reg (svecOff 0) ≠ 0 ∧
    base.level = 2 ∧ base.loads.any (fun l => l.blocking) = false ∧ Slot.empty.state = .free ∧ (trapOf 6 (some 7)).cause ≠ 1 ∧ (trapOf 3 none).seq = none := by decide +kernel

/-- Witness of EretIfenceAndInvalidationComplete. -/
theorem test_witness_eret : Ready .eret 0 (on 0 { base with level := 1 }) ∧ Ready .eret 0 (on 0 { base with plevel := 1 }) ∧ base.ring = [] ∧ base.heldTraps = [] := by decide +kernel

/-- Witness of EretIfenceAndInvalidationComplete. -/
theorem test_witness_invalidation : base.xmark = none ∧ ((on 0 base).slotRelease 0 3).2 = some none ∧ (((on 0 base).drainThread 0).dirty.any fun w => w.thread == 0) = false ∧
    ((({ on 0 base with outWrites := [⟨3, 0, 5, none, none⟩] } : State).drainThread 0).outWrites.any fun w => w.thread == 0) = true := by decide +kernel

/-- Witness of EretIfenceAndInvalidationComplete. -/
theorem test_witness_invalidation_quiet : (let s2 := (((on 0 base).slotRelease 0 3).1).dropXlat 0 none; s2.underWay 0 s2.nextId (s2.sentOut 0)) = false := by decide +kernel

/-- Witness of HandlerQueuesAreBoundAndUnbound. -/
theorem test_witness_binding : wordsAt binding (pad 0x100) 4 = some bindingWords ∧ bindingBad bindingWords = false ∧ bindingBad [2, 0, 0, 0] = true ∧
    placeFault binding 0 0 = none ∧ (placeFault (on 0 base) 0 0).isSome = true ∧ findAt binding.hqueues 5 = none ∧ binding.tileFree 0 0 = true ∧
    (base.satisfied (base.smask 1)) = true ∧ (pad 0x100).toNat % 32 = 0 := by decide +kernel

/-- Witness of HandlerQueuesAreBoundAndUnbound. -/
theorem test_witness_unbinding : findAt ({ State.reset with hqueues := [(5, queueOf true [])] } : State).hqueues 5 = some (queueOf true []) ∧ (queueOf true []).running = true ∧ (queueOf true []).msgs = [] ∧ (5 : Nat) < 256 := by decide +kernel

/-- Witness of SlotsAreSavedRestoredAndKilled. -/
theorem test_witness_slots : allReady 0 (base)
    [.slsave 1 2, .slrest 1 2, .slkill 1] := by
  unfold allReady; decide +kernel

/-- Witness of SlotsAreSavedRestoredAndKilled. -/
theorem test_witness_slot_target : (slotTarget 0 target).toOption = some 1 ∧ ((pair .running).slot 1).gen.toNat = fieldOf target 33 18 ∧ (0x10000 : Word).toNat % 4096 = 0 ∧
    ((pair .running).slot 1).ctx = 0 ∧ ((pair .running).slot 1).kind ≠ .firmware ∧ ((pair .saved).slot 1).state = .saved ∧ (pair .saved).dirty = [] ∧ (pair .saved).outWrites = [] ∧
    ((on 0 base).slot 1).state = .free ∧ ((imageLocs 0 0x10000 .write 8 (pair .running)).2.toOption.map List.length) = some 8 ∧
    (((pair .running).stopTarget 1).drainThread 1).quiet 1 = true := by decide +kernel

/-- Witness of SlotsAreSavedRestoredAndKilled. -/
theorem test_witness_slot_image : ((imageLocs 0 0x10000 .read 8 (pair .saved)).2.toOption.map fun ls => (((pair .saved).readImage 0 ls).2.toOption.map List.length)) = some (some 32768) ∧
    imageMatches (pair .saved) 1 (fun k => if k = 0 then 0x000000014C534847 else if k = 1 then (pair .saved).ctxid 0 else if k = 2 then 0x10003 else if k = 4 then 1 else 0) = true ∧
    imageMatches (pair .saved) 1 (fun _ => 0) = false := by decide +kernel

/-- Witness of SpawnPutsATaskIntoItsPool, RetireYieldAndMessagesComplete and LaunchesAreAdmittedRejectedAndCompleted. -/
theorem test_witness_tasks : allReady 0 (base)
    [.spawn 1 2, .msend 1 2, .retire, .yield, .launch 1] := by
  unfold allReady; decide +kernel

/-- Witness of SpawnPutsATaskIntoItsPool. -/
theorem test_witness_spawn : (spawning.slotRelease 0 3).2 = some none ∧ ((spawning.slotRelease 0 3).1.slot 0).lrec = some 0 ∧ spawnHome 0 0 = some 0 ∧ (pad 0x100).toNat % 64 = 0 ∧
    wordsAt (spawning.slotRelease 0 3).1 (pad 0x100) 6 = some template ∧ templateBad template = false ∧ templateBad [2, 0, 0, 0, 0, 0] = true ∧ taskNotify template = 0 ∧
    placeFault spawning 0 0 = none ∧ spawning.tileFree 0 0 = true ∧ spawning.freeEntry 0 = some 0 := by decide +kernel

/-- Witness of SpawnPutsATaskIntoItsPool. -/
theorem test_witness_spawn_full : ({ spawning with pools := (List.range 256).map fun e => (e, ⟨0, 0, 2, false, false⟩) } : State).freeEntry 0 = none ∧
    ({ spawning with poolWaiters := [(0, 0)] } : State).firstWaiter 0 = some (0, 0) ∧ dField [0, 0, 0, 0, 5] 4 31 0 ≠ 0 := by decide +kernel

/-- Witness of RetireYieldAndMessagesComplete. -/
theorem test_witness_retire : ({ base with retiring := true } : Slot).ring.any (fun e => !e.2.isDone) = false ∧ ({ base with ring := [(0, fetchEntry)] } : Slot).ring.any (fun e => !e.2.isDone) = true ∧
    ((on 0 { base with retiring := true, kind := .task }).slotRelease 0 4).2 = some none ∧ base.notify = 0 := by decide +kernel

/-- Witness of RetireYieldAndMessagesComplete. -/
theorem test_witness_send : destBad 0x0000000800030000 = false ∧ (homed (on 0 (regs (pad 0x100) 0x0000000800030000 0))).shadowCopy 0 = none ∧
    (wordsAt (homed (on 0 (regs (pad 0x100) 0x0000000800030000 0))) (pad 0x100) 8).isSome = true ∧ placeFault (homed (on 0 base)) 0 (placeTile 0) = none := by decide +kernel

/-- The words of a buffer between producer stage p and consumer stage c, of four slots of 64 bytes; a channel's
receiving end where asked. -/
def localBuffer (p c : Nat) (free : Nat) (segs : List Nat) : CbInst :=
  buffer (BitVec.ofNat 64 (c * 2 ^ 44 + p * 2 ^ 42 + 4 * 2 ^ 32 + 2 ^ 24)) 0 free segs

/-- The same as a channel's receiving end. -/
def channelBuffer (free : Nat) (segs : List Nat) : CbInst :=
  buffer (BitVec.ofNat 64 (2 ^ 46 + 4 * 2 ^ 32 + 2 ^ 24)) (BitVec.ofNat 64 (2 ^ 24)) free segs

/-- The base slot as group 0 of launch 0. -/
def grouped : Slot := { base with kind := .group 0, lrec := some 0 }

/-- A state with one buffer and such a slot 0. -/
def onBuffer (c : CbInst) : State := { homed (on 0 grouped) with cbs := [c] }

/-- A launch descriptor: entry 0x4000, feed core, one group, two register pools, DELTA 0, cost 1, HOME place 0. -/
def launchWords : List Word := [0x4000, 0, 0, 0x0091000000000001, 0x10000, 0, 0, 0]

/-- A state in which slot 0 launches it. -/
def launching : State := withWords (padKey 0 0x100) launchWords (homed (on 0 (regs (pad 0x100) 0 0)))

/-- How an admission ends: 0 admitted, 1 waits, 2 rejected. -/
def admits (a : Admission) : Nat :=
  match a with
  | .ok _ => 0
  | .wait => 1
  | .reject _ _ => 2

/-- The descriptor that slot 0 reads. -/
def launchRead (s : State) (va : Word) : Option (List Word) :=
  match (readLaunch (fun s va n => s.slotWords 0 va n) (declReader 0) va s).2 with
  | .ok d _ _ => some d
  | _ => none

/-- A queue 0 that is enabled with two entries, whose head and tail are as given, and whose ring is at 0x10000. -/
def queued (head tail : Nat) : State :=
  let s := homed State.reset
  withWords (dramKey 0x10000) launchWords { s with tlb := [page], dev := s.dev ++ [(qctlOff 0 / 8, 0x3), (qbaseOff 0 / 8, 0x10000),
    (qheadOff 0 / 8, BitVec.ofNat 64 head), (qtailOff 0 / 8, BitVec.ofNat 64 tail)] }

/-- A record whose groups have all ended, with a DELTA and DONE in the scratchpad of tile 0. -/
def endedLaunch : Launch := ⟨[0, 0, 0xFFFFFFFE0000100, 0x300000001, 0, 0, 0, 0], [], 0, none, 0, 0, 0, false, false, 7, none, false, none, none, false⟩

/-- A hop of a task's entry from cluster 0 to cluster 1. -/
def hopOf : Hop := ⟨.task 0 0 0 0 [] 0 0 false 0, 0, 1, []⟩

/-- Witness of RetireYieldAndMessagesComplete. -/
theorem test_witness_message : (homed State.reset).msgBehind (msgOf false 0) = false ∧ ((homed State.reset).fencedCluster 0 || (homed State.reset).calderaFenced 0 0) = false ∧
    (State.reset.fencedCluster 0) = true ∧ msgAge (msgOf false 0) 0 < 1700000 ∧ 1700000 ≤ msgAge (msgOf false 0) 1700000 ∧ (msgOf true 0).queueKind = true ∧
    (queueOf false []).place = (msgOf true 0).place ∧ (queueOf false []).unbinding = false ∧ ((homed State.reset).slot 1).state = .free := by decide +kernel

/-- Witness of RetireYieldAndMessagesComplete. -/
theorem test_witness_message_to_buffer : (((onBuffer (localBuffer 1 0 2 [2])).setSlot 1 { grouped with gen := 3 }).cbFor 1 2) = some (localBuffer 1 0 2 [2]) ∧ (localBuffer 1 0 2 [2]).hasConsumer = true ∧
    (localBuffer 1 0 2 [2]).cstage = stageOf 1 ∧ 64 ≤ (localBuffer 1 0 2 [2]).slotBytes ∧ (localBuffer 1 0 2 [2]).free ≠ 0 ∧ (onBuffer (localBuffer 1 0 2 [2])).spilledBefore (msgOf false 0) = false := by decide +kernel

/-- Witness of LaunchesAreAdmittedRejectedAndCompleted. -/
theorem test_witness_launch : (launching.slotRelease 0 3).2 = some none ∧ launchRead (launching.slotRelease 0 3).1 (pad 0x100) = some launchWords ∧ descBad launchWords = false ∧ tidBad launchWords = false ∧
    admits (admission launching 0 none none 0 launchWords []) = 0 ∧ admits (admission { launching with runs := [(runKey 0 0, (List.range 256).map fun k => .launch 0 k 0 0 0 false 0)] } 0 none none 0 launchWords []) = 1 ∧
    admits (admission (on 0 base) 0 none none 0 launchWords []) = 2 ∧ descBad [] = true ∧ tidBad [0, 0, 0, 0, 0, 0, 0x1000FFF0000, 0] = true := by decide +kernel

/-- Witness of LaunchesAreAdmittedRejectedAndCompleted. -/
theorem test_witness_queue : (queued 0 0).resetting 0 = false ∧ ((queued 0 0).reg (qctlOff 0)).getLsbD 0 = true ∧ (1 + 2 ^ 32 - 0) % 2 ^ 32 < 2 ^ 31 ∧ (1 + 2 ^ 32 - 0) % 2 ^ 32 ≤ 2 ^ fieldOf ((queued 0 0).reg (qctlOff 0)) 4 1 ∧
    ({ queued 0 1 with dev := [(qstatOff 0 / 8, 1)] } : State).resetting 0 = true ∧ fieldOf ((queued 0 1).reg (qheadOff 0)) 31 0 ≠ fieldOf ((queued 0 1).reg (qtailOff 0)) 31 0 ∧
    fieldOf ((queued 0 0).reg (qheadOff 0)) 31 0 = fieldOf ((queued 0 0).reg (qtailOff 0)) 31 0 ∧ fieldOf (0x3 : Word) 63 63 = 0 ∧ (queued 0 0).ttNow < 1 ∧ (queued 0 0).ttNow = 0 ∧ (State.reset.reg ttctlOff).getLsbD 0 = false := by decide +kernel

/-- Witness of LaunchesAreAdmittedRejectedAndCompleted. -/
theorem test_witness_queue_launch : (match (readLaunch (fun (s : State) va k => s.hubWords 0 va k) (fun (s : State) va k => s.hubWords 0 va k) ((queued 0 1).ringSlot 0 0) (queued 0 1)).2 with | .ok d _ _ => d == launchWords | _ => false) = true ∧
    (({ State.reset with dev := [(ttctlOff / 8, 1)] } : State).reg ttctlOff).getLsbD 0 = true ∧ ttFires (({ State.reset with dev := [(ttctlOff / 8, 1)] } : State).reg (ttentOff 0 0)) 0 = false := by decide +kernel

/-- Witness of LaunchesAreAdmittedRejectedAndCompleted. -/
theorem test_witness_completion : findAt ({ homed State.reset with launches := [(0, endedLaunch)] } : State).launches 0 = some endedLaunch ∧ endedLaunch.remaining = 0 ∧ endedLaunch.running = 0 ∧ endedLaunch.complete = false ∧
    endedLaunch.abandoned = false ∧ descDelta endedLaunch.desc = 3 ∧ descDelta launchWords = 0 := by decide +kernel

/-- Witness of CircularBufferInstructionsWaitAdvanceAndRead. -/
theorem test_witness_buffers : allReady 0 (grouped)
    [.cbwp 0 2 1, .cbwc 0 2 1, .cbap 0 2 1, .cbac 1 2 0, .cbstat 4 2, .mark 2, .mwait 1, .mround 4] := by
  unfold allReady; decide +kernel

/-- Witness of CircularBufferInstructionsWaitAdvanceAndRead. -/
theorem test_witness_buffer_states : (onBuffer (localBuffer 0 1 2 [2])).cbFor 0 2 = some (localBuffer 0 1 2 [2]) ∧ (localBuffer 0 1 2 [2]).hasProducer = true ∧ (localBuffer 0 1 2 [2]).pstage = stageOf 0 ∧ (localBuffer 1 0 2 [2]).cstage = stageOf 0 ∧
    (localBuffer 0 1 2 [2]).nslots = 4 ∧ (localBuffer 0 1 2 [2]).filled = 2 ∧ (onBuffer (localBuffer 0 1 2 [2])).peerFenced (localBuffer 0 1 2 [2]) = false ∧ (on 0 base).cbFor 0 2 = none ∧
    ((onBuffer (localBuffer 0 1 2 [2])).drainThread 0).relReady 0 (localBuffer 0 1 2 [2]).scope 0 0 = true ∧ (grouped.cbHeld 2 true) = false ∧ (localBuffer 0 1 2 [2, 0]).marks = 1 := by decide +kernel

/-- Witness of BuffersAndChannelsCountInOrder. -/
theorem test_witness_buffer_counts : (onBuffer (localBuffer 0 1 2 [2])).cbs = [localBuffer 0 1 2 [2]] ∧ (localBuffer 0 1 2 [2]).chan = false ∧ (localBuffer 0 1 2 [2]).segs = [2] ∧ 0 < (localBuffer 0 1 2 [2]).nslots ∧
    (channelBuffer 2 [2]).receiving = true ∧ (channelBuffer 2 [2]).early = [] ∧ (onBuffer (channelBuffer 2 [2])).homeFenced 0 (padKey 0 0) = false ∧ (onBuffer (channelBuffer 2 [2])).cbPeer (channelBuffer 2 [2]) = none ∧
    grouped.wait = none ∧ ({ localBuffer 0 1 2 [2] with permits := [.slot 1 false, .slot 3 false] } : CbInst).permits = [.slot 1 false, .slot 3 false] := by decide +kernel

/-- Witness of BuffersAndChannelsCountInOrder. -/
theorem test_witness_buffer_slots_do_not_wait : ∀ q, ((onBuffer (localBuffer 0 1 2 [2])).slot q).wait = none := by
  intro q; simp [onBuffer, homed, on, State.slot, getAt]; split <;> rfl

/-- Witness of BuffersAndChannelsCountInOrder. -/
theorem test_witness_credit_early : findAt ({ onBuffer (channelBuffer 2 [2]) with launches := [(1, endedLaunch)] } : State).launches 1 = some endedLaunch ∧ (1 : Nat) ≠ (channelBuffer 2 [2]).key.lrec := by decide +kernel

/-- Witness of TephraPublishesMovesAndDispatches. -/
theorem test_witness_tephra : (homed State.reset).inCalderas 0 1 = true ∧ (homed State.reset).usable 0 1 = true ∧ ({ homed State.reset with dev := (clfenceOff 0 0 / 8, 2) :: (homed State.reset).dev } : State).usable 0 1 = false ∧
    getAt 0 (homed State.reset).published 1 < fieldOf (({ homed State.reset with dev := [(grctlOff 0 / 8, 5)] } : State).reg (grctlOff 0)) 15 0 ∧ fieldOf (({ homed State.reset with dev := [(grctlOff 0 / 8, 0xFFFF0000)] } : State).reg (grctlOff 0)) 15 0 ≤ 0 ∧
    fieldOf (0x10002 : Word) 31 16 < fieldOf (0x10002 : Word) 15 0 ∧ fieldOf (0x20001 : Word) 15 0 ≤ fieldOf (0x20001 : Word) 31 16 := by decide +kernel

/-- Witness of TephraPublishesMovesAndDispatches. -/
theorem test_witness_hop : hopOf ∈ ({ homed State.reset with hopping := [hopOf] } : State).hopping ∧ (homed State.reset).usable (entryCtx hopOf.entry) 1 = true ∧ (homed State.reset).arrivals 1 < 512 ∧ hopOf ∉ State.reset.hopping := by decide +kernel

/-- Witness of TephraPublishesMovesAndDispatches. -/
theorem test_witness_dispatch : State.reset.hqueues = [] ∧ State.reset.entriesAt 0 = [] ∧ (State.reset.tile 0).drain = none ∧ State.reset.untested = none ∧
    (({ homed State.reset with runs := [(runKey 0 0, [.task 0 0 0 0 template 0 0 false 0])] } : State).untested).isSome = true ∧
    (({ homed State.reset with launches := [(0, { endedLaunch with desc := launchWords, remaining := 1 })], runs := [(runKey 0 0, [.launch 0 0 0 0 1 true 0])] } : State).untested) = none ∧
    (({ homed State.reset with hqueues := [(5, queueOf false [msgOf true 0])] } : State).tileHandler 0).isSome = true := by decide +kernel

/-- Witness of TephraPublishesMovesAndDispatches. -/
theorem test_witness_handler : findAt ({ homed State.reset with hqueues := [(5, queueOf false [msgOf true 0])] } : State).hqueues (256 * 0 + 5) = some (queueOf false [msgOf true 0]) ∧ (homed State.reset).draining 0 = false ∧
    (homed State.reset).calderaFenced 0 0 = false ∧ (homed State.reset).fencedCluster 0 = false ∧ (homed State.reset).openSlot 0 0 = some 0 ∧ (homed State.reset).carveAt 0 0 = some 0x18000 := by decide +kernel

/-- A command of slot 8 (the math core of tile 0) with a word, at a phase. -/
def command (w : InstrWord) (ph : BitVec 2) : RingEntry := { Slot.empty.newEntry w 5 6 0 with phase := ph, level := 2 }

/-- A state with slot q holding one command. -/
def commanding (q : Nat) (w : InstrWord) (ph : BitVec 2) : State := on q { base with ring := [(0, command w ph)], seqnext := 1 }

/-- What the acceptance of a command finds: whether it asks no permits. -/
def acceptsAtOnce (s : State) (q n : Nat) : Bool :=
  match (s.slot q).entry n with
  | none => false
  | some e =>
    match (engAccept q e s).2 with
    | .ok (_, ⟨[], _⟩) => true
    | _ => false

/-- Whether a command's capture succeeds and changes no slot. -/
def captures (s : State) (q n : Nat) : Bool :=
  match (s.slot q).entry n with
  | none => false
  | some e =>
    match engCapture q e s with
    | (s1, .ok _) => s1.slots == s.slots
    | _ => false

/-- A state in which slot 0, of a launch with a TID window of 16, may name TID 3 and finds its table in device memory. -/
def tabled : State :=
  { homed (on 0 { regs 3 0 0 with lrec := some 0 }) with
    tlb := [page], launches := [(0, { endedLaunch with desc := [0, 0, 0, 0, 0, 0, 0x100000000, 0], complete := false })],
    dev := (homed State.reset).dev ++ [(ttbaseOff 0 / 8, 0x10000)] }

/-- A walk of slot 4 (the shape core of tile 0) with two registers set, which has the turn. -/
def walkAt (shape : Word) : Walk := { Walk.start 4 fetchEntry with shape := shape, w := [(1, pad 0x200), (2, 4)] }

/-- The state of that walk. -/
def walking (shape : Word) : State :=
  { homed (on 4 { grouped with ring := [(0, fetchEntry)] }) with curWalk := some 0, walks := [(0, walkAt shape)] }

/-- A stream of coordinates in the scratchpad with one element left, values one. -/
def streamOf (fin : Nat) : Stream := ⟨pad 0x200, 0, true, 0, 0, fin, false⟩

/-- A WSTART, or a WSTOP, of slot 4 that waits for the walker of cluster 0. -/
def startOf (stop : Bool) : RingEntry := { fetchEntry with word := if stop then 0xB0006010 else 0xB0006000, phase := 0, eset := [0x4000, 0x303, 0, 0, 0, 0, 0] }

/-- A state in which bank 3 of cluster 0 has a mode and is switching or not. -/
def banked (m : BankMode) (busy : Bool) : State :=
  { homed State.reset with banks := [(3, { (State.reset.bank 0 3) with mode := m, busy := busy, nextMode := .fifo })] }

/-- Witness of CoprocessorWordsTakeTheirRingEntry. -/
theorem test_witness_commands_math : allReady 8 (base)
    [.mma 1 2 0, .mmag 1 2 0 0, .mmas 1 2 0, .mrot 1 2 0, .mzero 0, .mld 1 0 0, .mst 1 0, .kbnd 1 2 0, .ksel 1 2 0, .krst 0] := by
  unfold allReady; decide +kernel

/-- Witness of CoprocessorWordsTakeTheirRingEntry. -/
theorem test_witness_commands_shape : allReady 4 (base)
    [.cvt 1 2 0 0, .cvb 1 2 0 0, .cvq 1 2 0 0, .cvqn 1 2 0 0, .cvqnq 1 2 0 0, .cvtr 1 2 0 0, .wstart 1 2 0, .wstop 0] := by
  unfold allReady; decide +kernel

/-- Witness of CoprocessorWordsTakeTheirRingEntry. -/
theorem test_witness_commands_feed : allReady 0 (base)
    [.twld 1 2 0, .twmc 1 2 0, .twst 1 2 0, .sgg 1 2 0, .bcopy 1 2 0, .bfill 1 2 0, .eset 1 7 1 0, .eget 4 7 1 0, .tidld 1, .tidinv 1, .tcls 1] := by
  unfold allReady; decide +kernel

/-- Witness of CoprocessorWordsTakeTheirRingEntry. -/
theorem test_witness_ring : base.ringFull = false ∧ base.satisfied (base.smask 1) = true ∧ base.engBusy 7 = false ∧ ({ base with ring := (List.range 64).map fun k => (k, fetchEntry) } : Slot).ringFull = true ∧
    (loading (padKey 0 8) .plain none).satisfied ⟨1, 0⟩ = false ∧ ({ base with ring := [(0, command 0xB0000000 0)] } : Slot).engBusy 0 = true := by decide +kernel

/-- Witness of CoprocessorWordsTakeTheirRingEntry. -/
theorem test_witness_tensor_table : tabled.tidInWindow 0 3 = true ∧ tabled.tidInWindow 0 100 = false ∧ (resolve tabled (tabled.who 0) (tabled.reg (ttbaseOff 0) + BitVec.ofNat 64 (32 * 3)) 32 .read).2.toOption.map (·.key) = some 0x10060 ∧
    tabled.homeFenced 0 0x10060 = false ∧ tabled.anyBad 0x10060 32 = false ∧ tabled.dirty = [] ∧ tabled.outWrites = [] ∧ tabled.farReqs = [] ∧ (0x0F0300 : Word) = BitVec.ofNat 64 (0 + (4 - 1) * 2 ^ 8 + 15 * 2 ^ 16) := by decide +kernel

/-- Witness of CommandsGoFromPermitToDone. -/
theorem test_witness_command_life : ((commanding 8 0xB0000040 0).slot 8).entry 0 = some (command 0xB0000040 0) ∧ (command 0xB0000040 0).suspended = false ∧ (command 0xB0000040 0).fault = none ∧
    (command 0xB0000040 0).eng = 0 ∧ (command 0xB0000040 0).fn = 4 ∧ (commanding 8 0xB0000040 0).engTurn 8 (command 0xB0000040 0) = true ∧ acceptsAtOnce (commanding 8 0xB0000040 0) 8 0 = true ∧
    captures (commanding 8 0xB0000040 0) 8 0 = true ∧ wordIsCmd 0xB0000040 = true ∧ (commanding 8 0xB0000040 2).fetches = [] ∧ ((on 0 base).slot 0).entry 3 = none ∧
    ({ command 0xB0000040 0 with fault := some 5 } : RingEntry).fault ≠ none := by decide +kernel

/-- Witness of WalkerRegisterWordsComplete. -/
theorem test_witness_walk : (walking 0).curWalk = some 0 ∧ findAt (walking 0).walks 0 = some (walkAt 0) ∧ ((walking 0).slot (walkAt 0).thread).entry (walkAt 0).seq = some fetchEntry ∧
    ((resolve (walking 0) ((walking 0).engWho 4 fetchEntry) (pad 0x200) 8 .read).2.toOption.map fun l => homeOf l.key) = some (.pad 0 0x200) ∧
    ((counterLoc (walking 0) ((walking 0).engWho 4 fetchEntry) (pad 0x200) .write).2.toOption.map (·.key)) = some (padKey 0 0x200) ∧
    (va57 (low57 (pad 0x201))).toNat % 8 ≠ 0 := by decide +kernel

/-- Witness of WalkerStreamWordsPlaceAndEmit. -/
theorem test_witness_streams : (streamOf 1).start = (streamOf 1).pos ∧ (streamOf 1).fin = (streamOf 1).pos + 1 ∧ (streamOf 0).fin ≤ (streamOf 0).pos ∧ (pad 0x200).toNat % 4 = 0 ∧
    (walkRead 4 fetchEntry (walking 0) (pad 0x200 + BitVec.ofNat 64 (4 * 0)) 4 (some (0, 0))).2.toOption = some 0 ∧ shapeRows 0x0F0F = 16 ∧ (walkAt 0x0F0F).row0 = 0 ∧ (walkAt 0x0F0F).col0 + shapeCols 0x0F0F = 16 := by decide +kernel

/-- Witness of WalkerStreamWordsPlaceAndEmit. -/
theorem test_witness_emit : (walking 0x303).cbFor 4 2 = none ∧ ({ walking 0x303 with cbs := [localBuffer 1 0 2 [2]] } : State).cbFor 4 2 = some (localBuffer 1 0 2 [2]) ∧ (localBuffer 1 0 2 [2]).hasProducer = true ∧ (localBuffer 1 0 2 [2]).pstage = 1 ∧
    shapeBytes 0x303 = 64 ∧ (localBuffer 1 0 2 [2]).slotBytes = 64 ∧ (walking 0x303).peerFenced (localBuffer 1 0 2 [2]) = false ∧ (localBuffer 1 0 0 [4]).free = 0 := by decide +kernel

/-- Witness of WalkerStreamWordsPlaceAndEmit. -/
theorem test_witness_grant : (startOf false).eng = 6 ∧ (startOf false).fn = 0 ∧ (startOf true).fn = 1 ∧ (startOf false).fault = none ∧ (startOf false).suspended = false ∧ State.reset.freeWalk 0 = some 0 ∧ tileOf 4 / 16 = 0 ∧ State.reset.tileWalks 0 < 2 ∧
    walkOk ((startOf false).reg 0) ((startOf false).reg 1) = true ∧ (({ base with ring := [(0, startOf false)] } : Slot).entry 0) = some (startOf false) := by decide +kernel

/-- Witness of RegisterWritesSetTheirFieldsOrStartTheirStep. -/
theorem test_witness_register_write : svecOff 3 < 2 ^ 54 ∧ (BitVec.getLsbD (1 : Word) 0) = true ∧ (0x10000 : Word).getLsbD 16 = true ∧ (2 : Word).getLsbD 1 = true ∧ (2 : Word).getLsbD 2 = false ∧ (0x40 : Nat) < 0x1000 := by decide +kernel

/-- Witness of BanksSwitchAndCachesDrain. -/
theorem test_witness_banks : (State.reset.bank 0 3).mode = .cache ∧ (State.reset.bank 0 3).busy = false ∧ State.reset.bankNamed 0 3 = false ∧ ((banked .scratch true).bank 0 3).busy = true ∧ ((banked .scratch true).bank 0 3).mode = .scratch ∧
    (banked .scratch true).bankInUse 0 3 = false ∧ ({ banked .fifo true with outWrites := [⟨3, 0, bankKey 0 3 0 / 128, none, none⟩] } : State).bankInUse 0 3 = true ∧ (BitVec.toNat (3 : Word)) % 4 = 3 ∧ State.reset.dirty = [] ∧ State.reset.outWrites = [] := by decide +kernel

/-- Witness of BanksSwitchAndCachesDrain. -/
theorem test_witness_bank_named : ({ homed State.reset with launches := [(0, { endedLaunch with cbs := [(2, 0x20000000003, 0)], desc := launchWords, remaining := 1 })], cbs := [buffer 0x20000000003 0 1 [0]] } : State).bankNamed 0 3 = true := by decide +kernel

/-- Witness of IsolationRegistersChangeAsTheirRulesAllow. -/
theorem test_witness_isolation : (homed State.reset).ctxBusy 0 = false ∧ (homed (on 0 base)).ctxBusy 0 = true ∧ ((homed State.reset).reg (cctlOff 0)).getLsbD 0 = true ∧ (State.reset.reg (cctlOff 0)).getLsbD 0 = false ∧ (State.reset.reg bootstatOff).getLsbD 0 = false ∧
    (({ State.reset with dev := [(bootstatOff / 8, 1)] } : State).reg bootstatOff).getLsbD 0 = true ∧ caldCovers 0x800000000000F070 5 = true ∧ fieldOf (0x8000000000000001 : Word) 6 4 < fieldOf (0x8000000000000001 : Word) 2 0 := by decide +kernel

/-- Witness of IsolationRegistersChangeAsTheirRulesAllow. -/
theorem test_witness_windows : (({ State.reset with dev := [(rwinOff 2 0 / 8, 0x8000000000000000)] } : State).reg (rwinOff 2 0)).getLsbD 63 = true ∧ (State.reset.reg (rwinOff 2 0)).getLsbD 63 = false ∧ fieldOf (5 : Word) 15 0 ≠ State.reset.pkey 0 ∧ fieldOf (0 : Word) 15 0 = State.reset.pkey 0 := by decide +kernel

/-- A flit of a type to a node with key 5 and two payload words, sealed. -/
def flitOf (ty : BitVec 4) (dst : BitVec 14) (p0 p1 : Word) : Flit :=
  flitSealed ⟨dst, 7, 5, ty, 0, false, 0, 0, 0, 3, 0x100, [p0, p1], 9, 0⟩

/-- A state whose node 0 accepts key 5, whose port 2 leads to node 3, and which merges integer adds of key 5. -/
def routed : State :=
  { State.reset with dev := [(pktabOff 0 / 8, 0x8000000000000005), (rteOff 1 0 2 / 8, 0x1000000200000000),
      (portstatOff 2 / 8, 1), (rwinOff 1 0 / 8, 0x8000000000000005), (rwinOff 1 2 / 8, 0x1000), (fmnodeOff / 8, 0x80000007), (fmkeyOff / 8, 5)] }

/-- A held group of flits at port 4. -/
def heldOf (fs : List Flit) : HeldGroup := ⟨4, 1, 1, 0x100, 0, fs, 0, none⟩

/-- An atomic add of thread 0 that a proxy of die 0 holds. -/
def proxied : AtomicReq := ⟨3, 0, none, 9, true, false, padKey 0 8, pad 8, 1, 0, [], 0, true, false, []⟩

/-- A fault message of slot 0, which waits for its page, and the record that holds it. -/
def faultOf : FaultMsg := ⟨0, 1, 0, false, 0, 0, 0, none, 0x10000, 0⟩

/-- The record of that message. -/
def faultRecord : FaultRec := ⟨6, 0, 1, 0, false, 0, 1, [faultOf]⟩

/-- A state in which row 0 of die 0 collects that fault. -/
def collecting : State :=
  { homed (on 0 { base with state := .waiting, wait := some (.collected 0x10000 none) }) with collectors := [(0, ⟨7, [faultRecord]⟩)] }

/-- A state whose context 0 has a fault ring of four records at 0x10000. -/
def ringed : State :=
  { homed State.reset with tlb := [page], dev := (homed State.reset).dev ++ [(fltbaseOff 0 / 8, 0x10000), (fltctlOff 0 / 8, 2)] }

/-- A state at the end of a boot stage. -/
def stageAt (n : Nat) : State := { State.reset with dev := [(bootstatOff / 8, BitVec.ofNat 64 (n * 2 ^ 56))] }

/-- Witness of FabricStepsCarryRouteMergeAndManage. -/
theorem test_witness_flit_crc : (flitOf 1 0 8 0).crc = Config.crc32 (flitCovered (flitOf 1 0 8 0)) := rfl

/-- Witness of FabricStepsCarryRouteMergeAndManage. -/
theorem test_witness_flit : routed.keyAccepted 5 = true ∧ routed.keyAccepted 6 = false ∧ routed.nodeId = 0 ∧ getAt 0 routed.rxSeq 1 = 0 ∧ (tyWrite : BitVec 4).toNat < 8 ∧ routed.anyBad 0x100 8 = false ∧
    routed.routeOn 1 9 0 = none := by decide +kernel

/-- Witness of FabricStepsCarryRouteMergeAndManage. -/
theorem test_witness_route : routed.routeOn 1 3 0 = some (0, 2) := by decide +kernel

/-- Witness of FabricStepsCarryRouteMergeAndManage. -/
theorem test_witness_ports : (routed.reg (portstatOff 2)).getLsbD 0 = true ∧ (State.reset.reg (portstatOff 2)).getLsbD 0 = false ∧ fieldOf (State.reset.reg (portstatOff 2)) 3 2 = 0 ∧ State.reset.floods = [] ∧ (State.reset.reg (rtctlOff 1)).getLsbD 1 = false ∧
    (State.reset.reg (rtctlOff 1)).toNat % 2 ≠ 1 ∧ (0x10000030 : BitVec 32).getLsbD 28 = true ∧ (({ State.reset with dev := [(rtctlOff 1 / 8, 2)] } : State).reg (rtctlOff 1)).getLsbD 1 = true := by decide +kernel

/-- Witness of FabricStepsCarryRouteMergeAndManage. -/
theorem test_witness_merging : reduceOp ({ flitOf tyReduce 0 9 4 with crc := 0 }) = some 0 ∧ routed.windowFor { flitOf tyReduce 0 9 4 with crc := 0 } = some 1 ∧ routed.windowFor { flitOf tyReduce 0 10 4 with crc := 0 } = none := by decide +kernel

/-- Witness of FabricStepsCarryRouteMergeAndManage. -/
theorem test_witness_holding : ([heldOf []].find? fun g => g.port == 4 && g.tag.isNone && g.number == (heldOf []).number).isSome = true ∧ (heldOf []).op < 2 ∧ fieldOf (routed.reg (rwinOff 1 0)) 60 52 = 0 ∧
    State.reset.cycle - 0 < 16 * fieldOf (({ routed with dev := [(rwinOff 1 0 / 8, 0x8010000000000005)] } : State).reg (rwinOff 1 0)) 60 52 := by decide +kernel

/-- Witness of FabricStepsCarryRouteMergeAndManage. -/
theorem test_witness_proxy : getAt [] ({ writing (padKey 0 8) with proxies := [(16, [proxied])] } : State).proxies (16 * 1 + 0) = proxied :: [] ∧ ({ writing (padKey 0 8) with proxies := [] } : State).isOut 0 3 = true ∧ (State.reset.proxyAt 1) = none := by decide +kernel

/-- Witness of FabricStepsCarryRouteMergeAndManage. -/
theorem test_witness_proxy_present : ({ homed State.reset with dev := (proxyplOff 0 / 8, 0) :: (homed State.reset).dev } : State).proxyAt 0 = some 0 := by decide +kernel

/-- Witness of FabricStepsCarryRouteMergeAndManage. -/
theorem test_witness_management : (routed.reg fmnodeOff).getLsbD 31 = true ∧ (routed.reg fmnodeOff).toNat % 2 ^ 14 = 7 ∧ (routed.reg fmkeyOff).toNat % 65536 = 5 ∧ (State.reset.reg fmnodeOff).getLsbD 31 = false ∧ regExists hostevOff = true := by decide +kernel

/-- Witness of FabricStepsCarryRouteMergeAndManage. -/
theorem test_witness_notice : ([⟨4, [0, 0, 0], 16⟩] : List Notice).find? (fun m => m.seq.toNat == 4) = some ⟨4, [0, 0, 0], 16⟩ ∧ State.reset.hubNs < ((([0, 0, 64000] : List Word).getD 2 0).toNat + 64000 * 1) ∧ (([0, 0, 0] : List Word).getD 2 0).toNat + 64000 * 0 ≤ State.reset.hubNs := by decide +kernel

/-- Witness of IsolationAndRecoveryStepsTakeEffect. -/
theorem test_witness_collector : rowNumber 0 = 0 ∧ (collecting.collector 0).recs.find? (fun r => r.ctx == 0 && r.page == 1 && r.kind == 0) = some faultRecord ∧ (collecting.collector (8 * 0 + 0)).recs.find? (fun f => f.id == 6 && f.ctx == 0) = some faultRecord ∧
    (collecting.slot 0).wait = some (.collected 0x10000 none) ∧ (State.reset.collector 0).recs = [] ∧ fieldOf (State.reset.reg (fltctlOff 0)) 4 0 = 0 := by decide +kernel

/-- Witness of IsolationAndRecoveryStepsTakeEffect. -/
theorem test_witness_fault_ring : fieldOf (ringed.reg (fltctlOff 0)) 4 0 = 2 ∧ (0 + 2 ^ 32 - fieldOf (ringed.reg (fltctlOff 0)) 63 32) % 2 ^ 32 ≠ 2 ^ 2 ∧ (ringed.putFault 0 0 ⟨0, 0, 1, 0, false, 0, 1, [faultOf]⟩).2 = true := by decide +kernel

/-- Witness of IsolationAndRecoveryStepsTakeEffect. -/
theorem test_witness_errors : (⟨1, 0, 0, none, some 0x40, none, false⟩ : ErrorSite).die < 8 ∧ (⟨1, 0, 0, none, some 0x40, none, false⟩ : ErrorSite).unit = 0x01 ∧ (⟨8, 0, 0, none, none, some 0, false⟩ : ErrorSite).consumer = some 0 ∧ (⟨0xB, 0, 0, some 3, none, none, false⟩ : ErrorSite).cluster = some 3 ∧
    State.reset.anyBad 0x80 128 = false ∧ ({ State.reset with bad := [(0x10, true)] } : State).anyBad 0x80 128 = true ∧ (0x80 : Nat) / 128 * 128 < 2 ^ 42 := by decide +kernel

/-- Witness of IsolationAndRecoveryStepsTakeEffect. -/
theorem test_witness_fences : (homed State.reset).fstat 0 0 = 0 ∧ ((homed State.reset).reg (caldOff 0 0)).getLsbD 63 = true ∧ fencing.fstat 0 0 = 1 ∧ ({ State.reset with dev := [(fstatOff 0 / 8, 2)] } : State).fstat 0 0 = 2 ∧ State.reset.recFenced 3 = false ∧
    ({ State.reset with dev := [(clfenceOff 0 0 / 8, 8)] } : State).recFenced 3 = true ∧ (homed (on 0 base)).calderaOf 0 0 = some 0 ∧ (banked .scratch false).holdsIn 0 0 = true := by decide +kernel

/-- Witness of IsolationAndRecoveryStepsTakeEffect. -/
theorem test_witness_pairs : (getAt (⟨[], []⟩ : LockPair) ([(0, ⟨[⟨0, 0x1000, [5]⟩], [⟨0, 0x1000, [6]⟩]⟩)] : Store LockPair) 0).leader = [⟨0, 0x1000, [5]⟩] ∧ (⟨0, 0x1000, [5]⟩ : LockItem) ≠ ⟨0, 0x1000, [6]⟩ := by decide +kernel

/-- Witness of IsolationAndRecoveryStepsTakeEffect. -/
theorem test_witness_shadow : ∃ e ∈ ({ State.reset with launches := [(0, { endedLaunch with pair := some 1 })] } : State).launches, e.2.ctx = 0 ∧ e.2.pair.isSome = true ∧ e.2.complete = false ∧ e.2.remaining = 0 ∧ e.2.running = 0 ∧ e.2.tasks = 0 := by decide +kernel

/-- Witness of IsolationAndRecoveryStepsTakeEffect. -/
theorem test_witness_retention : ∀ i, i < 4 → (State.reset.slot (4 * 5 + i)).state = .free ∨ (State.reset.slot (4 * 5 + i)).state = .waiting := by decide +kernel

/-- Witness of BootHostAndHealthStepsTakeEffect. -/
theorem test_witness_boot : fieldOf ((stageAt 4).reg bootstatOff) 63 56 + 1 = 5 ∧ fieldOf ((stageAt 4).reg bootstatOff) 55 48 = 0 ∧ State.reset.boot.firmware = none ∧ State.reset.boot.config = none ∧
    ({ State.reset.boot with calibrationOk := true } : BootInputs).calibrationOk = true ∧ ({ State.reset.boot with calibrationOk := false } : BootInputs).calibrationOk = false := by decide +kernel

/-- Witness of BootHostAndHealthStepsTakeEffect. -/
theorem test_witness_host : (({ State.reset with dev := [(ucstatOff 1 / 8, 1)] } : State).reg (ucstatOff 1)).getLsbD 0 = true ∧ (State.reset.reg (ucstatOff 1)).getLsbD 0 = false ∧ State.reset.hostBehind ⟨1, 0, .read 0x100 8⟩ = false ∧ State.reset.anyBad 0x100 8 = false ∧ State.reset.dirty = [] ∧
    regExists hostevOff = true ∧ hostevOff % 8 = 0 ∧ (3 * 2 ^ 54 + hostevOff) / 2 ^ 54 = 3 ∧ (2 ^ 54 + 5) / 2 ^ 54 = 1 := by decide +kernel

/-- Witness of BootHostAndHealthStepsTakeEffect. -/
theorem test_witness_monitors : getAt 0 State.reset.thermal (16 + 3) ≤ State.reset.cycle ∧ State.reset.cycle < getAt 0 ({ State.reset with thermal := [(19, 5)] } : State).thermal (16 + 3) ∧ getAt 0 State.reset.thermal 32 ≤ State.reset.cycle ∧ State.reset.lifeDue ≤ State.reset.cycle ∧
    getAt 0 State.reset.mram.secs 0 + 1 < 3600 := by decide +kernel

/-! ### Further witnesses: one for each remaining clause of the statements above -/

/-- A state with slot 0 only. -/
def alone (x : Slot) : State := on 0 x

/-- Witness of ControlRegisterInstructionsReadAndWriteTheirFields and of TheTestsOfDecodeComeBeforeTheEffect. -/
theorem test_witness_pending : (loading (padKey 0 8) (.atomic true) none).addPending = true ∧ base.addPending = false ∧ (loading (padKey 0 8) (.wait 3) none).statusPending = true ∧ base.statusPending = false ∧
    ({ base with loads := [{ loadOf (padKey 0 8) .plain none with blocking := true }] } : Slot).blocked = true ∧ base.blocked = false ∧ (0x8FFF : Word).truncate 2 = (3 : BitVec 2) := by decide +kernel

/-- Witness of LoadsReadTheirHomeAndLand and of WritesArePerformedAtTheirHomeAndAcknowledged. -/
theorem test_witness_held_over : (alone base).heldOver 0 (loadOf (padKey 0 8) .plain none) = false ∧ (loadOf (padKey 0 8) .plain none).const = false ∧ (writing 64).waits = [] ∧
    ({ alone (loading 0x40 .plain none) with dirty := [{ storeOf 0x40 with hold := [1] }] } : State).heldOver 0 { loadOf 0x40 .plain none with before := 9 } = !(loading 0x40 .plain none).clearOf [1] ∧
    findAt (alone base).copies (copyKey 0 2) = none := by decide +kernel

/-- Witness of ACounterWaitEndsAtItsTarget: a wait that traps, one that completes all the same, and a poll that is due. -/
theorem test_witness_counter_wait_traps : ((waiting true 4 true).status (padKey 0 16)).getLsbD 0 = true ∧ (waitOf true).trapAbandoned = true ∧ (waitOf true).due = 0 ∧ (waitOf true).due ≤ (waiting true 4 true).cycle ∧
    (waitOf false).trapAbandoned = false ∧ (waiting true 4 true).counter (padKey 0 16) < (waitOf true).target.toNat ∧ ¬(waiting true 5 true).counter (padKey 0 16) < (waitOf true).target.toNat := by decide +kernel

/-- Witness of TrapsEnterTheHandlerOfTheirLevel. -/
theorem test_witness_trap_of_wait : ofWait (trapOf 4 none) = true ∧ ofWait (trapOf 3 none) = false ∧ ofWait (trapOf 4 (some 7)) = false ∧ ((waiting true 4 true).slot 0).state = .waiting ∧
    (((loading (padKey 0 8) .plain none).loads.map fun l => { l with blocking := true }).any fun l => l.blocking && !base.waitsFor l.serial) = true := by decide +kernel

/-- Witness of SlotsAreSavedRestoredAndKilled: a target with a store under way, one with none, and one with a message
to send again. -/
theorem test_witness_slot_busy : ((({ pair .running with outWrites := [⟨3, 1, 5, none, none⟩] } : State).stopTarget 1).drainThread 1).outWrites.any (fun w => w.thread == 1) = true ∧
    ((((pair .running).stopTarget 1).drainThread 1).outWrites.any fun w => w.thread == 1) = false ∧ ((((pair .running).stopTarget 1).drainThread 1).dirty.any fun w => w.thread == 1) = false ∧
    (((pair .running).stopTarget 1).operandsOut 1) = [] ∧ (((pair .running).slot 1).ring.any fun e => e.2.fault.isSome && decide (2 ≤ e.2.phase.toNat) && !e.2.isDone) = false := by decide +kernel

/-- A template whose NOTIFY is a counter in the scratchpad. -/
def notifying : List Word := [0x4000, 0, 0, pad 0x200, 0x100000000, 0]

/-- Witness of SpawnPutsATaskIntoItsPool: NOTIFY, a home on another die, and the launch of record. -/
theorem test_witness_spawn_notify : taskNotify notifying = pad 0x200 ∧ taskNotify template = 0 ∧ ((counterLoc spawning (spawning.who 0) (pad 0x200) .write).2.toOption.isSome) = true ∧
    (counterLoc spawning (spawning.who 0) (pad 0x200) .write).1.slots = spawning.slots ∧ dieOf (2048 / 16) ≠ dieOf (clusterOf 0) ∧ dieOf (0 / 16) = dieOf (clusterOf 0) ∧
    endedLaunch.torn = false ∧ endedLaunch.queue.any spawning.resetting = false := by decide +kernel

/-- Witness of RetireYieldAndMessagesComplete: the shortest stay of a slot. -/
theorem test_witness_stay : (alone base).stayed 0 = true ∧ ({ alone { base with born := some 5 } with cycle := 6 } : State).stayed 0 = false ∧ (homed State.reset).shadowCopy 0 = none ∧ fieldOf (0x0000400800030000 : Word) 47 46 = 1 ∧
    ({ homed State.reset with agenda := [.messageDelivery (msgOf false 0)] } : State).agenda = [.messageDelivery (msgOf false 0)] := by decide +kernel

/-- Witness of LaunchesAreAdmittedRejectedAndCompleted: what an admission needs. -/
theorem test_witness_admission : (homed State.reset).cbsBad 0 (descStages launchWords) [] = false ∧ ((homed State.reset).reg (shctlOff 0)).getLsbD 0 = false ∧ placeIn (descHome launchWords) ((homed State.reset).usableList 0) = some 0 ∧
    descMode launchWords ≠ 2 ∧ descSpillKB launchWords * (descStageList launchWords).length ≤ 32 ∧ (homesOf launchWords ((homed State.reset).usableList 0) 0).all (fun h => decide ((homed State.reset).launchEntries h.1 < 256)) = true ∧
    lowestFree 0 (homed State.reset).launches < 65536 ∧ descGroups launchWords ≠ 0 := by decide +kernel

/-- The table is enabled and its entry 2 fires in every slot with the descriptor at 0x10000. -/
def timed : State :=
  let s := withWords (dramKey 0x10000) launchWords { homed State.reset with tlb := [page] }
  { s with dev := s.dev ++ [(ttctlOff / 8, 1), (ttentOff 2 0 / 8, 0x8000000100000000), (ttentOff 2 1 / 8, 0x10000)] }

/-- The same one nanosecond after slot 1 began. -/
def timedAt : State := { timed with hubNs := 1, dev := timed.dev ++ [(ttepochOff / 8, 0), (ttslotnsOff / 8, 1)] }

/-- Witness of LaunchesAreAdmittedRejectedAndCompleted: the one entry that fires. -/
theorem test_witness_firing : (List.range 256).all (fun d => ttFires (timedAt.reg (ttentOff d 0)) 1 == decide (d = 2)) = true ∧ (timedAt.reg ttctlOff).getLsbD 0 = true ∧ (timedAt.reg (ttentOff 2 3)).toNat < 1 ∧ 1 ≤ timedAt.ttNow ∧
    timedAt.ttRunning 2 = false ∧ findAt timedAt.firing 2 = none ∧
    ({ timedAt with ttLaunch := [(2, 0)], launches := [(0, { endedLaunch with ttEntry := some 2, remaining := 1 })] } : State).ttRunning 2 = true := by decide +kernel

/-- Witness of LaunchesAreAdmittedRejectedAndCompleted: the firing's descriptor is read and its launch admitted. -/
theorem test_witness_fired : (match (readLaunch (fun (s : State) va k => s.hubWords 0 va k) (fun (s : State) va k => s.hubWords 0 va k) (va57 (low57 (timedAt.reg (ttentOff 2 1)))) timedAt) with
      | (s1, .ok d cbs w) => s1.dev == timedAt.dev && (match admission s1 0 none (some 2) w d cbs with | .ok s2 => s2.dev == timedAt.dev | _ => false)
      | _ => false) = true := by decide +kernel

/-- Witness of TephraPublishesMovesAndDispatches: the periods of publication and recomputation. -/
theorem test_witness_periods : getAt 0 State.reset.timers 1 ≤ State.reset.cycle ∧ State.reset.cycle < getAt 0 ({ State.reset with timers := [(1, 64)] } : State).timers 1 ∧ getAt 0 State.reset.timers (65536 + 1) ≤ State.reset.cycle ∧
    State.reset.cycle < getAt 0 ({ State.reset with timers := [(65537, 64)] } : State).timers (65536 + 1) ∧ (homed State.reset).links 0 1 ≠ [] ∧ (homed State.reset).distance 0 0 = 0xFFF ∧
    ({ homed State.reset with dist := [(distKey 0 0, 3)] } : State).distance 0 0 ≠ 0xFFF ∧ (homed State.reset).peerDistance 0 0 = 0xFFF := by decide +kernel

/-- Witness of CoprocessorWordsTakeTheirRingEntry: an EGET finds its engine busy or not. -/
theorem test_witness_eget : (Instr.eget 4 7 1 0).wellFormed = true ∧ (((commanding 0 0xB0002000 0).slot 0).olderThan { fetchEntry with seq := 1 }).any (fun g => wordIsCmd g.word && g.eng == 2 && !g.isDone) = true ∧
    ((base.olderThan fetchEntry).any fun g => wordIsCmd g.word && g.eng == 2 && !g.isDone) = false := by decide +kernel

/-- Witness of CommandsGoFromPermitToDone: an EGET in the ring. -/
theorem test_witness_eget_done : (egetDest ((encode (.eget 4 7 1 0)).getD 0)).isSome = true ∧ (alone base).egetWaits 0 fetchEntry = false ∧
    (commanding 0 0xB0002000 0).egetWaits 0 { fetchEntry with seq := 1, word := 0xB0002000 } = true ∧ (writing 64).olderOut 0 4 = true ∧ (writing 64).olderOut 0 3 = false := by decide +kernel

/-- A buffer of handle 2 whose producer is the math core, of two slots of 4,096 bytes. -/
def tileBuffer (free : Nat) : CbInst := buffer (BitVec.ofNat 64 (0 * 2 ^ 44 + 2 * 2 ^ 42 + 2 * 2 ^ 32 + 64 * 2 ^ 24)) 0 free [0]

/-- A state in which slot 8 stores its accumulator to that buffer. -/
def storing (free : Nat) : State :=
  { homed (on 8 { grouped with ring := [(0, { command 0xB0000060 0 with valA := 2 })], seqnext := 1 }) with cbs := [tileBuffer free] }

/-- What the acceptance of a command asks. -/
def asks (s : State) (q n : Nat) : List CbKey :=
  match (s.slot q).entry n with
  | none => []
  | some e =>
    match (engAccept q e s).2 with
    | .ok (_, a) => a.need
    | _ => []

/-- Witness of CommandsGoFromPermitToDone: a command that asks for one slot. -/
theorem test_witness_permit : asks (storing 2) 8 0 = [(tileBuffer 2).key] ∧ (storing 2).cbAt (tileBuffer 2).key = some (tileBuffer 2) ∧ (tileBuffer 2).free ≠ 0 ∧ asks (storing 0) 8 0 = [(tileBuffer 0).key] ∧ (tileBuffer 0).free = 0 ∧
    ((storing 2).slot 8).entry 0 = some { command 0xB0000060 0 with valA := 2 } ∧ (storing 2).engTurn 8 { command 0xB0000060 0 with valA := 2 } = true ∧ (storing 2).olderOut 8 0 = false := by decide +kernel

/-- Witness of CommandsGoFromPermitToDone: two requests of one tile and of two. -/
theorem test_witness_combining : (⟨0, 0, 3, 5, 0, 1, 0, 0⟩ : CombineReq).tid = (⟨16, 0, 3, 5, 0, 1, 1, 0⟩ : CombineReq).tid ∧ clusterOf 0 = clusterOf 16 ∧ (⟨0, 0, 3, 5, 0, 1, 0, 0⟩ : CombineReq).coord ≠ (⟨16, 0, 3, 6, 0, 1, 1, 0⟩ : CombineReq).coord := by decide +kernel

/-- Witness of WalkerRegisterWordsComplete and WalkerStreamWordsPlaceAndEmit. -/
theorem test_witness_walk_sends : fetchEntry.sent = [] ∧ ({ fetchEntry with sent := [3] } : RingEntry).sent ≠ [] ∧ ({ walking 0x303 with cbs := [localBuffer 1 0 2 [2]] } : State).anyBad ((localBuffer 1 0 2 [2]).slotKey 0) 64 = false ∧
    (walking 0).homeFenced 0 (padKey 0 0x200) = false ∧ (walking 0).anyBad (padKey 0 0x200) 16 = false := by decide +kernel

/-- A packet at site 0 of the network of a die for 2,048 cycles. -/
def stuck (e : Option Bool) (site : Nat) : State := { State.reset with cycle := 2048, net := [(3, ⟨0, 0, e, site, 5, 0⟩)] }

/-- Witness of FabricStepsCarryRouteMergeAndManage: a packet that is stuck, one on the ring and one that has arrived. -/
theorem test_witness_escape : findAt (stuck none 0).net 3 = some ⟨0, 0, none, 0, 5, 0⟩ ∧ (0 : Nat) < 2 ∧ 2048 ≤ (stuck none 0).cycle - 0 ∧ findAt (stuck (some false) 5).net 3 = some ⟨0, 0, some false, 5, 5, 0⟩ ∧
    findAt (stuck (some false) 0).net 3 = some ⟨0, 0, some false, 0, 5, 0⟩ ∧ ¬(0 < 2 ∧ 2048 ≤ State.reset.cycle - 0) := by decide +kernel

/-- Witness of FabricStepsCarryRouteMergeAndManage: what a port has asked for. -/
theorem test_witness_replay_asked : findAt State.reset.rxAsk 1 = none ∧ findAt ({ State.reset with rxAsk := [(1, 3)] } : State).rxAsk 1 = some 3 ∧ getAt 0 ({ State.reset with rxSeq := [(1, 4)] } : State).rxSeq 1 = 4 ∧
    findAt ({ State.reset with txAsk := [(1, (7, 4))] } : State).txAsk 1 = some (7, 4) := by decide +kernel

/-- Witness of FabricStepsCarryRouteMergeAndManage: two adds of one granule, neither of them a group. -/
theorem test_witness_merged : isGroup (flitOf tyReduce 0 9 4) = false ∧ groupNumber (0x100 / 8 * 8) 0 (flitOf tyReduce 0 9 4) = groupNumber 0x100 0 (flitOf tyReduce 0 9 5) ∧ (heldOf [flitOf tyReduce 0 9 4]).flits.length + 1 < 64 ∧ (heldOf []).port ≠ 0x3F := by decide +kernel

/-- The five levels of a translation of address 0: tables at 0, 0x100000, 0x200000, 0x300000 and 0x400000, a leaf at
0x10000. -/
def tableWord (l : Nat) : Word := if l = 0 then 0x1001F else BitVec.ofNat 64 (0x100000 * (5 - l) + 1)

/-- A state whose memory holds them. -/
def mapped : State :=
  { homed State.reset with mem := (List.range 5).foldl (fun (m : Memory) l => m.writeBytes (dramKey (0x100000 * (4 - l))) (natBytes (tableWord l).toNat 8)) [] }

/-- Witness of IsolationAndRecoveryStepsTakeEffect: a walk through all five levels. -/
theorem test_witness_walk_levels : (List.range 5).all (fun l =>
    let a := (if l = 4 then fieldOf (mapped.reg (ptrootOff 0)) 55 16 * 65536 else pteAddr (tableWord (l + 1))) + 8 * (vaIndex 0 l % 2 ^ levelBits l)
    decide (a < 2 ^ 42) && !getAt false mapped.bad (a / 8) && mapped.mem.word (dramKey a) == tableWord l && (tableWord l).getLsbD 0 &&
      !pteMalformed (tableWord l) l && (tableWord l).getLsbD 1 == decide (l = 0)) = true := by decide +kernel

/-! ### Witnesses of what each engine captures and writes -/

/-- A buffer of a handle from producer stage p to consumer stage c, of two slots of 4,096 bytes. -/
def wideBuffer (h p c free filled : Nat) : CbInst :=
  { buffer (BitVec.ofNat 64 (c * 2 ^ 44 + p * 2 ^ 42 + 2 * 2 ^ 32 + 64 * 2 ^ 24)) 0 free [filled] with key := ⟨0, 0, 0, h⟩ }

/-- What a command has read so far: the first units of the scratchpad, of zeros, and lines of the page at 0x10000, of ones. -/
def gotLines : List (Nat × List Byte) :=
  (List.range 16).map (fun k => (padKey 0 (1024 * k), List.replicate 1024 0)) ++
    (List.range 520).map fun k => (0x10000 + 128 * k, List.replicate 128 1)

/-- A command of an engine with two operands, an engine set and captured tensor entries. -/
def commandOf (w : InstrWord) (a b : Word) (set : List Word) (ents : List (Nat × List Word)) : RingEntry :=
  { command w 0 with valA := a, valB := b, eset := set, ents := ents, lines := gotLines }

/-- A state whose slot q, of stage c, holds a command, takes two filled slots from buffer 1 and gives two to buffer 2. -/
def operating (q c : Nat) (e : RingEntry) : State :=
  { homed (on q { grouped with ring := [(0, e)], seqnext := 1 }) with
    cbs := [wideBuffer 1 ((c + 2) % 3) c 0 2, wideBuffer 2 c ((c + 1) % 3) 2 0], tlb := [page] }

/-- A tensor entry at 0x10000: its first word's fields from FMT up, its extents, its strides and its offset of scales. -/
def tensorOf (fmt rank rows cols flags ext str bs : Nat) : List Word :=
  [BitVec.ofNat 64 (2 ^ 63 + flags * 2 ^ 60 + cols * 2 ^ 57 + rows * 2 ^ 54 + (rank - 1) * 2 ^ 50 + fmt * 2 ^ 45 + 0x10),
    BitVec.ofNat 64 ext, BitVec.ofNat 64 str, BitVec.ofNat 64 bs]

/-- What a step of a command gives, if it goes on. -/
def gave {α : Type} (r : Eng α) : Option α := r.2.toOption

/-- How many elements the operand has that a step names, if it is captured. -/
def capturedSize (q : Nat) (e : RingEntry) (r : Eng EngArg) : Option Nat :=
  match r with
  | (s, .ok a) => (gave (a.capture q e s)).map fun c => c.elems.length
  | _ => none

/-- Whether both operands of a product are captured and decoded with 32 rows of their columns each. -/
def productReady (q : Nat) (e : RingEntry) (s : State) : Bool :=
  match mmArgs q e s with
  | (s1, .ok (a, b)) =>
    match (if e.fn = 1 then mmGathered q e a s1 else a.capture q e s1) with
    | (s2, .ok ca) =>
      match b.capture q e s2 with
      | (_, .ok cb) =>
        match ca.values, cb.values with
        | .ok va, .ok vb => ca.indexOk && cb.indexOk && decide (0 < ca.form.cols) && decide (0 < cb.form.cols) &&
          va.1.length == 32 * ca.form.cols && vb.1.length == 32 * cb.form.cols
        | _, _ => false
      | _ => false
    | _ => false
  | _ => false

/-- How many elements the source of a conversion has, if both its operands are taken. -/
def convertSize (q : Nat) (e : RingEntry) (s : State) : Option Nat :=
  match cvArgs q e s with
  | (s1, .ok (a, _)) => capturedSize q e (s1, .ok a)
  | _ => none

/-- The scales that a conversion reads of its destination. -/
def heldOfDest (q : Nat) (e : RingEntry) (s : State) : Option (List Nat) :=
  match cvArgs q e s with
  | (s1, .ok (a, b)) =>
    match a.capture q e s1 with
    | (s2, .ok _) => gave (heldScales q e b s2)
    | (_, .error _) => none
  | (_, .error _) => none

/-- MMA of slots 0 and 1 of buffer 1, MMAG of a tensor with the rows that slot 0 lists, MROT to buffer 2. -/
def mmaOf : RingEntry := commandOf 0xB0000000 1 0x11 (List.replicate 7 0) []
/-- MMAG. -/
def mmagOf : RingEntry := commandOf 0xB0000010 0x4000000000000000 0x11 [0, 0, 0x100, 0, 0, 0, 0] [(0, tensorOf 0 2 5 3 0 (7 + 31 * 65536) 1 0)]
/-- MROT. -/
def mrotOf : RingEntry := commandOf 0xB0000030 1 0x11 [0, 0, 0x20, 0, 0, 0, 0] []
/-- MLD of slot 0 of buffer 1. -/
def mldOf : RingEntry := commandOf 0xB0000050 1 0 (List.replicate 7 0) []
/-- MST to buffer 2. -/
def mstOf : RingEntry := commandOf 0xB0000060 2 0 (List.replicate 7 0) []

/-- Witness of CommandsGoFromPermitToDone: products of 32 rows. -/
theorem test_witness_products : productReady 8 mmaOf (operating 8 2 mmaOf) = true ∧ productReady 8 mmagOf (operating 8 2 mmagOf) = true ∧ productReady 8 mrotOf (operating 8 2 mrotOf) = true ∧
    mmaOf.fn = 0 ∧ mmagOf.fn = 1 ∧ mrotOf.fn = 3 ∧ mmMarkA mmaOf = false ∧ mmMarkB mmaOf = false ∧ (operating 8 2 mmaOf).accBad 8 mmaOf = false := by decide +kernel

/-- Witness of CommandsGoFromPermitToDone: the list of an MMAG. -/
theorem test_witness_gather : capturedSize 8 mmagOf (mmGather 8 mmagOf (operating 8 2 mmagOf)) = some 128 := by decide +kernel

/-- Witness of CommandsGoFromPermitToDone: MLD and MST. -/
theorem test_witness_accumulators : capturedSize 8 mldOf (sourceArg 8 mldOf mldOf.valA false (mmAccForm mldOf) (operating 8 2 mldOf)) = some 1024 ∧
    (gave (destArg 8 mstOf mstOf.valA (mmAccForm mstOf) (operating 8 2 mstOf))).isSome = true ∧ mldOf.fn = 5 ∧ mstOf.fn = 6 := by decide +kernel

/-- A conversion of slot 0 of buffer 1 to buffer 2. -/
def convertOf (w : InstrWord) (set : List Word) : RingEntry := commandOf w 1 2 set []
/-- CVQ to a tensor that holds its scales. -/
def cvqHeld : RingEntry := commandOf 0xB0001020 1 0x4000000000000000 [0x1F00, 0x2300, 0, 0, 0, 0, 0] [(0, tensorOf 3 2 0 5 1 31 1 1)]

/-- Witness of CommandsGoFromPermitToDone: CVT and CVTR of four by four, CVB of a block, CVQ with its own scales, CVQNQ. -/
theorem test_witness_conversions :
    convertSize 4 (convertOf 0xB0001000 [0x303, 0, 0, 0, 0, 0, 0]) (operating 4 1 (convertOf 0xB0001000 [0x303, 0, 0, 0, 0, 0, 0])) = some 16 ∧
    convertSize 4 (convertOf 0xB0001050 [0x303, 0, 0, 0, 0, 0, 0]) (operating 4 1 (convertOf 0xB0001050 [0x303, 0, 0, 0, 0, 0, 0])) = some 16 ∧
    convertSize 4 (convertOf 0xB0001010 [0x1F00, 0x23, 0, 0, 0, 0, 0]) (operating 4 1 (convertOf 0xB0001010 [0x1F00, 0x23, 0, 0, 0, 0, 0])) = some 32 ∧
    convertSize 4 (convertOf 0xB0001020 [0x1F00, 0x2300, 2, 0, 0, 0, 0]) (operating 4 1 (convertOf 0xB0001020 [0x1F00, 0x2300, 2, 0, 0, 0, 0])) = some 32 ∧
    convertSize 4 (convertOf 0xB0001040 [0x3F00, 0x700, 0, 0x3F800000, 0, 0, 0]) (operating 4 1 (convertOf 0xB0001040 [0x3F00, 0x700, 0, 0x3F800000, 0, 0, 0])) = some 64 := by decide +kernel

/-- Witness of CommandsGoFromPermitToDone: CVQ with the scales that its destination holds, and CVQNQ's. -/
theorem test_witness_scales : convertSize 4 cvqHeld (operating 4 1 cvqHeld) = some 32 ∧ heldOfDest 4 cvqHeld (operating 4 1 cvqHeld) = some [1] ∧
    cvMark cvqHeld = false ∧ cvAuto cvqHeld = false ∧ (qn4Scale 0x3F800000 (betaOf 0x3F800000 [.fin false 0])).isSome = true := by decide +kernel

/-- A key tensor of one page. -/
def keyTensor : List Word := tensorOf 1 2 0 0 2 (127 + 63 * 65536) 4 4
/-- KBND, KSEL or KRST of its page. -/
def keyOf (w : InstrWord) (n : Word) : RingEntry := commandOf w 1 2 [0, 0, 1, n, 0, 0, 0] [(0, keyTensor)]

/-- Witness of CommandsGoFromPermitToDone: the query and a page's bound, the bounds of KSEL and its destination. -/
theorem test_witness_keys : capturedSize 8 (keyOf 0xB0003000 0) (kQuery 8 (keyOf 0xB0003000 0) (operating 8 2 (keyOf 0xB0003000 0))) = some 128 ∧
    (gave (engEach (kbndOne 8 (keyOf 0xB0003000 0) []) (kPages (keyOf 0xB0003000 0)) (operating 8 2 (keyOf 0xB0003000 0)))).isSome = true ∧
    capturedSize 8 (keyOf 0xB0003010 1) (slotRefSource 8 1 (bytesForm 4) (operating 8 2 (keyOf 0xB0003010 1))) = some 4 ∧
    (gave (slotRefDest 8 2 4 (operating 8 2 (keyOf 0xB0003010 1)))).isSome = true ∧ kCount (keyOf 0xB0003010 1) = 1 ∧ (keyOf 0xB0003010 1).fn = 1 := by decide +kernel

/-- Witness of CommandsGoFromPermitToDone: KRST reads 64 rows of its page and registers the tensor. -/
theorem test_witness_key_rows : ((gave (pageRows 8 (keyOf 0xB0003020 0) 0 (operating 8 2 (keyOf 0xB0003020 0)))).map List.length) = some 64 ∧
    gave (keyRegister 0 0 keyTensor (operating 8 2 (keyOf 0xB0003020 0))) = some () ∧ (keyOf 0xB0003020 0).fn = 2 := by decide +kernel

/-- A tensor of four by four words. -/
def smallTensor : List Word := tensorOf 0 2 2 2 0 (3 + 3 * 65536) 1 0
/-- TWLD to buffer 2 and TWST from buffer 1. -/
def tweOf (w : InstrWord) (b : Word) : RingEntry := commandOf w 0x4000000000000000 b [0, 0, 0, 0, 0, 0, 0] [(0, smallTensor)]
/-- SGG of a tensor of pages by the list in buffer 1. -/
def sggOf : RingEntry := { commandOf 0xB0004000 1 2 [0, 0, 0, 0, 0, 0, 0] [(0, tensorOf 1 2 0 0 2 (127 + 63 * 65536) 1 0)] with phase := 2, stagedRegs := [(16, 0)], permits := [(⟨0, 0, 0, 2⟩, 0)] }

/-- Witness of CommandsGoFromPermitToDone: the tile of TWLD, the slot of TWST, the list and a page of SGG. -/
theorem test_witness_tiles : capturedSize 0 (tweOf 0xB0002000 2) (twTile (tweOf 0xB0002000 2) (operating 0 0 (tweOf 0xB0002000 2))) = some 16 ∧
    capturedSize 0 (tweOf 0xB0002020 1) (slotSource 0 1 0 false (tileForm smallTensor) (operating 0 0 (tweOf 0xB0002020 1))) = some 16 ∧ (tweOf 0xB0002020 1).fn = 2 ∧
    (gave (sgArgs 0 sggOf (operating 0 0 sggOf))).isSome = true ∧ ((gave (slotRead 0 sggOf (operating 0 0 sggOf) (wideBuffer 1 2 0 0 2) 0 0 4096)).map fun (bs : List Byte) => leNat (bs.take 4)) = some 0 ∧
    (gave (sgCheck 0 sggOf (operating 0 0 sggOf) 0)).isSome = true ∧
    ((gave (engRead 0 sggOf false (operating 0 0 sggOf) (sgPage (sgEntry sggOf) 0) (4096 * tStr1 (sgEntry sggOf)))).map List.length) = some 4096 := by decide +kernel

/-- BCOPY of 128 bytes, or BFILL. -/
def copyOf (w : InstrWord) (a b : Word) : RingEntry := { commandOf w a b [128, 0, 0, 0, 0, 0, 0] [] with phase := 2 }

/-- Witness of CommandsGoFromPermitToDone: ranges that meet and ranges that do not, and the first line of a copy. -/
theorem test_witness_copies : copyByLines 0 (copyOf 0xB0007000 (pad 0) (pad 64)) = false ∧ copyByLines 0 (copyOf 0xB0007000 (pad 0) (pad 256)) = true ∧
    ((gave (engRead 0 (copyOf 0xB0007000 (pad 0) (pad 64)) false (operating 0 0 (copyOf 0xB0007000 (pad 0) (pad 64))) (pad 64) 128)).map List.length) = some 128 ∧
    (gave (engWrite 0 0 (copyOf 0xB0007000 (pad 0) (pad 256)) (operating 0 0 (copyOf 0xB0007000 (pad 0) (pad 256))) (stagedAt 0 (pad 0) (List.replicate 128 0) 15))).isSome = true ∧
    (copyOf 0xB0007010 (pad 0) 5).fn = 1 := by decide +kernel

/-- Witness of CommandsGoFromPermitToDone: a staged write of a matrix command, and an engine that a fatal fault bars. -/
theorem test_witness_staged : homeOf (padKey 0 0x400) = .pad 0 0x400 ∧ padKey 0 0x400 % 1024 = 0x400 % 1024 ∧ padKey 0 0x400 ≠ 0 ∧ (0x400 : Nat) % 1024 + 64 ≤ 1024 ∧
    ({ base with fatal := [0] } : Slot).fatal.contains 0 = true ∧ base.fatal = [] ∧ ({ base with fatal := [2] } : Slot).engBarred 2 = true ∧ base.engBarred 2 = false := by decide +kernel

/-! ### Witnesses of clauses with several entries, buffers, launches and kinds of activation -/

/-- Witness of AFetchReadsTheWordInMemory: a line fetched ahead, a PC in a window and one in none. -/
theorem test_witness_fetch_windows : ({ base with ahead := some (0x10000, []) } : Slot).ahead = some (0x10040 / 128 * 128, []) ∧ (low57 (pad 0x100)).toNat % 4 = 0 ∧
    0xFFFFFFFFFFFE0000 ≤ (va57 (low57 (pad 0x100))).toNat ∧ 0xFFFFFFFFF8000000 ≤ (va57 0x1FFFFFFF8000000).toNat ∧ (va57 0x1FFFFFFF8000000).toNat < 0xFFFFFFFFFFC00000 := by decide +kernel

/-- Witness of TheTestsOfDecodeComeBeforeTheEffect: a word of every kind of core instruction. -/
theorem test_witness_has_word : (encode (.aswap 1 2 3 4 1)).isSome = true ∧ (Instr.aswap 1 2 3 4 1).isWalker = false ∧ (encode (.vst 4 1 0)).isSome = true := by decide +kernel

/-- Witness of AccessesTrapAndWaitBeforeTheyAct: an atomic at a register and at the control page. -/
theorem test_witness_atomic_bars : ((place (onMapped 0 base) 0 0x20010 8 .write).map fun l => (atomicPlace (onMapped 0 base) l).isSome) = some true ∧
    ((place (on 0 base) 0 0xFFFFFFFFFFE00000 8 .write).map fun l => (atomicPlace (on 0 base) l).isSome) = some true := by decide +kernel

/-- Witness of LoadsReadTheirHomeAndLand: a copy in the cluster cache that serves, but for the free choice of its eviction. -/
theorem test_witness_copy_serves : (on 0 base).copyServes 0 ⟨List.replicate 128 0, 3, 9, 0⟩ 9 = true ∧ findAt ({ on 0 base with copies := [(copyKey 0 2, ⟨[], 3, 9, 0⟩)] } : State).copies (copyKey 0 (0x100 / 128)) = some ⟨[], 3, 9, 0⟩ ∧
    (on 0 (loading (padKey 0 8) .plain none)).readsLost 0 (loadOf (padKey 0 8) .plain none) = false := by decide +kernel

/-- Witness of WritesArePerformedAtTheirHomeAndAcknowledged: a bank, and a write of an engine's command. -/
theorem test_witness_write_at_bank : homeOf (bankKey 0 3 8) = .bank 0 3 8 ∧ (writing (bankKey 0 3 8)).isOut 0 3 = true ∧ (∃ e ∈ ([(0, { fetchEntry with sent := [3] })] : List (Nat × RingEntry)), 3 ∈ e.2.sent) := by decide +kernel

/-- Witness of ReleasesRefusalsAndTimeTakeTheirStep: two channels. -/
theorem test_witness_widen_two : ∀ e ∈ ([(⟨0x1000, 0, 1⟩, 3, 0), (⟨0x1000, 0, 1⟩, 5, 7)] : List (Widen × Nat × Nat)), (on 0 base).anyBad (e.1.summary + 2 * e.2.1) 2 = false ∧ (on 0 base).anyBad (e.1.summary + 256 + 2 * e.2.1) 2 = false ∧
    e.2.1 < 128 ∧ e.1.summary + 256 + 2 * e.2.1 + 2 ≤ 2 ^ 42 := by decide +kernel

/-- A slot at level T with a command of sequence number 7 in its ring, and a handler for its context. -/
def faulted : State :=
  { on 0 { base with level := 0, ring := [(7, { fetchEntry with seq := 7 })], seqnext := 8 } with dev := [(clmapOff 0 0 / 8, BitVec.allOnes 64), (svecOff 0 / 8, 0x4000)] }

/-- Witness of TrapsEnterTheHandlerOfTheirLevel: a fatal fault of a command that is there, and an activation that is ending. -/
theorem test_witness_fatal : (((faulted.deliver 0 { trapOf 1 (some 7) with pc := 0x1000 }).slot 0).entry 7).isSome = true ∧ (faulted.slot 0).level = 0 ∧ (trapOf 1 (some 7)).cause = 1 ∧ ({ base with dying := true } : Slot).dying = true := by decide +kernel

/-- Witness of EretIfenceAndInvalidationComplete: an invalidation that waits. -/
theorem test_witness_invalidation_waits : ({ base with xmark := some (4, []) } : Slot).xmark = some (4, []) ∧ (writing 64).underWay 0 4 [] = true ∧ (writing 64).underWay 0 3 [] = false := by decide +kernel

/-- Witness of HandlerQueuesAreBoundAndUnbound: a queue with a message, running or not. -/
theorem test_witness_unbinding_messages : findAt ({ State.reset with hqueues := [(5, queueOf true [msgOf true 0])] } : State).hqueues 5 = some (queueOf true [msgOf true 0]) ∧ (queueOf true [msgOf true 0]).running = true ∧ (queueOf false [msgOf true 0]).running = false := by decide +kernel

/-- Witness of SpawnPutsATaskIntoItsPool: a waiter whose tile has been fenced, and one whose pool has room. -/
theorem test_witness_spawn_waiter : ({ fencing with poolWaiters := [(16, 0)] } : State).firstWaiter 16 = some (16, 0) ∧ (placeFault { fencing with poolWaiters := [(16, 0)] } 0 16).isSome = true ∧
    ({ (spawning.modSlot 0 fun x => { x with state := .waiting, wait := some (.pool 0 template) }) with poolWaiters := [(0, 0)] } : State).firstWaiter 0 = some (0, 0) ∧ placeFault spawning 0 0 = none ∧
    ((spawning.modSlot 0 fun x => { x with state := .waiting, wait := some (.pool 0 template) }).slot 0).wait = some (.pool 0 template) := by decide +kernel

/-- A slot that retires as a task with NOTIFY, as a group, or as the handler of queue 5. -/
def retiringAs (k : ActKind) (notify : Word) : State :=
  { homed (on 0 { base with retiring := true, kind := k, notify := notify, lrec := some 0 }) with hqueues := [(5, queueOf true [])] }

/-- Witness of RetireYieldAndMessagesComplete: the three kinds of retirement, and NOTIFY. -/
theorem test_witness_retirements : ((retiringAs .task 0).slotRelease 0 3).2 = some none ∧ ((retiringAs (.group 2) 0).slotRelease 0 3).2 = some none ∧ ((retiringAs (.handler 5) 0).slotRelease 0 3).2 = some none ∧
    (((retiringAs (.handler 5) 0).slotRelease 0 3).1.slot 0).kind = .handler 5 ∧ findAt ((retiringAs (.handler 5) 0).slotRelease 0 3).1.hqueues (256 * 0 + 5) = some (queueOf true []) ∧
    ((counterLoc ((retiringAs .task (pad 0x200)).slotRelease 0 3).1 (((retiringAs .task (pad 0x200)).slotRelease 0 3).1.who 0) (pad 0x200) .write).2.toOption.isSome) = true ∧
    (retiringAs .task 0).stayed 0 = true ∧ ((on 0 { base with retiring := true, dying := true }).slot 0).dying = true := by decide +kernel

/-- The same descriptor with one word replaced. -/
def launchWith (i : Nat) (w : Word) : List Word := launchWords.set i w

/-- The code of an admission's rejection: 8 for one that waits, 0 for none. -/
def rejection (a : Admission) : Nat :=
  match a with
  | .ok _ => 0
  | .wait => 8
  | .reject r _ => r

/-- Witness of LaunchesAreAdmittedRejectedAndCompleted: the rejections 0x03 to 0x07 and the waiting. -/
theorem test_witness_rejections : rejection (admission launching 0 none none 0 launchWords [(2, 0, 0)]) = 3 ∧ rejection (admission launching 0 none none 0 (launchWith 4 0x12000) []) = 4 ∧
    rejection (admission launching 0 none none 0 (launchWith 3 0x0099000000000C80) []) = 5 ∧ rejection (admission launching 0 none none 0 launchWords [(2, BitVec.ofNat 64 (2 ^ 46 + 4 * 2 ^ 32 + 2 ^ 24), 0)]) = 6 ∧
    rejection (admission launching 0 none none 0 ((launchWith 3 0x00F1000000000001).set 4 0x10010000) []) = 7 ∧ rejection (admission launching 0 none none 0 (launchWith 3 0x0099000000000001) []) = 0 := by decide +kernel

/-- Witness of LaunchesAreAdmittedRejectedAndCompleted: what those rejections ask, and a home that is fenced. -/
theorem test_witness_rejection_tests : launching.cbsBad 0 (descStages launchWords) [(2, 0, 0)] = true ∧ placeIn (descHome (launchWith 4 0x12000)) (launching.usableList 0) = none ∧ launching.inCalderas 0 (descHome (launchWith 4 0x12000)) = false ∧
    (let s := { launching with dev := (clfenceOff 0 0 / 8, 1) :: launching.dev }; s.inCalderas 0 0 && (placeIn 0 (s.usableList 0)).isNone && !s.lockstep 0) = true ∧
    descMode (launchWith 3 0x0099000000000C80) = 2 ∧ launching.cbsBad 0 1 [(2, BitVec.ofNat 64 (2 ^ 46 + 4 * 2 ^ 32 + 2 ^ 24), 0)] = false := by decide +kernel

/-- What the reading of a descriptor finds at an address: whether the fault may be collected, and its cause. -/
def unread (s : State) (va : Word) : Option (Bool × BitVec 8) :=
  match (readLaunch (fun s va n => s.slotWords 0 va n) (declReader 0) va (s.slotRelease 0 3).1).2 with
  | .fault f _ _ => some (f.collect, f.cause)
  | _ => none

/-- Witness of LaunchesAreAdmittedRejectedAndCompleted: a descriptor that cannot be read, with a collector and without. -/
theorem test_witness_launch_unread : unread (homed (on 0 (regs 0x30000 0 0))) 0x30000 = some (true, eXlat) ∧ (homed (on 0 (regs 0x30000 0 0))).collects 0 = false ∧
    ({ homed State.reset with dev := [(cctlOff 0 / 8, 3), (fltctlOff 0 / 8, 2)] } : State).collects 0 = true := by decide +kernel

/-- Witness of LaunchesAreAdmittedRejectedAndCompleted: the clock steps forward over two slots, whose starts are not due. -/
theorem test_witness_clock_forward : timedAt.ttNow = 1 ∧ ({ timedAt with hubNs := 3 } : State).ttNow = 3 ∧ ((List.range 4).filter fun k => decide (1 < k) && decide ((timedAt.reg (ttentOff 2 3)).toNat < k) && ttFires (timedAt.reg (ttentOff 2 0)) k) = [2, 3] ∧
    (timedAt.reg ttctlOff).getLsbD 0 = true ∧ (timedAt.agenda.any fun e => match e with | .ttSlotStart _ => true | _ => false) = false := by decide +kernel

/-- A queue whose next descriptor cannot be read by the hub. -/
def queuedBad : State := { queued 0 1 with tlb := [] }

/-- Witness of LaunchesAreAdmittedRejectedAndCompleted: a descriptor of a queue that cannot be read. -/
theorem test_witness_queue_unread : (match (readLaunch (fun (s : State) va k => s.hubWords 0 va k) (fun (s : State) va k => s.hubWords 0 va k) (queuedBad.ringSlot 0 0) queuedBad).2 with | .fault _ _ _ => true | _ => false) = true := by decide +kernel

/-- A state in which slot 0 consumes from buffers 2 and 3, whose first segments are closed by markers or not. -/
def twoBuffers (segs : List Nat) : State :=
  { onBuffer (localBuffer 1 0 2 segs) with cbs := [localBuffer 1 0 2 segs, { localBuffer 1 0 2 segs with key := ⟨0, 0, 0, 3⟩ }] }

/-- Witness of CircularBufferInstructionsWaitAdvanceAndRead: a mask of two handles, with their markers or without, and a bad one. -/
theorem test_witness_markers : (twoBuffers [2, 0]).mwaitEnd 0 2 = true ∧ (twoBuffers [2, 0]).mwaitEnd 0 3 = true ∧ (twoBuffers [2, 0]).mwaitEnd 0 4 = false ∧ ((twoBuffers [2, 0]).cbFor 0 3).isSome = true ∧
    (0xC : Nat).testBit 2 = true ∧ (0xC : Nat).testBit 3 = true ∧ (0xC : Nat).testBit 4 = false ∧ (localBuffer 1 0 2 [2, 0]).marks = 1 ∧ (localBuffer 1 0 2 [2]).marks = 0 ∧ (localBuffer 1 0 2 [2]).receiving = false ∧
    (twoBuffers [2]).peerFenced (localBuffer 1 0 2 [2]) = false := by decide +kernel

/-- Slot 1 of the same group waits for room in buffer 2 among two buffers. -/
def roomWaiter (n : Nat) : State :=
  { (onBuffer (localBuffer 0 1 2 [2])).setSlot 1 { grouped with state := .waiting, wait := some (.cbProducer 2 n) } with
    cbs := [localBuffer 0 1 2 [2], { localBuffer 0 1 2 [2] with key := ⟨0, 0, 0, 3⟩ }] }

/-- Witness of BuffersAndChannelsCountInOrder: a slot that waits at one of two buffers, and no marker's wait. -/
theorem test_witness_room_waiter : (roomWaiter 3).cbFor 1 2 = some (localBuffer 0 1 2 [2]) ∧ ((roomWaiter 3).slot 1).state = .waiting ∧ ((roomWaiter 3).slot 1).wait = some (.cbProducer 2 3) ∧
    (roomWaiter 3).cbAt ⟨0, 0, 0, 2⟩ = some (localBuffer 0 1 2 [2]) ∧ (roomWaiter 3).cbMet 1 (.cbProducer 2 3) = false ∧ (roomWaiter 2).cbMet 1 (.cbProducer 2 2) = true ∧
    ∀ r, r < 12 → (∀ h, h < 16 → ((roomWaiter 3).slot r).wait ≠ some (.marker h)) := by decide +kernel

/-- Both ends of a channel in tile 0: the sending end of handle 2 and the receiving end of handle 3. -/
def sendEnd : CbInst := { channelBuffer 2 [2] with w1 := BitVec.ofNat 64 (3 * 2 ^ 20 + 1) }
/-- The receiving end. -/
def receiveEnd : CbInst := { channelBuffer 2 [2] with key := ⟨0, 0, 0, 3⟩, w1 := BitVec.ofNat 64 (2 ^ 24 + 2 * 2 ^ 20 + 1) }

/-- Witness of BuffersAndChannelsCountInOrder: both ends of a channel. -/
theorem test_witness_channel_ends : sendEnd.sending = true ∧ receiveEnd.receiving = true ∧ ({ onBuffer sendEnd with cbs := [sendEnd, receiveEnd] } : State).cbPeer sendEnd = some receiveEnd ∧
    ({ onBuffer sendEnd with cbs := [sendEnd, receiveEnd] } : State).cbPeer receiveEnd = some sendEnd ∧ sendEnd.key ≠ receiveEnd.key ∧ receiveEnd.early = [] := by decide +kernel

/-- A hop that stood behind another entry. -/
def behind : Hop := ⟨.task 0 0 0 0 [] 0 0 false 0, 0, 1, [.task 0 0 0 1 [] 0 0 true 0]⟩

/-- Witness of TephraPublishesMovesAndDispatches: a hop that is refused, with an entry that it stood behind. -/
theorem test_witness_hop_refused : behind ∈ ({ homed State.reset with hopping := [behind] } : State).hopping ∧ State.reset.usable 0 1 = false ∧ sameEntry (.task 0 0 0 2 [] 0 0 true 0) (.task 0 0 0 1 [] 0 0 true 0) = false := by decide +kernel

/-- Cluster 0 holds a task that has been tested, of a launch whose groups have all ended, in class 0. -/
def dispatching : State :=
  { homed State.reset with launches := [(0, { endedLaunch with desc := launchWords })], runs := [(runKey 0 0, [.task 0 0 0 0 template 0 0 true 0])] }

/-- Witness of TephraPublishesMovesAndDispatches: tile 0 dispatches the task, the first of its class. -/
theorem test_witness_decision : dispatching.untested = none ∧ (dispatching.tileHandler 0).isNone = true ∧ (dispatching.tile 0).drain = none ∧ (dispatching.tile 0).kept = [] ∧
    (dispatching.classView 0 0).take 9 = [(.task 0 0 0 0 template 0 0 true 0, 0)] ∧ dispatching.boundElsewhere 0 (.task 0 0 0 0 template 0 0 true 0) = false ∧
    (dispatching.startEntry 0 (.task 0 0 0 0 template 0 0 true 0)).isSome = true ∧ classOrder (dispatching.tile 0).decisions = [] ++ 0 :: [1, 2, 3] := by decide +kernel

/-- Witness of TephraPublishesMovesAndDispatches: no entry fits on a tile that another context holds. -/
theorem test_witness_no_decision : ∀ k, k < 4 → ∀ p ∈ (({ dispatching with tiles := [(0, { (State.reset.tile 0) with holder := some 1 })], slots := [(1, { base with ctx := 1 })] } : State).classView 0 k).take 9,
    (!({ dispatching with tiles := [(0, { (State.reset.tile 0) with holder := some 1 })], slots := [(1, { base with ctx := 1 })] } : State).boundElsewhere 0 p.1 &&
      (({ dispatching with tiles := [(0, { (State.reset.tile 0) with holder := some 1 })], slots := [(1, { base with ctx := 1 })] } : State).startEntry 0 p.1).isSome) = false := by decide +kernel

/-- Witness of TephraPublishesMovesAndDispatches: what the start of a task and of a group asks. -/
theorem test_witness_start : (findAt dispatching.launches 0).map (·.desc) = some launchWords ∧ dispatching.tileFree 0 0 = true ∧ dispatching.usable 0 0 = true ∧ taskStage template = 0 ∧ dispatching.openSlot 0 0 = some 0 ∧
    dispatching.carveAt 0 (descSpillKB launchWords) = some 0x18000 ∧ (dispatching.startGroup 0 0 0).isSome = true ∧ descStageList launchWords = [0] ∧ descSpillKB launchWords = 0 := by decide +kernel

/-- The page at 0x10000 mapped to device memory of another package. -/
def farPage : XlatEntry := ⟨0, State.reset.asid 0, 0, vaIndex 0x10000 0, 0x004004000001001F⟩

/-- A stochastic conversion of a tensor whose table is in another package. -/
def drawing : RingEntry := { commandOf 0xB0001005 0x400C000000000000 2 [0x303, 0, 0, 0, 0, 0, 0] [] with lines := [] }

/-- Witness of CoprocessorWordsTakeTheirRingEntry: a command whose steps depend on a table line that must be asked for, and one whose do not. -/
theorem test_witness_shape_lines : ({ tabled with tlb := [farPage], dev := (dommapOff 1 / 8, 0x8000000000000003) :: tabled.dev } : State).shapeLines 0 drawing ≠ [] ∧ tabled.shapeLines 0 drawing = [] ∧ drawing.draws = true ∧ tabled.ownAsked 0 = false := by decide +kernel

/-- Coordinates 1, 1, 4, 6, 1, 6 and three values in the scratchpad of the walk. -/
def streaming : State :=
  withWords (padKey 0 0x300) [0x400000003F800000, 0x40400000] (withWords (padKey 0 0x200) [0x100000001, 0x600000004, 0x600000001] (walking 0x0F0F))

/-- A walk of both: three entries with values and equal coordinates, and two of ones. -/
def twoStreams : Walk :=
  { walkAt 0x0F0F with str0 := ⟨pad 0x200, pad 0x300, false, 0, 0, 3, true⟩, str1 := ⟨pad 0x210, 0, true, 0, 0, 2, false⟩ }

/-- Witness of WalkerStreamWordsPlaceAndEmit: a stream with values and DUP. -/
theorem test_witness_stream_values : Safety.StreamReads streaming twoStreams fetchEntry 0 [(1, 0x3F800000), (1, 0x40000000), (4, 0x40400000)] := by
  refine ⟨fun i => [1, 1, 4].getD i 0, fun i => [0x3F800000, 0x40000000, 0x40400000].getD i 0, by decide +kernel, ?_, by decide +kernel⟩
  intro i _ h
  have h : i < 3 := h
  match i, h with
  | 0, _ => exact ⟨by decide +kernel, rfl, rfl, by decide +kernel⟩
  | 1, _ => exact ⟨by decide +kernel, rfl, rfl, by decide +kernel⟩
  | 2, _ => exact ⟨by decide +kernel, rfl, rfl, by decide +kernel⟩

/-- Witness of WalkerStreamWordsPlaceAndEmit: a second live stream, of ones. -/
theorem test_witness_stream_ones : Safety.StreamReads streaming twoStreams fetchEntry 1 [(1, 0x3F800000), (6, 0x3F800000)] := by
  refine ⟨fun i => [1, 6].getD i 0, fun _ => 0x3F800000, by decide +kernel, ?_, by decide +kernel⟩
  intro i _ h
  have h : i < 2 := h
  match i, h with
  | 0, _ => exact ⟨by decide +kernel, rfl, rfl, by decide +kernel⟩
  | 1, _ => exact ⟨by decide +kernel, rfl, rfl, by decide +kernel⟩

/-- Witness of WalkerStreamWordsPlaceAndEmit: a row outside the shape, and coordinates 6 and 1 out of order. -/
theorem test_witness_stream_faults : shapeRows 0x0F0F ≤ 16 - (walkAt 0x0F0F).row0 ∧
    rawCoord 4 fetchEntry 0 0 ⟨pad 0x20C, 0, true, 0, 1, 2, false⟩ streaming = (streaming, .ok 6) ∧
    rawCoord 4 fetchEntry 0 1 ⟨pad 0x20C, 0, true, 0, 1, 2, false⟩ streaming = (streaming, .ok 1) ∧ (1 : Nat) < 6 := ⟨by decide +kernel, rfl, rfl, by decide +kernel⟩

/-- Witness of RegisterWritesSetTheirFieldsOrStartTheirStep: an entry of the table while a slot has begun, and while none has. -/
theorem test_witness_slot_begun : ({ timedAt with agenda := [.ttSlotStart 1] } : State).slotBegun = some 0 ∧ timedAt.slotBegun = none ∧ (2 : Nat) < 256 ∧ ttentOff 2 1 % 8 = 0 := by decide +kernel

/-- A state in which bank 3 of cluster 0 leaves CACHE mode while a dirty byte of an earlier store drains, or none. -/
def leavingCache (ws : List WriteReq) : State :=
  { homed (on 0 base) with banks := [(3, { (State.reset.bank 0 3) with mode := .cache, busy := true, nextMode := .fifo, mark := 9 })], dirty := ws }

/-- Witness of BanksSwitchAndCachesDrain: a switch that waits for its dirty bytes, one that does not, and a drain that waits. -/
theorem test_witness_leaving : (((leavingCache [{ storeOf 0x40 with place := .leaving }]).trimCache 0).leave 0 fun _ => false).leavingOut 0 9 = true ∧
    (((leavingCache []).trimCache 0).leave 0 fun _ => false).leavingOut 0 9 = false ∧
    (let s1 := ({ leavingCache [{ storeOf 0x40 with place := .line }] with nextId := 9 } : State).leave 0 fun _ => true; s1.leavingOut 0 s1.nextId) = true := by decide +kernel

/-- A state in which port 4 is up and holds a merged group whose packet can go by port 2. -/
def holding : State := { routed with dev := (portstatOff 4 / 8, 1) :: routed.dev, held := [heldOf [flitOf tyReduce 3 9 4]] }

/-- Witness of FabricStepsCarryRouteMergeAndManage: the group of a failing port goes by another. -/
theorem test_witness_group_rerouted :
    (let s1 := State.setReg { holding with choices := holding.choices + 1 } (portstatOff 4) (withField (withField (holding.reg (portstatOff 4)) 1 0 2) 3 2 1)
     s1.routeOn 1 3 0 = some (0, 2) ∧ s1.portOpen 2 = true) ∧ (holding.reg (portstatOff 4)).getLsbD 0 = true ∧ getAt [] holding.replay 4 = [] ∧ holding.held = [heldOf [flitOf tyReduce 3 9 4]] := ⟨by decide +kernel, by decide +kernel, by decide +kernel, rfl⟩

/-- Witness of FabricStepsCarryRouteMergeAndManage: a register of the recovery block that the manager may write, one it may not, and one of another block. -/
theorem test_witness_manager : regBlock fnackOff = some (.recov, 0x30) ∧ regBlock errhealOff = some (.recov, 0x20) ∧ (0x20 : Nat) ≠ 0x30 ∧ regExists fnackOff = true ∧ regBlock hostevOff ≠ some (.recov, 0x20) := by decide +kernel

/-- Witness of IsolationAndRecoveryStepsTakeEffect: translations that cover an address and that do not, a LAUNCH that waits for its page, and
a fence that nothing enters. -/
theorem test_witness_recovery : (∀ e ∈ (onMapped 0 base).tlb, e.index ≠ vaIndex 0x50000 e.level) ∧ ⟨0, (onMapped 0 base).asid 0, 0, vaIndex 0x10000 0, 0x1001F⟩ ∈ (onMapped 0 base).tlb ∧
    ({ base with state := .waiting, wait := some (.collected 0x10000 (some launchWords)) } : Slot).wait = some (.collected 0x10000 (some launchWords)) ∧
    (∀ e ∈ (homed State.reset).agenda, (homed State.reset).entersRect 0 (caldCovers ((homed State.reset).reg (caldOff 0 0))) e = false) := by decide +kernel

/-- Witness of BootHostAndHealthStepsTakeEffect: the turn of stage 7 and a port to train. -/
theorem test_witness_training : fieldOf ((stageAt 6).reg bootstatOff) 63 56 = 6 ∧ (3, (7 : BitVec 14), (2 : BitVec 6)) ∈ ({ State.reset.boot with trainedPorts := [(3, 7, 2)] } : BootInputs).trainedPorts := by decide +kernel

/-- Witness of LoadsTakeATagAndAskTheHome and of ACounterWaitEndsAtItsTarget: no fetch of the slot's tile stands before. -/
theorem test_witness_joins : base.joinsBefore 5 = false ∧ (onMapped 0 base).mayGo 0 0 (regKey hostevOff) 8 (base.behind Taint.none) = true ∧ (writing 64).lineOut 0 0 3 = false := by decide +kernel

end Sys2Proof.Tests
end

/-! ## Memory stays in canonical form (spec/10_ordering_model.md, R3)

`Laws/Canonical` says of the operations over memory, counters, slots and records that they keep the canonical form.
Here the same is said of every operation above them, in the order of the model's files: `_mem` where memory is as it was,
`_wf` where its form is kept, `_canonical` for a meaning, which may also stop the machine. Each proof follows the branches of
the definition and closes each by the lemmas of the operations that the branch calls. -/

namespace Sys2Proof.Machine

variable {s : State}

/-! ### Outcomes -/

/-- Whatever state an outcome answers, its memory is in canonical form. -/
def Canonical (r : Result) : Prop := ∀ u, r = .next u → u.mem.wf = true

@[simp] theorem canonical_next (s : State) : Canonical (.next s) ↔ s.mem.wf = true :=
  ⟨fun h => h s rfl, fun h u e => by cases e; exact h⟩

@[simp] theorem canonical_fault (f : Fault) : Canonical (.fault f) := fun _ e => by cases e

@[simp] theorem canonical_complete (q : Nat) (s : State) (f : Slot → Slot) :
    Canonical (complete q s f) ↔ s.mem.wf = true := by
  simp [complete]

theorem issue_canonical {i : Instr} {body : Nat → State → Result} (hs : s.mem.wf = true)
    (hb : ∀ q s, s.mem.wf = true → Canonical (body q s)) : Canonical (issue i s body) :=
  issue_wf i s body hs fun q s hs => hb q s hs

theorem aluOp_canonical {i : Instr} {d : BitVec 5} {srcs : List (BitVec 5)} {f : Slot → Word} (hs : s.mem.wf = true) :
    Canonical (aluOp i d srcs f s) := aluOp_wf i d srcs f s hs

theorem fpRound_canonical {i : Instr} {d : BitVec 5} {srcs : List (BitVec 5)} {f : Rounding → Slot → Nat × BitVec 5}
    (hs : s.mem.wf = true) : Canonical (fpRound i d srcs f s) := fpRound_wf i d srcs f s hs

theorem fpPlain_canonical {i : Instr} {d : BitVec 5} {srcs : List (BitVec 5)} {f : Slot → Nat} (hs : s.mem.wf = true) :
    Canonical (fpPlain i d srcs f s) := fpPlain_wf i d srcs f s hs

theorem atomicInstr_canonical {i : Instr} {fn : Nat} {wide signed useT : Bool} {t a b : BitVec 5} {k : BitVec 3}
    (hs : s.mem.wf = true) : Canonical (atomicInstr i fn wide signed useT t a b k s) :=
  atomicInstr_wf i fn wide signed useT t a b k s hs

theorem reduceInstr_canonical {i : Instr} {fn : Nat} {wide : Bool} {a b : BitVec 5} {k : BitVec 3} (hs : s.mem.wf = true) :
    Canonical (reduceInstr i fn wide a b k s) := reduceInstr_wf i fn wide a b k s hs

/-! ### Machine/Memory -/

theorem State.trimCache_wf (c : Nat) (hs : s.mem.wf = true) : (s.trimCache c).mem.wf = true := by
  unfold State.trimCache
  grind [State.evict_wf, wf_foldl]

/-! ### Machine/Banks -/

theorem execBankctlWrite_canonical (c b : Nat) (v : Word) (level ctx : Nat) (hs : s.mem.wf = true) :
    Canonical (execBankctlWrite c b v level ctx s) := by
  unfold execBankctlWrite
  grind [canonical_next, State.setBank_mem, State.push_mem]

theorem execBankSwitchComplete_canonical (c b : Nat) (hs : s.mem.wf = true) : Canonical (execBankSwitchComplete c b s) := by
  unfold execBankSwitchComplete
  grind [canonical_next, State.setBank_mem, State.push_mem, State.leave_wf, State.trimCache_wf, State.zeroBank_wf]

theorem execCcdrain_canonical (c : Nat) (hs : s.mem.wf = true) : Canonical (execCcdrain c s) := by
  unfold execCcdrain
  grind [canonical_next, State.push_mem, State.drainCluster_wf]

/-! ### Machine/MemInstr -/

theorem execFence_canonical (k : BitVec 3) (hs : s.mem.wf = true) : Canonical (execFence k s) :=
  issue_canonical hs fun q s hs => by
    grind [canonical_next, canonical_complete, State.drainThread_wf, State.nakTrap_wf]

theorem execStn4_canonical (t a : BitVec 5) (o : BitVec 12) (hs : s.mem.wf = true) : Canonical (execStn4 t a o s) :=
  issue_canonical hs fun q s hs => by
    grind [canonical_next, State.modSlot_mem, State.push_mem, resolve_wf, State.outstanding_mem, State.trapAt_wf,
      State.accessFault_wf, State.widenFor_wf, State.refuse_mem, ctrlStore_wf, State.useId_mem]

/-! ### Machine/HomeEvents -/

theorem execSliceRead_canonical (q n : Nat) (hs : s.mem.wf = true) : Canonical (execSliceRead q n s) := by
  unfold execSliceRead
  grind [canonical_next, State.push_mem, State.drainLine_wf, State.readAtHome_wf, State.abortLoad_mem, State.answerLoad_mem,
    State.farRead_wf, State.loadRefused_wf]

theorem execLoadCompletion_canonical (q n : Nat) (hs : s.mem.wf = true) : Canonical (execLoadCompletion q n s) := by
  unfold execLoadCompletion
  split <;> simp [hs]

theorem execSliceWrite_canonical (w : WriteReq) (hs : s.mem.wf = true) : Canonical (execSliceWrite w s) := by
  unfold execSliceWrite
  split <;> simp [hs]

theorem execWriteAck_canonical (q id wts : Nat) (hs : s.mem.wf = true) : Canonical (execWriteAck q id wts s) := by
  unfold execWriteAck
  split <;> simp [hs]

theorem execDirtyDrainTimeout_canonical (id : Nat) (hs : s.mem.wf = true) : Canonical (execDirtyDrainTimeout id s) := by
  unfold execDirtyDrainTimeout
  grind [canonical_next, State.push_mem, State.sendDirty_wf]

theorem State.widenAll_wf (es : List (Widen × Nat × Nat)) (wts : Nat) (hs : s.mem.wf = true) :
    (s.widenAll es wts).1.mem.wf = true :=
  wf_foldlFst _ _ _ hs fun _ _ h => State.widenOne_wf _ _ _ _ _ h

theorem execSummaryWiden_canonical (r : WidenReq) (hs : s.mem.wf = true) : Canonical (execSummaryWiden r s) := by
  unfold execSummaryWiden
  grind [canonical_next, State.push_mem, State.widenAll_wf]

theorem execHomeAtomic_canonical (r : AtomicReq) (hs : s.mem.wf = true) : Canonical (execHomeAtomic r s) := by
  simp [execHomeAtomic, hs]

theorem execHomeReduction_canonical (r : AtomicReq) (hs : s.mem.wf = true) : Canonical (execHomeReduction r s) := by
  simp [execHomeReduction, hs]

theorem execNibbleStoreAtHome_canonical (r : NibbleReq) (hs : s.mem.wf = true) : Canonical (execNibbleStoreAtHome r s) := by
  unfold execNibbleStoreAtHome
  grind [canonical_next, State.push_mem, State.farSend_mem, State.dropCopy_mem, State.refuse_mem, State.storeLost_mem,
    State.ackOrWiden_mem, State.drainThread_wf, State.drainLine_wf, State.nibbleAt_wf]

theorem execReleaseComplete_canonical (r : Release) (hs : s.mem.wf = true) : Canonical (execReleaseComplete r s) := by
  unfold execReleaseComplete
  grind [canonical_next, State.modSlot_mem, State.push_mem, State.openWord_mem, State.drainThread_wf, State.notOut_mem,
    State.performAct_wf]

theorem execNakReceived_canonical (tag reason : Nat) (hs : s.mem.wf = true) : Canonical (execNakReceived tag reason s) := by
  simp [execNakReceived, hs]

theorem execAckTimeout_canonical (tag : Nat) (hs : s.mem.wf = true) : Canonical (execAckTimeout tag s) := by
  unfold execAckTimeout
  grind [canonical_next, State.push_mem, State.farRefused_wf]

theorem execPtsTick_canonical (hs : s.mem.wf = true) : Canonical (execPtsTick s) := by
  unfold execPtsTick
  split <;> simp [hs]

/-! ### Machine/Fabric -/

theorem execEscapeTimeout_canonical (n : Nat) (hs : s.mem.wf = true) : Canonical (execEscapeTimeout n s) := by
  unfold execEscapeTimeout
  grind [canonical_next, State.push_mem]

theorem execLinkReplay_canonical (p n : Nat) (hs : s.mem.wf = true) : Canonical (execLinkReplay p n s) := by
  simp [execLinkReplay, hs]

@[simp] theorem State.resend_mem (table : Nat) (f : Flit) : (s.resend table f).mem = s.mem := by
  unfold State.resend
  split <;> simp

theorem execPortFailure_canonical (p cause : Nat) (hs : s.mem.wf = true) : Canonical (execPortFailure p cause s) := by
  unfold execPortFailure
  grind [canonical_next, State.setReg_mem, State.notice_wf, State.excludeThrough_mem, State.resend_mem, wf_foldl]

theorem execExclusionPacket_canonical (node id path : Nat) (dests : List Nat) (hs : s.mem.wf = true) :
    Canonical (execExclusionPacket node id path dests s) := by
  unfold execExclusionPacket
  grind [canonical_next, State.emit_mem, wf_foldl]

theorem execPortUp_canonical (p : Nat) (node : BitVec 14) (port : BitVec 6) (hs : s.mem.wf = true) :
    Canonical (execPortUp p node port s) := by
  unfold execPortUp
  grind [canonical_next, State.setReg_mem, State.notice_wf]

@[simp] theorem State.routeWrite_mem (t b n : Nat) (v : BitVec 32) : (s.routeWrite t b n v).mem = s.mem := by
  simp [State.routeWrite]

theorem execRoutingEntryWrite_canonical (t b n : Nat) (v : BitVec 32) (hs : s.mem.wf = true) :
    Canonical (execRoutingEntryWrite t b n v s) := by
  simp [execRoutingEntryWrite, hs]

theorem execRoutingSwap_canonical (t : Nat) (hs : s.mem.wf = true) : Canonical (execRoutingSwap t s) := by
  unfold execRoutingSwap
  grind [canonical_next, State.setReg_mem, State.push_mem]

theorem execRoutingSwapComplete_canonical (t : Nat) (hs : s.mem.wf = true) : Canonical (execRoutingSwapComplete t s) := by
  simp [execRoutingSwapComplete, hs]

theorem execReducePacketAtPort_canonical (p : Nat × Nat) (f : Flit) (hs : s.mem.wf = true) :
    Canonical (execReducePacketAtPort p f s) := by
  unfold execReducePacketAtPort
  grind [canonical_next, State.setReg_mem, State.push_mem, State.emit_mem, State.sendGroup_mem]

theorem execReductionHoldExpiry_canonical (p n : Nat) (hs : s.mem.wf = true) : Canonical (execReductionHoldExpiry p n s) := by
  unfold execReductionHoldExpiry
  grind [canonical_next, State.push_mem, State.sendGroup_mem]

theorem execRwinWrite_canonical (w i : Nat) (v : Word) (h : Half) (level ctx : Nat) (hs : s.mem.wf = true) :
    Canonical (execRwinWrite w i v h level ctx s) := by
  unfold execRwinWrite
  grind [canonical_next, State.setReg_mem, State.sendGroup_mem, wf_foldl]

theorem execProxyAtomic_canonical (d k : Nat) (hs : s.mem.wf = true) : Canonical (execProxyAtomic d k s) := by
  unfold execProxyAtomic
  grind [canonical_next, State.rmwAt_wf, State.rmwDone_mem, State.proxyRefused_wf]

theorem execManagementPacket_canonical (p : Nat) (f : Flit) (hs : s.mem.wf = true) :
    Canonical (execManagementPacket p f s) := by
  unfold execManagementPacket
  grind [canonical_next, State.pushNext_mem, State.sendPlain_mem, State.keyViolation_mem, State.regRead_mem]

theorem execNoticeResend_canonical (n : Nat) (hs : s.mem.wf = true) : Canonical (execNoticeResend n s) := by
  unfold execNoticeResend
  grind [canonical_next, State.push_mem, State.managementFlit_mem]

theorem execFnackWrite_canonical (n : BitVec 16) (hs : s.mem.wf = true) : Canonical (execFnackWrite n s) := by
  simp [execFnackWrite, hs]

/-! ### Machine/HostPort -/

@[simp] theorem State.setBits_mem (o : Nat) (mask v : Word) : (s.setBits o mask v).mem = s.mem := rfl

@[simp] theorem State.setRing_mem (o : Nat) (mask v : Word) (top : Nat) : (s.setRing o mask v top).mem = s.mem := by
  simp [State.setRing]

@[simp] theorem schedWrite_mem (r : RegWrite) (k : Nat) : (schedWrite r k s).mem = s.mem := by
  simp [schedWrite]

@[simp] theorem isoWrite_mem (r : RegWrite) (k : Nat) : (isoWrite r k s).mem = s.mem := by
  simp [isoWrite]

@[simp] theorem recovWrite_mem (r : RegWrite) (k : Nat) : (recovWrite r k s).mem = s.mem := by
  simp [recovWrite]

@[simp] theorem mgmtWrite_mem (r : RegWrite) (k : Nat) : (mgmtWrite r k s).mem = s.mem := by
  simp [mgmtWrite]

@[simp] theorem fabricWrite_mem (r : RegWrite) (k : Nat) : (fabricWrite r k s).mem = s.mem := by
  simp [fabricWrite]

@[simp] theorem State.regWrite_mem (r : RegWrite) : (s.regWrite r).mem = s.mem := by
  unfold State.regWrite
  split <;> simp

theorem execRegisterWrite_canonical (r : RegWrite) (hs : s.mem.wf = true) : Canonical (execRegisterWrite r s) := by
  unfold execRegisterWrite
  grind [canonical_next, State.push_mem, State.stampLocs_mem, State.regWrite_mem]

theorem State.drainAll_wf (key n : Nat) (hs : s.mem.wf = true) : (s.drainAll key n).mem.wf = true := by
  unfold State.drainAll
  grind [State.drainLine_wf, wf_foldl]

@[simp] theorem State.reply_mem (r : HostReply) : (s.reply r).mem = s.mem := rfl

@[simp] theorem State.hostStamp_mem (m w : Nat) : (s.hostStamp m w).mem = s.mem := rfl

theorem hostRead_wf (m pa n : Nat) (hs : s.mem.wf = true) : (hostRead m pa n s).mem.wf = true := by
  unfold hostRead
  grind [State.detect_mem, State.regRead_mem, State.drainAll_wf, State.reply_mem]

theorem hostWrite_wf (m pa : Nat) (bs : List Byte) (hs : s.mem.wf = true) : (hostWrite m pa bs s).mem.wf = true := by
  unfold hostWrite
  grind [State.pushNext_mem, State.detect_mem, State.bulkWrite_wf, State.reply_mem, State.hostStamp_mem]

theorem hostAtomic_wf (m pa fn : Nat) (b t : Word) (hs : s.mem.wf = true) : (hostAtomic m pa fn b t s).mem.wf = true := by
  unfold hostAtomic
  grind [State.detect_mem, State.rmwAt_wf, State.drainAll_wf, State.reply_mem, State.hostStamp_mem]

theorem State.hostDrain_wf (op : HostOp) (hs : s.mem.wf = true) : (s.hostDrain op).mem.wf = true := by
  unfold State.hostDrain
  grind [State.drainAll_wf]

theorem execHostRequest_canonical (r : HostReq) (hs : s.mem.wf = true) : Canonical (execHostRequest r s) := by
  unfold execHostRequest
  grind [canonical_next, State.push_mem, hostRead_wf, hostWrite_wf, hostAtomic_wf, State.hostDrain_wf]

/-! ### Machine/Counter -/

theorem addOp_wf (i : Instr) (q scope : Nat) (va amount : Word) (hold : Taint) (dest : Option (BitVec 5))
    (hs : s.mem.wf = true) : (addOp i q scope va amount hold dest s).mem.wf = true := by
  unfold addOp
  grind [State.modSlot_mem, counterLoc_wf, State.accessFault_wf, State.widenFor_wf, State.refuse_mem, State.nakTrap_wf,
    State.startRelease_mem]

theorem execCadd_canonical (a b : BitVec 5) (k : BitVec 3) (hs : s.mem.wf = true) : Canonical (execCadd a b k s) :=
  issue_canonical hs fun q s hs => by
    grind [canonical_next, addOp_wf]

theorem execCaddo_canonical (t a b : BitVec 5) (k : BitVec 3) (hs : s.mem.wf = true) : Canonical (execCaddo t a b k s) :=
  issue_canonical hs fun q s hs => by
    grind [canonical_next, addOp_wf]

theorem waitOp_wf (i : Instr) (q scope : Nat) (va target : Word) (trap : Bool) (t : BitVec 5) (hs : s.mem.wf = true) :
    (waitOp i q scope va target trap t s).mem.wf = true := by
  unfold waitOp
  grind [State.setSlot_mem, State.push_mem, counterLoc_wf, State.accessFault_wf]

theorem waitInstr_canonical (i : Instr) (t a b : BitVec 5) (k : BitVec 3) (trap : Bool) (hs : s.mem.wf = true) :
    Canonical (waitInstr i t a b k trap s) :=
  issue_canonical hs fun q s hs => by
    grind [canonical_next, waitOp_wf]

@[simp] theorem State.answerAdd_mem (q : Nat) (serial : Option Nat) (old : Nat) (st : Word) (wts : Nat) :
    (s.answerAdd q serial old st wts).mem = s.mem := by
  unfold State.answerAdd
  split <;> simp

@[simp] theorem State.addLost_mem (q : Nat) (r : AddReq) (cause reason : BitVec 8) :
    (s.addLost q r cause reason).mem = s.mem := by
  unfold State.addLost
  split <;> simp

theorem State.threadAdd_wf (q : Nat) (r : AddReq) (hs : s.mem.wf = true) : (s.threadAdd q r).mem.wf = true := by
  unfold State.threadAdd
  grind [State.push_mem, State.detect_mem, State.addCounter_wf, State.storeLost_mem, State.ackOrWiden_mem,
    State.abortLoad_mem, State.loadRefused_wf, State.answerAdd_mem, State.addLost_mem]

theorem State.addRefused_wf (r : AddReq) (cause reason : BitVec 8) (hs : s.mem.wf = true) :
    (s.addRefused r cause reason).mem.wf = true := by
  unfold State.addRefused
  split <;> simp [hs]

theorem execCounterAddAtHome_canonical (r : AddReq) (hs : s.mem.wf = true) : Canonical (execCounterAddAtHome r s) := by
  unfold execCounterAddAtHome
  grind [canonical_next, State.detect_mem, State.abandonKey_wf, State.addCounter_wf, State.farSend_mem, State.threadAdd_wf,
    State.addRefused_wf]

@[simp] theorem State.observe_mem (r : WaitReq) : (s.observe r).mem = s.mem := by
  unfold State.observe
  split <;> simp

theorem execCounterWaitAtHome_canonical (r : WaitReq) (hs : s.mem.wf = true) : Canonical (execCounterWaitAtHome r s) := by
  unfold execCounterWaitAtHome
  grind [canonical_next, State.push_mem, State.drainThread_wf, State.drainLine_wf, State.observe_mem]

theorem execCounterWaitPoll_canonical (r : WaitReq) (hs : s.mem.wf = true) : Canonical (execCounterWaitPoll r s) := by
  unfold execCounterWaitPoll
  split <;> simp [hs]

/-! ### Machine/CbOps -/

theorem State.cbProduce_wf (c : CbInst) (n pts : Nat) (hs : s.mem.wf = true) : (s.cbProduce c n pts).mem.wf = true := by
  simp [State.cbProduce, hs]

@[simp] theorem countWritten_mem (k : CbKey) (n : Nat) (s : State) : (countWritten k n s).mem = s.mem := by
  induction n generalizing s with
  | zero => rfl
  | succ f ih =>
    unfold countWritten
    split
    · rfl
    split <;> (try split) <;> simp [ih]

theorem State.cbFill_wf (k : CbKey) (ix pts : Nat) (hs : s.mem.wf = true) : (s.cbFill k ix pts).mem.wf = true := by
  unfold State.cbFill
  split <;> simp [hs]

/-! ### Machine/Deal -/

theorem execHandlerStart_canonical (x n : Nat) (hs : s.mem.wf = true) : Canonical (execHandlerStart x n s) := by
  unfold execHandlerStart
  cases h : s.tryHandler x n with
  | none => simpa using hs
  | some t => simpa [State.tryHandler_mem s x n t h] using hs

/-! ### Machine/CtlRegs -/

@[simp] theorem State.writeCr_mem (q : Nat) (c : BitVec 12) (v : Word) (m : Taint) : (s.writeCr q c v m).mem = s.mem := by
  simp [State.writeCr]

theorem crOp_canonical {i : Instr} {c : BitVec 12} {body : Nat → State → Result} (hs : s.mem.wf = true)
    (hb : ∀ q s, s.mem.wf = true → Canonical (body q s)) : Canonical (crOp i c s body) :=
  issue_canonical hs fun q s hs => by
    dsimp only
    split
    · exact (canonical_next s).2 hs
    · exact hb q s hs

theorem crWrite_canonical (a : BitVec 5) (c : BitVec 12) (f : Word → Word → Word) (q : Nat) (hs : s.mem.wf = true) :
    Canonical (crWrite a c f q s) := by
  simp [crWrite, hs]

theorem execCrrd_canonical (d : BitVec 5) (c : BitVec 12) (hs : s.mem.wf = true) : Canonical (execCrrd d c s) := by
  unfold execCrrd
  grind [canonical_complete, crOp_canonical]

theorem execCrwr_canonical (a : BitVec 5) (c : BitVec 12) (hs : s.mem.wf = true) : Canonical (execCrwr a c s) :=
  crOp_canonical hs fun q _ hs => crWrite_canonical a c _ q hs

theorem execCrset_canonical (a : BitVec 5) (c : BitVec 12) (hs : s.mem.wf = true) : Canonical (execCrset a c s) :=
  crOp_canonical hs fun q _ hs => crWrite_canonical a c _ q hs

theorem execCrclr_canonical (a : BitVec 5) (c : BitVec 12) (hs : s.mem.wf = true) : Canonical (execCrclr a c s) :=
  crOp_canonical hs fun q _ hs => crWrite_canonical a c _ q hs

/-! ### Machine/EngineOps -/

theorem State.unitRead_wf (q : Nat) (e : RingEntry) (key n : Nat) (const : Bool) (hs : s.mem.wf = true) :
    (s.unitRead q e key n const).1.mem.wf = true := by
  unfold State.unitRead
  grind [State.drainLine_wf, State.constRead_wf, State.loadLine_wf, State.engSaw_mem, wf_foldlFst]

theorem engReadNow_wf (q : Nat) (e : RingEntry) (va : Word) (n : Nat) (l : Loc) (hs : s.mem.wf = true) :
    (engReadNow q e s va n l).1.mem.wf = true := by
  unfold engReadNow
  grind [engThen_wf, engReadBad_mem, State.unitRead_wf]

theorem engRead_wf (q : Nat) (e : RingEntry) (const : Bool) (va : Word) (n : Nat) (hs : s.mem.wf = true) :
    (engRead q e const s va n).1.mem.wf = true := by
  unfold engRead
  grind [resolve_wf, engThen_wf, engEach_wf, engBad_mem, engReadAt_wf]

theorem engReadWhole_wf (q : Nat) (e : RingEntry) (va : Word) (n : Nat) (hs : s.mem.wf = true) :
    (engReadWhole q e s va n).1.mem.wf = true := by
  unfold engReadWhole
  grind [resolve_wf, engThen_wf, engReadBad_mem]

theorem engWrite_wf (q seq : Nat) (e : RingEntry) (w : StagedWrite) (hs : s.mem.wf = true) :
    (engWrite q seq e s w).1.mem.wf = true := by
  unfold engWrite
  grind [resolve_wf, State.detect_mem, State.widenFor_wf, engThen_wf, engEach_wf, engOpen_mem, engReadNow_wf,
    State.engPut_wf]

theorem bitsRead_wf (q : Nat) (re : RingEntry) (const : Bool) (va : Word) (bit w n : Nat) (hs : s.mem.wf = true) :
    (bitsRead q re const va bit w n s).1.mem.wf = true := by
  unfold bitsRead
  grind [engThen_wf, engRead_wf]

theorem captureSpans_wf (q : Nat) (re : RingEntry) (const : Bool) (l : List (Word × Nat)) (hs : s.mem.wf = true) :
    (captureSpans q re const l s).1.mem.wf = true := by
  unfold captureSpans
  grind [engThen_wf, engEach_wf, engRead_wf]

theorem captureRow_wf (q : Nat) (re : RingEntry) (e : List Word) (t : TileForm) (i0 i2 i3 : Nat) (i1 : Nat)
    (hs : s.mem.wf = true) : (captureRow q re e t i0 i2 i3 s i1).1.mem.wf = true := by
  unfold captureRow
  grind [engThen_wf, bitsRead_wf]

theorem captureScale_wf (q : Nat) (re : RingEntry) (e : List Word) (f : Nat) (i2 i3 : Nat) (p : Nat × Nat)
    (hs : s.mem.wf = true) : (captureScale q re e f i2 i3 s p).1.mem.wf = true := by
  unfold captureScale
  grind [engThen_wf, engRead_wf]

theorem captureTensor_wf (q : Nat) (re : RingEntry) (e : List Word) (t : TileForm) (t0 t2 t3 : Nat) (rows : List Nat)
    (hs : s.mem.wf = true) : (captureTensor q re e t t0 t2 t3 rows s).1.mem.wf = true := by
  unfold captureTensor
  grind [engThen_wf, engEach_wf, captureSpans_wf, captureRow_wf, captureScale_wf]

theorem State.engFetch_wf (q seq key n : Nat) (const : Bool) (hs : s.mem.wf = true) :
    (s.engFetch q seq key n const).mem.wf = true := by
  unfold State.engFetch
  grind [State.modSlot_mem, State.constPair_wf, State.drainRange_wf, State.unitRead_wf, State.askLine_mem]

theorem State.settleEmpty_wf (q : Nat) (e : RingEntry) (hs : s.mem.wf = true) : (s.settleEmpty q e).mem.wf = true := by
  unfold State.settleEmpty
  grind [State.modSlot_mem, State.cbFill_wf, wf_foldl]

theorem State.settleOne_wf (q : Nat) (dropped : Bool) (e : RingEntry) (hs : s.mem.wf = true) :
    (s.settleOne q dropped e).mem.wf = true := by
  unfold State.settleOne
  grind [State.modSlot_mem, State.push_mem, State.settleEmpty_wf]

theorem State.settle_wf (q : Nat) (hs : s.mem.wf = true) : (s.settle q).mem.wf = true := by
  unfold State.settle
  grind [State.modSlot_mem, State.settleOne_wf, wf_foldl]

/-! ### Machine/HubMem -/

@[simp] theorem State.ringPut_mem (s before : State) (w : Who) (va : Word) (reg tail pts : Nat) (count : Option Nat) :
    (s.ringPut before w va reg tail pts count).mem = s.mem := by
  simp [State.ringPut]

/-! ### Machine/Admit -/

/-- The state in which a launch is admitted, if it is, has the memory m. -/
def AdmitsWith (m : Memory) (a : Admission) : Prop := ∀ t, a = .ok t → t.mem = m

theorem admitsWith_rejectAs (m : Memory) (n : Nat) (c : BitVec 8) : AdmitsWith m (rejectAs n c) := fun _ e => by cases e

theorem admitsWith_wait (m : Memory) : AdmitsWith m .wait := fun _ e => by cases e

/-- Each test of an admission rejects or waits, and past all of them memory is as it was. -/
theorem admission_admitsWith (x : Nat) (queue tt : Option Nat) (pts : Nat) (desc : List Word)
    (cbs : List (Nat × Word × Word)) : AdmitsWith s.mem (admission s x queue tt pts desc cbs) := by
  have hr := admitsWith_rejectAs s.mem
  have hw := admitsWith_wait s.mem
  unfold admission
  extract_lets good shadow dieB
  refine iteInduction (fun _ => hr _ _) fun _ => iteInduction (fun _ => hr _ _) fun _ =>
    iteInduction (fun _ => hr _ _) fun _ => ?_
  cases placeIn (descHome desc) good with
  | none => exact hr _ _
  | some i0 =>
    refine iteInduction (fun _ => hr _ _) fun _ => iteInduction (fun _ => hr _ _) fun _ =>
      iteInduction (fun _ => hr _ _) fun _ => iteInduction (fun _ => hr _ _) fun _ =>
      iteInduction (fun _ => hr _ _) fun _ => iteInduction (fun _ => hw) fun _ => iteInduction (fun _ => hw) fun _ =>
      iteInduction (fun _ => hw) fun _ => iteInduction (fun _ t e => ?_) fun _ t e => ?_
    · cases e
      simp only [State.checkLaunch_mem, State.putEntries_mem]
      rfl
    · cases e
      simp only [State.checkLaunch_mem, State.putEntries_mem]
      rfl

theorem admission_mem {x : Nat} {queue tt : Option Nat} {pts : Nat} {desc : List Word} {cbs : List (Nat × Word × Word)}
    {t : State} (h : admission s x queue tt pts desc cbs = .ok t) : t.mem = s.mem :=
  admission_admitsWith x queue tt pts desc cbs t h

/-! ### Machine/Launch -/

theorem State.launchBy_wf (q : Nat) (a : BitVec 5) (desc : List Word) (cbs : List (Nat × Word × Word))
    (hs : s.mem.wf = true) : (s.launchBy q a desc cbs).mem.wf = true := by
  unfold State.launchBy
  grind [admission_mem, State.modSlot_mem, State.push_mem, State.abandonDone_wf, State.launchTrap_wf]

theorem execLaunch_canonical (a : BitVec 5) (hs : s.mem.wf = true) : Canonical (execLaunch a s) :=
  issue_canonical hs fun q s hs => by
    grind [canonical_next, State.modSlot_mem, State.trapAt_wf, State.trapOpen_wf, State.nakTrap_wf, State.slotWords_wf,
      readLaunch_wf, State.slotRelease_wf, State.launchUnread_wf, State.launchBy_wf, declReader_wf]

@[simp] theorem State.doorbellError_mem (n reason : Nat) : (s.doorbellError n reason).mem = s.mem := rfl

theorem execDoorbell_canonical (n : Nat) (t : BitVec 32) (pts : Nat) (hs : s.mem.wf = true) :
    Canonical (execDoorbell n t pts s) := by
  unfold execDoorbell
  grind [canonical_next, State.push_mem, State.stampReg_mem, State.doorbellError_mem]

theorem State.admitHead_wf (n : Nat) (hs : s.mem.wf = true) : (s.admitHead n).mem.wf = true := by
  unfold State.admitHead
  extract_lets head x ix rd pts
  have hrd : ∀ s a b, s.mem.wf = true → (rd s a b).1.mem.wf = true := fun s a b hs => State.hubWords_wf s x a b hs
  have h := readLaunch_wf rd rd (s.ringSlot n head) s hs hrd hrd
  generalize readLaunch rd rd (s.ringSlot n head) s = p at h ⊢
  obtain ⟨s1, r⟩ := p
  cases r with
  | wait => simpa using h
  | fault f va d => simpa using State.abandonDone_wf s1 x d h
  | ok d cbs w =>
    cases ha : admission s1 x (some n) none (max pts w) d cbs with
    | ok s2 => simpa [ha, admission_mem ha] using h
    | wait => simpa [ha] using h
    | reject r f => simpa [ha] using State.abandonDone_wf s1 x d h

theorem State.admitSlot_wf (q : Nat) (hs : s.mem.wf = true) : (s.admitSlot q).mem.wf = true := by
  unfold State.admitSlot
  grind [State.launchBy_wf]

theorem State.ttTry_wf (e : Nat) (hs : s.mem.wf = true) : (s.ttTry e).mem.wf = true := by
  unfold State.ttTry
  split
  · exact hs
  next w0 desc pts _ =>
  extract_lets x ended rd
  have hrd : ∀ s a b, s.mem.wf = true → (rd s a b).1.mem.wf = true := fun s a b hs => State.hubWords_wf s x a b hs
  have h := readLaunch_wf rd rd (va57 (low57 desc)) s hs hrd hrd
  generalize readLaunch rd rd (va57 (low57 desc)) s = p at h ⊢
  obtain ⟨s1, r⟩ := p
  cases r with
  | wait => simpa using h
  | fault f va d => exact State.abandonDone_wf s1 x d h
  | ok d cbs w =>
    cases ha : admission s1 x none (some e) (max pts w) d cbs with
    | ok s2 => simpa [ended, ha, admission_mem ha] using h
    | wait => simpa [ha] using h
    | reject r f => simpa [ended, ha] using State.abandonDone_wf s1 x d h

theorem execLaunchAdmission_canonical (n : Nat) (hs : s.mem.wf = true) : Canonical (execLaunchAdmission n s) := by
  unfold execLaunchAdmission
  grind [canonical_next, State.admitHead_wf, State.admitSlot_wf, State.ttTry_wf]

theorem execQueueControlWrite_canonical (n : Nat) (v : Word) (h : Half) (level : Nat) (hs : s.mem.wf = true) :
    Canonical (execQueueControlWrite n v h level s) := by
  unfold execQueueControlWrite
  grind [canonical_next, State.setReg_mem, State.push_mem]

theorem abandonRing_wf (n x f i : Nat) (hs : s.mem.wf = true) :
    (abandonRing n x f i s).2.mem.wf = true ∧ ∀ u, (abandonRing n x f i s).1 = some u → u.mem.wf = true := by
  induction f generalizing i s with
  | zero => exact ⟨hs, fun u e => by cases e; exact hs⟩
  | succ f ih =>
    unfold abandonRing
    grind [State.hubWords_wf, State.abandonDone_wf, State.setReg_mem]

theorem State.tearDown_wf (n : Nat) (hs : s.mem.wf = true) : (s.tearDown n).mem.wf = true := by
  unfold State.tearDown
  grind [State.setReg_mem, State.abandonLaunch_wf, State.reapLaunch_mem, State.modLaunch_mem, State.removeEntries_mem,
    State.discardTask_wf, wf_foldl]

/-- The definition is unfolded as a function: the number of its steps, which holds 2^32, is never compared as a term. -/
theorem execQueueReset_canonical (n : Nat) (hs : s.mem.wf = true) : Canonical (execQueueReset n s) := by
  obtain ⟨F, hF⟩ : ∃ F, F = execQueueReset := ⟨_, rfl⟩
  rw [← hF]
  delta execQueueReset at hF
  subst hF
  dsimp -zeta only
  extract_lets head tail
  have h := abandonRing_wf n (s.queueCtx n) ((tail + 2 ^ 32 - head) % 2 ^ 32) head hs
  generalize abandonRing n (s.queueCtx n) ((tail + 2 ^ 32 - head) % 2 ^ 32) head s = p at h ⊢
  obtain ⟨_ | s1, s2⟩ := p
  · simpa using h.1
  · exact (canonical_next _).2 (State.tearDown_wf _ (by simpa using h.2 s1 rfl))

theorem State.ttFire_wf (k e : Nat) (hs : s.mem.wf = true) : (s.ttFire k e).mem.wf = true := by
  unfold State.ttFire
  grind [State.setReg_mem, State.ttTry_wf, State.ttOverrun_mem]

theorem State.ttSlot_wf (k : Nat) (hs : s.mem.wf = true) : (s.ttSlot k).mem.wf = true := by
  unfold State.ttSlot
  grind [State.ttFire_wf, wf_foldl]

theorem execTtSlotStart_canonical (k : Nat) (hs : s.mem.wf = true) : Canonical (execTtSlotStart k s) := by
  unfold execTtSlotStart
  grind [canonical_next, State.push_mem, State.ttSlot_wf]

theorem execTtClockStep_canonical (t : Nat) (hs : s.mem.wf = true) : Canonical (execTtClockStep t s) := by
  unfold execTtClockStep
  grind [canonical_next, State.setReg_mem, State.push_mem, State.ttOverrun_mem, wf_foldl]

theorem execLaunchCompletion_canonical (l : Nat) (hs : s.mem.wf = true) : Canonical (execLaunchCompletion l s) := by
  unfold execLaunchCompletion
  grind [canonical_next, State.push_mem, State.reapLaunch_mem, State.modLaunch_mem, State.reportHome_mem, State.addDone_wf]

/-! ### Machine/Task -/

theorem State.spawnAt_wf (q home e : Nat) (ws : List Word) (hs : s.mem.wf = true) : (s.spawnAt q home e ws).mem.wf = true := by
  show Safety.Inv (s.spawnAt q home e ws)
  unfold State.spawnAt
  extract_lets x l key s1 s2 thresh p s3 s4 torn
  have h2 : s2.mem.wf = true := State.homeApply_wf _ _ _ _ (State.takeTile_wf _ _ _ hs)
  clear_value s2
  have h4 : s4.mem.wf = true := (State.modLaunch_mem s3 _ _).symm ▸ h2
  clear_value s4 torn
  split
  · exact State.discardTask_wf _ _ _ h4
  · split <;> simpa [Safety.Inv] using h4

theorem State.spawnReady_wf (q home : Nat) (ws : List Word) (hs : s.mem.wf = true) :
    (s.spawnReady q home ws).mem.wf = true := by
  unfold State.spawnReady
  grind [State.modSlot_mem, State.push_mem, State.spawnAt_wf]

theorem State.spawnChecked_wf (q home : Nat) (i : Instr) (t : List Word) (hs : s.mem.wf = true) :
    (s.spawnChecked q home i t).mem.wf = true := by
  unfold State.spawnChecked
  grind [counterLoc_wf, State.trapOpen_wf, State.accessFault_wf, State.spawnReady_wf]

theorem execSpawn_canonical (a b : BitVec 5) (hs : s.mem.wf = true) : Canonical (execSpawn a b s) := by
  unfold execSpawn
  refine issue_canonical hs fun q s hs => ?_
  grind [canonical_next, State.trapAt_wf, State.trapOpen_wf, State.accessFault_wf, State.nakTrap_wf, State.slotWords_wf,
    State.slotRelease_wf, State.spawnChecked_wf]

theorem execSpawnPoolRelease_canonical (tile : Nat) (hs : s.mem.wf = true) : Canonical (execSpawnPoolRelease tile s) := by
  unfold execSpawnPoolRelease
  grind [canonical_next, State.modSlot_mem, State.push_mem, State.spawnAt_wf]

theorem execMsend_canonical (a b : BitVec 5) (hs : s.mem.wf = true) : Canonical (execMsend a b s) := by
  unfold execMsend
  refine issue_canonical hs fun q s hs => ?_
  grind [canonical_next, State.modSlot_mem, State.pushAll_mem, State.trapAt_wf, State.trapOpen_wf, State.accessFault_wf,
    State.nakTrap_wf, State.slotWords_wf, State.slotRelease_wf]

theorem State.notifyAdd_wf (q : Nat) (hs : s.mem.wf = true) : (s.notifyAdd q).mem.wf = true := by
  unfold State.notifyAdd
  grind [State.push_mem, counterLoc_wf, State.shadowOverflow_mem, State.notifyFailed_wf]

theorem execRetirement_canonical (q : Nat) (hs : s.mem.wf = true) : Canonical (execRetirement q s) := by
  unfold execRetirement
  grind [canonical_next, State.modSlot_mem, State.push_mem, State.modLaunch_mem, State.freeSlot_mem, State.discardSlot_wf,
    State.drainThread_wf, State.nakTrap_wf, State.slotRelease_wf, State.notifyAdd_wf]

theorem State.orphan_wf (m : Msg) (gen : BitVec 16) (reason : Nat) (hs : s.mem.wf = true) :
    (s.orphan m gen reason).mem.wf = true := by
  unfold State.orphan
  grind [State.setReg_mem, State.hubWrite_wf, State.ringPut_mem]

@[simp] theorem State.msgRefused_mem (m : Msg) (cause reason : BitVec 8) : (s.msgRefused m cause reason).mem = s.mem := by
  unfold State.msgRefused
  split <;> simp

@[simp] theorem State.deliverQueue_mem (m : Msg) : (s.deliverQueue m).mem = s.mem := by
  unfold State.deliverQueue
  split <;> simp

theorem State.spillWrite_wf (x : Nat) (w : Who) (unit : Nat) (ws : List Word) (pts : Nat) (hs : s.mem.wf = true) :
    (s.spillWrite x w unit ws pts).mem.wf = true := by
  unfold State.spillWrite
  grind [State.hubWrite_wf, wf_foldl]

theorem State.spillRecord_wf (x q kind gen chseq handle : Nat) (body : List Word) (pts : Nat) {p : State × Nat}
    (hs : s.mem.wf = true) (h : s.spillRecord x q kind gen chseq handle body pts = some p) : p.1.mem.wf = true := by
  unfold State.spillRecord at h
  grind [State.spillWrite_wf, State.setReg_mem]

theorem State.spillMsg_wf (q : Nat) (m : Msg) (hs : s.mem.wf = true) : ∀ u, s.spillMsg q m = some u → u.mem.wf = true := by
  intro u h
  obtain ⟨p, hp, rfl⟩ := Option.map_eq_some_iff.mp h
  exact State.spillRecord_wf _ _ _ _ _ _ _ _ hs hp

theorem State.spillDone_wf (x q kind units unit pts : Nat) (hs : s.mem.wf = true) :
    (s.spillDone x q kind units unit pts).mem.wf = true := by
  simp [State.spillDone, hs]

theorem State.unspill_wf (m : Msg) (hs : s.mem.wf = true) : (s.unspill m).mem.wf = true := by
  unfold State.unspill
  grind [State.spillDone_wf]

@[simp] theorem State.holdMsgs_mem (q : Nat) (held : Bool) : (s.holdMsgs q held).mem = s.mem := rfl

theorem State.deliverSlot_wf (m : Msg) (hs : s.mem.wf = true) : (s.deliverSlot m).mem.wf = true := by
  unfold State.deliverSlot
  grind [State.push_mem, State.bulkWrite_wf, State.cbPermitTake_mem, State.cbFill_wf, State.orphan_wf, State.msgRefused_mem,
    State.spillMsg_wf, State.unspill_wf]

theorem execMessageDelivery_canonical (m : Msg) (hs : s.mem.wf = true) : Canonical (execMessageDelivery m s) := by
  unfold execMessageDelivery
  grind [canonical_next, State.push_mem, State.orphan_wf, State.msgRefused_mem, State.deliverQueue_mem, State.unspill_wf,
    State.deliverSlot_wf]

theorem execMessageExpiry_canonical (m : Msg) (hs : s.mem.wf = true) : Canonical (execMessageExpiry m s) := by
  unfold execMessageExpiry
  grind [canonical_next, State.push_mem, State.orphan_wf, State.unspill_wf]

/-! ### Machine/System -/

@[simp] theorem State.releaseHeld_mem (q : Nat) : (s.releaseHeld q).mem = s.mem := by
  unfold State.releaseHeld
  split <;> simp

theorem execEret_canonical (hs : s.mem.wf = true) : Canonical (execEret s) :=
  issue_canonical hs fun q s hs => by
    grind [canonical_next, State.modSlot_mem, State.settle_wf, State.releaseHeld_mem]

theorem execIfence_canonical (hs : s.mem.wf = true) : Canonical (execIfence s) :=
  issue_canonical hs fun q s hs => by
    grind [canonical_next, canonical_complete, State.drainThread_wf]

@[simp] theorem State.dropXlat_mem (x : Nat) (va : Option Word) : (s.dropXlat x va).mem = s.mem := rfl

theorem xinvInstr_canonical {i : Instr} {va : Nat → State → Option Word} (hs : s.mem.wf = true) :
    Canonical (xinvInstr i s va) :=
  issue_canonical hs fun q s hs => by
    grind [canonical_next, canonical_complete, State.drainThread_wf, State.slotRelease_wf, State.nakTrap_wf,
      State.dropXlat_mem, State.modSlot_mem]

theorem execQbind_canonical (a b : BitVec 5) (hs : s.mem.wf = true) : Canonical (execQbind a b s) := by
  unfold execQbind
  refine issue_canonical hs fun q s hs => ?_
  grind [canonical_next, State.trapAt_wf, State.trapOpen_wf, State.accessFault_wf, canonical_complete, State.takeTile_wf,
    State.slotWords_wf]

theorem State.unbind_wf (x n : Nat) (h : HandlerQueue) (hs : s.mem.wf = true) : (s.unbind x n h).mem.wf = true := by
  unfold State.unbind
  grind [State.orphan_wf, wf_foldl]

theorem execQunb_canonical (a : BitVec 5) (hs : s.mem.wf = true) : Canonical (execQunb a s) := by
  unfold execQunb
  refine issue_canonical hs fun q s hs => ?_
  grind [canonical_next, State.modSlot_mem, State.trapOpen_wf, canonical_complete, State.unbind_wf]

theorem slotResult_canonical (q : Nat) (c : Nat) (hs : s.mem.wf = true) : Canonical (slotResult q c s) := by
  simp [slotResult, hs]

theorem imageLocs_wf (q : Nat) (b : Word) (a : Access) (k : Nat) (hs : s.mem.wf = true) :
    (imageLocs q b a k s).1.mem.wf = true := by
  induction k generalizing s with
  | zero => exact hs
  | succ k ih =>
    unfold imageLocs
    grind [resolve_wf]

@[simp] theorem State.stopTarget_mem (t : Nat) : (s.stopTarget t).mem = s.mem := rfl

theorem State.rewait_wf (t : Nat) (hs : s.mem.wf = true) : (s.rewait t).mem.wf = true := by
  unfold State.rewait
  grind [State.modSlot_mem, State.push_mem, counterLoc_wf, State.endUnbind_mem, State.wakeCbs_wf]

theorem State.resumeTarget_wf (t : Nat) (hs : s.mem.wf = true) : (s.resumeTarget t).mem.wf = true := by
  unfold State.resumeTarget
  grind [State.modSlot_mem, State.pushAll_mem, State.rewait_wf]

theorem State.spillOperand_wf (t : Nat) (p : OperandSlot × Event) (hs : s.mem.wf = true) :
    (s.spillOperand t p).mem.wf = true := by
  have h0 : ({ s with choices := s.choices + 1 } : State).mem.wf = true := hs
  unfold State.spillOperand
  dsimp only
  split
  · split
    · exact hs
    · split
      · next h => exact State.spillRecord_wf _ _ _ _ _ _ _ _ h0 h
      · exact hs
  · exact hs

theorem State.resendOperands_wf (t : Nat) (hs : s.mem.wf = true) : (s.resendOperands t).mem.wf = true := by
  unfold State.resendOperands
  grind [State.sendItem_mem, State.spillDone_wf, wf_foldl]

theorem State.writeImage_wf (q : Nat) (b : Word) (ls : List Loc) (img : List Word) (hs : s.mem.wf = true) :
    (s.writeImage q b ls img).mem.wf = true := by
  unfold State.writeImage
  grind [State.putStore_wf, State.useId_mem, wf_foldl]

theorem execSlsave_canonical (a b : BitVec 5) (hs : s.mem.wf = true) : Canonical (execSlsave a b s) := by
  unfold execSlsave
  refine issue_canonical hs fun q s hs => ?_
  grind [canonical_next, State.modSlot_mem, State.trapAt_wf, State.trapOpen_wf, State.accessFault_wf, State.drainThread_wf,
    State.holdMsgs_mem, slotResult_canonical, imageLocs_wf, State.stopTarget_mem, State.resumeTarget_wf,
    State.spillOperand_wf, State.writeImage_wf, wf_foldl]

theorem State.wordAt_wf (t : Nat) (pc : BitVec 57) (hs : s.mem.wf = true) : (s.wordAt t pc).1.mem.wf = true := by
  unfold State.wordAt
  grind [resolve_wf]

theorem State.counterWaitOf_wf (t : Nat) (i : InstrWord) (va arg : Word) (hs : s.mem.wf = true) :
    (s.counterWaitOf t i va arg).mem.wf = true := by
  unfold State.counterWaitOf
  grind [State.setSlot_mem, counterLoc_wf]

theorem State.recordedWait_wf (t : Nat) (w : Nat → Word) (hs : s.mem.wf = true) : (s.recordedWait t w).mem.wf = true := by
  unfold State.recordedWait
  grind [State.modSlot_mem, State.wordAt_wf, State.counterWaitOf_wf]

theorem State.readImage_wf (q : Nat) (ls : List Loc) (hs : s.mem.wf = true) : (s.readImage q ls).1.mem.wf = true := by
  unfold State.readImage
  grind [State.detect_mem, State.farSend_mem, State.drainLine_wf, wf_foldl]

@[simp] theorem State.respill_mem (t : Nat) : (s.respill t).mem = s.mem := rfl

theorem execSlrest_canonical (a b : BitVec 5) (hs : s.mem.wf = true) : Canonical (execSlrest a b s) := by
  unfold execSlrest
  refine issue_canonical hs fun q s hs => ?_
  grind [canonical_next, State.setSlot_mem, State.trapAt_wf, State.trapOpen_wf, State.accessFault_wf, State.drainThread_wf,
    slotResult_canonical, imageLocs_wf, State.resumeTarget_wf, State.resendOperands_wf, State.recordedWait_wf,
    State.readImage_wf, State.respill_mem]

theorem execSlkill_canonical (a : BitVec 5) (hs : s.mem.wf = true) : Canonical (execSlkill a s) := by
  unfold execSlkill
  refine issue_canonical hs fun q s hs => ?_
  grind [canonical_next, State.discardSlot_wf, State.trapOpen_wf, State.drainThread_wf, slotResult_canonical,
    State.stopTarget_mem]

/-! ### Machine/Tephra -/

@[simp] theorem State.newPeriod_mem : s.newPeriod.mem = s.mem := by
  simp [State.newPeriod]

theorem onceAPeriod_wf (k c : Nat) (again : Event) {body : State → State} (hs : s.mem.wf = true)
    (hb : ∀ s, s.mem.wf = true → (body s).mem.wf = true) : (onceAPeriod k c again body s).mem.wf = true := by
  unfold onceAPeriod
  grind [State.newPeriod_mem, State.push_mem]

theorem execPressurePublish_canonical (c : Nat) (hs : s.mem.wf = true) : Canonical (execPressurePublish c s) := by
  unfold execPressurePublish
  grind [canonical_next, onceAPeriod_wf]

theorem execDistanceRecompute_canonical (c : Nat) (hs : s.mem.wf = true) : Canonical (execDistanceRecompute c s) := by
  unfold execDistanceRecompute
  grind [canonical_next, onceAPeriod_wf]

theorem execGrctlWrite_canonical (x : Nat) (v : Word) (hs : s.mem.wf = true) : Canonical (execGrctlWrite x v s) := by
  unfold execGrctlWrite
  split <;> simp [hs]

@[simp] theorem State.sendReports_mem (x : Nat) : (s.sendReports x).mem = s.mem := by
  unfold State.sendReports
  split <;> simp

theorem execPeerReport_canonical (x i d c : Nat) (hs : s.mem.wf = true) : Canonical (execPeerReport x i d c s) := by
  unfold execPeerReport
  grind [canonical_next, State.push_mem, State.sendReports_mem, wf_foldl]

@[simp] theorem State.sendHop_mem (c i : Nat) (e : RunEntry) (ahead : List RunEntry) :
    (s.sendHop c i e ahead).mem = s.mem := by
  simp [State.sendHop]

@[simp] theorem State.testEntry_mem (c cls i : Nat) (e : RunEntry) : (s.testEntry c cls i e).mem = s.mem := by
  unfold State.testEntry
  split <;> simp

theorem execHopAccept_canonical (h : Hop) (hs : s.mem.wf = true) : Canonical (execHopAccept h s) := by
  unfold execHopAccept
  grind [canonical_next, State.pushAll_mem, State.setRun_mem, State.arrived_mem]

theorem State.startEntry_wf (tile : Nat) (e : RunEntry) (hs : s.mem.wf = true) :
    ∀ u, s.startEntry tile e = some u → u.mem.wf = true := by
  unfold State.startEntry
  grind [State.startGroup_wf, State.startTask_wf]

theorem State.firstFit_wf {tile : Nat} {v : List (RunEntry × Nat)} {p : RunEntry × Nat × State} (hs : s.mem.wf = true)
    (h : s.firstFit tile v = some p) : p.2.2.mem.wf = true := by
  obtain ⟨e, -, he⟩ := List.exists_of_findSome?_eq_some h
  split at he
  · cases he
  · obtain ⟨t, ht, rfl⟩ := Option.map_eq_some_iff.mp he
    exact State.startEntry_wf _ _ hs t ht

theorem State.choose_wf {tile : Nat} {cs : List Nat} {passed : List (Nat × RunEntry)} {k : Chosen} (hs : s.mem.wf = true)
    (h : s.choose tile cs passed = some k) : k.state.mem.wf = true := by
  induction cs generalizing passed with
  | nil => cases h
  | cons c t ih =>
    simp only [State.choose] at h
    split at h
    · next hf => cases h; exact State.firstFit_wf hs hf
    · exact ih h

@[simp] theorem State.passHeadOver_mem (tile : Nat) (p : Nat × RunEntry) : (s.passHeadOver tile p).mem = s.mem := by
  simp [State.passHeadOver]

@[simp] theorem State.served_mem (c cls i : Nat) (e : RunEntry) : (s.served c cls i e).mem = s.mem := rfl

theorem State.decideTile_wf (tile : Nat) (hs : s.mem.wf = true) : ∀ u, s.decideTile tile = some u → u.mem.wf = true := by
  intro u h
  simp only [State.decideTile] at h
  split at h
  · cases h; exact hs
  · obtain ⟨k, hk, rfl⟩ := Option.map_eq_some_iff.mp h
    exact wf_foldl _ _ _ (by simpa using State.choose_wf hs hk) fun s p hs => by simpa using hs

theorem State.drainStep_wf (tile : Nat) (d : RunEntry) (hs : s.mem.wf = true) :
    ∀ u, s.drainStep tile d = some u → u.mem.wf = true := by
  intro u h
  simp only [State.drainStep] at h
  split at h
  · cases h; exact hs
  · obtain ⟨t, ht, rfl⟩ := Option.map_eq_some_iff.mp h
    simpa using State.startEntry_wf _ _ hs t ht

theorem State.tileHandler_wf (tile : Nat) (hs : s.mem.wf = true) : ∀ u, s.tileHandler tile = some u → u.mem.wf = true := by
  intro u h
  obtain ⟨e, -, he⟩ := List.exists_of_findSome?_eq_some h
  grind [State.tryHandler_mem]

theorem execDispatchDecision_canonical (tile : Nat) (hs : s.mem.wf = true) : Canonical (execDispatchDecision tile s) := by
  unfold execDispatchDecision
  grind [canonical_next, State.pushNext_mem, State.push_mem, State.testEntry_mem, State.tileHandler_wf, State.drainStep_wf,
    State.decideTile_wf]

/-! ### Machine/Recovery -/

@[simp] theorem State.lifeCount_mem (off : Nat) : (s.lifeCount off).mem = s.mem := rfl

@[simp] theorem State.flintCount_mem (c : Nat) : (s.flintCount c).mem = s.mem := rfl

@[simp] theorem State.dropClean_mem (unit index c k : Nat) : (s.dropClean unit index c k).mem = s.mem := by
  simp [State.dropClean]

theorem execCorrectableError_canonical (e : ErrorSite) (hs : s.mem.wf = true) : Canonical (execCorrectableError e s) := by
  unfold execCorrectableError
  split <;> simp [hs]

theorem State.reportError_wf (e : ErrorSite) (hs : s.mem.wf = true) : (s.reportError e).mem.wf = true := by
  simp [State.reportError, hs]

@[simp] theorem State.countSram_mem (c : Nat) : (s.countSram c).mem = s.mem := by
  simp [State.countSram]

@[simp] theorem State.loseDirty_mem (c key : Nat) : (s.loseDirty c key).mem = s.mem := rfl

theorem State.checkFailed_wf (e : ErrorSite) (hs : s.mem.wf = true) : (s.checkFailed e).mem.wf = true := by
  unfold State.checkFailed
  grind [State.modSlot_mem, State.push_mem, State.record_wf]

theorem execUncorrectableError_canonical (e : ErrorSite) (hs : s.mem.wf = true) : Canonical (execUncorrectableError e s) := by
  unfold execUncorrectableError
  grind [canonical_next, State.modSlot_mem, State.push_mem, State.pushAll_mem, execCorrectableError_canonical,
    State.reportError_wf, State.countSram_mem, State.loseDirty_mem, State.checkFailed_wf]

theorem execScrubPass_canonical (key : Nat) (hs : s.mem.wf = true) : Canonical (execScrubPass key s) := by
  simp [execScrubPass, hs]

theorem execErrheal_canonical (v : Word) (hs : s.mem.wf = true) : Canonical (execErrheal v s) := by
  unfold execErrheal
  grind [canonical_next, State.homeApply_wf]

@[simp] theorem State.setFstat_mem (x i v : Nat) : (s.setFstat x i v).mem = s.mem := rfl

@[simp] theorem State.answerWaits_mem (x : Nat) (rect : Nat → Bool) : (s.answerWaits x rect).mem = s.mem := by
  simp [State.answerWaits]

theorem State.dropEntry_wf (e : RunEntry) (hs : s.mem.wf = true) : (s.dropEntry e).mem.wf = true := by
  unfold State.dropEntry
  grind [State.abandon_wf, State.abandonLaunch_wf, State.reapLaunch_mem, State.modLaunch_mem, State.freePool_mem]

theorem State.unbindIn_wf (x : Nat) (rect : Nat → Bool) (hs : s.mem.wf = true) : (s.unbindIn x rect).mem.wf = true := by
  unfold State.unbindIn
  grind [State.unbind_wf, wf_foldl]

theorem State.performAccess_wf (e : Event) (hs : s.mem.wf = true) : (s.performAccess e).mem.wf = true := by
  unfold State.performAccess
  extract_lets s1 r
  have h1 : s1.mem.wf = true := hs
  have hr : Canonical r := by
    clear_value s1
    simp only [r]
    split
    · exact execSliceRead_canonical _ _ h1
    · exact execHomeAtomic_canonical _ h1
    · exact execCounterAddAtHome_canonical _ h1
    · exact (canonical_next s).2 hs
  clear_value r
  split
  · next t => exact hr t rfl
  · exact hs

theorem State.finishInside_wf (x : Nat) (rect : Nat → Bool) (hs : s.mem.wf = true) :
    (s.finishInside x rect).mem.wf = true := by
  unfold State.finishInside
  grind [State.performAccess_wf, wf_foldl]

theorem State.resetIn_wf (x : Nat) (rect : Nat → Bool) (hs : s.mem.wf = true) : (s.resetIn x rect).mem.wf = true := by
  unfold State.resetIn
  extract_lets mine s1 s2 owned s3
  have h2 : s2.mem.wf = true := wf_foldl _ _ _ hs fun s t hs => State.zeroTile_wf _ _ hs
  exact List.foldlRecOn (motive := fun m => Memory.wf m = true) _ _ h2 fun m hm e _ => wf_zeroRange _ _ _ hm

@[simp] theorem State.leaveWaits_mem (x : Nat) (rect : Nat → Bool) : (s.leaveWaits x rect).mem = s.mem := rfl

theorem State.fenceSteps_wf (x i kind : Nat) (hs : s.mem.wf = true) : (s.fenceSteps x i kind).mem.wf = true := by
  unfold State.fenceSteps
  extract_lets rect qs here hops es waiting s1 s2 s3 s4 s5 s6
  have h2 : s2.mem.wf = true := State.unbindIn_wf x rect (by simpa using hs)
  have h3 : s3.mem.wf = true := wf_foldl _ _ _ h2 fun s e hs => State.dropEntry_wf _ hs
  have h4 : s4.mem.wf = true := wf_foldl _ _ _ h3 fun s e hs => State.discardTask_wf _ _ _ hs
  have h5 : s5.mem.wf = true := wf_foldl _ _ _ h4 fun s q hs => State.discardSlot_wf _ _ hs
  have h6 : s6.mem.wf = true := by simpa [s6] using State.resetIn_wf x rect h5
  exact State.notice_wf _ _ _ (State.record_wf _ _ (by simpa using h6))

theorem execCalderaFence_canonical (x i kind : Nat) (hs : s.mem.wf = true) : Canonical (execCalderaFence x i kind s) := by
  unfold execCalderaFence
  grind [canonical_next, State.push_mem, State.setFstat_mem, State.finishInside_wf, State.fenceSteps_wf]

theorem execFcmdFence_canonical (x i : Nat) (hs : s.mem.wf = true) : Canonical (execFcmdFence x i s) := by
  unfold execFcmdFence
  grind [execCalderaFence_canonical]

theorem execFcmdRestart_canonical (x i : Nat) (hs : s.mem.wf = true) : Canonical (execFcmdRestart x i s) := by
  unfold execFcmdRestart
  split <;> simp [hs]

@[simp] theorem State.placeProxy_mem (d : Nat) : (s.placeProxy d).mem = s.mem := by
  unfold State.placeProxy
  split <;> simp

theorem State.moveProxy_wf (c : Nat) (hs : s.mem.wf = true) : (s.moveProxy c).mem.wf = true := by
  unfold State.moveProxy
  grind [State.setSlot_mem, State.proxyRefused_wf, State.placeProxy_mem, wf_foldl]

theorem execClusterFence_canonical (c : Nat) (hs : s.mem.wf = true) : Canonical (execClusterFence c s) := by
  unfold execClusterFence
  grind [canonical_next, State.setReg_mem, State.pushAll_mem, State.record_wf, State.notice_wf, State.moveProxy_wf]

theorem State.mirror_wf (q : Nat) (w : InstrWord) (x : Slot) (hs : s.mem.wf = true) : (s.mirror q w x).mem.wf = true := by
  unfold State.mirror
  grind [State.pairItem_mem]

theorem execLockstepCompare_canonical (q : Nat) (hs : s.mem.wf = true) : Canonical (execLockstepCompare q s) := by
  unfold execLockstepCompare
  grind [canonical_next, State.modSlot_mem, State.record_wf, State.fenceFor_mem]

theorem State.commitGranule_wf (x g : Nat) (hs : s.mem.wf = true) : (s.commitGranule x g).1.mem.wf = true := by
  unfold State.commitGranule
  simp only [State.recheck_mem, State.stampRun_mem]
  exact List.foldlRecOn (motive := fun m => Memory.wf m = true) _ _ (wf_zeroRange _ _ _ hs) fun m hm e _ => wf_write _ _ _ hm

theorem execShadowCommit_canonical (x : Nat) (hs : s.mem.wf = true) : Canonical (execShadowCommit x s) := by
  unfold execShadowCommit
  extract_lets copy both setA setB a b s1 good none s2 s3
  have h1 : s1.mem.wf = true := by simpa [s1] using hs
  have h2 : s2.mem.wf = true := by
    clear_value s1
    simp only [s2]
    split
    · have hc := wf_foldlFst (fun (p : State × Nat) g => ((p.1.commitGranule x g).1, max p.2 (p.1.commitGranule x g).2))
        setA.granules (s1, 0) h1 fun p g hp => State.commitGranule_wf x g hp
      cases both.head? with
      | none => exact hc
      | some e => exact State.addDone_wf _ _ hc
    · exact State.record_wf _ _ (wf_foldl _ _ _ h1 fun s e hs => State.abandonLaunch_wf _ _ hs)
  have h3 : s3.mem.wf = true := wf_foldl _ _ _ h2 fun s e hs => by simpa using hs
  split
  · exact (canonical_next s).2 hs
  · exact (canonical_next _).2 h3

/-! ### Machine/Boot -/

@[simp] theorem State.setBoot_mem (stage fail : Nat) (ready : Bool) : (s.setBoot stage fail ready).mem = s.mem := rfl

@[simp] theorem State.bootFail_mem (stage fail : Nat) : (s.bootFail stage fail).mem = s.mem := by
  simp [State.bootFail]

@[simp] theorem State.bootNext_mem (stage : Nat) : (s.bootNext stage).mem = s.mem := rfl

@[simp] theorem State.loadFirmware_mem : s.loadFirmware.mem = s.mem := by
  unfold State.loadFirmware
  split
  · simp
  · split <;> simp

@[simp] theorem State.loadConfig_mem : s.loadConfig.mem = s.mem := by
  unfold State.loadConfig
  split
  · simp
  · split <;> simp

theorem State.selfTest_wf (hs : s.mem.wf = true) : s.selfTest.mem.wf = true := by
  unfold State.selfTest
  grind [State.setReg_mem, State.record_wf, State.bootNext_mem, wf_foldl]

@[simp] theorem State.bootReady_mem : s.bootReady.mem = s.mem := by
  simp [State.bootReady]

theorem State.trainPorts_wf (hs : s.mem.wf = true) : s.trainPorts.mem.wf = true :=
  wf_foldl _ _ _ hs fun s p hs => by
    have h := execPortUp_canonical p.1 p.2.1 p.2.2 hs
    split
    · next e => exact h _ e
    · exact hs

theorem execBootStage_canonical (n : Nat) (hs : s.mem.wf = true) : Canonical (execBootStage n s) := by
  unfold execBootStage
  dsimp only
  split
  · simpa using hs
  split
  · split <;> simpa using hs
  · simpa using hs
  · simpa using hs
  · simpa using hs
  · exact (canonical_next _).2 (State.selfTest_wf hs)
  · simpa using Memory.wf_filter s.mem _ hs
  · exact (canonical_next _).2 (State.notice_wf _ _ _ (by simpa using State.trainPorts_wf hs))
  · simpa using hs
  · simpa using hs

theorem State.restarted_wf : s.restarted.mem.wf = true := Memory.wf_nil

theorem execPowerOn_canonical : Canonical (execPowerOn s) := by
  unfold execPowerOn
  grind [canonical_next, State.lifeCount_mem, State.restarted_wf]

theorem execPackageReset_canonical : Canonical (execPackageReset s) := by
  unfold execPackageReset
  grind [canonical_next, State.restarted_wf]

theorem execUcieLinkDown_canonical (m : Nat) (hs : s.mem.wf = true) : Canonical (execUcieLinkDown m s) := by
  simp [execUcieLinkDown, hs]

theorem execUcieLinkUp_canonical (m : Nat) (hs : s.mem.wf = true) : Canonical (execUcieLinkUp m s) := by
  simp [execUcieLinkUp, hs]

/-! ### Machine/Cb -/

theorem cbInstr_canonical {i : Instr} {a : BitVec 5} {h : BitVec 4} {n : BitVec 9} {producer : Bool} {limit : CbInst → Nat}
    {body : Nat → CbInst → Nat → State → Result} (hs : s.mem.wf = true)
    (hb : ∀ q c k s, s.mem.wf = true → Canonical (body q c k s)) : Canonical (cbInstr i a h n producer limit body s) :=
  issue_canonical hs fun q s hs => by
    grind [canonical_next, State.trapOpen_wf]

theorem cbWait_canonical (q : Nat) (w : WaitInfo) (pts : Nat) (hs : s.mem.wf = true) : Canonical (cbWait q w pts s) := by
  unfold cbWait
  split <;> simp [hs]

theorem cbAdvance_canonical (i : Instr) (q : Nat) (c : CbInst) (producer : Bool) (k : Nat) (hs : s.mem.wf = true) :
    Canonical (cbAdvance i q c producer k s) := by
  unfold cbAdvance
  grind [canonical_next, State.modSlot_mem, State.trapOpen_wf, State.drainThread_wf, State.nakTrap_wf, State.cbProduce_wf,
    State.cbConsume_wf]

theorem execCbwp_canonical (a : BitVec 5) (h : BitVec 4) (n : BitVec 9) (hs : s.mem.wf = true) :
    Canonical (execCbwp a h n s) :=
  cbInstr_canonical hs fun q c k s hs => by
    grind [cbWait_canonical]

theorem execCbwc_canonical (a : BitVec 5) (h : BitVec 4) (n : BitVec 9) (hs : s.mem.wf = true) :
    Canonical (execCbwc a h n s) :=
  cbInstr_canonical hs fun q c k s hs => by
    grind [cbWait_canonical]

theorem execCbap_canonical (a : BitVec 5) (h : BitVec 4) (n : BitVec 9) (hs : s.mem.wf = true) :
    Canonical (execCbap a h n s) :=
  cbInstr_canonical hs fun q c k s hs => by
    grind [cbAdvance_canonical]

theorem execCbac_canonical (a : BitVec 5) (h : BitVec 4) (n : BitVec 9) (hs : s.mem.wf = true) :
    Canonical (execCbac a h n s) :=
  cbInstr_canonical hs fun q c k s hs => by
    grind [cbAdvance_canonical]

theorem execCbstat_canonical (d : BitVec 5) (h : BitVec 4) (hs : s.mem.wf = true) : Canonical (execCbstat d h s) :=
  issue_canonical hs fun q s hs => by
    grind [canonical_next, State.trapOpen_wf, canonical_complete]

theorem execMark_canonical (h : BitVec 4) (hs : s.mem.wf = true) : Canonical (execMark h s) :=
  issue_canonical hs fun q s hs => by
    grind [canonical_next, State.modSlot_mem, State.trapOpen_wf, State.markCb_mem, State.wakeCbs_wf]

theorem execMwait_canonical (a : BitVec 5) (hs : s.mem.wf = true) : Canonical (execMwait a s) :=
  issue_canonical hs fun q s hs => by
    grind [canonical_next, State.modSlot_mem, State.trapOpen_wf, State.consumeMarkers_mem, State.wakeCbs_wf]

theorem execCbFillComplete_canonical (k : CbKey) (n : Nat) (hs : s.mem.wf = true) : Canonical (execCbFillComplete k n s) := by
  unfold execCbFillComplete
  grind [canonical_next, State.cbFill_wf]

theorem execChannelSlotArrival_canonical (k : CbKey) (x : ChanItem) (hs : s.mem.wf = true) :
    Canonical (execChannelSlotArrival k x s) := by
  unfold execChannelSlotArrival
  grind [canonical_next, State.setCb_mem, State.wakeCbs_wf, landItems_wf]

theorem execChannelCreditArrival_canonical (k : CbKey) (n : Nat) (hs : s.mem.wf = true) :
    Canonical (execChannelCreditArrival k n s) := by
  unfold execChannelCreditArrival
  grind [canonical_next, State.push_mem, State.setCb_mem, State.wakeCbs_wf]

/-! ### Machine/Control -/

theorem branchOp_canonical {i : Instr} {a b : BitVec 5} {o : BitVec 16} {cond : Word → Word → Bool} (hs : s.mem.wf = true) :
    Canonical (branchOp i a b o cond s) :=
  issue_canonical hs fun q s hs => by simp [hs]

theorem jumpOp_canonical (i : Instr) (link a : BitVec 5) (hs : s.mem.wf = true) : Canonical (jumpOp i link a s) :=
  issue_canonical hs fun q s hs => by
    grind [canonical_next, State.setSlot_mem, State.trapAt_wf]

/-! ### Machine/EngineArgs -/

theorem engIll_wf {α : Type} (hs : s.mem.wf = true) : (engIll s : Eng α).1.mem.wf = true := hs

theorem engMust_wf {α : Type} (c : Bool) {k : State → Eng α} (hs : s.mem.wf = true)
    (hk : ∀ s, s.mem.wf = true → (k s).1.mem.wf = true) : (engMust c s k).1.mem.wf = true := by
  unfold engMust
  split
  · exact hk s hs
  · exact hs

theorem engPeer_wf {α : Type} (c : CbInst) {k : State → Eng α} (hs : s.mem.wf = true)
    (hk : ∀ s, s.mem.wf = true → (k s).1.mem.wf = true) : (engPeer c s k).1.mem.wf = true := by
  unfold engPeer
  split
  · exact hs
  · exact hk s hs

theorem engCb_wf {α : Type} (c : Bool) {k : State → Eng α} (hs : s.mem.wf = true)
    (hk : ∀ s, s.mem.wf = true → (k s).1.mem.wf = true) : (engCb c s k).1.mem.wf = true := by
  unfold engCb
  split
  · exact hk s hs
  · exact hs

theorem tidFault_wf {α : Type} (q tid : Nat) (f : XFault) (hs : s.mem.wf = true) :
    (tidFault s q tid f : Eng α).1.mem.wf = true := by
  unfold tidFault
  split <;> exact hs

theorem engTid_wf (q tid : Nat) {r : State × (Except XFault (List Word))} (hr : r.1.mem.wf = true) :
    (engTid q tid r).1.mem.wf = true := by
  unfold engTid
  split
  · exact hr
  · exact tidFault_wf _ _ _ hr

theorem slotSource_wf (q h k : Nat) (mark : Bool) (t : TileForm) (hs : s.mem.wf = true) :
    (slotSource q h k mark t s).1.mem.wf = true := by
  unfold slotSource
  grind [engOpen_mem, engPeer_wf, engCb_wf]

theorem slotDest_wf (q h k need : Nat) (t : TileForm) (hs : s.mem.wf = true) : (slotDest q h k need t s).1.mem.wf = true := by
  unfold slotDest
  grind [engOpen_mem, engPeer_wf, engCb_wf]

theorem sourceArg_wf (q : Nat) (re : RingEntry) (ref : Word) (mark : Bool) (t : TileForm) (hs : s.mem.wf = true) :
    (sourceArg q re ref mark t s).1.mem.wf = true := by
  unfold sourceArg
  grind [engIll_wf, engMust_wf, slotSource_wf]

theorem destArg_wf (q : Nat) (re : RingEntry) (ref : Word) (t : TileForm) (hs : s.mem.wf = true) :
    (destArg q re ref t s).1.mem.wf = true := by
  unfold destArg
  grind [engOpen_mem, engIll_wf, engMust_wf, slotDest_wf]

theorem sourceIx_wf {α : Type} (k : CbKey) (off : Nat) {f : State → CbInst → Nat → Eng α} (hs : s.mem.wf = true)
    (hf : ∀ s c ix, s.mem.wf = true → (f s c ix).1.mem.wf = true) : (sourceIx k off s f).1.mem.wf = true := by
  unfold sourceIx
  split
  · exact hs
  · exact engCb_wf _ hs fun s hs => hf _ _ _ hs

theorem EngArg.capture_wf (q : Nat) (re : RingEntry) (a : EngArg) (hs : s.mem.wf = true) :
    (EngArg.capture q re a s).1.mem.wf = true := by
  unfold EngArg.capture
  grind [captureSlot_wf, captureTensor_wf, sourceIx_wf]

theorem engScale_wf {α : Type} (n : Nat) (hs : s.mem.wf = true) : (engScale s n : Eng α).1.mem.wf = true := hs

/-! ### Machine/Matrix -/

theorem mmArgs_wf (q : Nat) (e : RingEntry) (hs : s.mem.wf = true) : (mmArgs q e s).1.mem.wf = true := by
  unfold mmArgs
  grind [engThen_wf, engMust_wf, sourceArg_wf]

theorem mmGather_wf (q : Nat) (e : RingEntry) (hs : s.mem.wf = true) : (mmGather q e s).1.mem.wf = true := by
  unfold mmGather
  grind [slotSource_wf]

theorem mmRoute_wf (q : Nat) (e : RingEntry) (need : Nat) (hs : s.mem.wf = true) : (mmRoute q e need s).1.mem.wf = true := by
  unfold mmRoute
  grind [engOpen_mem, engPeer_wf, engCb_wf]

theorem mmAccept_wf (q : Nat) (e : RingEntry) (hs : s.mem.wf = true) : (mmAccept q e s).1.mem.wf = true := by
  unfold mmAccept
  grind [engThen_wf, engMust_wf, sourceArg_wf, destArg_wf, mmArgs_wf, mmGather_wf, mmRoute_wf]

theorem mmGathered_wf (q : Nat) (e : RingEntry) (a : EngArg) (hs : s.mem.wf = true) :
    (mmGathered q e a s).1.mem.wf = true := by
  unfold mmGathered
  grind [engThen_wf, captureTensor_wf, engIll_wf, EngArg.capture_wf, mmGather_wf]

theorem mmForward_wf (q : Nat) (e : RingEntry) (b : Captured) (hs : s.mem.wf = true) : (mmForward q e b s).mem.wf = true := by
  unfold mmForward
  grind [State.bulkWrite_wf, State.cbFill_wf, wf_foldl]

theorem mmRows_wf (c : Captured) (hs : s.mem.wf = true) : (mmRows c s).1.mem.wf = true := by
  unfold mmRows
  grind [engScale_wf]

theorem mmCapture_wf (q : Nat) (e : RingEntry) (hs : s.mem.wf = true) : (mmCapture q e s).1.mem.wf = true := by
  unfold mmCapture
  grind [engThen_wf, engMust_wf, engCb_wf, EngArg.capture_wf, EngArg.free_wf, mmArgs_wf, mmGathered_wf, mmForward_wf,
    mmRows_wf]

theorem mldCapture_wf (q : Nat) (e : RingEntry) (hs : s.mem.wf = true) : (mldCapture q e s).1.mem.wf = true := by
  unfold mldCapture
  grind [engThen_wf, sourceArg_wf, EngArg.capture_wf, EngArg.free_wf]

theorem mstCapture_wf (q : Nat) (e : RingEntry) (hs : s.mem.wf = true) : (mstCapture q e s).1.mem.wf = true := by
  unfold mstCapture
  grind [engThen_wf, destArg_wf]

theorem matrixCapture_wf (q : Nat) (e : RingEntry) (hs : s.mem.wf = true) : (matrixCapture q e s).1.mem.wf = true := by
  unfold matrixCapture
  grind [engOpen_mem, mmCapture_wf, mldCapture_wf, mstCapture_wf]

/-! ### Machine/Convert -/

theorem cvArgs_wf (q : Nat) (e : RingEntry) (hs : s.mem.wf = true) : (cvArgs q e s).1.mem.wf = true := by
  unfold cvArgs
  grind [engThen_wf, engMust_wf, sourceArg_wf, destArg_wf]

theorem cvAccept_wf (q : Nat) (e : RingEntry) (hs : s.mem.wf = true) : (cvAccept q e s).1.mem.wf = true := by
  unfold cvAccept
  grind [engThen_wf, cvArgs_wf]

theorem heldScales_wf (q : Nat) (re : RingEntry) (a : EngArg) (hs : s.mem.wf = true) :
    (heldScales q re a s).1.mem.wf = true := by
  unfold heldScales
  grind [engThen_wf, engEach_wf, captureScale_wf]

theorem cvElements_wf (e : RingEntry) (a b : EngArg) (c : Captured) (hs : s.mem.wf = true) :
    (cvElements e a b c s).1.mem.wf = true := by
  unfold cvElements
  grind [engOpen_mem, engScale_wf]

theorem convertCapture_wf (q : Nat) (e : RingEntry) (hs : s.mem.wf = true) : (convertCapture q e s).1.mem.wf = true := by
  unfold convertCapture
  grind [engThen_wf, EngArg.capture_wf, EngArg.free_wf, engScale_wf, cvArgs_wf, heldScales_wf, cvElements_wf]

/-! ### Machine/Key -/

theorem slotRefSource_wf (q : Nat) (ref : Word) (t : TileForm) (hs : s.mem.wf = true) :
    (slotRefSource q ref t s).1.mem.wf = true := by
  unfold slotRefSource
  grind [engIll_wf, slotSource_wf]

theorem slotRefDest_wf (q : Nat) (ref : Word) (n : Nat) (hs : s.mem.wf = true) : (slotRefDest q ref n s).1.mem.wf = true := by
  unfold slotRefDest
  grind [engIll_wf, slotDest_wf]

@[simp] theorem keyRegister_mem (x tid : Nat) (w : List Word) : (keyRegister x tid w s).1.mem = s.mem := by
  unfold keyRegister
  split
  · simp
  · split <;> simp

theorem kQuery_wf (q : Nat) (e : RingEntry) (hs : s.mem.wf = true) : (kQuery q e s).1.mem.wf = true := by
  unfold kQuery
  grind [engMust_wf, sourceArg_wf]

theorem keyAccept_wf (q : Nat) (e : RingEntry) (hs : s.mem.wf = true) : (keyAccept q e s).1.mem.wf = true := by
  unfold keyAccept
  grind [engThen_wf, engOpen_mem, engMust_wf, slotRefSource_wf, slotRefDest_wf, kQuery_wf]

theorem kbndOne_wf (q : Nat) (e : RingEntry) (qs : List Val) (pg : Nat) (hs : s.mem.wf = true) :
    (kbndOne q e qs s pg).1.mem.wf = true := by
  unfold kbndOne
  grind [engThen_wf, engReadWhole_wf]

theorem kbndCapture_wf (q : Nat) (e : RingEntry) (hs : s.mem.wf = true) : (kbndCapture q e s).1.mem.wf = true := by
  unfold kbndCapture
  grind [engThen_wf, engEach_wf, EngArg.capture_wf, kQuery_wf, kbndOne_wf]

theorem kselCapture_wf (q : Nat) (e : RingEntry) (hs : s.mem.wf = true) : (kselCapture q e s).1.mem.wf = true := by
  unfold kselCapture
  grind [engThen_wf, EngArg.capture_wf, slotRefSource_wf, slotRefDest_wf]

theorem pageRows_wf (q : Nat) (e : RingEntry) (pg : Nat) (hs : s.mem.wf = true) : (pageRows q e pg s).1.mem.wf = true := by
  unfold pageRows
  grind [engThen_wf, engEach_wf, engRead_wf]

theorem krstCapture_wf (q : Nat) (e : RingEntry) (hs : s.mem.wf = true) : (krstCapture q e s).1.mem.wf = true := by
  unfold krstCapture
  grind [engThen_wf, engEach_wf, keyRegister_mem, pageRows_wf]

theorem keyCapture_wf (q : Nat) (e : RingEntry) (hs : s.mem.wf = true) : (keyCapture q e s).1.mem.wf = true := by
  unfold keyCapture
  grind [kbndCapture_wf, kselCapture_wf, krstCapture_wf]

/-! ### Machine/Twe -/

theorem engCounter_wf (q : Nat) (re : RingEntry) (v : Word) (hs : s.mem.wf = true) :
    (engCounter q re v s).1.mem.wf = true := by
  unfold engCounter
  grind [counterLoc_wf]

theorem twTile_wf (e : RingEntry) (hs : s.mem.wf = true) : (twTile e s).1.mem.wf = true := by
  unfold twTile
  grind [engIll_wf, engMust_wf]

theorem twPeer_wf (q h need : Nat) (tile : Nat) (hs : s.mem.wf = true) : (twPeer q h need s tile).1.mem.wf = true := by
  unfold twPeer
  grind [engOpen_mem, engPeer_wf, engCb_wf]

theorem twAccept_wf (q : Nat) (e : RingEntry) (hs : s.mem.wf = true) : (twAccept q e s).1.mem.wf = true := by
  unfold twAccept
  grind [engThen_wf, engEach_wf, engOpen_mem, engMust_wf, engCb_wf, slotSource_wf, slotDest_wf, engCounter_wf, twTile_wf,
    twPeer_wf]

theorem tweCapture_wf (q : Nat) (e : RingEntry) (hs : s.mem.wf = true) : (tweCapture q e s).1.mem.wf = true := by
  unfold tweCapture
  grind [engThen_wf, slotSource_wf, EngArg.capture_wf, EngArg.free_wf, twTile_wf]

theorem sgArgs_wf (q : Nat) (e : RingEntry) (hs : s.mem.wf = true) : (sgArgs q e s).1.mem.wf = true := by
  unfold sgArgs
  grind [engThen_wf, engIll_wf, slotSource_wf, slotDest_wf]

theorem sgAccept_wf (q : Nat) (e : RingEntry) (hs : s.mem.wf = true) : (sgAccept q e s).1.mem.wf = true := by
  unfold sgAccept
  grind [resolve_wf, engThen_wf, engMust_wf, engCounter_wf, sgArgs_wf]

theorem sgCheck_wf (q : Nat) (e : RingEntry) (pg : Nat) (hs : s.mem.wf = true) : (sgCheck q e s pg).1.mem.wf = true := by
  unfold sgCheck
  grind [resolve_wf, engThen_wf, engEach_wf, engBad_mem]

theorem sguCapture_wf (q : Nat) (e : RingEntry) (hs : s.mem.wf = true) : (sguCapture q e s).1.mem.wf = true := by
  refine engThen_wf _ _ (sgArgs_wf q e hs) fun s p hs => ?_
  split
  · refine sourceIx_wf _ _ hs fun s c ix hs => engThen_wf _ _ (by simpa using hs) fun s bs hs => ?_
    exact engCb_wf _ hs fun s hs =>
      engThen_wf _ _ (engEach_wf _ _ _ hs fun s pg hs => sgCheck_wf _ _ _ hs) fun s _ hs => hs
  · exact hs

theorem sguPage_wf (q : Nat) (e : RingEntry) (pg : Nat) (hs : s.mem.wf = true) : (sguPage q e pg s).1.mem.wf = true := by
  unfold sguPage
  grind [State.detect_mem, State.bulkWrite_wf, State.cbPermitTake_mem, State.cbFill_wf, engThen_wf, engOpen_mem, engRead_wf,
    engIll_wf, engMust_wf, sgArgs_wf]

theorem sguEnd_wf (q : Nat) (e : RingEntry) (hs : s.mem.wf = true) : (sguEnd q e s).1.mem.wf = true := by
  unfold sguEnd
  grind [State.cbConsume_wf, engOpen_mem, engCb_wf]

theorem rangeCheck_wf (q : Nat) (e : RingEntry) (va : Word) (n : Nat) (a : Access) (hs : s.mem.wf = true) :
    (rangeCheck q e va n a s).1.mem.wf = true := by
  unfold rangeCheck
  grind [resolve_wf, engThen_wf, engEach_wf]

theorem copyAccept_wf (q : Nat) (e : RingEntry) (hs : s.mem.wf = true) : (copyAccept q e s).1.mem.wf = true := by
  unfold copyAccept
  grind [engThen_wf, engMust_wf, engCounter_wf, rangeCheck_wf]

theorem copyStep_wf (q n : Nat) (e : RingEntry) (hs : s.mem.wf = true) : (copyStep q n e s).1.mem.wf = true := by
  unfold copyStep
  grind [engThen_wf, engRead_wf, engWrite_wf]

theorem copyCapture_wf (q : Nat) (e : RingEntry) (hs : s.mem.wf = true) : (copyCapture q e s).1.mem.wf = true := by
  unfold copyCapture
  grind [engThen_wf, engRead_wf]

/-! ### Machine/Engine -/

theorem dispatchThen_canonical {i : Instr} {a b : BitVec 5} {next : Nat → Nat → State → State} (hs : s.mem.wf = true)
    (hn : ∀ q n s, s.mem.wf = true → (next q n s).mem.wf = true) : Canonical (dispatchThen i a b next s) :=
  issue_canonical hs fun q s hs => by
    grind [canonical_next, State.askLine_mem, State.modSlot_mem, State.useId_mem]

theorem dispatchCmd_canonical {i : Instr} {a b : BitVec 5} {next : Nat → Nat → Event} (hs : s.mem.wf = true) :
    Canonical (dispatchCmd i a b next s) :=
  dispatchThen_canonical hs fun _ _ _ hs => hs

theorem execEset_canonical (a : BitVec 5) (e : BitVec 4) (r : BitVec 8) (k : BitVec 4) (hs : s.mem.wf = true) :
    Canonical (execEset a e r k s) :=
  issue_canonical hs fun q s hs => by
    grind [canonical_next, canonical_complete]

@[simp] theorem State.egetDone_mem (q : Nat) (e : RingEntry) : (s.egetDone q e).mem = s.mem := rfl

theorem execEget_canonical (d : BitVec 5) (e : BitVec 4) (r : BitVec 8) (k : BitVec 4) (hs : s.mem.wf = true) :
    Canonical (execEget d e r k s) :=
  issue_canonical hs fun q s hs => by
    grind [canonical_next, State.modSlot_mem, State.push_mem, State.useId_mem, State.egetDone_mem]

theorem tableCmd_canonical {i : Instr} {a : BitVec 5} {body : Nat → Word → State → Option (Eng Unit)} (hs : s.mem.wf = true)
    (hb : ∀ q v s r, s.mem.wf = true → body q v s = some r → r.1.mem.wf = true) : Canonical (tableCmd i a body s) :=
  issue_canonical hs fun q s hs => by
    grind [canonical_next, canonical_complete, State.modSlot_mem, State.consume_wf, State.trapAt_wf]

theorem tableTid_wf (q : Nat) (v : Word) {k : State → Nat → Eng Unit} (hs : s.mem.wf = true)
    (hk : ∀ s n, s.mem.wf = true → (k s n).1.mem.wf = true) : (tableTid q v s k).1.mem.wf = true := by
  unfold tableTid
  grind [engIll_wf, engOpen_mem]

theorem tableLoad_wf (q tid : Nat) (hs : s.mem.wf = true) : (tableLoad q tid s).1.mem.wf = true := by
  unfold tableLoad
  grind [State.slotWords_wf]

@[simp] theorem State.tidChanged_mem (x : Nat) : (s.tidChanged x).mem = s.mem := rfl

theorem execTidld_canonical (a : BitVec 5) (hs : s.mem.wf = true) : Canonical (execTidld a s) :=
  tableCmd_canonical hs fun q v s r hs h => by
    grind [State.tidKeep_mem, State.drainThread_wf, engThen_wf, tableTid_wf, tableLoad_wf, State.tidChanged_mem]

theorem execTidinv_canonical (a : BitVec 5) (hs : s.mem.wf = true) : Canonical (execTidinv a s) :=
  tableCmd_canonical hs fun q v s r hs h => by
    grind [tableTid_wf, State.tidChanged_mem]

theorem execTcls_canonical (a : BitVec 5) (hs : s.mem.wf = true) : Canonical (execTcls a s) :=
  tableCmd_canonical hs fun q v s r hs h => by
    grind [State.setTcd_mem, State.drainThread_wf, engIll_wf, wf_foldl]

theorem captureTid_wf (q : Nat) (e : RingEntry) (tid : Nat) (hs : s.mem.wf = true) :
    (captureTid q e s tid).1.mem.wf = true := by
  unfold captureTid
  grind [resolve_wf, State.tidKeep_mem, State.tidHeld_mem, State.tidUse_wf, engTid_wf]

theorem engTests_wf (q : Nat) (e : RingEntry) (hs : s.mem.wf = true) : (engTests q e s).1.mem.wf = true := by
  unfold engTests
  grind [engThen_wf, mmAccept_wf, cvAccept_wf, keyAccept_wf, twAccept_wf, sgAccept_wf, copyAccept_wf]

theorem engAccept_wf (q : Nat) (e : RingEntry) (hs : s.mem.wf = true) : (engAccept q e s).1.mem.wf = true := by
  unfold engAccept
  grind [engThen_wf, engEach_wf, captureTid_wf, engTests_wf]

@[simp] theorem takePermits_mem (ks : List CbKey) (e : RingEntry) (s : State) : (takePermits ks e s).1.mem = s.mem := by
  induction ks generalizing e s with
  | nil => rfl
  | cons k t ih =>
    unfold takePermits
    grind [State.cbPermitTake_mem]

theorem State.engHalt_wf (q n : Nat) (h : EngStop) (again : Event) (hs : s.mem.wf = true) :
    (s.engHalt q n h again).mem.wf = true := by
  unfold State.engHalt
  grind [State.push_mem, State.engStop_mem, State.engFetch_wf]

@[simp] theorem State.queueWalk_mem (q n : Nat) : (s.queueWalk q n).mem = s.mem := rfl

theorem execCbPermit_canonical (q n : Nat) (hs : s.mem.wf = true) : Canonical (execCbPermit q n s) := by
  unfold execCbPermit
  grind [canonical_next, State.modSlot_mem, State.push_mem, State.drainThread_wf, engAccept_wf, takePermits_mem,
    State.engHalt_wf, State.queueWalk_mem]

theorem execCombiningRequest_canonical (r : CombineReq) (hs : s.mem.wf = true) : Canonical (execCombiningRequest r s) := by
  unfold execCombiningRequest
  grind [canonical_next, State.push_mem]

theorem engCapture_wf (q : Nat) (e : RingEntry) (hs : s.mem.wf = true) : (engCapture q e s).1.mem.wf = true := by
  unfold engCapture
  grind [matrixCapture_wf, convertCapture_wf, keyCapture_wf, tweCapture_wf, sguCapture_wf, copyCapture_wf]

@[simp] theorem State.engStaged_mem (q n : Nat) (o : EngOut) : (s.engStaged q n o).mem = s.mem := rfl

@[simp] theorem State.splitFetch_mem (f : Fetch) (out : List CombineReq) : (s.splitFetch f out).mem = s.mem := rfl

theorem State.mergedFetch_wf {s0 : State} (q n : Nat) (e0 : RingEntry) (f : Fetch) (hs0 : s0.mem.wf = true) :
    (s0.mergedFetch q n e0 f).mem.wf = true := by
  unfold State.mergedFetch
  grind [State.push_mem, State.drainThread_wf, engThen_wf, State.engSaw_mem, State.engStop_mem, EngArg.capture_wf,
    twTile_wf, State.engHalt_wf, State.engStaged_mem, State.splitFetch_mem, wf_foldl]

theorem execEngineCapture_canonical (q n : Nat) (hs : s.mem.wf = true) : Canonical (execEngineCapture q n s) := by
  unfold execEngineCapture
  grind [canonical_next, State.push_mem, State.drainThread_wf, State.engHalt_wf, engCapture_wf, State.engStaged_mem,
    State.mergedFetch_wf]

theorem execEngineResultPhase_canonical (q n : Nat) (hs : s.mem.wf = true) : Canonical (execEngineResultPhase q n s) := by
  unfold execEngineResultPhase
  grind [canonical_next, State.modSlot_mem, State.push_mem]

theorem State.engFinal_wf (q n : Nat) (e : RingEntry) (hs : s.mem.wf = true) : (s.engFinal q n e).mem.wf = true := by
  unfold State.engFinal
  grind [State.cbFill_wf, State.modSlot_mem, State.useId_mem, State.push_mem, wf_foldl]

theorem State.engWrites_wf (q n : Nat) (e : RingEntry) (hs : s.mem.wf = true) : (s.engWrites q n e).1.mem.wf = true := by
  unfold State.engWrites
  grind [State.pairItem_mem, engThen_wf, engWrite_wf]

theorem State.engClose_wf (q n : Nat) (e : RingEntry) (hs : s.mem.wf = true) : (s.engClose q n e).mem.wf = true := by
  unfold State.engClose
  grind [State.modSlot_mem, engCounter_wf, State.engHalt_wf, State.engFinal_wf]

theorem execEngineDone_canonical (q n : Nat) (hs : s.mem.wf = true) : Canonical (execEngineDone q n s) := by
  unfold execEngineDone
  grind [canonical_next, State.modSlot_mem, State.push_mem, sguPage_wf, sguEnd_wf, copyStep_wf, State.egetDone_mem,
    State.engHalt_wf, State.engWrites_wf, State.engClose_wf]

@[simp] theorem State.dropWalk_mem (k : Nat) : (s.dropWalk k).mem = s.mem := rfl

@[simp] theorem State.walkOver_mem (k : Nat) (w : Walk) (reason : Nat) (entry : Option (Nat × Nat)) :
    (s.walkOver k w reason entry).mem = s.mem := rfl

@[simp] theorem State.faultWalk_mem (q n : Nat) : (s.faultWalk q n).mem = s.mem := by
  unfold State.faultWalk
  split <;> simp

theorem execEngineFault_canonical (q n : Nat) (cause reason : BitVec 8) (tval : Word) (hs : s.mem.wf = true) :
    Canonical (execEngineFault q n cause reason tval s) := by
  unfold execEngineFault
  grind [canonical_next, State.modSlot_mem, State.push_mem, State.fenceFor_mem, State.faultWalk_mem]

theorem execTrapDelivery_canonical (q : Nat) (t : Trap) (hs : s.mem.wf = true) : Canonical (execTrapDelivery q t s) := by
  unfold execTrapDelivery
  grind [canonical_next, State.modSlot_mem, State.push_mem, State.deliver_wf, State.settleEmpty_wf]

/-! ### Machine/Fetch -/

theorem State.fetchNear_wf (q key : Nat) (hs : s.mem.wf = true) : (s.fetchNear q key).1.mem.wf = true := by
  unfold State.fetchNear
  grind [State.modSlot_mem, State.coin_mem]

theorem State.fetchFar_wf (q key p o : Nat) (hs : s.mem.wf = true) : (s.fetchFar q key p o).1.mem.wf = true := by
  unfold State.fetchFar
  grind [State.farSend_mem]

theorem State.fetchAt_wf (q : Nat) (pc : BitVec 57) (hs : s.mem.wf = true) : (s.fetchAt q pc).1.mem.wf = true := by
  unfold State.fetchAt
  grind [resolve_wf, State.detect_mem, State.regRead_mem, State.fetchNear_wf, State.fetchFar_wf]

theorem fetchBody_wf (q n : Nat) (pc : BitVec 57) (hs : s.mem.wf = true) : (fetchBody q n pc s).1.mem.wf = true := by
  induction n generalizing pc s with
  | zero => exact hs
  | succ n ih =>
    unfold fetchBody
    grind [State.fetchAt_wf]

theorem State.holdBody_wf (q : Nat) (hs : s.mem.wf = true) : (s.holdBody q).1.mem.wf = true := by
  unfold State.holdBody
  grind [State.modSlot_mem, fetchBody_wf]

theorem State.fetchSlot_wf (q : Nat) (hs : s.mem.wf = true) : (s.fetchSlot q).1.mem.wf = true := by
  unfold State.fetchSlot
  grind [State.fetchAt_wf, State.holdBody_wf]

theorem State.fetchFault_wf (q : Nat) (f : XFault) (hs : s.mem.wf = true) : (s.fetchFault q f).mem.wf = true := by
  unfold State.fetchFault
  grind [State.setSlot_mem, State.push_mem, State.fenceFor_mem, State.deliver_wf, State.openWord_mem]

theorem execIllegalInstruction_canonical (w : InstrWord) (hs : s.mem.wf = true) : Canonical (execIllegalInstruction w s) := by
  unfold execIllegalInstruction
  grind [canonical_next, canonical_fault, State.deliver_wf, State.openWord_mem]

/-! ### Machine/FlitIn -/

theorem State.serveWrite_wf (f : Flit) (hs : s.mem.wf = true) : (s.serveWrite f).mem.wf = true := by
  unfold State.serveWrite
  grind [State.detect_mem, State.homeApply_wf, State.answer_mem, State.nakFlit_mem]

@[simp] theorem State.serveRead_mem (f : Flit) : (s.serveRead f).mem = s.mem := by
  simp [State.serveRead]

theorem State.serveSum_wf (f : Flit) (hs : s.mem.wf = true) : (s.serveSum f).mem.wf = true := by
  simp [State.serveSum, hs]

theorem State.serveAtomic_wf (f : Flit) (hs : s.mem.wf = true) : (s.serveAtomic f).mem.wf = true := by
  unfold State.serveAtomic
  grind [State.detect_mem, State.addCounter_wf, State.answer_mem, State.rmwAt_wf, State.nibbleAt_wf, State.nakFlit_mem,
    State.serveSum_wf]

theorem State.takeHop_wf (f : Flit) (hs : s.mem.wf = true) : (s.takeHop f).mem.wf = true := by
  unfold State.takeHop
  grind [State.push_mem, State.setRun_mem, State.arrived_mem, State.answer_mem, State.nakFlit_mem, State.hubWords_wf,
    State.dropConst_mem, readDecls_wf]

@[simp] theorem State.hopTaken_mem (h : Hop) : (s.hopTaken h).mem = s.mem := by
  unfold State.hopTaken
  split <;> simp

@[simp] theorem State.hopReport_mem (f : Flit) : (s.hopReport f).mem = s.mem := by
  simp [State.hopReport]

@[simp] theorem State.peerReports_mem (f : Flit) : (s.peerReports f).mem = s.mem := rfl

@[simp] theorem State.serveGeyser_mem (p : Nat) (f : Flit) : (s.serveGeyser p f).mem = s.mem := by
  simp [State.serveGeyser]

theorem State.serveMessage_wf (p : Nat) (f : Flit) (hs : s.mem.wf = true) : (s.serveMessage p f).mem.wf = true := by
  unfold State.serveMessage
  grind [State.answer_mem, State.nakFlit_mem, State.takeHop_wf, State.hopReport_mem, State.peerReports_mem,
    State.serveGeyser_mem]

theorem State.takeAck_wf (f : Flit) (hs : s.mem.wf = true) : (s.takeAck f).mem.wf = true := by
  unfold State.takeAck
  grind [State.modSlot_mem, State.push_mem, State.orphanAnswered_mem, State.answerGroup_mem, State.farDone_mem,
    State.hopTaken_mem]

theorem State.farObserved_wf (q n : Nat) (polled : Bool) (f : Flit) (hs : s.mem.wf = true) :
    (s.farObserved q n polled f).mem.wf = true := by
  unfold State.farObserved
  grind [State.push_mem, State.wakeWith_mem]

theorem State.farLoaded_wf (q n : Nat) (r : FarReq) (f : Flit) (hs : s.mem.wf = true) :
    (s.farLoaded q n r f).mem.wf = true := by
  unfold State.farLoaded
  grind [State.install_wf, State.constKeepPair_mem, State.answerLoad_mem, State.farObserved_wf]

theorem State.takeResponse_wf (f : Flit) (hs : s.mem.wf = true) : (s.takeResponse f).mem.wf = true := by
  unfold State.takeResponse
  grind [State.modSlot_mem, State.farDone_mem, State.lineArrives_mem, State.farLoaded_wf]

theorem State.deliverFlit_wf (p : Nat) (f : Flit) (hs : s.mem.wf = true) : (s.deliverFlit p f).mem.wf = true := by
  unfold State.deliverFlit
  grind [State.push_mem, State.serveWrite_wf, State.serveRead_mem, State.serveAtomic_wf, State.serveMessage_wf,
    State.takeAck_wf, State.takeResponse_wf]

theorem State.routeIn_wf (p : Nat) (f : Flit) (hs : s.mem.wf = true) : (s.routeIn p f).mem.wf = true := by
  unfold State.routeIn
  grind [State.keyViolation_mem, State.nakFlit_mem, State.forward_mem, State.deliverFlit_wf]

@[simp] theorem State.askReplay_mem (p seq : Nat) : (s.askReplay p seq).mem = s.mem := by
  unfold State.askReplay
  split <;> simp

theorem execFlitReceive_canonical (p seq : Nat) (f : Flit) (hs : s.mem.wf = true) : Canonical (execFlitReceive p seq f s) := by
  unfold execFlitReceive
  grind [canonical_next, State.routeIn_wf, State.askReplay_mem]

/-! ### Machine/Health -/

@[simp] theorem State.reading_mem (n : Nat) : (s.reading n).1.mem = s.mem := rfl

@[simp] theorem State.readings_mem (n k : Nat) (s : State) : (State.readings n k s).1.mem = s.mem := by
  induction k generalizing s with
  | zero => rfl
  | succ k ih => simp [State.readings, ih]

theorem execThermalStep_canonical (d temp : Nat) (hs : s.mem.wf = true) : Canonical (execThermalStep d temp s) := by
  unfold execThermalStep
  split <;> simp [hs]

theorem execThermalResetTrip_canonical (_d : Nat) (hs : s.mem.wf = true) : Canonical (execThermalResetTrip _d s) := by
  simp [execThermalResetTrip, hs]

@[simp] theorem State.dieWindow_mem (pkg d power : Nat) : (s.dieWindow pkg d power).mem = s.mem := by
  simp [State.dieWindow]

theorem execPowerLimitWindow_canonical (pkg : Nat) (dies : List Nat) (hs : s.mem.wf = true) :
    Canonical (execPowerLimitWindow pkg dies s) := by
  unfold execPowerLimitWindow
  split <;> simp [hs]

@[simp] theorem State.lifeSecond_mem (k off : Nat) : (s.lifeSecond k off).mem = s.mem := by
  simp [State.lifeSecond]

theorem State.wearQuadrant_wf (i : Nat) (hs : s.mem.wf = true) : (s.wearQuadrant i).mem.wf = true := by
  unfold State.wearQuadrant
  grind [State.setReg_mem, State.record_wf, State.reading_mem]

theorem execLifeUpdate_canonical (temps volts : List Nat) (hs : s.mem.wf = true) :
    Canonical (execLifeUpdate temps volts s) := by
  unfold execLifeUpdate
  grind [canonical_next, State.push_mem, State.readings_mem, State.lifeSecond_mem, State.wearQuadrant_wf, wf_foldl]

theorem execRetentionEntry_canonical (k : Nat) (hs : s.mem.wf = true) : Canonical (execRetentionEntry k s) := by
  unfold execRetentionEntry
  grind [canonical_next, State.setCore_mem, State.push_mem]

theorem execServoLockChange_canonical (on : Bool) (hs : s.mem.wf = true) : Canonical (execServoLockChange on s) := by
  simp [execServoLockChange, hs]

/-! ### Machine/Isolation -/

@[simp] theorem State.dropContext_mem (x : Nat) : (s.dropContext x).mem = s.mem := rfl

theorem execCctlWrite_canonical (x : Nat) (v : Word) (h : Half) (level : Nat) (hs : s.mem.wf = true) :
    Canonical (execCctlWrite x v h level s) := by
  unfold execCctlWrite
  grind [canonical_next, State.setReg_mem, State.dropContext_mem]

theorem execCaldWrite_canonical (x i : Nat) (v : Word) (h : Half) (hs : s.mem.wf = true) :
    Canonical (execCaldWrite x i v h s) := by
  simp [execCaldWrite, hs]

theorem execTranslationWalk_canonical (c x : Nat) (va : BitVec 57) (hs : s.mem.wf = true) :
    Canonical (execTranslationWalk c x va s) := by
  unfold execTranslationWalk
  grind [canonical_next, walk_wf]

theorem State.putFault_wf (row c : Nat) (f : FaultRec) (hs : s.mem.wf = true) : (s.putFault row c f).1.mem.wf = true := by
  simp [State.putFault, hs]

theorem State.faultTraps_wf (coll : Bool) (m : FaultMsg) (hs : s.mem.wf = true) : (s.faultTraps coll m).mem.wf = true := by
  unfold State.faultTraps
  grind [State.modSlot_mem, State.push_mem, State.abandonDone_wf]

@[simp] theorem State.faultRetries_mem (m : FaultMsg) : (s.faultRetries m).mem = s.mem := by
  unfold State.faultRetries
  split
  · simp
  · split <;> simp

theorem State.faultNotice_wf (x ring row pts : Nat) (hs : s.mem.wf = true) : (s.faultNotice x ring row pts).mem.wf = true := by
  unfold State.faultNotice
  grind [State.push_mem]

theorem execTrapMessageAtCollector_canonical (m : FaultMsg) (hs : s.mem.wf = true) :
    Canonical (execTrapMessageAtCollector m s) := by
  unfold execTrapMessageAtCollector
  grind [canonical_next, State.ringPut_mem, State.putFault_wf, State.faultTraps_wf, State.faultNotice_wf]

theorem State.closeFault_wf (d r x id : Nat) (hs : s.mem.wf = true) : (s.closeFault d r x id).1.mem.wf = true := by
  unfold State.closeFault
  grind

theorem execFresRetry_canonical (d r x id : Nat) (hs : s.mem.wf = true) : Canonical (execFresRetry d r x id s) := by
  unfold execFresRetry
  grind [canonical_next, State.faultRetries_mem, State.closeFault_wf, wf_foldl]

theorem execFresFail_canonical (d r x id : Nat) (hs : s.mem.wf = true) : Canonical (execFresFail d r x id s) := by
  unfold execFresFail
  grind [canonical_next, State.faultTraps_wf, State.closeFault_wf, wf_foldl]

theorem execAttestGo_canonical (x : Nat) (hs : s.mem.wf = true) : Canonical (execAttestGo x s) := by
  unfold execAttestGo
  grind [canonical_next, State.setReg_mem, State.push_mem]

theorem execAttestReportDone_canonical (x : Nat) (hs : s.mem.wf = true) : Canonical (execAttestReportDone x s) := by
  unfold execAttestReportDone
  grind [canonical_next, State.setReg_mem, State.hubWrite_wf, wf_foldl, wf_foldlFst]

/-! ### Machine/Vector -/

theorem vecOp_canonical {i : Instr} {d : BitVec 5} {mask : Slot → Taint} {f : Slot → Line} (hs : s.mem.wf = true) :
    Canonical (vecOp i d mask f s) :=
  issue_canonical hs fun _ _ => (canonical_complete _ _ _).2

theorem vecRound_canonical {i : Instr} {d : BitVec 5} {srcs : List (BitVec 5)} {n w : Nat}
    {f : Slot → List Rounding → List (Nat × BitVec 5)} (hs : s.mem.wf = true) : Canonical (vecRound i d srcs n w f s) :=
  issue_canonical hs fun _ _ => (canonical_complete _ _ _).2

theorem arith_canonical {i : Instr} {d a b : BitVec 5} {y : BitVec 4} {m : BitVec 2}
    {f : FpFmt → Rounding → Val → Val → Nat × BitVec 5} {g : Int → Int → Int} (hs : s.mem.wf = true) :
    Canonical (arith i d a b y m f g s) := by
  unfold arith
  split
  · exact vecRound_canonical hs
  · exact vecOp_canonical hs

theorem compareOp_canonical (i : Instr) (d a b : BitVec 5) (y : BitVec 4) (rel : Nat) (hs : s.mem.wf = true) :
    Canonical (compareOp i d a b y rel s) := by
  unfold compareOp
  grind [vecOp_canonical]

theorem reduceMinMax_canonical (i : Instr) (d a : BitVec 5) (y : BitVec 4) (maxi : Bool) (hs : s.mem.wf = true) :
    Canonical (reduceMinMax i d a y maxi s) :=
  issue_canonical hs fun q s hs => by simp [hs]

/-! ### Machine/Walker -/

theorem walkThen_wf {α β : Type} {r : WalkRes α} {k : State → α → WalkRes β} (hr : r.1.mem.wf = true)
    (hk : ∀ s a, s.mem.wf = true → (k s a).1.mem.wf = true) : (walkThen r k).1.mem.wf = true := by
  unfold walkThen
  split
  · exact hk _ _ hr
  · exact hr

theorem walkFault_wf {α : Type} (f : XFault) (a : Access) (v : Word) (e : Option (Nat × Nat)) (hs : s.mem.wf = true) :
    (walkFault s f a v e : WalkRes α).1.mem.wf = true := hs

theorem walkOpen_wf {α : Type} (c : BitVec 8) (hs : s.mem.wf = true) : (walkOpen s c : WalkRes α).1.mem.wf = true := hs

theorem walkRead_wf (q : Nat) (e : RingEntry) (va : Word) (n : Nat) (entry : Option (Nat × Nat)) (hs : s.mem.wf = true) :
    (walkRead q e s va n entry).1.mem.wf = true := by
  unfold walkRead
  grind [resolve_wf, State.regRead_mem, engReadNow_wf, walkFault_wf]

theorem walkFetch_wf (q : Nat) (e : RingEntry) (pc : BitVec 57) (hs : s.mem.wf = true) :
    (walkFetch q e s pc).1.mem.wf = true := by
  unfold walkFetch
  grind [resolve_wf, State.regRead_mem, engReadNow_wf, walkFault_wf]

@[simp] theorem State.walkFails_mem (k : Nat) (w : Walk) (reason : Nat) (entry : Option (Nat × Nat))
    (cause code : BitVec 8) (tval : Word) : (s.walkFails k w reason entry cause code tval).mem = s.mem := rfl

@[simp] theorem State.walkEnds_mem (k : Nat) (w : Walk) (reason : Nat) : (s.walkEnds k w reason).mem = s.mem := rfl

theorem State.walkStop_wf (k : Nat) (w : Walk) (h : WalkStop) (hs : s.mem.wf = true) : (s.walkStop k w h).mem.wf = true := by
  unfold State.walkStop
  grind [State.engFetch_wf, State.shadowOverflow_mem, State.walkFails_mem, State.walkEnds_mem, State.openWord_mem]

theorem walkWord_canonical {body : Nat → RingEntry → Walk → State → WalkRes Walk} (hs : s.mem.wf = true)
    (hb : ∀ q e w s, s.mem.wf = true → (body q e w s).1.mem.wf = true) : Canonical (walkWord body s) := by
  unfold walkWord
  cases s.curWalk with
  | none => exact canonical_fault _
  | some k =>
    dsimp only
    cases findAt s.walks k with
    | none => exact canonical_fault _
    | some w =>
      dsimp only
      cases (s.slot w.thread).entry w.seq with
      | none => exact canonical_fault _
      | some e =>
        have h := hb w.thread e w s hs
        dsimp only
        split
        · next e1 => simpa using wf_fst e1 h
        · next e1 => simpa using State.walkStop_wf _ _ _ (wf_fst e1 h)

theorem walkPure_canonical {f : Walk → Walk} (hs : s.mem.wf = true) : Canonical (walkPure f s) :=
  walkWord_canonical hs fun _ _ _ _ hs => hs

theorem execWalkerIllegalWord_canonical (_w : InstrWord) (hs : s.mem.wf = true) : Canonical (execWalkerIllegalWord _w s) :=
  walkWord_canonical hs fun q e w s hs => by
    grind

theorem execWld_canonical (d a : BitVec 4) (y : BitVec 3) (o : BitVec 16) (hs : s.mem.wf = true) :
    Canonical (execWld d a y o s) :=
  walkWord_canonical hs fun q e w s hs => by
    dsimp only
    split
    · exact walkFault_wf _ _ _ _ hs
    · exact walkThen_wf (walkRead_wf _ _ _ _ _ hs) fun _ _ hs => hs

theorem execWstrm_canonical (c v n : BitVec 4) (t d : BitVec 1) (hs : s.mem.wf = true) :
    Canonical (execWstrm c v n t d s) :=
  walkWord_canonical hs fun q e w s hs => by
    grind [walkFault_wf]

theorem rawCoord_wf (q : Nat) (e : RingEntry) (t i : Nat) (x : Stream) (hs : s.mem.wf = true) :
    (rawCoord q e t i x s).1.mem.wf = true := by
  unfold rawCoord
  grind [walkRead_wf]

theorem coordAt_wf (q : Nat) (e : RingEntry) (t i : Nat) (x : Stream) (hs : s.mem.wf = true) :
    (coordAt q e t i x s).1.mem.wf = true := by
  unfold coordAt
  grind [walkThen_wf, rawCoord_wf]

theorem headCoord_wf (q : Nat) (e : RingEntry) (t : Nat) (x : Stream) (hs : s.mem.wf = true) :
    (headCoord q e t x s).1.mem.wf = true := by
  unfold headCoord
  grind [walkThen_wf, coordAt_wf]

theorem runEnd_wf (q : Nat) (e : RingEntry) (t c : Nat) (x : Stream) (f i : Nat) (hs : s.mem.wf = true) :
    (runEnd q e t c x f i s).1.mem.wf = true := by
  induction f generalizing i s with
  | zero => exact hs
  | succ f ih =>
    unfold runEnd
    split
    · refine walkThen_wf (coordAt_wf _ _ _ _ _ hs) fun s d hs => ?_
      split
      · exact ih _ hs
      · exact hs
    · exact hs

theorem entryValue_wf (q : Nat) (e : RingEntry) (fmt t i : Nat) (x : Stream) (hs : s.mem.wf = true) :
    (entryValue q e fmt t i x s).1.mem.wf = true := by
  unfold entryValue
  grind [walkRead_wf]

theorem runValue_wf (q : Nat) (e : RingEntry) (fmt t : Nat) (x : Stream) (n i v : Nat) (fl : BitVec 5) (hs : s.mem.wf = true) :
    (runValue q e fmt t x n i v fl s).1.mem.wf = true := by
  induction n generalizing i v fl s with
  | zero => exact hs
  | succ n ih => exact walkThen_wf (entryValue_wf _ _ _ _ _ _ hs) fun s u hs => ih _ _ _ hs

theorem headValue_wf (q : Nat) (e : RingEntry) (fmt t stop : Nat) (x : Stream) (hs : s.mem.wf = true) :
    (headValue q e fmt t stop x s).1.mem.wf = true := by
  unfold headValue
  grind [walkThen_wf, entryValue_wf, runValue_wf]

theorem skipTo_wf (q : Nat) (e : RingEntry) (t lim f : Nat) (w : Walk) (hs : s.mem.wf = true) :
    (skipTo q e t lim f w s).1.mem.wf = true := by
  induction f generalizing w s with
  | zero => exact hs
  | succ f ih =>
    refine walkThen_wf (headCoord_wf _ _ _ _ hs) fun s h hs => ?_
    split
    · split
      · exact walkThen_wf (runEnd_wf _ _ _ _ _ _ _ hs) fun s j hs => ih _ hs
      · exact hs
    · exact hs

theorem execWskip_canonical (a : BitVec 4) (t : BitVec 1) (hs : s.mem.wf = true) : Canonical (execWskip a t s) :=
  walkWord_canonical hs fun q e w s hs => by
    grind [walkThen_wf, skipTo_wf]

theorem execWpeek_canonical (d : BitVec 4) (t : BitVec 1) (k : BitVec 2) (hs : s.mem.wf = true) :
    Canonical (execWpeek d t k s) :=
  walkWord_canonical hs fun q e w s hs => by
    grind [walkThen_wf, headCoord_wf]

theorem placeHead_wf (q : Nat) (e : RingEntry) (t buf row col c : Nat) (inside : Bool) (w : Walk) (hs : s.mem.wf = true) :
    (placeHead q e t buf row col c inside w s).1.mem.wf = true := by
  unfold placeHead
  grind [walkThen_wf, runEnd_wf, headValue_wf]

theorem scatter_wf (q : Nat) (e : RingEntry) (t buf row f : Nat) (w : Walk) (hs : s.mem.wf = true) :
    (scatter q e t buf row f w s).1.mem.wf = true := by
  induction f generalizing w s with
  | zero => exact hs
  | succ f ih =>
    refine walkThen_wf (headCoord_wf _ _ _ _ hs) fun s h hs => ?_
    split
    · exact hs
    · split
      · exact hs
      · exact walkThen_wf (placeHead_wf _ _ _ _ _ _ _ _ _ hs) fun s w hs => ih _ hs

theorem execWscat_canonical (a : BitVec 4) (t buf : BitVec 1) (hs : s.mem.wf = true) : Canonical (execWscat a t buf s) :=
  walkWord_canonical hs fun q e w s hs => by
    grind [walkThen_wf, scatter_wf]

theorem bothHeads_wf (q : Nat) (e : RingEntry) (w : Walk) (hs : s.mem.wf = true) : (bothHeads q e w s).1.mem.wf = true := by
  unfold bothHeads
  grind [headCoord_wf]

theorem mergeUnion_wf (q : Nat) (e : RingEntry) (row f j : Nat) (w : Walk) (hs : s.mem.wf = true) :
    (mergeUnion q e row f j w s).1.mem.wf = true := by
  induction f generalizing j w s with
  | zero => exact hs
  | succ f ih =>
    refine walkThen_wf (bothHeads_wf _ _ _ hs) fun s h hs => ?_
    grind [walkThen_wf, placeHead_wf]

theorem mergeMatch_wf (q : Nat) (e : RingEntry) (row f j : Nat) (w : Walk) (hs : s.mem.wf = true) :
    (mergeMatch q e row f j w s).1.mem.wf = true := by
  induction f generalizing j w s with
  | zero => exact hs
  | succ f ih =>
    refine walkThen_wf (bothHeads_wf _ _ _ hs) fun s h hs => ?_
    grind [walkThen_wf, placeHead_wf]

theorem walkMerge_canonical (union : Bool) (d a : BitVec 4) (hs : s.mem.wf = true) : Canonical (walkMerge union d a s) :=
  walkWord_canonical hs fun q e w s hs => by
    grind [walkThen_wf, mergeUnion_wf, mergeMatch_wf]

theorem execWmrgUn_canonical (d a : BitVec 4) (hs : s.mem.wf = true) : Canonical (execWmrgUn d a s) := by
  unfold execWmrgUn
  grind [walkMerge_canonical]

theorem execWmrgIs_canonical (d a : BitVec 4) (hs : s.mem.wf = true) : Canonical (execWmrgIs d a s) := by
  unfold execWmrgIs
  grind [walkMerge_canonical]

theorem walkEmit_wf (q : Nat) (e : RingEntry) (w : Walk) (buf : Nat) (c : CbInst) (hs : s.mem.wf = true) :
    (walkEmit q e w buf c s).1.mem.wf = true := by
  unfold walkEmit
  grind [State.modSlot_mem, State.detect_mem, State.openWord_mem, State.bulkWrite_wf, State.cbPermitTake_mem,
    State.cbFill_wf, walkFault_wf]

theorem execWemit_canonical (h : BitVec 4) (buf : BitVec 1) (hs : s.mem.wf = true) : Canonical (execWemit h buf s) :=
  walkWord_canonical hs fun q e w s hs => by
    grind [walkOpen_wf, walkEmit_wf]

theorem execWsig_canonical (a b : BitVec 4) (hs : s.mem.wf = true) : Canonical (execWsig a b s) :=
  walkWord_canonical hs fun q e w s hs => by
    grind [State.modSlot_mem, State.push_mem, State.detect_mem, counterLoc_wf, State.widenFor_wf, State.engSent_mem,
      walkFault_wf]

theorem execWend_canonical (hs : s.mem.wf = true) : Canonical (execWend s) :=
  walkWord_canonical hs fun q e w s hs => by
    grind

theorem execWstart_canonical (a b : BitVec 5) (k : BitVec 2) (hs : s.mem.wf = true) : Canonical (execWstart a b k s) :=
  dispatchThen_canonical hs fun q n s hs => by
    grind [State.queueWalk_mem]

theorem execWstop_canonical (k : BitVec 2) (hs : s.mem.wf = true) : Canonical (execWstop k s) :=
  dispatchThen_canonical hs fun q n s hs => by
    grind [State.queueWalk_mem]

@[simp] theorem State.cancelStart_mem (q : Nat) (e : RingEntry) : (s.cancelStart q e).mem = s.mem := rfl

theorem State.stopWalks_wf (q : Nat) (e : RingEntry) (hs : s.mem.wf = true) : (s.stopWalks q e).mem.wf = true := by
  unfold State.stopWalks
  grind [State.modSlot_mem, State.push_mem, State.cancelStart_mem, wf_foldl]

theorem execWalkContextGrant_canonical (c : Nat) (hs : s.mem.wf = true) : Canonical (execWalkContextGrant c s) := by
  unfold execWalkContextGrant
  grind [canonical_next, State.modSlot_mem, State.push_mem, State.openWord_mem, State.engStop_mem, State.stopWalks_wf]

theorem State.walkTurn_wf (k : Nat) (hs : s.mem.wf = true) : (s.walkTurn k).1.mem.wf = true := by
  unfold State.walkTurn
  grind [State.drainThread_wf, State.dropWalk_mem, walkFetch_wf, State.walkEnds_mem, State.walkStop_wf]

/-! ### Machine/Turns -/

@[simp] theorem State.nextTurn_mem : s.nextTurn.1.mem = s.mem := by
  unfold State.nextTurn
  split
  · simp
  · split <;> simp

@[simp] theorem State.tick_mem : s.tick.mem = s.mem := rfl

@[simp] theorem State.giveTurn_mem (q : Nat) : (s.giveTurn q).mem = s.mem := rfl

@[simp] theorem State.endYields_mem (q : Nat) : (s.endYields q).mem = s.mem := by
  simp [State.endYields]

/-! ### Machine/Step -/

theorem afterIssue_canonical (q : Nat) (w : InstrWord) {r : Result} (hr : Canonical r) : Canonical (afterIssue q w s r) := by
  cases r with
  | next t =>
    have ht := (canonical_next t).1 hr
    have hv : (if (s.slot q).issuedIn (t.slot q) w then t.endYields q else t).mem.wf = true := by
      split <;> simp [ht]
    have hu := State.mirror_wf q w (s.slot q) hv
    unfold afterIssue
    dsimp only
    generalize State.mirror _ q w (s.slot q) = u at hu ⊢
    split <;> simpa using hu
  | fault f => exact hr
  | refused f => exact hr

/-! ### Every instruction, every step that is due, every turn -/

/-- Whatever an instruction or a step of the package does, memory stays in canonical form. -/
theorem exec_canonical (i : Instr) (hs : s.mem.wf = true) : Canonical (exec i s) := by
  cases i with
  | add d a b => rw [exec_add]; exact aluOp_canonical hs
  | sub d a b => rw [exec_sub]; exact aluOp_canonical hs
  | mul d a b => rw [exec_mul]; exact aluOp_canonical hs
  | mulhS64 d a b => rw [exec_mulhS64]; exact aluOp_canonical hs
  | mulhZ64 d a b => rw [exec_mulhZ64]; exact aluOp_canonical hs
  | divS64 d a b => rw [exec_divS64]; exact aluOp_canonical hs
  | divZ64 d a b => rw [exec_divZ64]; exact aluOp_canonical hs
  | remS64 d a b => rw [exec_remS64]; exact aluOp_canonical hs
  | remZ64 d a b => rw [exec_remZ64]; exact aluOp_canonical hs
  | and d a b => rw [exec_and]; exact aluOp_canonical hs
  | or d a b => rw [exec_or]; exact aluOp_canonical hs
  | xor d a b => rw [exec_xor]; exact aluOp_canonical hs
  | shl d a b => rw [exec_shl]; exact aluOp_canonical hs
  | shrZ64 d a b => rw [exec_shrZ64]; exact aluOp_canonical hs
  | shrS64 d a b => rw [exec_shrS64]; exact aluOp_canonical hs
  | minS64 d a b => rw [exec_minS64]; exact aluOp_canonical hs
  | maxS64 d a b => rw [exec_maxS64]; exact aluOp_canonical hs
  | sltS64 d a b => rw [exec_sltS64]; exact aluOp_canonical hs
  | sltZ64 d a b => rw [exec_sltZ64]; exact aluOp_canonical hs
  | seq d a b => rw [exec_seq]; exact aluOp_canonical hs
  | clz d a => rw [exec_clz]; exact aluOp_canonical hs
  | popc d a => rw [exec_popc]; exact aluOp_canonical hs
  | sel d a b c => rw [exec_sel]; exact aluOp_canonical hs
  | madd d a b c => rw [exec_madd]; exact aluOp_canonical hs
  | ext d a t => rw [exec_ext]; exact aluOp_canonical hs
  | addi d a i0 => rw [exec_addi]; exact aluOp_canonical hs
  | andi d a i0 => rw [exec_andi]; exact aluOp_canonical hs
  | ori d a i0 => rw [exec_ori]; exact aluOp_canonical hs
  | xori d a i0 => rw [exec_xori]; exact aluOp_canonical hs
  | shli d a k => rw [exec_shli]; exact aluOp_canonical hs
  | shriZ64 d a k => rw [exec_shriZ64]; exact aluOp_canonical hs
  | shriS64 d a k => rw [exec_shriS64]; exact aluOp_canonical hs
  | sltiS64 d a i0 => rw [exec_sltiS64]; exact aluOp_canonical hs
  | li d i0 => rw [exec_li]; exact aluOp_canonical hs
  | lsi d i0 => rw [exec_lsi]; exact aluOp_canonical hs
  | pset p a => rw [exec_pset]; exact issue_canonical hs fun _ _ hs => by simp [hs]
  | pstep p a => rw [exec_pstep]; exact issue_canonical hs fun _ _ hs => by simp [hs]
  | pget d p => rw [exec_pget]; exact issue_canonical hs fun _ _ hs => by simp [hs]
  | padd p a => rw [exec_padd]; exact issue_canonical hs fun _ _ hs => by simp [hs]
  | crrd d c => rw [exec_crrd]; exact execCrrd_canonical d c hs
  | crwr a c => rw [exec_crwr]; exact execCrwr_canonical a c hs
  | crset a c => rw [exec_crset]; exact execCrset_canonical a c hs
  | crclr a c => rw [exec_crclr]; exact execCrclr_canonical a c hs
  | fadd d a b => rw [exec_fadd]; exact fpRound_canonical hs
  | fsub d a b => rw [exec_fsub]; exact fpRound_canonical hs
  | fmul d a b => rw [exec_fmul]; exact fpRound_canonical hs
  | fdiv d a b => rw [exec_fdiv]; exact fpRound_canonical hs
  | fmin d a b => rw [exec_fmin]; exact fpPlain_canonical hs
  | fmax d a b => rw [exec_fmax]; exact fpPlain_canonical hs
  | feq d a b => rw [exec_feq]; exact fpPlain_canonical hs
  | flt d a b => rw [exec_flt]; exact fpPlain_canonical hs
  | fle d a b => rw [exec_fle]; exact fpPlain_canonical hs
  | fma d a b c => rw [exec_fma]; exact fpRound_canonical hs
  | fsqrt d a => rw [exec_fsqrt]; exact fpRound_canonical hs
  | fabs d a => rw [exec_fabs]; exact fpPlain_canonical hs
  | fcvtS64 d a => rw [exec_fcvtS64]; exact fpRound_canonical hs
  | fcvtiS64 d a => rw [exec_fcvtiS64]; exact fpRound_canonical hs
  | fxsd d a => rw [exec_fxsd]; exact fpPlain_canonical hs
  | fxse d a => rw [exec_fxse]; exact fpRound_canonical hs
  | beq a b o => rw [exec_beq]; exact branchOp_canonical hs
  | bne a b o => rw [exec_bne]; exact branchOp_canonical hs
  | bltS64 a b o => rw [exec_bltS64]; exact branchOp_canonical hs
  | bgeS64 a b o => rw [exec_bgeS64]; exact branchOp_canonical hs
  | bltZ64 a b o => rw [exec_bltZ64]; exact branchOp_canonical hs
  | bgeZ64 a b o => rw [exec_bgeZ64]; exact branchOp_canonical hs
  | jal o => rw [exec_jal]; exact issue_canonical hs fun _ _ hs => by simp [hs]
  | jr a => rw [exec_jr]; exact jumpOp_canonical _ _ _ hs
  | jalr d a => rw [exec_jalr]; exact jumpOp_canonical _ _ _ hs
  | rep k0 c n k => rw [exec_rep]; exact issue_canonical hs fun _ _ hs => by simp [hs]
  | ld t a y o => rw [exec_ld]; exact issue_canonical hs fun _ _ hs => by simp [hs]
  | st t a y o => rw [exec_st]; exact issue_canonical hs fun _ _ hs => by simp [hs]
  | ldp t p y o => rw [exec_ldp]; exact issue_canonical hs fun _ _ hs => by simp [hs]
  | ldpi t p y => rw [exec_ldpi]; exact issue_canonical hs fun _ _ hs => by simp [hs]
  | stp t p y o => rw [exec_stp]; exact issue_canonical hs fun _ _ hs => by simp [hs]
  | stpi t p y => rw [exec_stpi]; exact issue_canonical hs fun _ _ hs => by simp [hs]
  | vld v a o => rw [exec_vld]; exact issue_canonical hs fun _ _ hs => by simp [hs]
  | vst v a o => rw [exec_vst]; exact issue_canonical hs fun _ _ hs => by simp [hs]
  | vldp v p o => rw [exec_vldp]; exact issue_canonical hs fun _ _ hs => by simp [hs]
  | vstp v p o => rw [exec_vstp]; exact issue_canonical hs fun _ _ hs => by simp [hs]
  | lda t a k0 y => rw [exec_lda]; exact issue_canonical hs fun _ _ hs => by simp [hs]
  | stl t a k0 y => rw [exec_stl]; exact issue_canonical hs fun _ _ hs => by simp [hs]
  | fence k0 => rw [exec_fence]; exact execFence_canonical k0 hs
  | tclr d => rw [exec_tclr]; exact issue_canonical hs fun _ _ hs => by simp [hs]
  | tdep d a => rw [exec_tdep]; exact issue_canonical hs fun _ _ hs => by simp [hs]
  | vtclr d => rw [exec_vtclr]; exact issue_canonical hs fun _ _ hs => by simp [hs]
  | vtdep d a => rw [exec_vtdep]; exact issue_canonical hs fun _ _ hs => by simp [hs]
  | aswap t a b k0 w => rw [exec_aswap]; exact atomicInstr_canonical hs
  | acas t a b k0 w => rw [exec_acas]; exact atomicInstr_canonical hs
  | aadd t a b k0 w => rw [exec_aadd]; exact atomicInstr_canonical hs
  | aand t a b k0 w => rw [exec_aand]; exact atomicInstr_canonical hs
  | aor t a b k0 w => rw [exec_aor]; exact atomicInstr_canonical hs
  | axor t a b k0 w => rw [exec_axor]; exact atomicInstr_canonical hs
  | amin t a b k0 w g => rw [exec_amin]; exact atomicInstr_canonical hs
  | amax t a b k0 w g => rw [exec_amax]; exact atomicInstr_canonical hs
  | afadd t a b k0 => rw [exec_afadd]; exact atomicInstr_canonical hs
  | radd a b k0 w => rw [exec_radd]; exact reduceInstr_canonical hs
  | rfadd a b k0 => rw [exec_rfadd]; exact reduceInstr_canonical hs
  | stn4 t a o => rw [exec_stn4]; exact execStn4_canonical t a o hs
  | vadd d a b y m => rw [exec_vadd]; exact arith_canonical hs
  | vsub d a b y m => rw [exec_vsub]; exact arith_canonical hs
  | vmul d a b y m => rw [exec_vmul]; exact arith_canonical hs
  | vfma d a b y => rw [exec_vfma]; exact vecRound_canonical hs
  | vmin d a b y => rw [exec_vmin]; exact vecOp_canonical hs
  | vmax d a b y => rw [exec_vmax]; exact vecOp_canonical hs
  | vabs d a y => rw [exec_vabs]; exact vecOp_canonical hs
  | vneg d a y => rw [exec_vneg]; exact vecOp_canonical hs
  | vdiv d a b => rw [exec_vdiv]; exact vecRound_canonical hs
  | vsqrt d a => rw [exec_vsqrt]; exact vecRound_canonical hs
  | vexp2 d a => rw [exec_vexp2]; exact vecRound_canonical hs
  | vand d a b y => rw [exec_vand]; exact vecOp_canonical hs
  | vor d a b y => rw [exec_vor]; exact vecOp_canonical hs
  | vxor d a b y => rw [exec_vxor]; exact vecOp_canonical hs
  | vshl d a b y => rw [exec_vshl]; exact vecOp_canonical hs
  | vshr d a b y => rw [exec_vshr]; exact vecOp_canonical hs
  | vceq d a b y => rw [exec_vceq]; exact compareOp_canonical _ _ _ _ _ _ hs
  | vclt d a b y => rw [exec_vclt]; exact compareOp_canonical _ _ _ _ _ _ hs
  | vcle d a b y => rw [exec_vcle]; exact compareOp_canonical _ _ _ _ _ _ hs
  | vsel d a b y => rw [exec_vsel]; exact vecOp_canonical hs
  | vrsum d a y => rw [exec_vrsum]; exact issue_canonical hs fun _ _ hs => by simp [hs]
  | vrmax d a y => rw [exec_vrmax]; exact reduceMinMax_canonical _ _ _ _ _ hs
  | vrmin d a y => rw [exec_vrmin]; exact reduceMinMax_canonical _ _ _ _ _ hs
  | vperm d a b y => rw [exec_vperm]; exact vecOp_canonical hs
  | vrot d a b y => rw [exec_vrot]; exact vecOp_canonical hs
  | vbcst d a y => rw [exec_vbcst]; exact vecOp_canonical hs
  | vext d a b y => rw [exec_vext]; exact issue_canonical hs fun _ _ hs => by simp [hs]
  | vins d a b y => rw [exec_vins]; exact vecOp_canonical hs
  | vcvt d a k0 y => rw [exec_vcvt]; exact issue_canonical hs fun _ _ hs => by simp [hs]
  | vmov d a => rw [exec_vmov]; exact vecOp_canonical hs
  | mma a b k0 => rw [exec_mma]; exact dispatchCmd_canonical hs
  | mmag a b m c => rw [exec_mmag]; exact dispatchCmd_canonical hs
  | mmas a b k0 => rw [exec_mmas]; exact dispatchCmd_canonical hs
  | mrot a b k0 => rw [exec_mrot]; exact dispatchCmd_canonical hs
  | mzero c => rw [exec_mzero]; exact dispatchCmd_canonical hs
  | mld a m c => rw [exec_mld]; exact dispatchCmd_canonical hs
  | mst a c => rw [exec_mst]; exact dispatchCmd_canonical hs
  | cvt a b m r => rw [exec_cvt]; exact dispatchCmd_canonical hs
  | cvb a b m r => rw [exec_cvb]; exact dispatchCmd_canonical hs
  | cvq a b m r => rw [exec_cvq]; exact dispatchCmd_canonical hs
  | cvqn a b m r => rw [exec_cvqn]; exact dispatchCmd_canonical hs
  | cvqnq a b m r => rw [exec_cvqnq]; exact dispatchCmd_canonical hs
  | cvtr a b m r => rw [exec_cvtr]; exact dispatchCmd_canonical hs
  | twld a b k0 => rw [exec_twld]; exact dispatchCmd_canonical hs
  | twmc a b k0 => rw [exec_twmc]; exact dispatchCmd_canonical hs
  | twst a b k0 => rw [exec_twst]; exact dispatchCmd_canonical hs
  | kbnd a b k0 => rw [exec_kbnd]; exact dispatchCmd_canonical hs
  | ksel a b k0 => rw [exec_ksel]; exact dispatchCmd_canonical hs
  | krst k0 => rw [exec_krst]; exact dispatchCmd_canonical hs
  | sgg a b k0 => rw [exec_sgg]; exact dispatchCmd_canonical hs
  | tidld a => rw [exec_tidld]; exact execTidld_canonical a hs
  | tidinv a => rw [exec_tidinv]; exact execTidinv_canonical a hs
  | tcls a => rw [exec_tcls]; exact execTcls_canonical a hs
  | wstart a b k0 => rw [exec_wstart]; exact execWstart_canonical a b k0 hs
  | wstop k0 => rw [exec_wstop]; exact execWstop_canonical k0 hs
  | bcopy a b k0 => rw [exec_bcopy]; exact dispatchCmd_canonical hs
  | bfill a b k0 => rw [exec_bfill]; exact dispatchCmd_canonical hs
  | eset a e r k0 => rw [exec_eset]; exact execEset_canonical a e r k0 hs
  | eget d e r k0 => rw [exec_eget]; exact execEget_canonical d e r k0 hs
  | spawn a b => rw [exec_spawn]; exact execSpawn_canonical a b hs
  | launch a => rw [exec_launch]; exact execLaunch_canonical a hs
  | retire => rw [exec_retire]; exact issue_canonical hs fun _ _ hs => by simp [hs]
  | yield => rw [exec_yield]; exact issue_canonical hs fun _ _ hs => by simp [hs]
  | msend a b => rw [exec_msend]; exact execMsend_canonical a b hs
  | cadd a b k0 => rw [exec_cadd]; exact execCadd_canonical a b k0 hs
  | caddo t a b k0 => rw [exec_caddo]; exact execCaddo_canonical t a b k0 hs
  | cwait t a b k0 => rw [exec_cwait]; exact waitInstr_canonical _ _ _ _ _ _ hs
  | cwaitt t a b k0 => rw [exec_cwaitt]; exact waitInstr_canonical _ _ _ _ _ _ hs
  | cbwp a h n => rw [exec_cbwp]; exact execCbwp_canonical a h n hs
  | cbwc a h n => rw [exec_cbwc]; exact execCbwc_canonical a h n hs
  | cbap a h n => rw [exec_cbap]; exact execCbap_canonical a h n hs
  | cbac a h n => rw [exec_cbac]; exact execCbac_canonical a h n hs
  | cbstat d h => rw [exec_cbstat]; exact execCbstat_canonical d h hs
  | mark h => rw [exec_mark]; exact execMark_canonical h hs
  | mwait a => rw [exec_mwait]; exact execMwait_canonical a hs
  | mround d => rw [exec_mround]; exact issue_canonical hs fun _ _ hs => by simp [hs]
  | ecall => rw [exec_ecall]; exact issue_canonical hs fun _ _ hs => by simp [hs]
  | mcall => rw [exec_mcall]; exact issue_canonical hs fun _ _ hs => by simp [hs]
  | eret => rw [exec_eret]; exact execEret_canonical hs
  | ifence => rw [exec_ifence]; exact execIfence_canonical hs
  | brk => rw [exec_brk]; exact issue_canonical hs fun _ _ hs => by simp [hs]
  | xinv a => rw [exec_xinv]; exact xinvInstr_canonical hs
  | xinva => rw [exec_xinva]; exact xinvInstr_canonical hs
  | qbind a b => rw [exec_qbind]; exact execQbind_canonical a b hs
  | qunb a => rw [exec_qunb]; exact execQunb_canonical a hs
  | slsave a b => rw [exec_slsave]; exact execSlsave_canonical a b hs
  | slrest a b => rw [exec_slrest]; exact execSlrest_canonical a b hs
  | slkill a => rw [exec_slkill]; exact execSlkill_canonical a hs
  | hint h => rw [exec_hint]; exact issue_canonical hs fun _ _ hs => by simp [hs]
  | wli d i0 => rw [exec_wli]; exact walkPure_canonical hs
  | waddi d a i0 => rw [exec_waddi]; exact walkPure_canonical hs
  | wadd d a b => rw [exec_wadd]; exact walkPure_canonical hs
  | wsub d a b => rw [exec_wsub]; exact walkPure_canonical hs
  | wmul d a b => rw [exec_wmul]; exact walkPure_canonical hs
  | wand d a b => rw [exec_wand]; exact walkPure_canonical hs
  | wor d a b => rw [exec_wor]; exact walkPure_canonical hs
  | wshl d a b => rw [exec_wshl]; exact walkPure_canonical hs
  | wshr d a b => rw [exec_wshr]; exact walkPure_canonical hs
  | wminu d a b => rw [exec_wminu]; exact walkPure_canonical hs
  | wsltu d a b => rw [exec_wsltu]; exact walkPure_canonical hs
  | wld d a y o => rw [exec_wld]; exact execWld_canonical d a y o hs
  | wbeq a b o => rw [exec_wbeq]; exact walkPure_canonical hs
  | wbne a b o => rw [exec_wbne]; exact walkPure_canonical hs
  | wbltu a b o => rw [exec_wbltu]; exact walkPure_canonical hs
  | wbgeu a b o => rw [exec_wbgeu]; exact walkPure_canonical hs
  | wblts a b o => rw [exec_wblts]; exact walkPure_canonical hs
  | wbges a b o => rw [exec_wbges]; exact walkPure_canonical hs
  | wstrm c v n k0 d => rw [exec_wstrm]; exact execWstrm_canonical c v n k0 d hs
  | wskip a k0 => rw [exec_wskip]; exact execWskip_canonical a k0 hs
  | wpeek d k0 e => rw [exec_wpeek]; exact execWpeek_canonical d k0 e hs
  | wtile a b => rw [exec_wtile]; exact walkPure_canonical hs
  | wscat a k0 t => rw [exec_wscat]; exact execWscat_canonical a k0 t hs
  | wmrgUn d a => rw [exec_wmrgUn]; exact execWmrgUn_canonical d a hs
  | wmrgIs d a => rw [exec_wmrgIs]; exact execWmrgIs_canonical d a hs
  | wemit h t => rw [exec_wemit]; exact execWemit_canonical h t hs
  | wsig a b => rw [exec_wsig]; exact execWsig_canonical a b hs
  | wend => rw [exec_wend]; exact execWend_canonical hs
  | powerOn => rw [exec_powerOn]; exact execPowerOn_canonical
  | packageReset => rw [exec_packageReset]; exact execPackageReset_canonical
  | bootStage n => rw [exec_bootStage]; exact execBootStage_canonical n hs
  | registerWrite r => rw [exec_registerWrite]; exact execRegisterWrite_canonical r hs
  | hostRequest r => rw [exec_hostRequest]; exact execHostRequest_canonical r hs
  | ucieLinkDown m => rw [exec_ucieLinkDown]; exact execUcieLinkDown_canonical m hs
  | doorbell n t pts => rw [exec_doorbell]; exact execDoorbell_canonical n t pts hs
  | launchAdmission n => rw [exec_launchAdmission]; exact execLaunchAdmission_canonical n hs
  | queueControlWrite n v half level => rw [exec_queueControlWrite]; exact execQueueControlWrite_canonical n v half level hs
  | queueReset n => rw [exec_queueReset]; exact execQueueReset_canonical n hs
  | ttSlotStart k => rw [exec_ttSlotStart]; exact execTtSlotStart_canonical k hs
  | ttClockStep t => rw [exec_ttClockStep]; exact execTtClockStep_canonical t hs
  | launchCompletion l => rw [exec_launchCompletion]; exact execLaunchCompletion_canonical l hs
  | pressurePublish c => rw [exec_pressurePublish]; exact execPressurePublish_canonical c hs
  | distanceRecompute c => rw [exec_distanceRecompute]; exact execDistanceRecompute_canonical c hs
  | peerReport x i0 d c => rw [exec_peerReport]; exact execPeerReport_canonical x i0 d c hs
  | grctlWrite x v => rw [exec_grctlWrite]; exact execGrctlWrite_canonical x v hs
  | hopAccept h => rw [exec_hopAccept]; exact execHopAccept_canonical h hs
  | dispatchDecision t => rw [exec_dispatchDecision]; exact execDispatchDecision_canonical t hs
  | handlerStart x n => rw [exec_handlerStart]; exact execHandlerStart_canonical x n hs
  | counterAddAtHome r => rw [exec_counterAddAtHome]; exact execCounterAddAtHome_canonical r hs
  | counterWaitAtHome r => rw [exec_counterWaitAtHome]; exact execCounterWaitAtHome_canonical r hs
  | counterWaitPoll r => rw [exec_counterWaitPoll]; exact execCounterWaitPoll_canonical r hs
  | spawnPoolRelease t => rw [exec_spawnPoolRelease]; exact execSpawnPoolRelease_canonical t hs
  | retirement q => rw [exec_retirement]; exact execRetirement_canonical q hs
  | messageDelivery m => rw [exec_messageDelivery]; exact execMessageDelivery_canonical m hs
  | messageExpiry m => rw [exec_messageExpiry]; exact execMessageExpiry_canonical m hs
  | cbPermit q n => rw [exec_cbPermit]; exact execCbPermit_canonical q n hs
  | cbFillComplete k n => rw [exec_cbFillComplete]; exact execCbFillComplete_canonical k n hs
  | channelSlotArrival k x => rw [exec_channelSlotArrival]; exact execChannelSlotArrival_canonical k x hs
  | channelCreditArrival k n => rw [exec_channelCreditArrival]; exact execChannelCreditArrival_canonical k n hs
  | engineCapture q n => rw [exec_engineCapture]; exact execEngineCapture_canonical q n hs
  | engineResultPhase q n => rw [exec_engineResultPhase]; exact execEngineResultPhase_canonical q n hs
  | engineDone q n => rw [exec_engineDone]; exact execEngineDone_canonical q n hs
  | engineFault q n cause reason tval => rw [exec_engineFault]; exact execEngineFault_canonical q n cause reason tval hs
  | trapDelivery q t => rw [exec_trapDelivery]; exact execTrapDelivery_canonical q t hs
  | walkContextGrant c => rw [exec_walkContextGrant]; exact execWalkContextGrant_canonical c hs
  | combiningRequest r => rw [exec_combiningRequest]; exact execCombiningRequest_canonical r hs
  | loadCompletion q n => rw [exec_loadCompletion]; exact execLoadCompletion_canonical q n hs
  | sliceRead q n => rw [exec_sliceRead]; exact execSliceRead_canonical q n hs
  | sliceWrite w => rw [exec_sliceWrite]; exact execSliceWrite_canonical w hs
  | homeAtomic r => rw [exec_homeAtomic]; exact execHomeAtomic_canonical r hs
  | homeReduction r => rw [exec_homeReduction]; exact execHomeReduction_canonical r hs
  | nibbleStoreAtHome r => rw [exec_nibbleStoreAtHome]; exact execNibbleStoreAtHome_canonical r hs
  | summaryWiden r => rw [exec_summaryWiden]; exact execSummaryWiden_canonical r hs
  | writeAck q id wts => rw [exec_writeAck]; exact execWriteAck_canonical q id wts hs
  | nakReceived tag reason => rw [exec_nakReceived]; exact execNakReceived_canonical tag reason hs
  | ackTimeout tag => rw [exec_ackTimeout]; exact execAckTimeout_canonical tag hs
  | dirtyDrainTimeout id => rw [exec_dirtyDrainTimeout]; exact execDirtyDrainTimeout_canonical id hs
  | ptsTick => rw [exec_ptsTick]; exact execPtsTick_canonical hs
  | releaseComplete r => rw [exec_releaseComplete]; exact execReleaseComplete_canonical r hs
  | bankctlWrite c b v level ctx => rw [exec_bankctlWrite]; exact execBankctlWrite_canonical c b v level ctx hs
  | bankSwitchComplete c b => rw [exec_bankSwitchComplete]; exact execBankSwitchComplete_canonical c b hs
  | ccdrain c => rw [exec_ccdrain]; exact execCcdrain_canonical c hs
  | escapeTimeout n => rw [exec_escapeTimeout]; exact execEscapeTimeout_canonical n hs
  | flitReceive p seq f => rw [exec_flitReceive]; exact execFlitReceive_canonical p seq f hs
  | linkReplay p n => rw [exec_linkReplay]; exact execLinkReplay_canonical p n hs
  | portFailure p cause => rw [exec_portFailure]; exact execPortFailure_canonical p cause hs
  | exclusionPacket node id path dests => rw [exec_exclusionPacket]; exact execExclusionPacket_canonical node id path dests hs
  | portUp p node port => rw [exec_portUp]; exact execPortUp_canonical p node port hs
  | routingEntryWrite t b n v => rw [exec_routingEntryWrite]; exact execRoutingEntryWrite_canonical t b n v hs
  | routingSwap t => rw [exec_routingSwap]; exact execRoutingSwap_canonical t hs
  | routingSwapComplete t => rw [exec_routingSwapComplete]; exact execRoutingSwapComplete_canonical t hs
  | rwinWrite w i0 v half level ctx => rw [exec_rwinWrite]; exact execRwinWrite_canonical w i0 v half level ctx hs
  | reducePacketAtPort p f => rw [exec_reducePacketAtPort]; exact execReducePacketAtPort_canonical p f hs
  | reductionHoldExpiry p n => rw [exec_reductionHoldExpiry]; exact execReductionHoldExpiry_canonical p n hs
  | proxyAtomic d k => rw [exec_proxyAtomic]; exact execProxyAtomic_canonical d k hs
  | managementPacket p f => rw [exec_managementPacket]; exact execManagementPacket_canonical p f hs
  | noticeResend n => rw [exec_noticeResend]; exact execNoticeResend_canonical n hs
  | fnackWrite n => rw [exec_fnackWrite]; exact execFnackWrite_canonical n hs
  | cctlWrite x v half level => rw [exec_cctlWrite]; exact execCctlWrite_canonical x v half level hs
  | caldWrite x i0 v half => rw [exec_caldWrite]; exact execCaldWrite_canonical x i0 v half hs
  | translationWalk c x va => rw [exec_translationWalk]; exact execTranslationWalk_canonical c x va hs
  | trapMessageAtCollector m => rw [exec_trapMessageAtCollector]; exact execTrapMessageAtCollector_canonical m hs
  | fresRetry d r x id => rw [exec_fresRetry]; exact execFresRetry_canonical d r x id hs
  | fresFail d r x id => rw [exec_fresFail]; exact execFresFail_canonical d r x id hs
  | attestGo x => rw [exec_attestGo]; exact execAttestGo_canonical x hs
  | attestReportDone x => rw [exec_attestReportDone]; exact execAttestReportDone_canonical x hs
  | correctableError e => rw [exec_correctableError]; exact execCorrectableError_canonical e hs
  | uncorrectableError e => rw [exec_uncorrectableError]; exact execUncorrectableError_canonical e hs
  | scrubPass key => rw [exec_scrubPass]; exact execScrubPass_canonical key hs
  | errheal v => rw [exec_errheal]; exact execErrheal_canonical v hs
  | fcmdFence x i0 => rw [exec_fcmdFence]; exact execFcmdFence_canonical x i0 hs
  | fcmdRestart x i0 => rw [exec_fcmdRestart]; exact execFcmdRestart_canonical x i0 hs
  | calderaFence x i0 kind => rw [exec_calderaFence]; exact execCalderaFence_canonical x i0 kind hs
  | clusterFence c => rw [exec_clusterFence]; exact execClusterFence_canonical c hs
  | lockstepCompare q => rw [exec_lockstepCompare]; exact execLockstepCompare_canonical q hs
  | shadowCommit x => rw [exec_shadowCommit]; exact execShadowCommit_canonical x hs
  | thermalStep d temp => rw [exec_thermalStep]; exact execThermalStep_canonical d temp hs
  | powerLimitWindow pkg dies => rw [exec_powerLimitWindow]; exact execPowerLimitWindow_canonical pkg dies hs
  | lifeUpdate temps volts => rw [exec_lifeUpdate]; exact execLifeUpdate_canonical temps volts hs
  | retentionEntry k => rw [exec_retentionEntry]; exact execRetentionEntry_canonical k hs
  | illegalInstruction w => rw [exec_illegalInstruction]; exact execIllegalInstruction_canonical w hs
  | walkerIllegalWord w => rw [exec_walkerIllegalWord]; exact execWalkerIllegalWord_canonical w hs
  | ucieLinkUp m => rw [exec_ucieLinkUp]; exact execUcieLinkUp_canonical m hs
  | thermalResetTrip d => rw [exec_thermalResetTrip]; exact execThermalResetTrip_canonical d hs
  | servoLockChange on => rw [exec_servoLockChange]; exact execServoLockChange_canonical on hs

theorem runEvent_canonical (e : Event) (hs : s.mem.wf = true) : Canonical (runEvent e s) := by
  unfold runEvent
  cases e with
  | powerOn => exact execPowerOn_canonical
  | packageReset => exact execPackageReset_canonical
  | bootStage n => exact execBootStage_canonical n hs
  | registerWrite r => exact execRegisterWrite_canonical r hs
  | hostRequest r => exact execHostRequest_canonical r hs
  | ucieLinkDown m => exact execUcieLinkDown_canonical m hs
  | doorbell n t pts => exact execDoorbell_canonical n t pts hs
  | launchAdmission n => exact execLaunchAdmission_canonical n hs
  | queueControlWrite n v half level => exact execQueueControlWrite_canonical n v half level hs
  | queueReset n => exact execQueueReset_canonical n hs
  | ttSlotStart k => exact execTtSlotStart_canonical k hs
  | ttClockStep t => exact execTtClockStep_canonical t hs
  | launchCompletion l => exact execLaunchCompletion_canonical l hs
  | pressurePublish c => exact execPressurePublish_canonical c hs
  | distanceRecompute c => exact execDistanceRecompute_canonical c hs
  | peerReport x i0 d c => exact execPeerReport_canonical x i0 d c hs
  | grctlWrite x v => exact execGrctlWrite_canonical x v hs
  | hopAccept h => exact execHopAccept_canonical h hs
  | dispatchDecision t => exact execDispatchDecision_canonical t hs
  | handlerStart x n => exact execHandlerStart_canonical x n hs
  | counterAddAtHome r => exact execCounterAddAtHome_canonical r hs
  | counterWaitAtHome r => exact execCounterWaitAtHome_canonical r hs
  | counterWaitPoll r => exact execCounterWaitPoll_canonical r hs
  | spawnPoolRelease t => exact execSpawnPoolRelease_canonical t hs
  | retirement q => exact execRetirement_canonical q hs
  | messageDelivery m => exact execMessageDelivery_canonical m hs
  | messageExpiry m => exact execMessageExpiry_canonical m hs
  | cbPermit q n => exact execCbPermit_canonical q n hs
  | cbFillComplete k n => exact execCbFillComplete_canonical k n hs
  | channelSlotArrival k x => exact execChannelSlotArrival_canonical k x hs
  | channelCreditArrival k n => exact execChannelCreditArrival_canonical k n hs
  | engineCapture q n => exact execEngineCapture_canonical q n hs
  | engineResultPhase q n => exact execEngineResultPhase_canonical q n hs
  | engineDone q n => exact execEngineDone_canonical q n hs
  | engineFault q n cause reason tval => exact execEngineFault_canonical q n cause reason tval hs
  | trapDelivery q t => exact execTrapDelivery_canonical q t hs
  | walkContextGrant c => exact execWalkContextGrant_canonical c hs
  | combiningRequest r => exact execCombiningRequest_canonical r hs
  | loadCompletion q n => exact execLoadCompletion_canonical q n hs
  | sliceRead q n => exact execSliceRead_canonical q n hs
  | sliceWrite w => exact execSliceWrite_canonical w hs
  | homeAtomic r => exact execHomeAtomic_canonical r hs
  | homeReduction r => exact execHomeReduction_canonical r hs
  | nibbleStoreAtHome r => exact execNibbleStoreAtHome_canonical r hs
  | summaryWiden r => exact execSummaryWiden_canonical r hs
  | writeAck q id wts => exact execWriteAck_canonical q id wts hs
  | nakReceived tag reason => exact execNakReceived_canonical tag reason hs
  | ackTimeout tag => exact execAckTimeout_canonical tag hs
  | dirtyDrainTimeout id => exact execDirtyDrainTimeout_canonical id hs
  | ptsTick => exact execPtsTick_canonical hs
  | releaseComplete r => exact execReleaseComplete_canonical r hs
  | bankctlWrite c b v level ctx => exact execBankctlWrite_canonical c b v level ctx hs
  | bankSwitchComplete c b => exact execBankSwitchComplete_canonical c b hs
  | ccdrain c => exact execCcdrain_canonical c hs
  | escapeTimeout n => exact execEscapeTimeout_canonical n hs
  | flitReceive p seq f => exact execFlitReceive_canonical p seq f hs
  | linkReplay p n => exact execLinkReplay_canonical p n hs
  | portFailure p cause => exact execPortFailure_canonical p cause hs
  | exclusionPacket node id path dests => exact execExclusionPacket_canonical node id path dests hs
  | portUp p node port => exact execPortUp_canonical p node port hs
  | routingEntryWrite t b n v => exact execRoutingEntryWrite_canonical t b n v hs
  | routingSwap t => exact execRoutingSwap_canonical t hs
  | routingSwapComplete t => exact execRoutingSwapComplete_canonical t hs
  | rwinWrite w i0 v half level ctx => exact execRwinWrite_canonical w i0 v half level ctx hs
  | reducePacketAtPort p f => exact execReducePacketAtPort_canonical p f hs
  | reductionHoldExpiry p n => exact execReductionHoldExpiry_canonical p n hs
  | proxyAtomic d k => exact execProxyAtomic_canonical d k hs
  | managementPacket p f => exact execManagementPacket_canonical p f hs
  | noticeResend n => exact execNoticeResend_canonical n hs
  | fnackWrite n => exact execFnackWrite_canonical n hs
  | cctlWrite x v half level => exact execCctlWrite_canonical x v half level hs
  | caldWrite x i0 v half => exact execCaldWrite_canonical x i0 v half hs
  | translationWalk c x va => exact execTranslationWalk_canonical c x va hs
  | trapMessageAtCollector m => exact execTrapMessageAtCollector_canonical m hs
  | fresRetry d r x id => exact execFresRetry_canonical d r x id hs
  | fresFail d r x id => exact execFresFail_canonical d r x id hs
  | attestGo x => exact execAttestGo_canonical x hs
  | attestReportDone x => exact execAttestReportDone_canonical x hs
  | correctableError e => exact execCorrectableError_canonical e hs
  | uncorrectableError e => exact execUncorrectableError_canonical e hs
  | scrubPass key => exact execScrubPass_canonical key hs
  | errheal v => exact execErrheal_canonical v hs
  | fcmdFence x i0 => exact execFcmdFence_canonical x i0 hs
  | fcmdRestart x i0 => exact execFcmdRestart_canonical x i0 hs
  | calderaFence x i0 kind => exact execCalderaFence_canonical x i0 kind hs
  | clusterFence c => exact execClusterFence_canonical c hs
  | lockstepCompare q => exact execLockstepCompare_canonical q hs
  | shadowCommit x => exact execShadowCommit_canonical x hs
  | thermalStep d temp => exact execThermalStep_canonical d temp hs
  | powerLimitWindow pkg dies => exact execPowerLimitWindow_canonical pkg dies hs
  | lifeUpdate temps volts => exact execLifeUpdate_canonical temps volts hs
  | retentionEntry k => exact execRetentionEntry_canonical k hs
  | illegalInstruction w => exact execIllegalInstruction_canonical w hs
  | walkerIllegalWord w => exact execWalkerIllegalWord_canonical w hs
  | ucieLinkUp m => exact execUcieLinkUp_canonical m hs
  | thermalResetTrip d => exact execThermalResetTrip_canonical d hs
  | servoLockChange on => exact execServoLockChange_canonical on hs

theorem coreTurn_canonical (k : Nat) (hs : s.mem.wf = true) : Canonical (coreTurn k s) := by
  unfold coreTurn
  cases s.nextSlot k with
  | none => exact (canonical_next s).2 hs
  | some q =>
    have h := State.fetchSlot_wf (s := s.giveTurn q) q (by simpa using hs)
    dsimp only
    generalize (s.giveTurn q).fetchSlot q = p at h ⊢
    obtain ⟨s1, r⟩ := p
    cases r with
    | wait => exact (canonical_next s1).2 h
    | fault f => exact (canonical_next _).2 (State.fetchFault_wf q f h)
    | word w =>
      refine afterIssue_canonical q w ?_
      cases (s1.slot q).decode w with
      | ok i => exact exec_canonical i h
      | error v => exact execIllegalInstruction_canonical v h

theorem walkerTurn_canonical (k : Nat) (hs : s.mem.wf = true) : Canonical (walkerTurn k s) := by
  have h := State.walkTurn_wf k hs
  unfold walkerTurn
  generalize s.walkTurn k = p at h ⊢
  obtain ⟨s1, r⟩ := p
  cases r with
  | rest => exact (canonical_next s1).2 h
  | word i => exact exec_canonical i h
  | illegal w => exact execWalkerIllegalWord_canonical w h

theorem eventTurn_canonical (n : Nat) (hs : s.mem.wf = true) : Canonical (eventTurn n s) := by
  unfold eventTurn
  cases s.agenda[n]? with
  | none => exact (canonical_next s).2 hs
  | some e => exact runEvent_canonical e hs

theorem step_canonical (hs : s.mem.wf = true) : Canonical (step s) := by
  have h : s.tick.nextTurn.1.mem.wf = true := by simpa using hs
  unfold step
  generalize s.tick.nextTurn = p at h ⊢
  obtain ⟨s1, _ | t⟩ := p
  · exact (canonical_next s1).2 h
  · cases t with
    | core k => exact coreTurn_canonical k h
    | walk k => exact walkerTurn_canonical k h
    | event n => exact eventTurn_canonical n h

/-- Settles O3: the turn of a core, of a walk or of a step that is due ends in the meaning of one instruction or step of the
package, and each of these keeps memory canonical. -/
theorem everyStepKeepsMemoryCanonical : Obligations.EveryStepKeepsMemoryCanonical :=
  fun _ t hs e => step_canonical hs t e

/-- Settles O2. -/
theorem memoryIsCanonicalAtReset : Obligations.MemoryIsCanonicalAtReset := Memory.wf_nil

end Sys2Proof.Machine

/-! ## Writes to register space (O54)

REGISTER_WRITE stamps the register, makes the acknowledgement due, and hands the write to the block of its offset.
First what each block does at the offsets that the statement names, for an arbitrary state; then the step itself. -/

namespace Sys2Proof.Machine

variable {s : State} {r : RegWrite}

/-! ### The timestamp and the acknowledgement -/

/-- Eight bytes at a multiple of eight are one location (R260). -/
theorem locsOf_aligned {key : Nat} (h : key % 8 = 0) : locsOf key 8 = [key] := by
  have one : (key + 8 + 7) / 8 - key / 8 = 1 := by omega
  have back : 8 * (key / 8) = key := by omega
  simp [locsOf, one, back]

theorem State.stampLocs_aligned {key pts : Nat} (h : key % 8 = 0) :
    s.stampLocs key 8 pts =
      { s with lineTs := putAt s.lineTs (tsKey key) (max pts (s.ts key).1, max pts (s.ts key).1) } := by
  simp [State.stampLocs, locsOf_aligned h]

theorem State.stampLocs_dev (key n pts : Nat) : (s.stampLocs key n pts).dev = s.dev := by
  unfold State.stampLocs
  generalize locsOf key n = ks
  induction ks generalizing s with
  | nil => rfl
  | cons k ks ih => exact ih

/-- The state in which a register write has its timestamp and its acknowledgement is due (R468). -/
def State.stampWrite (s : State) (r : RegWrite) : State :=
  match r.agent with
  | .slot q => (s.stampLocs (regKey r.offset) 8 r.pts).push (.writeAck q r.id r.pts)
  | _ => s.stampLocs (regKey r.offset) 8 r.pts

@[simp] theorem State.stampWrite_reg (o : Nat) : (s.stampWrite r).reg o = s.reg o := by
  have hdev : (s.stampWrite r).dev = s.dev := by
    cases h : r.agent <;> simp [State.stampWrite, h, State.stampLocs_dev]
  simp [State.reg, hdev]

/-! ### Whole and half writes -/

@[simp] theorem mergeHalf_both (old v : Word) : mergeHalf old v .both = v := rfl

@[simp] theorem halfReaches_both (high : Bool) : halfReaches .both high = true := rfl

@[simp] theorem and_halfMask_both (v : Word) : v &&& halfMask .both = v := BitVec.and_allOnes

theorem fieldOf_zero (v : Word) (h : Nat) : fieldOf v h 0 = v.toNat % 2 ^ (h + 1) := by
  simp [fieldOf]

/-- A plain write of a register with no W1C bits (R5). -/
theorem State.regPlain_rw {o : Nat} {m : Bool} {v mask : Word} (hrw : regRw o m = mask) (hw1c : regW1c o = 0) :
    s.regPlain o m v .both = s.setReg o ((s.reg o &&& ~~~mask) ||| (v &&& mask)) := by
  simp only [State.regPlain, hrw, hw1c, and_halfMask_both, mergeHalf_both, BitVec.ofNat_eq_ofNat, BitVec.zero_and,
    BitVec.not_zero, BitVec.and_allOnes]

/-- A plain write of a register with no RW bits (R5). -/
theorem State.regPlain_w1c {o : Nat} {m : Bool} {v mask : Word} (hrw : regRw o m = 0) (hw1c : regW1c o = mask) :
    s.regPlain o m v .both = s.setReg o (s.reg o &&& ~~~(v &&& mask)) := by
  rw [BitVec.and_comm v mask]
  simp only [State.regPlain, hrw, hw1c, and_halfMask_both, mergeHalf_both, BitVec.ofNat_eq_ofNat, BitVec.zero_and,
    BitVec.and_zero, BitVec.or_zero, BitVec.not_zero, BitVec.and_allOnes]

/-! ### The block of an offset (R437) -/

section
variable {k : Nat}

theorem regBlock_fabric (hk : k < 0x800000) : regBlock (fabricBase + k) = some (.fabric, k) := by
  unfold regBlock fabricBase
  rw [if_neg (by omega), if_pos (by omega), Nat.add_sub_cancel_left]

theorem regBlock_sched (hk : k < 0x2000000) : regBlock (schedBase + k) = some (.sched, k) := by
  unfold regBlock fabricBase schedBase
  rw [if_neg (by omega), if_neg (by omega), if_pos (by omega), Nat.add_sub_cancel_left]

theorem regBlock_iso (hk : k < 0x100000) : regBlock (isoBase + k) = some (.iso, k) := by
  unfold regBlock fabricBase schedBase isoBase
  rw [if_neg (by omega), if_neg (by omega), if_neg (by omega), if_pos (by omega), Nat.add_sub_cancel_left]

theorem regBlock_recov (hk : k < 0x400000) : regBlock (recBase + k) = some (.recov, k) := by
  unfold regBlock fabricBase schedBase isoBase recBase
  rw [if_neg (by omega), if_neg (by omega), if_neg (by omega), if_neg (by omega), if_pos (by omega),
    Nat.add_sub_cancel_left]

theorem regBlock_mgmt (hk : k < 0x1000) : regBlock (mgmtBase + k) = some (.mgmt, k) := by
  unfold regBlock fabricBase schedBase isoBase recBase mgmtBase
  rw [if_neg (by omega), if_neg (by omega), if_neg (by omega), if_neg (by omega), if_neg (by omega),
    if_pos (by omega), Nat.add_sub_cancel_left]

/-! ### The step -/

theorem exec_registerWrite_quiet (h : ttentOff 0 0 ≤ r.offset → r.offset < ttentOff 256 0 → s.slotBegun = none) :
    exec (.registerWrite r) s = .next ((s.stampWrite r).regWrite r) := by
  have none_due : (if ttentOff 0 0 ≤ r.offset ∧ r.offset < ttentOff 256 0 then s.slotBegun else none) = none := by
    split
    · next hin => exact h hin.1 hin.2
    · rfl
  rw [exec_registerWrite, execRegisterWrite, none_due]
  rfl

theorem exec_registerWrite_begun {n : Nat} (hlo : ttentOff 0 0 ≤ r.offset) (hhi : r.offset < ttentOff 256 0)
    (h : s.slotBegun = some n) :
    exec (.registerWrite r) s = .next { s.push (.registerWrite r) with focus := some (.event n) } := by
  rw [exec_registerWrite, execRegisterWrite, if_pos ⟨hlo, hhi⟩, h]

theorem exec_registerWrite_pkg (ho : r.offset < 0x1000) : exec (.registerWrite r) s = .next (s.stampWrite r) := by
  rw [exec_registerWrite_quiet fun hlo => by unfold ttentOff schedBase at hlo; omega]
  simp [State.regWrite, regBlock, ho]

theorem exec_registerWrite_fabric (ho : r.offset = fabricBase + k) (hk : k < 0x800000) :
    exec (.registerWrite r) s = .next (fabricWrite r k (s.stampWrite r)) := by
  rw [exec_registerWrite_quiet fun hlo => by unfold ttentOff schedBase at hlo; unfold fabricBase at ho; omega,
    State.regWrite, ho, regBlock_fabric hk]

theorem exec_registerWrite_sched (ho : r.offset = schedBase + k) (hk : k < 0x2000000)
    (h : 0x8000 ≤ k → k < 0xA000 → s.slotBegun = none) :
    exec (.registerWrite r) s = .next (schedWrite r k (s.stampWrite r)) := by
  rw [exec_registerWrite_quiet fun hlo hhi => h (by unfold ttentOff at hlo; omega) (by unfold ttentOff at hhi; omega),
    State.regWrite, ho, regBlock_sched hk]

theorem exec_registerWrite_iso (ho : r.offset = isoBase + k) (hk : k < 0x100000) :
    exec (.registerWrite r) s = .next (isoWrite r k (s.stampWrite r)) := by
  rw [exec_registerWrite_quiet fun _ hhi => by unfold ttentOff schedBase at hhi; unfold isoBase at ho; omega,
    State.regWrite, ho, regBlock_iso hk]

theorem exec_registerWrite_recov (ho : r.offset = recBase + k) (hk : k < 0x400000) :
    exec (.registerWrite r) s = .next (recovWrite r k (s.stampWrite r)) := by
  rw [exec_registerWrite_quiet fun _ hhi => by unfold ttentOff schedBase at hhi; unfold recBase at ho; omega,
    State.regWrite, ho, regBlock_recov hk]

theorem exec_registerWrite_mgmt (ho : r.offset = mgmtBase + k) (hk : k < 0x1000) :
    exec (.registerWrite r) s = .next (mgmtWrite r k (s.stampWrite r)) := by
  rw [exec_registerWrite_quiet fun _ hhi => by unfold ttentOff schedBase at hhi; unfold mgmtBase at ho; omega,
    State.regWrite, ho, regBlock_mgmt hk]

end

/-! ### The time-triggered table (R353) -/

section
variable {e w : Nat}

theorem regBlock_ttentOff (he : e < 256) (hw : w < 4) :
    regBlock (ttentOff e w) = some (.sched, 0x8000 + 0x20 * e + 8 * w) := by
  rw [ttentOff, Nat.add_assoc, Nat.add_assoc, ← Nat.add_assoc 0x8000]
  exact regBlock_sched (by omega)

theorem regW1c_ttentOff (he : e < 256) (hw : w < 4) : regW1c (ttentOff e w) = 0 := by
  rw [regW1c, regBlock_ttentOff he hw]
  exact if_neg (by omega)

/-- The bits of a word of TTENT that a plain write sets (R353). -/
def ttentMask (w : Nat) (m : Bool) : Word :=
  match w with
  | 0 => if m then 0xBF00FFFF0000FFFF else 0x8000FFFF0000FFFF
  | 1 => 0x01FFFFFFFFFFFFC0
  | _ => 0

theorem ttentMask_of_two_le {m : Bool} (h : 2 ≤ w) : ttentMask w m = 0 := by
  obtain ⟨i, rfl⟩ := Nat.exists_eq_add_of_le' h
  rfl

theorem regRw_ttentOff (m : Bool) (he : e < 256) (hw : w < 4) : regRw (ttentOff e w) m = ttentMask w m := by
  have inEntry : (0x8000 + 0x20 * e + 8 * w) % 0x20 = 8 * w := by omega
  rw [regRw, regBlock_ttentOff he hw]
  dsimp only
  rw [if_neg (by omega), if_neg (by omega), if_neg (by omega), if_neg (by omega), if_pos (by omega), inEntry]
  match w, hw with
  | 0, _ => rfl
  | 1, _ => rfl
  | 2, _ => rfl
  | 3, _ => rfl

theorem exec_registerWrite_ttent (he : e < 256) (hw : w < 4) (ho : r.offset = ttentOff e w)
    (hidle : s.slotBegun = none) (hb : r.half = .both) :
    exec (.registerWrite r) s = .next ((s.stampWrite r).setReg (ttentOff e w)
      ((s.reg (ttentOff e w) &&& ~~~ttentMask w (r.level == 2)) ||| (r.value &&& ttentMask w (r.level == 2)))) := by
  have plain : schedWrite r (0x8000 + 0x20 * e + 8 * w) (s.stampWrite r) =
      (s.stampWrite r).regPlain r.offset (r.level == 2) r.value r.half := by
    unfold schedWrite
    dsimp only
    rw [if_neg (by omega), if_neg (by omega), if_neg (by omega), if_neg (by omega)]
  rw [exec_registerWrite_sched (k := 0x8000 + 0x20 * e + 8 * w) (by rw [ho]; unfold ttentOff; omega) (by omega)
    fun _ _ => hidle, plain, ho, hb, State.regPlain_rw (regRw_ttentOff _ he hw) (regW1c_ttentOff he hw),
    State.stampWrite_reg]

end

/-! ### The isolation block (R378) -/

section
variable {x : Nat}

/-- A register of a context's page of the isolation block: the page's context and the offset in it. -/
theorem isoPage_fields {j : Nat} (hx : x < 64) (hj : j < 0x100) :
    j + 0x100 * x < 0x4000 ∧ (j + 0x100 * x) / 0x100 = x ∧ (j + 0x100 * x) % 0x100 = j := by omega

theorem isoWrite_cctl (hx : x < 64) : isoWrite r (0x100 * x) s = s.pushNext (.cctlWrite x r.value r.half r.level) := by
  obtain ⟨hlt, hdiv, hmod⟩ := isoPage_fields (j := 0) hx (by decide)
  rw [Nat.zero_add] at hlt hdiv hmod
  simp [isoWrite, hlt, hdiv]

theorem isoWrite_cald {i : Nat} (hx : x < 64) (hi : i < 8) :
    isoWrite r (0x40 + 8 * i + 0x100 * x) s = s.pushNext (.caldWrite x i r.value r.half) := by
  obtain ⟨hlt, hdiv, hmod⟩ := isoPage_fields (j := 0x40 + 8 * i) hx (by omega)
  have word : (0x40 + 8 * i - 0x40) / 8 = i := by omega
  unfold isoWrite
  dsimp only
  rw [if_pos hlt, hdiv, hmod, if_neg (by omega), if_neg (by omega), if_pos (by omega), word]

theorem isoWrite_attgo (hx : x < 64) (hb : r.half = .both) (hgo : r.value.getLsbD 0 = true) :
    isoWrite r (0xA8 + 0x100 * x) s = s.pushNext (.attestGo x) := by
  obtain ⟨hlt, hdiv, hmod⟩ := isoPage_fields (j := 0xA8) hx (by decide)
  simp [isoWrite, hlt, hdiv, hmod, hb, hgo]

theorem isoWrite_svec (hx : x < 64) (hb : r.half = .both) (ho : r.offset = svecOff x) :
    isoWrite r (0x18 + 0x100 * x) s = s.setReg (svecOff x)
      ((s.reg (svecOff x) &&& ~~~0x01FFFFFFFFFFFFFC) ||| (r.value &&& 0x01FFFFFFFFFFFFFC)) := by
  obtain ⟨hlt, hdiv, hmod⟩ := isoPage_fields (j := 0x18) hx (by decide)
  have block : regBlock (svecOff x) = some (.iso, 0x18 + 0x100 * x) := by
    rw [svecOff, Nat.add_assoc]
    exact regBlock_iso (by omega)
  have hrw (m : Bool) : regRw (svecOff x) m = 0x01FFFFFFFFFFFFFC := by simp [regRw, block, hlt, hmod]
  have hw1c : regW1c (svecOff x) = 0 := by rw [regW1c, block]
  rw [← State.regPlain_rw (hrw (r.level == 2)) hw1c]
  simp [isoWrite, hlt, hmod, hb, ho]

/-- The step that a write to FRES starts: for the context of its bits [29:24] at level M, and for the writer's own
elsewhere (R378). -/
def fresEvent (r : RegWrite) (d j : Nat) : Event :=
  let x := if r.level = 2 then r.value.toNat / 2 ^ 24 % 64 else r.ctx
  if r.value.getLsbD 16 then .fresFail d j x (r.value.toNat % 65536) else .fresRetry d j x (r.value.toNat % 65536)

theorem isoWrite_fres {d j : Nat} (hd : d < 8) (hj : j < 8) (hb : r.half = .both) :
    isoWrite r (0x10000 + 8 * (8 * d + j)) s = s.pushNext (fresEvent r d j) := by
  have word : (0x10000 + 8 * (8 * d + j) - 0x10000) / 8 = 8 * d + j := by omega
  have die : (8 * d + j) / 8 = d := by omega
  have port : (8 * d + j) % 8 = j := by omega
  unfold isoWrite fresEvent
  dsimp only
  rw [if_neg (by omega), if_pos (by omega), word, die, port, hb, mergeHalf_both, halfReaches_both]
  cases r.value.getLsbD 16 <;> simp [fieldOf]

end

/-! ### The scheduling block (R344) -/

theorem schedWrite_grctl {x : Nat} (hx : x < 64) (hb : r.half = .both) :
    schedWrite r (0x80 * x) s = s.pushNext (.grctlWrite x r.value) := by
  have ctx : 0x80 * x / 0x80 = x := by omega
  unfold schedWrite
  dsimp only
  rw [if_neg (by omega), if_pos (by omega), if_pos (by omega), ctx, hb, mergeHalf_both]

section
variable {n : Nat}

theorem schedWrite_qctl (hn : n < 256) :
    schedWrite r (0x2008 + 0x40 * n) s = s.pushNext (.queueControlWrite n r.value r.half r.level) := by
  have queue : (0x2008 + 0x40 * n - 0x2000) / 0x40 = n := by omega
  unfold schedWrite
  dsimp only
  rw [if_neg (by omega), if_neg (by omega), if_pos (by omega), if_pos (by omega), queue]

theorem schedWrite_qtail (hn : n < 256) (hb : r.half = .both) :
    schedWrite r (0x2018 + 0x40 * n) s = s.pushNext (.doorbell n (BitVec.ofNat 32 r.value.toNat) r.pts) := by
  have queue : (0x2018 + 0x40 * n - 0x2000) / 0x40 = n := by omega
  unfold schedWrite
  dsimp only
  rw [if_neg (by omega), if_neg (by omega), if_pos (by omega), if_neg (by omega), if_pos (by omega), queue, hb]
  rfl

theorem schedWrite_geyser (hb : r.half = .both) :
    schedWrite r (0x1000000 + 0x10000 * n) s = s.pushNext (.doorbell n (BitVec.ofNat 32 r.value.toNat) r.pts) := by
  have queue : (0x1000000 + 0x10000 * n - 0x1000000) / 0x10000 = n := by omega
  unfold schedWrite
  dsimp only
  rw [if_pos (by omega), if_pos (by omega), queue, hb]
  rfl

end

/-! ### The recovery and management blocks (R414, R442) -/

theorem recovWrite_errheal (ho : r.offset = errhealOff) (hm : r.level = 2) :
    recovWrite r 0x20 s =
      (s.setReg errhealOff (mergeHalf (s.reg errhealOff) r.value r.half &&& 0x00FFFFFFFFFFFF80)).pushNext
        (.errheal (mergeHalf (s.reg errhealOff) r.value r.half)) := by
  simp [recovWrite, ho, hm]

theorem recovWrite_fnack (hb : r.half = .both) :
    recovWrite r 0x30 s = s.pushNext (.fnackWrite (BitVec.ofNat 16 r.value.toNat)) := by
  have low : BitVec.ofNat 16 (fieldOf r.value 15 0) = BitVec.ofNat 16 r.value.toNat :=
    BitVec.eq_of_toNat_eq (by simp [fieldOf_zero])
  simp [recovWrite, hb, low]

theorem recovWrite_fcmd {x : Nat} (hx : x < 64) (hb : r.half = .both) :
    recovWrite r (0x10010 + 0x80 * x) s = s.pushAll (fcmdEvents x r.value) := by
  have ctx : (0x10010 + 0x80 * x - 0x10000) / 0x80 = x := by omega
  unfold recovWrite
  dsimp only
  rw [if_neg (by omega), if_neg (by omega), if_neg (by omega), if_pos (by omega), if_pos (by omega), ctx, hb]
  rfl

theorem mgmtWrite_reset (hb : r.half = .both) (hgo : r.value.getLsbD 0 = true) :
    mgmtWrite r 0x08 s = s.pushNext .packageReset := by
  simp [mgmtWrite, hb, hgo]

theorem mgmtWrite_hostev (ho : r.offset = hostevOff) (hb : r.half = .both) :
    mgmtWrite r 0x10 s = s.setReg hostevOff (s.reg hostevOff &&& ~~~(r.value &&& 0x1F)) := by
  have block : regBlock hostevOff = some (.mgmt, 0x10) := regBlock_mgmt (by decide)
  have hrw : regRw hostevOff true = 0 := by simp [regRw, block]
  have hw1c : regW1c hostevOff = 0x1F := by simp [regW1c, block]
  rw [← State.regPlain_w1c hrw hw1c]
  simp [mgmtWrite, hb, ho]

/-! ### The fabric block (R319, R328, R333) -/

theorem fabricWrite_rtctl {k : Nat} (hk : k < 49) (hb : r.half = .both) (hswap : r.value.getLsbD 1 = true)
    (hkeep : r.value.getLsbD 2 = false) : fabricWrite r (0x400 + 8 * k) s = s.pushNext (.routingSwap k) := by
  have table : (0x400 + 8 * k - 0x400) / 8 = k := by omega
  unfold fabricWrite
  dsimp only
  rw [if_pos (by omega), table, hb, mergeHalf_both, hkeep, hswap]
  rfl

theorem fabricWrite_rwin {w i : Nat} (hw : w < 16) (hi : i < 4) :
    fabricWrite r (0x1000 + 0x20 * w + 8 * i) s =
      s.pushNext (.rwinWrite w i r.value r.half r.level r.ctx) := by
  have window : (0x1000 + 0x20 * w + 8 * i - 0x1000) / 0x20 = w := by omega
  have word : (0x1000 + 0x20 * w + 8 * i) % 0x20 / 8 = i := by omega
  unfold fabricWrite
  dsimp only
  rw [if_neg (by omega), if_pos (by omega), window, word]

/-- The low half of a pair of routing-table entries is the even one (R319). -/
theorem fabricWrite_rte {k b n : Nat} (hb2 : b < 2) (hn : n < 16384) (hlo : r.half = .lo) :
    fabricWrite r (0x100000 + 0x20000 * k + 0x10000 * b + 4 * n) s =
      s.pushNext (.routingEntryWrite k b n (BitVec.ofNat 32 r.value.toNat)) := by
  have table : (0x100000 + 0x20000 * k + 0x10000 * b + 4 * n - 0x100000) / 0x20000 = k := by omega
  have bank : (0x100000 + 0x20000 * k + 0x10000 * b + 4 * n - 0x100000) / 0x10000 % 2 = b := by omega
  have node : (0x100000 + 0x20000 * k + 0x10000 * b + 4 * n - 0x100000) % 0x10000 / 4 = n := by omega
  have low : BitVec.ofNat 32 (fieldOf (mergeHalf 0 r.value .lo) 31 0) = BitVec.ofNat 32 r.value.toNat := by
    apply BitVec.eq_of_toNat_eq
    simp only [fieldOf_zero, mergeHalf, BitVec.toNat_ofNat]
    omega
  unfold fabricWrite
  dsimp only
  rw [if_neg (by omega), if_neg (by omega), if_pos (by omega), table, bank, node, hlo, low]
  rfl


/-! ### The statement -/

section
variable {x : Nat}

/-- An offset that adds a context's page to a register's place in it, from the base of its block. -/
theorem exec_registerWrite_isoPage {j : Nat} (hx : x < 64) (hj : j < 0x100) (ho : r.offset = isoBase + j + 0x100 * x) :
    exec (.registerWrite r) s = .next (isoWrite r (j + 0x100 * x) (s.stampWrite r)) :=
  exec_registerWrite_iso (ho.trans (Nat.add_assoc ..)) (by omega)

theorem exec_registerWrite_cctl (hx : x < 64) (hb : r.half = .both) (ho : r.offset = cctlOff x) :
    exec (.registerWrite r) s = .next ((s.stampWrite r).pushNext (.cctlWrite x r.value .both r.level)) := by
  rw [exec_registerWrite_iso ho (by omega), isoWrite_cctl hx, hb]

theorem exec_registerWrite_cald {i : Nat} (hx : x < 64) (hb : r.half = .both) (hi : i < 8)
    (ho : r.offset = caldOff x i) :
    exec (.registerWrite r) s = .next ((s.stampWrite r).pushNext (.caldWrite x i r.value .both)) := by
  rw [exec_registerWrite_isoPage (j := 0x40 + 8 * i) hx (by omega) (by rw [ho]; unfold caldOff; omega),
    isoWrite_cald hx hi, hb]

theorem exec_registerWrite_attgo (hx : x < 64) (hb : r.half = .both) (ho : r.offset = attgoOff x)
    (hgo : r.value.getLsbD 0 = true) :
    exec (.registerWrite r) s = .next ((s.stampWrite r).pushNext (.attestGo x)) := by
  rw [exec_registerWrite_isoPage hx (by decide) ho, isoWrite_attgo hx hb hgo]

theorem exec_registerWrite_svec (hx : x < 64) (hb : r.half = .both) (ho : r.offset = svecOff x) :
    exec (.registerWrite r) s = .next ((s.stampWrite r).setReg (svecOff x)
      ((s.reg (svecOff x) &&& ~~~0x01FFFFFFFFFFFFFC) ||| (r.value &&& 0x01FFFFFFFFFFFFFC))) := by
  rw [exec_registerWrite_isoPage hx (by decide) ho, isoWrite_svec hx hb ho, State.stampWrite_reg]

theorem exec_registerWrite_grctl (hx : x < 64) (hb : r.half = .both) (ho : r.offset = grctlOff x) :
    exec (.registerWrite r) s = .next ((s.stampWrite r).pushNext (.grctlWrite x r.value)) := by
  rw [exec_registerWrite_sched ho (by omega) (by omega), schedWrite_grctl hx hb]

theorem exec_registerWrite_fres {d j : Nat} (hd : d < 8) (hj : j < 8) (hb : r.half = .both)
    (ho : r.offset = isoBase + 0x10000 + 8 * (8 * d + j)) :
    exec (.registerWrite r) s = .next ((s.stampWrite r).pushNext (fresEvent r d j)) := by
  rw [exec_registerWrite_iso (ho.trans (Nat.add_assoc ..)) (by omega), isoWrite_fres hd hj hb]

theorem exec_registerWrite_fcmd (hx : x < 64) (hb : r.half = .both) (ho : r.offset = fcmdOff x) :
    exec (.registerWrite r) s = .next ((s.stampWrite r).pushAll (fcmdEvents x r.value)) := by
  rw [exec_registerWrite_recov (ho.trans (Nat.add_assoc ..)) (by omega), recovWrite_fcmd hx hb]

end

theorem exec_registerWrite_qctl {n : Nat} (hn : n < 256) (hb : r.half = .both) (ho : r.offset = qctlOff n) :
    exec (.registerWrite r) s = .next ((s.stampWrite r).pushNext (.queueControlWrite n r.value .both r.level)) := by
  rw [exec_registerWrite_sched (ho.trans (Nat.add_assoc ..)) (by omega) (by omega), schedWrite_qctl hn, hb]

/-- A doorbell by the queue's own block or by its Geyser page (R351, R352). -/
theorem exec_registerWrite_doorbell {n : Nat} (hn : n < 256) (hb : r.half = .both)
    (ho : r.offset = qtailOff n ∨ r.offset = geyserBase + 0x10000 * n) :
    exec (.registerWrite r) s =
      .next ((s.stampWrite r).pushNext (.doorbell n (BitVec.ofNat 32 r.value.toNat) r.pts)) := by
  rcases ho with ho | ho
  · rw [exec_registerWrite_sched (ho.trans (Nat.add_assoc ..)) (by omega) (by omega), schedWrite_qtail hn hb]
  · rw [exec_registerWrite_sched (ho.trans (Nat.add_assoc ..)) (by omega) (by omega), schedWrite_geyser hb]

theorem exec_registerWrite_rwin {w i : Nat} (hw : w < 16) (hi : i < 4) (hb : r.half = .both)
    (ho : r.offset = rwinOff w i) : exec (.registerWrite r) s =
      .next ((s.stampWrite r).pushNext (.rwinWrite w i r.value .both r.level r.ctx)) := by
  rw [exec_registerWrite_fabric (k := 0x1000 + 0x20 * w + 8 * i) (by rw [ho]; unfold rwinOff; omega) (by omega),
    fabricWrite_rwin hw hi, hb]

theorem exec_registerWrite_rtctl {k : Nat} (hk : k < 49) (hb : r.half = .both) (ho : r.offset = rtctlOff k)
    (hswap : r.value.getLsbD 1 = true) (hkeep : r.value.getLsbD 2 = false) :
    exec (.registerWrite r) s = .next ((s.stampWrite r).pushNext (.routingSwap k)) := by
  rw [exec_registerWrite_fabric (ho.trans (Nat.add_assoc ..)) (by omega), fabricWrite_rtctl hk hb hswap hkeep]

theorem exec_registerWrite_rte {k b n : Nat} (hk : k < 49) (hb : b < 2) (hn : n < 16384) (ho : r.offset = rteOff k b n)
    (hlo : r.half = .lo) : exec (.registerWrite r) s =
      .next ((s.stampWrite r).pushNext (.routingEntryWrite k b n (BitVec.ofNat 32 r.value.toNat))) := by
  rw [exec_registerWrite_fabric (k := 0x100000 + 0x20000 * k + 0x10000 * b + 4 * n)
    (by rw [ho]; unfold rteOff; omega) (by omega), fabricWrite_rte hb hn hlo]

/-- Settles O54: the step stamps the register, makes the acknowledgement due and hands the write to the block of its
offset; each clause is then the branch of that block's write. -/
theorem registerWritesSetTheirFieldsOrStartTheirStep :
    Obligations.RegisterWritesSetTheirFieldsOrStartTheirStep := by
  intro s r p v s1 t starts
  refine ⟨fun h => ?stamp, exec_registerWrite_pkg,
    fun e w he hw ho => ⟨fun n hn => ?begun, fun hidle hb => ?table⟩,
    fun ho hm => ?errheal, fun hb => ⟨fun x hx ho => exec_registerWrite_svec hx hb ho, fun ho => ?hostev,
      fun x hx => ⟨exec_registerWrite_cctl hx hb, fun i hi ho => exec_registerWrite_cald hx hb hi ho,
        exec_registerWrite_grctl hx hb, exec_registerWrite_attgo hx hb, exec_registerWrite_fcmd hx hb⟩,
      fun w i hw hi ho => exec_registerWrite_rwin hw hi hb ho,
      fun n hn => ⟨exec_registerWrite_qctl hn hb, exec_registerWrite_doorbell hn hb⟩, fun d j hd hj ho => ?fres,
      fun ho hgo => ?reset, fun k hk ho => exec_registerWrite_rtctl hk hb ho, fun ho => ?fnack⟩,
    fun k b n hk hb hn _ ho hlo => exec_registerWrite_rte hk hb hn ho hlo⟩
  case stamp => exact State.stampLocs_aligned (by unfold regKey; omega)
  case begun =>
    exact exec_registerWrite_begun (by rw [ho]; unfold ttentOff; omega) (by rw [ho]; unfold ttentOff; omega) hn
  case table =>
    have write := exec_registerWrite_ttent he hw ho hidle hb
    refine ⟨fun hw hm => ?_, fun hw hm => ?_, fun hw => ?_, fun hw => ?_⟩
    · subst hw
      rwa [beq_iff_eq.mpr hm] at write
    · subst hw
      rwa [beq_eq_false_iff_ne.mpr hm] at write
    · subst hw
      exact write
    · simp only [ttentMask_of_two_le hw, BitVec.ofNat_eq_ofNat, BitVec.not_zero, BitVec.and_allOnes, BitVec.and_zero,
        BitVec.or_zero] at write
      exact write
  case errheal =>
    have write : exec (.registerWrite r) s = _ := exec_registerWrite_recov ho (by decide)
    rw [recovWrite_errheal ho hm, State.stampWrite_reg] at write
    exact write
  case hostev =>
    have write : exec (.registerWrite r) s = _ := exec_registerWrite_mgmt ho (by decide)
    rw [mgmtWrite_hostev ho hb, State.stampWrite_reg] at write
    exact write
  case fres =>
    have write : exec (.registerWrite r) s = _ := exec_registerWrite_fres hd hj hb ho
    constructor <;> intro h16 <;> rw [fresEvent, h16] at write <;> exact write
  case reset =>
    exact (exec_registerWrite_mgmt ho (by decide)).trans (congrArg _ (mgmtWrite_reset hb hgo))
  case fnack =>
    exact (exec_registerWrite_recov ho (by decide)).trans (congrArg _ (recovWrite_fnack hb))

end Sys2Proof.Machine

/-! ## Floating-point results (O15, O22, O23)

A scalar FP32 instruction rounds once, a floating vector instruction once for each lane. First the masks of lists of
registers; then the scalar instructions; then the lanes of a result, for the vector instructions that round and for those
that do not. -/

namespace Sys2Proof

@[simp] theorem Taint.none_union (m : Taint) : Taint.none.union m = m := by
  simp only [Taint.union, Taint.none, BitVec.ofNat_eq_ofNat, BitVec.zero_or, Nat.zero_max]

end Sys2Proof

namespace Sys2Proof.Machine

open Sys2Proof.Safety

/-! ### The masks of the operands (R79, R147) -/

theorem Slot.masks_one (a : BitVec 5) (x : Slot) : x.masks [a] = x.smask a := by
  simp only [Slot.masks, List.foldl_cons, List.foldl_nil, Taint.none_union]

theorem Slot.masks_two (a b : BitVec 5) (x : Slot) : x.masks [a, b] = both a b x := by
  simp only [Slot.masks, List.foldl_cons, List.foldl_nil, Taint.none_union, both]

theorem Slot.masks_three (a b c : BitVec 5) (x : Slot) : x.masks [a, b, c] = (both a b x).union (x.smask c) := by
  simp only [Slot.masks, List.foldl_cons, List.foldl_nil, Taint.none_union, both]

theorem Slot.vmasks_one (a : BitVec 5) (x : Slot) : x.vmasks [a] = x.vmask a := by
  simp only [Slot.vmasks, List.foldl_cons, List.foldl_nil, Taint.none_union]

theorem Slot.vmasks_two (a b : BitVec 5) (x : Slot) : x.vmasks [a, b] = vboth a b x := by
  simp only [Slot.vmasks, List.foldl_cons, List.foldl_nil, Taint.none_union, vboth]

theorem Slot.vmasks_three (a b c : BitVec 5) (x : Slot) : x.vmasks [a, b, c] = (vboth a b x).union (x.vmask c) := by
  simp only [Slot.vmasks, List.foldl_cons, List.foldl_nil, Taint.none_union, vboth]

/-! ### Instructions that change their slot alone -/

/-- An instruction whose effect is one change of its slot completes by that change. -/
theorem completes_of_complete {i : Instr} {f : Slot → Slot} (he : ∀ s, exec i s = issue i s fun q s => complete q s f) :
    Completes i f := fun s q ready => by rw [he, issue_ready ready, complete_eq]

/-! ### Scalar FP32 instructions (R147, R156, R157) -/

/-- What a scalar FP32 instruction that rounds does: its result, mask, flags and one generator step (R156). -/
def RoundsS (i : Instr) (d : BitVec 5) (v : Slot → Nat × BitVec 5) (m : Slot → Taint) : Prop :=
  Completes i fun x => ((x.setS d (BitVec.ofNat 64 (v x).1) (m x)).orFlags (v x).2).takeSteps 1

section
variable {i : Instr} {d : BitVec 5} {srcs : List (BitVec 5)} {m : Slot → Taint}

theorem roundsS_fpRound {f : Rounding → Slot → Nat × BitVec 5} {v : Slot → Nat × BitVec 5}
    (he : ∀ s, exec i s = fpRound i d srcs f s) (hm : ∀ x, x.masks srcs = m x)
    (hv : ∀ x, f ((x.roundings 1).headD rne) x = v x) : RoundsS i d v m := by
  obtain rfl : (fun x => x.masks srcs) = m := funext hm
  obtain rfl : (fun x => f ((x.roundings 1).headD rne) x) = v := funext hv
  exact completes_of_complete he

theorem writesS_fpPlain {f : Slot → Nat} {v : Slot → Word} (he : ∀ s, exec i s = fpPlain i d srcs f s)
    (hm : ∀ x, x.masks srcs = m x) (hv : ∀ x, BitVec.ofNat 64 (f x) = v x) : WritesS i d v m := by
  obtain rfl : (fun x => x.masks srcs) = m := funext hm
  obtain rfl : (fun x => BitVec.ofNat 64 (f x)) = v := funext hv
  exact completes_of_complete he

end

/-- A truth value as a scalar register takes it (R156). -/
theorem ofNat_boolToNat (b : Bool) : BitVec.ofNat 64 b.toNat = if b then 1 else 0 := by
  cases b <;> rfl

theorem ofNat_boolToNat_or (b c : Bool) : BitVec.ofNat 64 (b || c).toNat = if b ∨ c then 1 else 0 := by
  simp only [ofNat_boolToNat, Bool.or_eq_true]

/-- FABS keeps the low 31 bits (R156). -/
theorem Slot.f32_abs (x : Slot) (a : BitVec 5) : BitVec.ofNat 64 (x.f32 a % 2 ^ 31) = x.sreg a &&& 0x7FFFFFFF := by
  apply BitVec.eq_of_toNat_eq
  have low : (x.sreg a).toNat &&& 0x7FFFFFFF = (x.sreg a).toNat % 2 ^ 31 := Nat.and_two_pow_sub_one_eq_mod _ 31
  rw [BitVec.toNat_ofNat, BitVec.toNat_and, show (0x7FFFFFFF : Word).toNat = 0x7FFFFFFF from rfl, low, Slot.f32]
  omega

theorem Val.nan_eq (u : Val) : Val.nan.eq u = false := by
  simp only [Val.eq, bne_self_eq_false, Bool.false_and]

theorem Val.eq_nan (u : Val) : u.eq Val.nan = false := by
  simp only [Val.eq, bne_self_eq_false, Bool.false_and, Bool.and_false]

theorem Val.nan_lt (u : Val) : Val.nan.lt u = false := by
  simp only [Val.lt, bne_self_eq_false, Bool.false_and]

theorem Val.lt_nan (u : Val) : u.lt Val.nan = false := by
  simp only [Val.lt, bne_self_eq_false, Bool.false_and, Bool.and_false]

/-- Settles O15: each instruction is `fpRound` or `fpPlain` of its own function of the operands. -/
theorem scalarFloatInstructionsWriteTheirResults : Obligations.ScalarFloatInstructionsWriteTheirResults := by
  intro d a b c
  have one := Slot.masks_one a
  have two := Slot.masks_two a b
  refine ⟨?fadd, ?fsub, ?fmul, ?fdiv, ?fma, ?fsqrt, ?fcvtS64, ?fcvtiS64, ?fxse, ?fmin, ?fmax, ?feq, ?flt, ?fle, ?fabs,
    ?fxsd, ?nan⟩
  case fadd => exact roundsS_fpRound (exec_fadd d a b) two fun _ => rfl
  case fsub => exact roundsS_fpRound (exec_fsub d a b) two fun _ => rfl
  case fmul => exact roundsS_fpRound (exec_fmul d a b) two fun _ => rfl
  case fdiv => exact roundsS_fpRound (exec_fdiv d a b) two fun _ => rfl
  case fma => exact roundsS_fpRound (exec_fma d a b c) (Slot.masks_three a b c) fun _ => rfl
  case fsqrt => exact roundsS_fpRound (exec_fsqrt d a) one fun _ => rfl
  case fcvtS64 => exact roundsS_fpRound (exec_fcvtS64 d a) one fun _ => rfl
  case fcvtiS64 => exact roundsS_fpRound (exec_fcvtiS64 d a) one fun _ => rfl
  case fxse => exact roundsS_fpRound (exec_fxse d a) one fun _ => rfl
  case fmin => exact writesS_fpPlain (exec_fmin d a b) two fun _ => rfl
  case fmax => exact writesS_fpPlain (exec_fmax d a b) two fun _ => rfl
  case feq => exact writesS_fpPlain (exec_feq d a b) two fun _ => ofNat_boolToNat _
  case flt => exact writesS_fpPlain (exec_flt d a b) two fun _ => ofNat_boolToNat _
  case fle => exact writesS_fpPlain (exec_fle d a b) two fun _ => ofNat_boolToNat_or _ _
  case fabs => exact writesS_fpPlain (exec_fabs d a) one fun x => x.f32_abs a
  case fxsd => exact writesS_fpPlain (exec_fxsd d a) one fun _ => rfl
  case nan => exact fun u => ⟨u.nan_eq, u.eq_nan, u.nan_lt, u.lt_nan⟩

/-! ### Lanes (R168) -/

section
variable {w k : Nat} {v : Line}

theorem lane_lt (w : Nat) (v : Line) (k : Nat) : lane w v k < 2 ^ w := Nat.mod_lt _ (Nat.two_pow_pos w)

theorem lanes_eq_map (w : Nat) (v : Line) : lanes w v = (List.range (1024 / w)).map (lane w v) := rfl

/-- A register built from a value for each of its lanes. -/
theorem lane_ofLanes_map (h : k < 1024 / w) (g : Nat → Nat) :
    lane w (ofLanes w ((List.range (1024 / w)).map g)) k = g k % 2 ^ w := by
  have fits : w * (k + 1) ≤ 1024 := Nat.le_trans (Nat.mul_le_mul_left w h) (Nat.mul_div_le 1024 w)
  rw [lane, ofLanes_lane w _ k fits, List.getD_eq_getElem?_getD, List.getElem?_map, List.getElem?_range h, Option.map_some,
    Option.getD_some]

/-- A lane by lane function of one register. -/
theorem lane_ofLanes_map_lanes (h : k < 1024 / w) (f : Nat → Nat) :
    lane w (ofLanes w ((lanes w v).map f)) k = f (lane w v k) % 2 ^ w := by
  rw [lanes_eq_map, List.map_map, lane_ofLanes_map h, Function.comp_apply]

/-- A lane by lane function of two registers. -/
theorem Slot.lane_lane2 (h : k < 1024 / w) (x : Slot) (a b : BitVec 5) (f : Nat → Nat → Nat) :
    lane w (x.lane2 w a b f) k = f (lane w (x.vreg a) k) (lane w (x.vreg b) k) % 2 ^ w := by
  rw [Slot.lane2, lanes_eq_map, lanes_eq_map, List.zipWith_map, List.zipWith_self, lane_ofLanes_map h]

end

/-- The value of a lane of a floating register. -/
def Slot.laneVal (x : Slot) (y : BitVec 4) (r : BitVec 5) (k : Nat) : Val :=
  (fmtOfTy y).decode (lane (tyWidth y) (x.vreg r) k)

theorem Slot.vals_eq_map (x : Slot) (y : BitVec 4) (r : BitVec 5) :
    x.vals y r = (List.range (1024 / tyWidth y)).map (x.laneVal y r) := List.map_map

/-! ### The draws of the elements (R135) -/

theorem srSteps_length (n : Nat) (seed : Word) : (srSteps n seed).1.length = n := by
  induction n generalizing seed with
  | zero => rfl
  | succ n ih => simp only [srSteps, List.length_cons, ih]

/-- Each step gives four draws, which is enough for the elements of an instruction. -/
theorem drawList_length (n : Nat) (seed : Word) : (drawList n seed).length = n := by
  have four : ((srSteps ((n + 3) / 4) seed).1.flatMap fun w => (List.range 4).map (drawIn w)).length =
      (n + 3) / 4 * 4 := by
    simp only [List.length_flatMap, List.length_map, List.length_range, List.map_const', List.sum_replicate_nat,
      srSteps_length]
  rw [drawList, List.length_take, four]
  omega

@[simp] theorem Slot.roundings_length (x : Slot) (n : Nat) : (x.roundings n).length = n := by
  unfold Slot.roundings
  split
  · rw [List.length_map, drawList_length]
  · rw [List.length_replicate]

/-- One rounding with the operand of each lane. -/
theorem zipWith_rounding {α β : Type} {rs : List Rounding} {n : Nat} (h : rs.length = n) (F : Rounding → α → β)
    (g : Nat → α) :
    List.zipWith F rs ((List.range n).map g) = (List.range n).map fun k => F (rs.getD k rne) (g k) := by
  apply List.ext_getElem
  · rw [List.length_zipWith, List.length_map, List.length_map, List.length_range, h, Nat.min_self]
  · intro k hk _
    have inside : k < rs.length := by rw [List.length_zipWith] at hk; omega
    rw [List.getElem_zipWith, List.getElem_map, List.getElem_map, List.getElem_range, List.getD_eq_getElem?_getD,
      List.getElem?_eq_getElem inside, Option.getD_some]

/-! ### Vector instructions that round no lane -/

theorem writesLanes_vecOp {i : Instr} {d : BitVec 5} {mask m : Slot → Taint} {w : Nat} {f : Slot → Line}
    {g : Slot → Nat → Nat} (he : ∀ s, exec i s = vecOp i d mask f s) (hm : ∀ x, mask x = m x)
    (hg : ∀ x k, k < 1024 / w → lane w (f x) k = g x k) : WritesLanes i d m w g := by
  obtain rfl : mask = m := funext hm
  exact fun s q ready => ⟨f (s.slot q), completes_of_complete he s q ready, hg (s.slot q)⟩

/-! ### Vector instructions that round each lane once (R135, R170) -/

/-- What a floating vector instruction does: lane k is the result `f` gives with the rounding of element k, the flags of
all lanes go into FFLAGS, and the steps of all elements are taken. -/
def RoundsLanes (i : Instr) (d : BitVec 5) (m : Slot → Taint) (w : Nat) (f : Slot → Rounding → Nat → Nat × BitVec 5) :
    Prop :=
  ∀ (s : State) (q : Nat), Ready i q s → ∃ (v : Line) (fl : BitVec 5),
    exec i s = .next (s.modSlot q fun x => (((x.setV d v (m x)).orFlags fl).takeSteps (1024 / w)).advance) ∧
    (∀ k, k < 1024 / w →
      lane w v k = (f (s.slot q) (((s.slot q).roundings (1024 / w)).getD k rne) k).1 % 2 ^ w) ∧
    fl = (List.range (1024 / w)).foldl
      (fun e k => e ||| (f (s.slot q) (((s.slot q).roundings (1024 / w)).getD k rne) k).2) 0

theorem roundsLanes_vecRound {i : Instr} {d : BitVec 5} {srcs : List (BitVec 5)} {m : Slot → Taint} {w : Nat}
    {F : Slot → List Rounding → List (Nat × BitVec 5)} {f : Slot → Rounding → Nat → Nat × BitVec 5}
    (he : ∀ s, exec i s = vecRound i d srcs (1024 / w) w F s) (hm : ∀ x, x.vmasks srcs = m x)
    (hF : ∀ x rs, rs.length = 1024 / w → F x rs = (List.range (1024 / w)).map fun k => f x (rs.getD k rne) k) :
    RoundsLanes i d m w f := by
  obtain rfl : (fun x => x.vmasks srcs) = m := funext hm
  intro s q ready
  have each := hF (s.slot q) ((s.slot q).roundings (1024 / w)) (Slot.roundings_length _ _)
  refine ⟨ofLanes w (gather (F (s.slot q) ((s.slot q).roundings (1024 / w)))).1,
    (gather (F (s.slot q) ((s.slot q).roundings (1024 / w)))).2, ?_, fun k hk => ?_, ?_⟩
  · rw [completes_of_complete he s q ready, State.modSlot, State.modSlot]
  · rw [each, gather, List.map_map, lane_ofLanes_map hk, Function.comp_apply]
  · rw [each, gather, List.foldl_map]

section
variable {i : Instr} {d a b : BitVec 5} {y : BitVec 4}

/-- One rounded operation on the lanes of two registers. -/
theorem roundsLanes_float2 {f : FpFmt → Rounding → Val → Val → Nat × BitVec 5}
    (he : ∀ s, exec i s = vecRound i d [a, b] (1024 / tyWidth y) (tyWidth y) (float2 y a b f) s) :
    RoundsLanes i d (vboth a b) (tyWidth y) fun x r k => f (fmtOfTy y) r (x.laneVal y a k) (x.laneVal y b k) := by
  refine roundsLanes_vecRound he (Slot.vmasks_two a b) fun x rs h => ?_
  rw [float2, Slot.vals_eq_map, Slot.vals_eq_map, List.zip_map', zipWith_rounding h]

/-- VADD, VSUB and VMUL of a floating type round each lane. -/
theorem roundsLanes_arith {m : BitVec 2} {f : FpFmt → Rounding → Val → Val → Nat × BitVec 5} {g : Int → Int → Int}
    (hy : tyFloat y = true) (he : ∀ s, exec i s = arith i d a b y m f g s) :
    RoundsLanes i d (vboth a b) (tyWidth y) fun x r k => f (fmtOfTy y) r (x.laneVal y a k) (x.laneVal y b k) :=
  roundsLanes_float2 fun s => (he s).trans (if_pos hy)

/-- VFMA rounds each lane once (R137). -/
theorem roundsLanes_vfma (d a b : BitVec 5) (y : BitVec 4) :
    RoundsLanes (.vfma d a b y) d (fun x => (vboth a b x).union (x.vmask d)) (tyWidth y) fun x r k =>
      (fmtOfTy y).fmaR r (x.laneVal y a k) (x.laneVal y b k) (x.laneVal y d k) := by
  refine roundsLanes_vecRound (exec_vfma d a b y) (Slot.vmasks_three a b d) fun x rs h => ?_
  rw [Slot.vals_eq_map, Slot.vals_eq_map, Slot.vals_eq_map, List.zip_map', List.zip_map', zipWith_rounding h]

/-- One rounded operation on the lanes of an FP32 register. -/
theorem roundsLanes_vals {f : Rounding → Val → Nat × BitVec 5}
    (he : ∀ s, exec i s = vecRound i d [a] 32 32 (fun x rs => List.zipWith f rs (x.vals 0 a)) s) :
    RoundsLanes i d (fun x => x.vmask a) 32 fun x r k => f r (x.laneVal 0 a k) := by
  refine roundsLanes_vecRound he (Slot.vmasks_one a) fun x rs h => ?_
  rw [Slot.vals_eq_map]
  exact zipWith_rounding h f _

/-- VMIN and VMAX of a floating type (R137, R171). -/
theorem writesLanes_minmax {maxi : Bool} (hy : tyFloat y = true)
    (he : ∀ s, exec i s =
      vecOp i d (fun x => x.vmasks [a, b]) (fun x => x.lane2 (tyWidth y) a b (laneMinMax y maxi)) s) :
    WritesLanes i d (vboth a b) (tyWidth y) fun x k =>
      (fmtOfTy y).minmax maxi (lane (tyWidth y) (x.vreg a) k) (lane (tyWidth y) (x.vreg b) k) % 2 ^ tyWidth y :=
  writesLanes_vecOp he (Slot.vmasks_two a b) fun x k hk => by rw [x.lane_lane2 hk, laneMinMax, if_pos hy]

/-- VABS of a floating type clears the sign bit (R171). -/
theorem writesLanes_vabs (d a : BitVec 5) (hy : tyFloat y = true) :
    WritesLanes (.vabs d a y) d (fun x => x.vmask a) (tyWidth y) fun x k =>
      lane (tyWidth y) (x.vreg a) k % 2 ^ (tyWidth y - 1) := by
  refine writesLanes_vecOp (exec_vabs d a y) (fun _ => rfl) fun x k hk => ?_
  rw [lane_ofLanes_map_lanes hk, if_pos hy]
  exact Nat.mod_eq_of_lt (Nat.lt_of_lt_of_le (Nat.mod_lt _ (Nat.two_pow_pos _))
    (Nat.pow_le_pow_right Nat.two_pos (Nat.sub_le _ _)))

/-- VNEG of a floating type inverts the sign bit (R171). -/
theorem writesLanes_vneg (d a : BitVec 5) (hy : tyFloat y = true) :
    WritesLanes (.vneg d a y) d (fun x => x.vmask a) (tyWidth y) fun x k =>
      (lane (tyWidth y) (x.vreg a) k + 2 ^ (tyWidth y - 1)) % 2 ^ tyWidth y := by
  refine writesLanes_vecOp (exec_vneg d a y) (fun _ => rfl) fun x k hk => ?_
  rw [lane_ofLanes_map_lanes hk, if_pos hy, Nat.mod_mod]

end

/-- Settles O22: VADD to VFMA, VDIV, VSQRT and VEXP2 are `vecRound` of an operation on each lane; VMIN, VMAX, VABS and VNEG
write their lanes and nothing else. -/
theorem vectorFloatArithmeticRoundsEachLane : Obligations.VectorFloatArithmeticRoundsEachLane := by
  refine ⟨fun d a b y hy => ⟨?vadd, ?vsub, ?vmul, ?vfma, ?vmin, ?vmax, ?vabs, ?vneg⟩, fun d a b => ⟨?vdiv, ?vsqrt, ?vexp2⟩⟩
  case vadd => exact roundsLanes_arith hy (exec_vadd d a b y 0)
  case vsub => exact roundsLanes_arith hy (exec_vsub d a b y 0)
  case vmul => exact roundsLanes_arith hy (exec_vmul d a b y 0)
  case vfma => exact roundsLanes_vfma d a b y
  case vmin => exact writesLanes_minmax hy (exec_vmin d a b y)
  case vmax => exact writesLanes_minmax hy (exec_vmax d a b y)
  case vabs => exact writesLanes_vabs d a hy
  case vneg => exact writesLanes_vneg d a hy
  case vdiv => exact roundsLanes_float2 (y := 0) (exec_vdiv d a b)
  case vsqrt => exact roundsLanes_vals (exec_vsqrt d a)
  case vexp2 => exact roundsLanes_vals (exec_vexp2 d a)

/-! ### Compares and VSEL (R174) -/

theorem tyFloat_of_tyInt {y : BitVec 4} (h : tyInt y = true) : tyFloat y = false := by
  simp only [tyInt, tyFloat, decide_eq_true_eq, decide_eq_false_iff_not] at h ⊢
  omega

theorem laneInt_eq_intOf (y : BitVec 4) (v : Line) (k : Nat) :
    laneInt y v k = intOf (tyWidth y) (tySign y) (lane (tyWidth y) v k) := rfl

/-- A pattern is told from every other by the number it stands for. -/
theorem intOf_inj {w u v : Nat} (signed : Bool) (hu : u < 2 ^ w) (hv : v < 2 ^ w) :
    intOf w signed u = intOf w signed v ↔ u = v := by
  have cast : ((2 ^ w : Nat) : Int) = 2 ^ w := Int.natCast_pow 2 w
  cases signed with
  | false => exact Int.ofNat_inj
  | true =>
    simp only [intOf, toSigned, if_true, ← cast]
    omega

theorem laneInt_eq_iff (y : BitVec 4) (u v : Line) (k : Nat) :
    laneInt y u k = laneInt y v k ↔ lane (tyWidth y) u k = lane (tyWidth y) v k :=
  intOf_inj _ (lane_lt _ _ _) (lane_lt _ _ _)

section
variable {d a b : BitVec 5} {y : BitVec 4}

/-- A compare writes all ones where its relation holds and zero where it does not. -/
theorem writesLanes_compareOp {i : Instr} {rel : Nat} {p : Slot → Nat → Prop} [∀ x k, Decidable (p x k)]
    (he : ∀ s, exec i s = compareOp i d a b y rel s)
    (hp : ∀ x k, laneRel y rel (lane (tyWidth y) (x.vreg a) k) (lane (tyWidth y) (x.vreg b) k) = true ↔ p x k) :
    WritesLanes i d (vboth a b) (tyWidth y) fun x k => if p x k then 2 ^ tyWidth y - 1 else 0 := by
  refine writesLanes_vecOp he (Slot.vmasks_two a b) fun x k hk => ?_
  have pos := Nat.two_pow_pos (tyWidth y)
  simp only [x.lane_lane2 hk, hp]
  exact Nat.mod_eq_of_lt (by split <;> omega)

/-- The relations of two lanes of a floating type. -/
theorem laneRel_float (hy : tyFloat y = true) (u v : Nat) :
    laneRel y 0 u v = ((fmtOfTy y).decode u).eq ((fmtOfTy y).decode v) ∧
      laneRel y 1 u v = ((fmtOfTy y).decode u).lt ((fmtOfTy y).decode v) ∧
      laneRel y 2 u v =
        (((fmtOfTy y).decode u).lt ((fmtOfTy y).decode v) || ((fmtOfTy y).decode u).eq ((fmtOfTy y).decode v)) := by
  simp only [laneRel, hy, if_true, and_self]

/-- The relations of two lanes of an integer type are those of their numbers. -/
theorem laneRel_int (hy : tyInt y = true) (u v : Line) (k : Nat) :
    (laneRel y 0 (lane (tyWidth y) u k) (lane (tyWidth y) v k) = true ↔ laneInt y u k = laneInt y v k) ∧
      (laneRel y 1 (lane (tyWidth y) u k) (lane (tyWidth y) v k) = true ↔ laneInt y u k < laneInt y v k) ∧
      (laneRel y 2 (lane (tyWidth y) u k) (lane (tyWidth y) v k) = true ↔ laneInt y u k ≤ laneInt y v k) := by
  have same := laneInt_eq_iff y u v k
  simp only [laneInt_eq_intOf] at same ⊢
  simp only [laneRel, tyFloat_of_tyInt hy, Int.le_iff_lt_or_eq, same, Bool.false_eq_true, if_false, beq_iff_eq,
    decide_eq_true_eq, Bool.or_eq_true, and_self]

/-- VSEL takes the lane of va where the old lane of vd has a bit set (R174). -/
theorem writesLanes_vsel (d a b : BitVec 5) (y : BitVec 4) :
    WritesLanes (.vsel d a b y) d (fun x => (vboth a b x).union (x.vmask d)) (tyWidth y) fun x k =>
      if lane (tyWidth y) (x.vreg d) k ≠ 0 then lane (tyWidth y) (x.vreg a) k else lane (tyWidth y) (x.vreg b) k := by
  refine writesLanes_vecOp (exec_vsel d a b y) (Slot.vmasks_three a b d) fun x k hk => ?_
  simp only [lanes_eq_map, List.zip_map', List.zipWith_map, List.zipWith_self, ite_not]
  rw [lane_ofLanes_map hk]
  exact Nat.mod_eq_of_lt (by split <;> exact lane_lt _ _ _)

end

/-- Settles O23: the relation of two lanes is the one of their numbers or of their values. -/
theorem vectorComparesAndSelectWriteWholeLanes : Obligations.VectorComparesAndSelectWriteWholeLanes := by
  refine fun d a b y _ => ⟨fun hy => ?int, fun hy => ?float, writesLanes_vsel d a b y⟩
  case int =>
    have rel (x : Slot) (k : Nat) := laneRel_int hy (x.vreg a) (x.vreg b) k
    exact ⟨writesLanes_compareOp (exec_vceq d a b y) fun x k => (rel x k).1,
      writesLanes_compareOp (exec_vclt d a b y) fun x k => (rel x k).2.1,
      writesLanes_compareOp (exec_vcle d a b y) fun x k => (rel x k).2.2⟩
  case float =>
    have rel := laneRel_float hy
    exact ⟨writesLanes_compareOp (exec_vceq d a b y) fun x k => by rw [(rel _ _).1],
      writesLanes_compareOp (exec_vclt d a b y) fun x k => by rw [(rel _ _).2.1],
      writesLanes_compareOp (exec_vcle d a b y) fun x k => by rw [(rel _ _).2.2, Bool.or_eq_true]⟩

end Sys2Proof.Machine

/-! ## Division, immediates, pointers and branches (O13, O14, O16)

The model computes with the operations of bit vectors, the statements speak of the numbers that they stand for. First how
the one reads as the other; then the instructions that write one scalar register; then the branches. -/

namespace Sys2Proof.Machine

open Sys2Proof.Safety

/-! ### Words as numbers -/

/-- A signed extension added to a word is the sum of the two signed numbers, modulo 2^64. -/
theorem add_signExtend_eq_ofInt (u : Word) {n : Nat} (i : BitVec n) :
    u + i.signExtend 64 = BitVec.ofInt 64 (u.toInt + i.toInt) := by
  rw [BitVec.ofInt_add, BitVec.ofInt_toInt, BitVec.signExtend]

theorem add_eq_ofInt (u v : Word) : u + v = BitVec.ofInt 64 (u.toInt + v.toInt) := by
  rw [BitVec.ofInt_add, BitVec.ofInt_toInt, BitVec.ofInt_toInt]

/-- With a zero divisor the remainder alone is left of quotient times divisor plus remainder. -/
theorem mul_zero_add (u v : Word) : u * 0 + v = v :=
  (congrArg (· + v) BitVec.mul_zero).trans (BitVec.zero_add v)

/-- A shift to the left multiplies the number, modulo 2^64. -/
theorem shiftLeft_eq_ofNat (u : Word) (k : Nat) : u <<< k = BitVec.ofNat 64 (u.toNat * 2 ^ k) :=
  BitVec.eq_of_toNat_eq <| by rw [BitVec.toNat_shiftLeft, BitVec.toNat_ofNat, Nat.shiftLeft_eq]

/-- A logical shift to the right divides the unsigned number. -/
theorem ushiftRight_eq_ofNat (u : Word) (k : Nat) : u >>> k = BitVec.ofNat 64 (u.toNat / 2 ^ k) := by
  rw [← Nat.shiftRight_eq_div_pow, ← BitVec.toNat_ushiftRight, BitVec.ofNat_toNat, BitVec.setWidth_eq]

/-- An arithmetic shift to the right divides the signed number, rounding down. -/
theorem sshiftRight_eq_ofInt (u : Word) (k : Nat) : u.sshiftRight k = BitVec.ofInt 64 (u.toInt / 2 ^ k) := by
  rw [BitVec.sshiftRight_eq, Int.shiftRight_eq_div_pow, Int.natCast_pow]
  rfl

/-- A signed compare of a word with an extended immediate compares their numbers. -/
theorem boolWord_slt_signExtend (u : Word) (i : BitVec 16) :
    boolWord (u.slt (i.signExtend 64)) = if u.toInt < i.toInt then 1 else 0 := by
  simp only [boolWord, BitVec.slt_iff_toInt_lt, BitVec.toInt_signExtend_of_le (show 16 ≤ 64 by decide)]

/-! ### Quotient and remainder (R150) -/

theorem divS_zero (a : Word) : divS a 0 = BitVec.ofInt 64 (-1) := rfl

theorem remS_zero (a : Word) : remS a 0 = a := rfl

theorem divZ_zero (a : Word) : divZ a 0 = BitVec.ofNat 64 (2 ^ 64 - 1) := rfl

theorem remZ_zero (a : Word) : remZ a 0 = a := rfl

theorem divS_eq_ofInt (a : Word) {b : Word} (hb : b ≠ 0) : divS a b = BitVec.ofInt 64 (Int.tdiv a.toInt b.toInt) :=
  if_neg hb

theorem remS_eq_ofInt (a : Word) {b : Word} (hb : b ≠ 0) : remS a b = BitVec.ofInt 64 (Int.tmod a.toInt b.toInt) :=
  if_neg hb

theorem divZ_eq_ofNat (a : Word) {b : Word} (hb : b ≠ 0) : divZ a b = BitVec.ofNat 64 (a.toNat / b.toNat) :=
  if_neg hb

theorem remZ_eq_ofNat (a : Word) {b : Word} (hb : b ≠ 0) : remZ a b = BitVec.ofNat 64 (a.toNat % b.toNat) :=
  if_neg hb

/-- The signed quotient is `BitVec.sdiv` except for a zero divisor. -/
theorem divS_eq_sdiv (a : Word) {b : Word} (hb : b ≠ 0) : divS a b = a.sdiv b := by
  apply BitVec.eq_of_toInt_eq
  rw [divS_eq_ofInt a hb, BitVec.toInt_ofInt, BitVec.toInt_sdiv]

/-- The signed quotient is exact but for the most negative number over minus one. -/
theorem toInt_divS {a b : Word} (hb : b ≠ 0) (h : ¬(a.toInt = -2 ^ 63 ∧ b.toInt = -1)) :
    (divS a b).toInt = Int.tdiv a.toInt b.toInt := by
  have ne : a ≠ BitVec.intMin 64 ∨ b ≠ -1#64 := by
    refine Decidable.not_and_iff_not_or_not.mp ?_
    rintro ⟨rfl, rfl⟩
    exact h ⟨rfl, rfl⟩
  rw [divS_eq_sdiv a hb, BitVec.toInt_sdiv_of_ne_or_ne a b ne]

/-- The signed remainder is exact for every pair: it is no larger than the dividend. -/
theorem toInt_remS (a : Word) {b : Word} (hb : b ≠ 0) : (remS a b).toInt = Int.tmod a.toInt b.toInt := by
  rw [remS_eq_ofInt a hb, ← BitVec.toInt_srem, BitVec.ofInt_toInt]

theorem toNat_divZ (a : Word) {b : Word} (hb : b ≠ 0) : (divZ a b).toNat = a.toNat / b.toNat := by
  rw [divZ_eq_ofNat a hb, ← BitVec.udiv_def, BitVec.toNat_udiv]

theorem toNat_remZ (a : Word) {b : Word} (hb : b ≠ 0) : (remZ a b).toNat = a.toNat % b.toNat := by
  rw [remZ_eq_ofNat a hb, ← BitVec.umod_def, BitVec.toNat_umod]

/-- The dividend is the signed quotient times the divisor plus the remainder, modulo 2^64, for every pair. -/
theorem divS_mul_add_remS (a b : Word) : divS a b * b + remS a b = a := by
  by_cases hb : b = 0
  case pos => rw [hb, remS_zero, mul_zero_add]
  case neg =>
    calc divS a b * b + remS a b
      _ = BitVec.ofInt 64 (Int.tdiv a.toInt b.toInt * b.toInt + Int.tmod a.toInt b.toInt) := by
        rw [divS_eq_ofInt a hb, remS_eq_ofInt a hb, BitVec.ofInt_add, BitVec.ofInt_mul, BitVec.ofInt_toInt]
      _ = a := by rw [Int.tdiv_mul_add_tmod, BitVec.ofInt_toInt]

theorem divZ_mul_add_remZ (a b : Word) : divZ a b * b + remZ a b = a := by
  by_cases hb : b = 0
  case pos => rw [hb, remZ_zero, mul_zero_add]
  case neg =>
    calc divZ a b * b + remZ a b
      _ = BitVec.ofNat 64 (a.toNat / b.toNat * b.toNat + a.toNat % b.toNat) := by
        rw [divZ_eq_ofNat a hb, remZ_eq_ofNat a hb, BitVec.ofNat_add, BitVec.ofNat_mul, BitVec.ofNat_toNat,
          BitVec.setWidth_eq]
      _ = a := by rw [Nat.div_add_mod', BitVec.ofNat_toNat, BitVec.setWidth_eq]

/-! ### Instructions that write one scalar register (R147) -/

theorem writesS_aluOp {i : Instr} {d : BitVec 5} {srcs : List (BitVec 5)} {m : Slot → Taint} {f v : Slot → Word}
    (he : ∀ s, exec i s = aluOp i d srcs f s) (hm : ∀ x, x.masks srcs = m x) (hv : ∀ x, f x = v x) :
    WritesS i d v m := by
  obtain rfl : (fun x => x.masks srcs) = m := funext hm
  obtain rfl : f = v := funext hv
  exact completes_of_complete he

/-- Settles O13: each instruction is `aluOp` of a quotient or remainder, which is that of the numbers. -/
theorem divisionNeverTrapsAndIsExact : Obligations.DivisionNeverTrapsAndIsExact := by
  refine ⟨divS, remS, divZ, remZ, fun d a b => ?writes, fun a b => ⟨?zero, ?overflow, ?signed, ?unsigned, ?exactS, ?exactZ⟩⟩
  case writes =>
    have masks := Slot.masks_two a b
    exact ⟨writesS_aluOp (exec_divS64 d a b) masks fun _ => rfl, writesS_aluOp (exec_remS64 d a b) masks fun _ => rfl,
      writesS_aluOp (exec_divZ64 d a b) masks fun _ => rfl, writesS_aluOp (exec_remZ64 d a b) masks fun _ => rfl⟩
  case zero =>
    rintro rfl
    exact ⟨divS_zero a, remS_zero a, divZ_zero a, remZ_zero a⟩
  case overflow =>
    intro ha hb
    obtain rfl : a = BitVec.intMin 64 := BitVec.eq_of_toInt_eq ha
    obtain rfl : b = -1 := BitVec.eq_of_toInt_eq hb
    decide
  case signed =>
    intro hb h
    exact ⟨toInt_divS hb h, by rw [toInt_remS a hb, toInt_divS hb h, Int.tmod_def]⟩
  case unsigned =>
    intro hb
    exact ⟨toNat_divZ a hb, by rw [toNat_remZ a hb, toNat_divZ a hb, Nat.mod_def]⟩
  case exactS => exact (divS_mul_add_remS a b).symm
  case exactZ => exact (divZ_mul_add_remZ a b).symm

/-- Settles O14: an immediate instruction is `aluOp` of the number that its row of the table writes; a pointer
instruction changes its slot alone. -/
theorem immediateAndPointerInstructionsWriteTheirResults :
    Obligations.ImmediateAndPointerInstructionsWriteTheirResults := by
  intro d a p i j k
  have one := Slot.masks_one a
  have wide : i.setWidth 64 = BitVec.ofNat 64 i.toNat := (BitVec.ofNat_toNat 64 i).symm
  refine ⟨?addi, ?andi, ?ori, ?xori, ?shli, ?shriZ64, ?shriS64, ?sltiS64, ?li, ?lsi, ?pset, ?pstep, ?pget, ?padd⟩
  case addi => exact writesS_aluOp (exec_addi d a i) one fun _ => add_signExtend_eq_ofInt _ i
  case andi => exact writesS_aluOp (exec_andi d a i) one fun _ => by rw [wide]
  case ori => exact writesS_aluOp (exec_ori d a i) one fun _ => by rw [wide]
  case xori => exact writesS_aluOp (exec_xori d a i) one fun _ => by rw [wide]
  case shli => exact writesS_aluOp (exec_shli d a k) one fun _ => shiftLeft_eq_ofNat _ _
  case shriZ64 => exact writesS_aluOp (exec_shriZ64 d a k) one fun _ => ushiftRight_eq_ofNat _ _
  case shriS64 => exact writesS_aluOp (exec_shriS64 d a k) one fun _ => sshiftRight_eq_ofInt _ _
  case sltiS64 => exact writesS_aluOp (exec_sltiS64 d a i) one fun _ => boolWord_slt_signExtend _ i
  case li => exact writesS_aluOp (exec_li d j) (fun _ => rfl) fun _ => rfl
  case lsi => exact writesS_aluOp (exec_lsi d i) (Slot.masks_one d) fun _ => by rw [wide, shiftLeft_eq_ofNat]
  case pset => exact completes_of_complete (exec_pset p a)
  case pstep => exact completes_of_complete (exec_pstep p a)
  case pget => exact completes_of_complete (exec_pget d p)
  case padd =>
    simp only [← add_eq_ofInt]
    exact completes_of_complete (exec_padd p a)

/-! ### Branches (R158) -/

/-- What a conditional branch does: the masks of its operands join ctm, and the PC moves by four times the offset where
the condition holds and to the next word where it does not (R158). -/
def Branches (i : Instr) (a b : BitVec 5) (o : BitVec 16) (c : Word → Word → Prop) : Prop :=
  ∀ (s : State) (q : Nat), Ready i q s → ∃ t : State, exec i s = .next t ∧
    t = s.setSlot q { (s.slot q) with
      ctm := ((s.slot q).addCtm (both a b (s.slot q))).ctm, pc := (t.slot q).pc } ∧
    (c ((s.slot q).sreg a) ((s.slot q).sreg b) →
      (t.slot q).pc = BitVec.ofInt 57 (((s.slot q).pc.toNat : Int) + 4 * o.toInt)) ∧
    (¬c ((s.slot q).sreg a) ((s.slot q).sreg b) → (t.slot q).pc = (s.slot q).pc + 4)

/-- The target of a branch, as wrap57 of R158 gives it. -/
theorem add_four_mul_signExtend (pc : BitVec 57) (o : BitVec 16) :
    pc + 4 * o.signExtend 57 = BitVec.ofInt 57 ((pc.toNat : Int) + 4 * o.toInt) := by
  rw [BitVec.ofInt_add, BitVec.ofInt_mul, BitVec.ofInt_natCast, BitVec.ofNat_toNat, BitVec.setWidth_eq]
  rfl

theorem branches_branchOp {i : Instr} {a b : BitVec 5} {o : BitVec 16} {cond : Word → Word → Bool}
    {c : Word → Word → Prop} (he : ∀ s, exec i s = branchOp i a b o cond s) (hc : ∀ u v, cond u v = true ↔ c u v) :
    Branches i a b o c := by
  intro s q ready
  refine ⟨_, (he s).trans (issue_ready ready _), ?frame, fun holds => ?taken, fun fails => ?next⟩
  case frame => rw [State.slot_modSlot_same, ← Slot.masks_two]; rfl
  case taken =>
    rw [State.slot_modSlot_same, ← add_four_mul_signExtend]
    exact if_pos ((hc _ _).mpr holds)
  case next =>
    rw [State.slot_modSlot_same]
    exact if_neg (mt (hc _ _).mp fails)

/-- Settles O16: each branch is `branchOp` of its condition. -/
theorem branchesGoWhereTheConditionSays : Obligations.BranchesGoWhereTheConditionSays := by
  intro a b o
  refine ⟨?beq, ?bne, ?bltS64, ?bgeS64, ?bltZ64, ?bgeZ64⟩
  case beq => exact branches_branchOp (exec_beq a b o) fun _ _ => beq_iff_eq
  case bne => exact branches_branchOp (exec_bne a b o) fun _ _ => bne_iff_ne
  case bltS64 => exact branches_branchOp (exec_bltS64 a b o) fun _ _ => BitVec.slt_iff_toInt_lt
  case bgeS64 =>
    exact branches_branchOp (exec_bgeS64 a b o) fun _ _ => by
      rw [Bool.not_eq_true', BitVec.slt_eq_decide, decide_eq_false_iff_not, Int.not_lt]
  case bltZ64 => exact branches_branchOp (exec_bltZ64 a b o) fun _ _ => BitVec.ult_iff_toNat_lt
  case bgeZ64 =>
    exact branches_branchOp (exec_bgeZ64 a b o) fun _ _ => by
      rw [Bool.not_eq_true', BitVec.ult_eq_decide, decide_eq_false_iff_not, Nat.not_lt]

end Sys2Proof.Machine

/-! ## Atomics, reductions and nibble stores leave for their home (O32)

Each of the eleven instructions is `atomicOp` of its row's function code and operands, behind the issue. First what
`atomicOp` does where the address resolves; then an instruction of each of the two kinds; then the statement. -/

namespace Sys2Proof.Machine

/-- The state in which a request to the home of a key is outstanding under a fresh identifier and counted (R271, R308). -/
def State.sentTo (s : State) (q key : Nat) : State :=
  ((s.outstanding q s.nextId key).modSlot q fun x => x.countSent q key).useId

/-- The bytes of an atomic or reduction (R290). -/
def AtomicForm.size (f : AtomicForm) : Nat := if f.wide then 8 else 4

/-- The request of an atomic or reduction, for the state in which its address has resolved (R218, R267, R291). -/
def AtomicForm.request (f : AtomicForm) (s : State) (q : Nat) (l : Loc) (serial : Option Nat) : AtomicReq :=
  let widened := s.widenFor (s.who q) f.va
  ⟨widened.1.nextId, q, serial, f.fn, f.wide, f.signed, l.key, f.va, f.b, f.t, (s.slot q).behind f.hold, (s.slot q).pts,
    f.scope == 4, l.ord, widened.2⟩

/-- The load record of an atomic, which its old value completes (R265, R291). -/
def AtomicForm.oldValue (f : AtomicForm) (i : Instr) (s : State) (q : Nat) (l : Loc) (d : BitVec 5) : LoadRec :=
  LoadForm.record ⟨f.va, Taint.none, f.size, f.signed && !f.wide, .scalar d.toNat, .atomic (f.fn == 8), none⟩ (s.slot q)
    ((encode i).getD 0) ((s.widenFor (s.who q) f.va).1.nextId + 1) l none 0

section
variable {i : Instr} {q : Nat} {f : AtomicForm} {s s1 : State} {l : Loc}

theorem atomicOp_of_dest {d : BitVec 5} (aligned : f.va.toNat % f.size = 0)
    (resolved : resolve s (s.who q) f.va f.size .write = (s1, .ok l)) (allowed : atomicPlace s1 l = none)
    (dest : f.dest = some d) :
    atomicOp i q f s = (((s1.widenFor (s1.who q) f.va).1.sentTo q l.key).modSlot q fun x =>
      (x.takeLoad (f.oldValue i s1 q l d)).advance).push (.homeAtomic (f.request s1 q l (some (s1.slot q).nextSerial))) := by
  unfold AtomicForm.size at aligned resolved
  simp only [atomicOp, aligned, resolved, allowed, dest, ne_eq, not_true_eq_false, if_false]
  rfl

theorem atomicOp_of_no_dest (aligned : f.va.toNat % f.size = 0)
    (resolved : resolve s (s.who q) f.va f.size .write = (s1, .ok l)) (allowed : atomicPlace s1 l = none)
    (dest : f.dest = none) :
    atomicOp i q f s = (((s1.widenFor (s1.who q) f.va).1.sentTo q l.key).modSlot q Slot.advance).push
      (.homeReduction (f.request s1 q l none)) := by
  unfold AtomicForm.size at aligned resolved
  simp only [atomicOp, aligned, resolved, allowed, dest, ne_eq, not_true_eq_false, if_false]
  rfl

end

/-- Instruction i, ready, aligned and at a home that allows it, leaves as the atomic with function code fn, and takes a load
tag for its old value (R265, R291). -/
def AtomicLeaves (i : Instr) (fn : Nat) (wide sgn : Bool) (t a b : BitVec 5) (k : BitVec 3) (hold : Slot → Taint) : Prop :=
  ∀ (s : State) (q : Nat) (s1 : State) (l : Loc), Ready i q s →
    let x := s.slot q
    let n := if wide then 8 else 4
    let widened := s1.widenFor (s1.who q) (x.sreg a)
    (x.sreg a).toNat % n = 0 → resolve s (s.who q) (x.sreg a) n .write = (s1, .ok l) → atomicPlace s1 l = none →
    ∃ r : LoadRec, r.dest = .scalar t.toNat ∧ r.kind = .atomic (fn == 8) ∧ r.key = l.key ∧ r.size = n ∧
      r.sext = (sgn && !wide) ∧ r.data = none ∧ r.abort = false ∧
      exec i s = .next (((widened.1.sentTo q l.key).modSlot q fun x => (x.takeLoad r).advance).push (.homeAtomic
        ⟨widened.1.nextId, q, some (s1.slot q).nextSerial, fn, wide, sgn, l.key, x.sreg a, x.sreg b, x.sreg t,
          (s1.slot q).behind (hold x), (s1.slot q).pts, k.toNat == 4, l.ord, widened.2⟩))

/-- Instruction i, ready, aligned and at a home that allows it, leaves as the reduction with function code fn and retires
(R293). -/
def ReductionLeaves (i : Instr) (fn : Nat) (wide : Bool) (a b : BitVec 5) (k : BitVec 3) (hold : Slot → Taint) : Prop :=
  ∀ (s : State) (q : Nat) (s1 : State) (l : Loc), Ready i q s →
    let x := s.slot q
    let n := if wide then 8 else 4
    let widened := s1.widenFor (s1.who q) (x.sreg a)
    (x.sreg a).toNat % n = 0 → resolve s (s.who q) (x.sreg a) n .write = (s1, .ok l) → atomicPlace s1 l = none →
    exec i s = .next (((widened.1.sentTo q l.key).modSlot q Slot.advance).push (.homeReduction
      ⟨widened.1.nextId, q, none, fn, wide, false, l.key, x.sreg a, x.sreg b, 0, (s1.slot q).behind (hold x),
        (s1.slot q).pts, k.toNat == 4, l.ord, widened.2⟩))

section
variable {i : Instr} {fn : Nat} {wide sgn useT : Bool} {t a b : BitVec 5} {k : BitVec 3} {hold : Slot → Taint}

theorem atomicLeaves_atomicInstr (he : ∀ s, exec i s = atomicInstr i fn wide sgn useT t a b k s)
    (hh : ∀ x : Slot, (let two := ((x.smask a).union (x.smask b)).union x.ctm
      if useT then two.union (x.smask t) else two) = hold x) :
    AtomicLeaves i fn wide sgn t a b k hold := by
  obtain rfl : _ = hold := funext hh
  intro s q s1 l ready x n widened aligned resolved allowed
  have leaves := (he s).trans <| (issue_ready ready _).trans <|
    congrArg _ (atomicOp_of_dest aligned resolved allowed rfl)
  refine ⟨_, ?_, ?_, ?_, ?_, ?_, ?_, ?_, leaves⟩ <;> rfl

theorem reductionLeaves_reduceInstr (he : ∀ s, exec i s = reduceInstr i fn wide a b k s) :
    ReductionLeaves i fn wide a b k fun x => ((x.smask a).union (x.smask b)).union x.ctm := by
  intro s q s1 l ready x n widened aligned resolved allowed
  rw [he, reduceInstr, issue_ready ready]
  exact congrArg _ (atomicOp_of_no_dest aligned resolved allowed rfl)

end

/-- A home to which a nibble store leaves: memory of this package or of another (R294). -/
def takesNibbles (h : Home) : Prop :=
  match h with
  | .host _ => False
  | .reg _ => False
  | .ctrl _ _ => False
  | _ => True

theorem exec_stn4_leaves {t a : BitVec 5} {o : BitVec 12} {s s1 : State} {q : Nat} {l : Loc}
    (ready : Ready (.stn4 t a o) q s)
    (resolved : resolve s (s.who q) ((s.slot q).sreg a + (o.sshiftRight 1).signExtend 64) 1 .write = (s1, .ok l))
    (home : takesNibbles (homeOf l.key)) :
    let x := s.slot q
    let va := x.sreg a + (o.sshiftRight 1).signExtend 64
    let widened := s1.widenFor (s1.who q) va
    exec (.stn4 t a o) s = .next (((widened.1.sentTo q l.key).modSlot q Slot.advance).push (.nibbleStoreAtHome
      ⟨widened.1.nextId, q, l.key, va, widened.2, o.getLsbD 0, (x.sreg t).truncate 4, x.behind (x.holdS a t), x.pts,
        l.ord⟩)) := by
  intro x va widened
  rw [exec_stn4, execStn4, issue_ready ready]
  dsimp only
  rw [resolved]
  dsimp only
  cases h : homeOf l.key with
  | host _ => rw [h] at home; exact home.elim
  | reg _ => rw [h] at home; exact home.elim
  | ctrl _ _ => rw [h] at home; exact home.elim
  | dram _ => rfl
  | pad _ _ => rfl
  | bank _ _ _ => rfl
  | far _ _ => rfl

/-- Settles O32: each atomic is `atomicInstr`, each reduction `reduceInstr` of its row of the table. -/
theorem atomicsLeaveForTheirHome : Obligations.AtomicsLeaveForTheirHome := by
  intro t a b k w g o two old
  refine ⟨?aswap, ?acas, ?aadd, ?aand, ?aor, ?axor, ?amin, ?amax, ?afadd, ?radd, ?rfadd, ?stn4⟩
  case aswap => exact atomicLeaves_atomicInstr (exec_aswap t a b k w) fun _ => rfl
  case acas =>
    exact atomicLeaves_atomicInstr (hold := fun x => (two x).union (x.smask t)) (exec_acas t a b k w) fun _ => if_pos rfl
  case aadd => exact atomicLeaves_atomicInstr (exec_aadd t a b k w) fun _ => rfl
  case aand => exact atomicLeaves_atomicInstr (exec_aand t a b k w) fun _ => rfl
  case aor => exact atomicLeaves_atomicInstr (exec_aor t a b k w) fun _ => rfl
  case axor => exact atomicLeaves_atomicInstr (exec_axor t a b k w) fun _ => rfl
  case amin => exact atomicLeaves_atomicInstr (exec_amin t a b k w g) fun _ => rfl
  case amax => exact atomicLeaves_atomicInstr (exec_amax t a b k w g) fun _ => rfl
  case afadd => exact atomicLeaves_atomicInstr (exec_afadd t a b k) fun _ => rfl
  case radd => exact reductionLeaves_reduceInstr (exec_radd a b k w)
  case rfadd => exact reductionLeaves_reduceInstr (exec_rfadd a b k)
  case stn4 => exact fun _ _ _ _ => exec_stn4_leaves

end Sys2Proof.Machine

/-! ## Releases, refusals, widens and the tick of time (O36)

RELEASE_COMPLETE, NAK_RECEIVED and ACK_TIMEOUT are read off their branches. The memory of SUMMARY_WIDEN needs that a write to
device memory, with all that it wakes, changes memory by its bytes alone and leaves the uncorrectable granules as they were,
so that each widen finds what the one before it left. The tick maps one function over the slots. -/

namespace Sys2Proof.Machine

/-! ### Releases (R271, R285, R288) -/

section
variable {s : State} {r : Release}

/-- Whether the waits of a release and of its own write are met (R267, R271). -/
def State.releaseMet (s : State) (r : Release) : Bool :=
  s.relReady r.thread r.scope r.num r.before &&
    s.mayGo r.thread r.before (actWrite r.act).1 (actWrite r.act).2.1 (actWrite r.act).2.2

theorem execReleaseComplete_unmet (out : s.isOut r.thread r.before = true)
    (unmet : (s.drainThread r.thread).releaseMet r = false) :
    execReleaseComplete r s = .next ((s.drainThread r.thread).push (.releaseComplete r)) := by
  unfold State.releaseMet at unmet
  simp only [execReleaseComplete, out, unmet, Bool.not_true, Bool.not_false, Bool.false_eq_true, if_false, if_true]

theorem execReleaseComplete_performs (out : s.isOut r.thread r.before = true)
    (met : (s.drainThread r.thread).releaseMet r = true) (clean : ((s.drainThread r.thread).slot r.thread).nak = none) :
    execReleaseComplete r s =
      .next (((s.drainThread r.thread).performAct r.thread r.before r.act).modSlot r.thread Slot.releaseDone) := by
  unfold State.releaseMet at met
  simp only [execReleaseComplete, out, met, clean, Bool.not_true, Bool.false_eq_true, if_false]

/-- The slot in which a release has raised its thread's refused write: the release counts as done and the load that its
own write would answer is gone (R285). -/
def Slot.releaseRaised (x : Slot) (act : ReleaseAct) : Slot :=
  { (match actSerial act with
    | some k => x.dropLoad k
    | none => x).releaseDone with nak := none }

theorem Slot.releaseRaised_relDone (x : Slot) (act : ReleaseAct) : (x.releaseRaised act).relDone = x.relDone + 1 := by
  unfold Slot.releaseRaised
  cases actSerial act <;> rfl

/-- The state in which a release has raised its thread's refused write, before the trap is due. -/
def State.releaseRaised (s : State) (r : Release) : State :=
  (s.notOut r.thread r.before).modSlot r.thread fun x => x.releaseRaised r.act

theorem State.slot_releaseRaised (s : State) (r : Release) :
    (s.releaseRaised r).slot r.thread = (s.slot r.thread).releaseRaised r.act := State.slot_modSlot_same _ _ _

theorem execReleaseComplete_traps {cause reason : BitVec 8} {va : Word} (out : s.isOut r.thread r.before = true)
    (met : (s.drainThread r.thread).releaseMet r = true)
    (refused : ((s.drainThread r.thread).slot r.thread).nak = some (cause, reason, va)) :
    execReleaseComplete r s =
      let raised := ((s.drainThread r.thread).releaseRaised r).openWord
      .next (raised.1.push (.trapDelivery r.thread
        ⟨cause, reason, ((s.drainThread r.thread).slot r.thread).pc, raised.2.truncate 32, va, none, false⟩)) := by
  unfold State.releaseMet at met
  simp only [execReleaseComplete, out, met, refused, Bool.not_true, Bool.false_eq_true, if_false]
  rfl

end

theorem State.isOut_notOut (s : State) (q id : Nat) : (s.notOut q id).isOut q id = false := by
  simp only [State.isOut, State.notOut, List.any_filter, Bool.not_and_self, List.any_eq_false, Bool.false_eq_true,
    not_false_eq_true, implies_true]

/-! ### Refusals (R285, R314, R325) -/

section
variable {s : State} {tag reason q : Nat} {r : FarReq}

/-- The cause with which a thread learns of a refusal. -/
def refusalCause (reason : Nat) : BitVec 8 := if reason = 4 then eFenced else eFab

theorem State.farRefused_store (found : s.farReqs.find? (fun r => r.tag == tag) = some r) (thread : r.thread = some q)
    (serial : r.serial = none) (store : r.store = true) (noAbort : reason ≠ 5)
    (noCommand : ((s.slot q).ring.find? fun e => e.2.sent.contains r.id) = none) :
    s.farRefused tag reason = ((s.farDone r).push (.writeAck q r.id 0)).refuse q (refusalCause reason) 0 r.va := by
  have noSender : (s.slot q).sender r.id = none := by rw [Slot.sender, noCommand]; rfl
  simp only [State.farRefused, found, thread, serial, store, noSender, noAbort, if_true, if_false]
  rfl

theorem State.farRefused_load {n : Nat} {l : LoadRec} (found : s.farReqs.find? (fun r => r.tag == tag) = some r)
    (thread : r.thread = some q) (serial : r.serial = some n) (noAbort : reason ≠ 5)
    (acked : (s.farDone r).isOut q r.id = false)
    (load : ((s.farDone r).slot q).loads.find? (fun k => k.serial == n) = some l) :
    s.farRefused tag reason = ((s.farDone r).modSlot q fun x => x.unissue l).deliver q
      ⟨refusalCause reason, 0, l.origin.pc, l.origin.word, l.origin.va, none, false⟩ := by
  simp only [State.farRefused, found, thread, serial, acked, noAbort, Bool.false_eq_true, if_false, State.loadRefused, load]
  rfl

theorem execAckTimeout_early (found : s.farReqs.find? (fun r => r.tag == tag) = some r)
    (early : s.cycle - r.sent < 1700000) : execAckTimeout tag s = .next (s.push (.ackTimeout tag)) := by
  simp only [execAckTimeout, found, ackLimit, early, if_true]

theorem execAckTimeout_late (found : s.farReqs.find? (fun r => r.tag == tag) = some r)
    (late : 1700000 ≤ s.cycle - r.sent) : execAckTimeout tag s = execNakReceived tag 1 s := by
  simp only [execAckTimeout, found, ackLimit, Nat.not_lt.mpr late, if_false]
  rfl

end

/-! ### A write to device memory (R54, R261) -/

section
variable (s : State)

theorem bad_foldl {α : Type} (f : State → α → State) (l : List α) (hf : ∀ s a, (f s a).bad = s.bad) :
    (l.foldl f s).bad = s.bad := by
  induction l generalizing s with
  | nil => rfl
  | cons a t ih => exact (ih _).trans (hf s a)

theorem State.evictLine_bad (o : Nat) : (s.evictLine o).bad = s.bad := by
  unfold State.evictLine
  dsimp only
  split <;> rfl

theorem State.wakeWith_bad (r : WaitReq) (v : Nat) (st : Word) (wts : Nat) : (s.wakeWith r v st wts).bad = s.bad := by
  unfold State.wakeWith
  dsimp only
  split <;> rfl

theorem State.wakeAll_bad (key : Nat) : (s.wakeAll key).bad = s.bad :=
  bad_foldl _ _ _ fun s _ => s.wakeWith_bad _ _ _ _

theorem State.recheck_bad (key n : Nat) : (s.recheck key n).bad = s.bad :=
  bad_foldl _ _ _ fun s k => s.wakeAll_bad k

theorem homeOf_of_lt {key : Nat} (h : key < 2 ^ 42) : homeOf key = .dram key := if_pos h

theorem State.homeWrite_dram {key : Nat} (h : key < 2 ^ 42) (pts : Nat) (bs : List Byte) :
    (s.homeWrite key pts bs).1 =
      { (s.sliceStamp key pts).1 with mem := (s.sliceStamp key pts).1.mem.writeBytes key bs } := by
  simp only [State.homeWrite, State.poke, homeOf_of_lt h]

theorem State.homeApply_dram_mem {key : Nat} (h : key < 2 ^ 42) (pts : Nat) (bs : List Byte) :
    (s.homeApply key pts bs).1.mem = s.mem.writeBytes key bs := by
  simp only [State.homeApply, State.recheck_mem, s.homeWrite_dram h, State.sliceStamp_mem]

theorem State.homeApply_dram_bad {key : Nat} (h : key < 2 ^ 42) (pts : Nat) (bs : List Byte) :
    (s.homeApply key pts bs).1.bad = s.bad := by
  simp only [State.homeApply, State.recheck_bad, s.homeWrite_dram h]
  exact s.evictLine_bad key

end

/-! ### Summaries (R218) -/

theorem State.anyBad_congr {s t : State} (h : t.bad = s.bad) (key n : Nat) : t.anyBad key n = s.anyBad key n := by
  unfold State.anyBad
  rw [h]

/-- Where the minimum of an element's channel stands. -/
def minKey (e : Widen × Nat × Nat) : Nat := e.1.summary + 2 * e.2.1

/-- Where the maximum of an element's channel stands. -/
def maxKey (e : Widen × Nat × Nat) : Nat := e.1.summary + 256 + 2 * e.2.1

/-- The bytes of the new minimum of an element's channel. -/
def Memory.newMin (m : Memory) (e : Widen × Nat × Nat) : List Byte :=
  natBytes (FpFmt.bf16.minmax false (leNat (m.readBytes (minKey e) 2)) (summaryBounds e.1.fmt e.2.2).1) 2

/-- The bytes of the new maximum of an element's channel. -/
def Memory.newMax (m : Memory) (e : Widen × Nat × Nat) : List Byte :=
  natBytes (FpFmt.bf16.minmax true (leNat (m.readBytes (maxKey e) 2)) (summaryBounds e.1.fmt e.2.2).2) 2

/-- Memory after the widen of one element. -/
def Memory.widened (m : Memory) (e : Widen × Nat × Nat) : Memory :=
  (m.writeBytes (minKey e) (m.newMin e)).writeBytes (maxKey e) (m.newMax e)

/-- Both words of an element's channel can be read, and lie in device memory. -/
structure State.CanWiden (s : State) (e : Widen × Nat × Nat) : Prop where
  min_good : s.anyBad (minKey e) 2 = false
  max_good : s.anyBad (maxKey e) 2 = false
  max_lt : maxKey e < 2 ^ 42

theorem State.CanWiden.min_lt {s : State} {e : Widen × Nat × Nat} (h : s.CanWiden e) : minKey e < 2 ^ 42 := by
  have below : minKey e ≤ maxKey e := by
    unfold minKey maxKey
    omega
  exact Nat.lt_of_le_of_lt below h.max_lt

theorem State.CanWiden.of_bad_eq {s t : State} {e : Widen × Nat × Nat} (h : s.CanWiden e) (bad : t.bad = s.bad) :
    t.CanWiden e :=
  ⟨(State.anyBad_congr bad _ _).trans h.min_good, (State.anyBad_congr bad _ _).trans h.max_good, h.max_lt⟩

/-- One step of `State.widenAll`: an element's widen, and the greatest timestamp so far. -/
def State.widenElem (wts : Nat) (p : State × Nat) (e : Widen × Nat × Nat) : State × Nat :=
  let widened := p.1.widenOne e.1.summary e.2.1 (summaryBounds e.1.fmt e.2.2) wts
  (widened.1, max p.2 widened.2)

theorem execSummaryWiden_eq (s : State) (r : WidenReq) :
    execSummaryWiden r s = let widened := r.elems.foldl (State.widenElem r.wts) (s, r.wts)
      .next (widened.1.push (.writeAck r.thread r.id widened.2)) := rfl

section
variable {p : State × Nat} {e : Widen × Nat × Nat} {wts : Nat}

theorem State.widenElem_fst (h : p.1.CanWiden e) :
    (State.widenElem wts p e).1 = ((p.1.homeApply (minKey e) wts (p.1.mem.newMin e)).1.homeApply (maxKey e) wts
      (p.1.mem.newMax e)).1 := by
  have lo := h.min_good
  have hi := h.max_good
  unfold minKey at lo
  unfold maxKey at hi
  simp only [State.widenElem, State.widenOne, lo, hi, Bool.false_eq_true, if_false]
  rfl

theorem State.widenElem_mem (h : p.1.CanWiden e) : (State.widenElem wts p e).1.mem = p.1.mem.widened e := by
  rw [State.widenElem_fst h, State.homeApply_dram_mem _ h.max_lt, State.homeApply_dram_mem _ h.min_lt]
  rfl

theorem State.widenElem_bad (h : p.1.CanWiden e) : (State.widenElem wts p e).1.bad = p.1.bad := by
  rw [State.widenElem_fst h, State.homeApply_dram_bad _ h.max_lt, State.homeApply_dram_bad _ h.min_lt]

/-- No widen spoils the words of a later one, so that memory takes them one after another. -/
theorem State.foldl_widenElem_mem {es : List (Widen × Nat × Nat)} (h : ∀ e ∈ es, p.1.CanWiden e) :
    (es.foldl (State.widenElem wts) p).1.mem = es.foldl Memory.widened p.1.mem := by
  induction es generalizing p with
  | nil => rfl
  | cons e es ih =>
    obtain ⟨now, later⟩ := List.forall_mem_cons.mp h
    have next : ∀ d ∈ es, (State.widenElem wts p e).1.CanWiden d := fun d hd =>
      (later d hd).of_bad_eq (State.widenElem_bad now)
    rw [List.foldl_cons, List.foldl_cons, ih next, State.widenElem_mem now]

theorem State.le_foldl_widenElem (es : List (Widen × Nat × Nat)) : p.2 ≤ (es.foldl (State.widenElem wts) p).2 := by
  induction es generalizing p with
  | nil => exact Nat.le_refl _
  | cons e es ih => exact Nat.le_trans (Nat.le_max_left _ _) (ih (p := State.widenElem wts p e))

end

/-! ### The tick (R262) -/

theorem getAt_map {α β : Type} (f : α → β) (d : α) (m : Store α) (k : Nat) :
    getAt (f d) (m.map fun e => (e.1, f e.2)) k = f (getAt d m k) := by
  induction m with
  | nil => rfl
  | cons e m ih =>
    simp only [List.map_cons, getAt, ih]
    split <;> rfl

/-- A slot as a tick leaves it: the pts of an activation and of its commands have risen by one. -/
def Slot.ticked (x : Slot) : Slot :=
  if x.state = .free then x
  else { x with pts := x.pts + 1, ring := x.ring.map fun r => (r.1, { r.2 with pts := r.2.pts + 1 }) }

/-- The state after a tick, before the next one is due. -/
def State.ticked (s : State) : State :=
  { s with ticks := s.ticks + 1, slots := s.slots.map fun e => (e.1, e.2.ticked) }

theorem State.slot_ticked (s : State) (q : Nat) : s.ticked.slot q = (s.slot q).ticked :=
  getAt_map Slot.ticked Slot.empty s.slots q

theorem execPtsTick_early {s : State} (early : s.cycle < 64 * (s.ticks + 1)) :
    execPtsTick s = .next (s.push .ptsTick) := if_pos early

theorem execPtsTick_due {s : State} (due : 64 * (s.ticks + 1) ≤ s.cycle) :
    execPtsTick s = .next (s.ticked.push .ptsTick) := if_neg (Nat.not_lt.mpr due)

/-! ### The statement -/

/-- Settles O36: the release and the refusals are the branches of their steps; the widens by induction on the elements; the
tick by the function that it maps over the slots. -/
theorem releasesRefusalsAndTimeTakeTheirStep : Obligations.ReleasesRefusalsAndTimeTakeTheirStep := by
  refine ⟨fun s r out => ⟨execReleaseComplete_unmet out, execReleaseComplete_performs out,
      fun met cause reason va refused => ?trap⟩,
    fun s tag reason q r found thread => ⟨fun serial store noAbort noCommand => ?store,
      fun n l serial noAbort acked load => ?load, execAckTimeout_early found, execAckTimeout_late found⟩,
    fun s r readable => ?widen, fun s => ⟨execPtsTick_early, fun due => ?tick⟩⟩
  case trap =>
    have slot := (s.drainThread r.thread).slot_releaseRaised r
    exact ⟨_, _, execReleaseComplete_traps out met refused, congrArg Slot.nak slot,
      (congrArg Slot.relDone slot).trans (Slot.releaseRaised_relDone _ _), State.isOut_notOut _ _ _, rfl,
      List.mem_append_right _ List.mem_cons_self⟩
  case store => exact congrArg _ (State.farRefused_store found thread serial store noAbort noCommand)
  case load => exact congrArg _ (State.farRefused_load found thread serial noAbort acked load)
  case widen =>
    have canWiden : ∀ e ∈ r.elems, s.CanWiden e := fun e he => by
      obtain ⟨lo, hi, _, fits⟩ := readable e he
      exact ⟨lo, hi, Nat.lt_of_lt_of_le (Nat.lt_add_of_pos_right Nat.two_pos) fits⟩
    have bounded := State.le_foldl_widenElem (p := (s, r.wts)) (wts := r.wts) r.elems
    exact ⟨_, _, execSummaryWiden_eq s r, bounded, List.mem_append_right _ List.mem_cons_self,
      State.foldl_widenElem_mem canWiden⟩
  case tick =>
    refine ⟨_, execPtsTick_due due, rfl, rfl, fun q active => ?_⟩
    have slot : (s.ticked.push .ptsTick).slot q = (s.slot q).ticked := s.slot_ticked q
    rw [slot, Slot.ticked, if_neg active]
    exact ⟨rfl, rfl, rfl, rfl⟩

end Sys2Proof.Machine
